-- ==== Sys2Proof/Word.lean ====
section
/-! DEFINITION. The words of the engine: 64-bit little-endian registers (R16), 1,024-bit network words and vector registers (R86, R189),
64-byte scratchpad rows (R91), 112-bit accumulators (R64), and the exact values that the number formats of chapter 2 stand for. -/

namespace Sys2Proof

abbrev Byte := BitVec 8
abbrev Word := BitVec 64
abbrev NetWord := BitVec 1024
abbrev RowData := BitVec 512
abbrev La112 := BitVec 112

/-- A sparse table of plain data: index and value. The lookups and updates are in Machine/Ops.lean. -/
abbrev Table (α : Type) := List (Nat × α)

namespace Machine

/-- The value of a floating-point code: not a number, an infinity, or (-1)^neg * m * 2^e. -/
inductive Val where
  | nan
  | inf (neg : Bool)
  | fin (neg : Bool) (m : Nat) (e : Int)
  deriving DecidableEq, Repr

/-- A floating-point format (R61): code width, mantissa bits, the exponent of its least subnormal, its largest finite magnitude code,
whether the next code is an infinity, and the magnitude code of the canonical NaN (R162, R167). -/
structure FFmt where
  w : Nat
  mb : Nat
  emin : Int
  maxCode : Nat
  hasInf : Bool
  nanCode : Nat
  deriving DecidableEq, Repr

/-- FP32. -/
def fp32 : FFmt := ⟨32, 23, -149, 0x7F7FFFFF, true, 0x7FC00000⟩
/-- BF16. -/
def bf16 : FFmt := ⟨16, 7, -133, 0x7F7F, true, 0x7FC0⟩
/-- FP16. -/
def fp16 : FFmt := ⟨16, 10, -24, 0x7BFF, true, 0x7E00⟩
/-- OFP8 E4M3: no infinity; S.1111.111 is the NaN. -/
def e4m3 : FFmt := ⟨8, 3, -9, 0x7E, false, 0x7F⟩
/-- OFP8 E5M2. -/
def e5m2 : FFmt := ⟨8, 2, -16, 0x7B, true, 0x7E⟩

/-- The lane types of the vector unit (R160). -/
inductive LaneTy where | fp32 | bf16 | fp16 | i32 | i16 | i8
  deriving DecidableEq, Repr

end Machine

end Sys2Proof
end

