-- ==== Sys2Proof/Messages.lean ====
section
/-! DEFINITION. The operands of the commands: the instruction formats of the four slots with their reserved fields (R124, R141, R153,
R160, R170, R172), and the packets, frames, requests and readings that reach the engine, in decoded form. -/

namespace Sys2Proof

/-! ## Instruction formats -/

/-- The four slots of a bundle (R118). -/
inductive Slot where | ctl | mx | vec | xfer
  deriving DecidableEq, Repr

/-- Format A: three registers (R124). -/
structure FmtA where
  rd : BitVec 5
  ra : BitVec 5
  rb : BitVec 5
  fn : BitVec 3
  rsv : BitVec 40
  deriving DecidableEq, Repr

/-- Format I: register and 32-bit immediate (R124). -/
structure FmtI where
  rd : BitVec 5
  ra : BitVec 5
  imm : BitVec 32
  rsv : BitVec 16
  deriving DecidableEq, Repr

/-- Format W: wide immediate (R124). -/
structure FmtW where
  rd : BitVec 5
  rsv : BitVec 4
  h : BitVec 1
  imm : BitVec 48
  deriving DecidableEq, Repr

/-- Format J: sequencing (R124). -/
structure FmtJ where
  cond : BitVec 3
  rsv1 : BitVec 2
  ra : BitVec 5
  imm : BitVec 16
  rsv2 : BitVec 20
  target : BitVec 12
  deriving DecidableEq, Repr

/-- Format V: register file moves (R124). -/
structure FmtV where
  rs : BitVec 5
  vm : BitVec 5
  lane : BitVec 4
  fn : BitVec 4
  rsv : BitVec 40
  deriving DecidableEq, Repr

/-- The transfer format (R141). -/
structure FmtX where
  reg : BitVec 5
  fn : BitVec 3
  rsv : BitVec 50
  deriving DecidableEq, Repr

/-- The MM4 format (R153). -/
structure FmtMM where
  sw : BitVec 5
  sx : BitVec 5
  wf : BitVec 3
  xf : BitVec 1
  clr : BitVec 1
  nr : BitVec 3
  nb : BitVec 12
  rsv : BitVec 28
  deriving DecidableEq, Repr

/-- The MM8 and MMBF format (R153). -/
structure FmtM8 where
  sw : BitVec 5
  sx : BitVec 5
  wf : BitVec 2
  xf : BitVec 2
  clr : BitVec 1
  nr : BitVec 3
  nb : BitVec 12
  s : BitVec 1
  rsv : BitVec 27
  deriving DecidableEq, Repr

/-- The MCLR format (R153). -/
structure FmtMC where
  rm : BitVec 8
  rsv : BitVec 50
  deriving DecidableEq, Repr

/-- The MDRAIN format (R153). -/
structure FmtMD where
  vd : BitVec 5
  st : BitVec 5
  m0 : BitVec 3
  fmt : BitVec 3
  y : BitVec 1
  z : BitVec 1
  rsv : BitVec 40
  deriving DecidableEq, Repr

/-- The MGET, MPUT and MCNT format (R153). -/
structure FmtMG where
  r : BitVec 5
  a : BitVec 7
  f : BitVec 1
  rsv : BitVec 45
  deriving DecidableEq, Repr

/-- VR: the register format of the vector slot (R160). -/
structure FmtVR where
  vd : BitVec 5
  va : BitVec 5
  vb : BitVec 5
  msk : BitVec 3
  ty : BitVec 3
  fn : BitVec 5
  sa : BitVec 5
  h : BitVec 2
  rsv : BitVec 25
  deriving DecidableEq, Repr

/-- VM: the memory format of the vector slot (R160). -/
structure FmtVM where
  v : BitVec 5
  sa : BitVec 5
  off : BitVec 17
  hh : BitVec 2
  rsv : BitVec 29
  deriving DecidableEq, Repr

/-- VQ: quantise and dequantise (R170). -/
structure FmtVQ where
  vd : BitVec 5
  va : BitVec 5
  vs : BitVec 5
  idx : BitVec 4
  tf : BitVec 3
  bpos : BitVec 3
  l : BitVec 1
  sr : BitVec 1
  sg : BitVec 5
  sstep : BitVec 5
  sidx : BitVec 5
  rsv : BitVec 16
  deriving DecidableEq, Repr

/-- CDOT (R172). -/
structure FmtCD where
  vx : BitVec 5
  sv : BitVec 5
  g : BitVec 2
  z : BitVec 1
  uf : BitVec 1
  ni : BitVec 9
  rsv : BitVec 35
  deriving DecidableEq, Repr

/-- CUP (R172). -/
structure FmtCU where
  vt : BitVec 5
  su : BitVec 5
  g : BitVec 2
  uf : BitVec 1
  rk : BitVec 2
  rsv : BitVec 43
  deriving DecidableEq, Repr

/-- CSCL (R172). -/
structure FmtCS where
  vd : BitVec 5
  vc : BitVec 5
  g : BitVec 2
  rsv : BitVec 46
  deriving DecidableEq, Repr

/-- CADD (R172). -/
structure FmtCA where
  ga : BitVec 2
  gb : BitVec 2
  rsv : BitVec 54
  deriving DecidableEq, Repr

/-- CMOV (R172). -/
structure FmtCM where
  v : BitVec 5
  g : BitVec 2
  dir : BitVec 1
  rsv : BitVec 50
  deriving DecidableEq, Repr

/-! ## Register accesses -/

/-- Who accesses a register: the host through PCIe port p (R508), or a management core m (R463), or a management session
that reaches CORE_ and NET_ registers (R115, R280), named by its session handle. -/
inductive Agent where
  | host (port : Nat)
  | mc (m : Nat)
  | session (handle : BitVec 32)
  deriving DecidableEq, Repr

/-! ## Ledger and host inputs -/

/-- What the engine reads by DMA for one ledger entry: the 64 entry bytes, and the host data the entry names, both copied at
the fetch (R321); data is none where that read failed (R322). -/
structure LedgerFetch where
  entry : List Byte
  data : Option (List Byte)
  deriving DecidableEq, Repr

/-- One enabled queue pair as the engine reads it at a tick boundary (R321, R322). idx is the index block's
(LEDGER_PI, LEDGER_CI, EMIT_PI, EMIT_CI), or none when its DMA read failed; each entry is none where its read failed. written: the last emission
entries that a partner wrote, which are read when its queue pair is adopted (R349). -/
structure QpRead where
  qp : Nat
  idx : Option (Nat × Nat × Nat × Nat)
  entries : List (Option LedgerFetch)
  written : List (List Byte)
  deriving DecidableEq, Repr

/-- What reaches the engine from outside at one tick boundary: the DMA reads of the queue pairs, and the tiles, as (field, row, column), that the
self-test of a waking field finds dead (R426). -/
structure TickInputs where
  reads : List QpRead
  bist : List (Nat × Nat × Nat)
  deriving DecidableEq, Repr

/-! ## Networks -/

/-- What one physical lane of the link behind a port received in a cycle (R189): valid bit, data bits and check code. -/
structure LaneBits where
  port : Nat
  lane : Nat
  v : Bool
  data : BitVec 128
  crc : BitVec 8
  deriving DecidableEq, Repr

/-- A word that a rim block drives inward on the rim link behind a port (R188, R205): the class of its slot, the block within the class, the region
whose traffic it is, and the word. -/
structure RimWord where
  port : Nat
  cls : Nat
  block : Nat
  region : Nat
  word : NetWord
  deriving DecidableEq, Repr

/-- What enters one tile's routers from outside in one cycle: the lanes that received other bits than were sent (R202), the words that rim blocks
drive inward (R205), and, for control outputs, the bits that flipped on the wire: 32 of the flit and 4 of its parity (R217). Ports: 0 N, 1 E,
2 S, 3 W. -/
structure RouterIn where
  lanes : List LaneBits
  rim : List RimWord
  ctl : List (Nat × BitVec 36)
  deriving DecidableEq, Repr

/-- A heartbeat as the lantern receives it (R110, R212). -/
structure Hb where
  core : Nat
  tick : BitVec 8
  done : Bool
  fault : Bool
  abort : Bool
  tag : BitVec 8
  deriving DecidableEq, Repr

/-- One entry of a field summary (R214). -/
structure SumEntry where
  core : Nat
  tag : BitVec 8
  done : Bool
  fault : Bool
  abort : Bool
  missed : Bool
  deriving DecidableEq, Repr

/-- One packet of a field summary as the Keep receives it (R214); count: the entries in the field's whole summary. -/
structure Summary where
  field : Nat
  tick : BitVec 16
  count : Nat
  last : Bool
  allField : Bool
  doneAll : Bool
  faultAny : Bool
  abortAny : Bool
  entries : List SumEntry
  deriving DecidableEq, Repr

/-- A packet of the control network (R211): TYPE, priority, LEN, destination, source, TAG and payload flits. -/
structure CtlPacket where
  type : BitVec 4
  pri : BitVec 2
  len : BitVec 4
  rsv : BitVec 6
  dest : BitVec 16
  src : BitVec 16
  tag : BitVec 16
  flits : List (BitVec 32)
  deriving DecidableEq, Repr

/-- A load header (R264). -/
structure LoadHdr where
  seq : BitVec 16
  odd : Bool
  n : Nat
  dest : BitVec 17
  kind : BitVec 4
  rsvZero : Bool
  deriving DecidableEq, Repr

/-! ## Fabric -/

/-- The Gorla header (R389), fields in decoded form. -/
structure GHdr where
  ver : BitVec 4
  op : BitVec 4
  last : Bool
  auth : Bool
  ece : Bool
  retx : Bool
  fwd : Bool
  tc : BitVec 2
  path : BitVec 8
  dst : BitVec 16
  src : BitVec 16
  psn : BitVec 32
  msg : BitVec 32
  seg : BitVec 16
  len : BitVec 16
  offset : BitVec 48
  tenant : BitVec 8
  mlen : BitVec 32
  deriving DecidableEq, Repr

/-- A Gorla frame as it arrives on a port: header, payload, and whether its AUTH tag verifies under the pair key (R386, R391). -/
structure GFrame where
  port : Nat
  hdr : GHdr
  payload : List Byte
  tagOk : Bool
  hopLimit : Nat
  deriving DecidableEq, Repr

/-- Why a frame is discarded: not one the engine accepts (R386, R405), a Clause 31 PAUSE (R383), a bad or missing tag (R391), a bad FCS, or an
uncorrectable FEC codeword. -/
inductive DropCause where
  | frame
  | pause
  | auth
  | fcs
  | fec
  deriving DecidableEq, Repr

/-- An offer (R357). sigOk: the signature verifies over the offer under the offered identity public key. -/
structure OfferMsg where
  node : BitVec 16
  pubKey : List Byte
  order : Nat
  boot : Nat
  family : List Byte
  owned : Nat
  role : BitVec 1
  carrying : Bool
  nonce : Nat
  planBytes : Nat
  sigOk : Bool
  deriving DecidableEq, Repr

/-- A key-exchange message (R391). sigOk: signed with the sender's identity key; shared: the X448 shared secret it gives. -/
structure KeyxMsg where
  sigOk : Bool
  shared : List Byte
  deriving DecidableEq, Repr

/-- A twin heartbeat (R366). -/
structure TwinHb where
  role : BitVec 1
  state : BitVec 4
  ackedJsn : Nat
  writtenJsn : Nat
  tick : BitVec 32
  intervalNs : Nat
  keepOk : Bool
  handover : Bool
  plannedRestart : Bool
  ringFull : Bool
  deriving DecidableEq, Repr

/-- A journal record (R361). checkOk: its CRC-32C verifies. -/
structure JRec where
  type : BitVec 8
  last : Bool
  handle : BitVec 32
  jsn : Nat
  hall : Nat
  qp : Nat
  version : BitVec 16
  body : List Byte
  checkOk : Bool
  deriving DecidableEq, Repr

/-- One entry of an ACK payload (R401). -/
inductive AckEntry where
  | path (p : Nat) (psn : BitVec 32)
  | complete (msg : BitVec 32)
  deriving DecidableEq, Repr

/-- An acknowledgement frame (R401); jsn: the highest JSN it acknowledges when it comes from the twin's journal (R362). -/
structure AckMsg where
  src : BitVec 16
  ece : Bool
  entries : List AckEntry
  jsn : Option Nat
  deriving DecidableEq, Repr

/-- A negative acknowledgement (R401): code, and for SEG the message and its missing segments, for PSN the path and the expected
PSN. -/
structure NakMsg where
  src : BitVec 16
  code : BitVec 8
  msg : BitVec 32
  missing : List Nat
  path : Nat
  psn : BitVec 32
  jsn : Option Nat
  deriving DecidableEq, Repr

/-- FENCE and FENCE_ACK (R389, R391): the target's boot count and the fence number; tagOk: authenticated with the pair key. -/
structure FenceMsg where
  src : BitVec 16
  boot : Nat
  num : Nat
  tagOk : Bool
  port : Nat
  deriving DecidableEq, Repr

/-- A HELLO (R392) with the port it arrived on and the sender's node ID and MAC. -/
structure HelloMsg where
  port : Nat
  node : BitVec 16
  kind : BitVec 8
  peerPort : BitVec 8
  provisional : Bool
  forwards : Bool
  portsUp : BitVec 64
  keyFp : List Byte
  boot : Nat
  neighbours : List (BitVec 16)
  mac : BitVec 48
  unicast : Bool
  deriving DecidableEq, Repr

/-- A PTP message in effect (R406, R407): the offset from the parent in ns, the parent's dataset and whether the best-master
comparison selects it. -/
structure PtpMsg where
  port : Nat
  domain : BitVec 8
  offsetNs : Int
  steps : BitVec 4
  traceable : Bool
  better : Bool
  deriving DecidableEq, Repr

/-! ## Casks -/

/-- A master whose digest the scrub finds wrong (R304), by its key. -/
structure ScrubFind where
  plan : Nat
  target : Nat
  version : Nat
  deriving DecidableEq, Repr

/-! ## Keep -/

/-- A mailbox request as it arrives (R470, R472): channel 0 and 1 host ports, 2 management port, 3 UART, 4 fabric (R506). frameLen
is REQ_LEN or the datagram or frame length; mac is the 16-byte tag of R507 where the channel carries one. -/
structure Req where
  chan : Nat
  cmd : BitVec 16
  len : Nat
  frameLen : Nat
  tag : BitVec 32
  session : BitVec 32
  body : List Byte
  mac : List Byte
  node : BitVec 16
  deriving DecidableEq, Repr

/-- A management message over MCTP (R352): port, source endpoint, and the arguments of the request without the framing of its standard: an endpoint
ID; the hashes offered (0 SHA-384, 1 SHA3-512); slot, 2-byte offset and 2-byte length; slot and nonce; measurement index, 0xFF for all, and
nonce; PLDM type (0 base, else monitoring); 2-byte sensor number; message type (0 MCTP control, 1 SPDM, else PLDM). -/
structure MctpMsg where
  port : Nat
  eid : BitVec 8
  body : List Byte
  deriving DecidableEq, Repr

/-- What a PMBus poll returns (R415): busbar in 10 mV, rail power in W, 3.3 V supply in mV, sensed VCORE of each quadrant in mV, forecast
frames missed and ticks with saturated phases since the last poll (R419), STATUS_WORD. -/
structure PmbusReading where
  busbar10mV : Nat
  powerW : Nat
  aux33mV : Nat
  vcore : List Nat
  missed : Nat
  saturated : Nat
  status : BitVec 16
  deriving DecidableEq, Repr

/-- One channel sample (R444, R446): the raw value in the unit of CHAN_VAL, the fault condition seen (0 none, 2 OPEN, 3 SHORT,
4 REVERSED), and whether the reading lies outside the sensor's span. -/
structure ChanSample where
  chan : Nat
  value : Int
  cond : Nat
  outOfSpan : Bool
  deriving DecidableEq, Repr

/-- The temperatures of one reading, in units of 0.25 °C (R448, R461): the four junction sensors of each field and rim segment, and each
stack. -/
structure TempReading where
  fields : List (List Int)
  rims : List (List Int)
  hbm : List Int
  deriving DecidableEq, Repr

/-- What one start phase finds (R491, R493–R503): each phase reads only the inputs its work names. -/
structure PhaseResult where
  flash0 : Bool
  flash1 : Bool
  recordOk : Bool
  identityOk : Bool
  pufOk : Bool
  activeOk : Bool
  fallbackOk : Bool
  settingsOk : Bool
  mapOkFirst : Bool
  mapOkSecond : Bool
  badOverlay : List Nat
  railsReady : Bool
  deadTiles : List (Nat × Nat × Nat)
  stackGib : BitVec 8
  deriving DecidableEq, Repr

end Sys2Proof
end

