-- ==== Sys2Proof/Syntax.lean ====
section
/-! DEFINITION. The commands of the engine: one constructor for each row of the command table, in the table's order. The docstring of a
constructor names its rule and says what the row does. A command of the core instruction set names the core that issues it and carries
the fields of its slot word (R118, R124); an event carries what the engine reads from outside at that event. -/

namespace Sys2Proof

/-- The commands. -/
inductive Instr where
  /-- TICK_BOUNDARY (R183). At the end of each tick the engine runs its ordered boundary actions before cycle 0 of the next tick. -/
  | tickBoundary (i : TickInputs)
  /-- TWIN_HEARTBEAT_TIMER (R366). When 80 µs pass since the last twin heartbeat, another is sent. -/
  | twinHeartbeatTimer
  /-- NOP (R119). The NOP opcode of any slot does nothing. -/
  | nop (c : Nat) (sl : Slot) (rsv : BitVec 58)
  /-- BR (R128). Conditional branch taking effect after two delay bundles and popping loops that do not contain the target. -/
  | br (c : Nat) (f : FmtJ)
  /-- CALL (R128). Pushes pc + 3 on the four-entry call stack and branches after two delay bundles. -/
  | call (c : Nat) (f : FmtJ)
  /-- RET (R128). Pops the call stack and branches to the popped address after two delay bundles. -/
  | ret (c : Nat) (f : FmtJ)
  /-- LOOP (R129). Opens a counted loop over the following bundles up to the target, with no loop overhead. -/
  | loop (c : Nat) (f : FmtJ)
  /-- TWAIT (R131). Ends the core's work for the tick, sets DONE and resumes at the target in cycle 0 of the next tick. -/
  | twait (c : Nat) (f : FmtJ)
  /-- IDLE (R132). Issues its bundle and then leaves imm16 cycles empty. -/
  | idle (c : Nat) (f : FmtJ)
  /-- BEAT (R135). Sets the 8-bit tag carried in the next heartbeat. -/
  | beat (c : Nat) (f : FmtJ)
  /-- STAT (R134). Returns a layout-independent status item into a scalar register. -/
  | stat (c : Nat) (f : FmtA)
  /-- MSEND (R137). Sends a scalar word to the mailbox of a core of the region or to the unit mailbox. -/
  | msend (c : Nat) (f : FmtA)
  /-- MRECV (R139). Pops the oldest inbox word and its sender into a register pair. -/
  | mrecv (c : Nat) (f : FmtA)
  /-- TRAP (R136). With a true condition records EV_TRAP and stops the region FAULTED without replay. -/
  | trap (c : Nat) (f : FmtJ)
  /-- ADD (R125). 64-bit scalar addition. -/
  | add (c : Nat) (f : FmtA)
  /-- SUB (R125). 64-bit scalar subtraction. -/
  | sub (c : Nat) (f : FmtA)
  /-- MUL (R125). Low 64 bits of a scalar product. -/
  | mul (c : Nat) (f : FmtA)
  /-- AND (R125). Scalar bitwise AND. -/
  | and (c : Nat) (f : FmtA)
  /-- OR (R125). Scalar bitwise OR. -/
  | or (c : Nat) (f : FmtA)
  /-- XOR (R125). Scalar bitwise XOR. -/
  | xor (c : Nat) (f : FmtA)
  /-- SHIFT (R125). Scalar logical or arithmetic shift chosen by fn. -/
  | shift (c : Nat) (f : FmtA)
  /-- CMP (R125). Writes 1 or 0 according to the relation chosen by fn. -/
  | cmp (c : Nat) (f : FmtA)
  /-- ADDI (R125). Adds a sign-extended 32-bit immediate to a scalar register. -/
  | addi (c : Nat) (f : FmtI)
  /-- LI (R125). Loads a sign-extended 48-bit immediate, optionally shifted by 16. -/
  | li (c : Nat) (f : FmtW)
  /-- LANE (R126). Moves one 64-bit lane between a vector register and a scalar register. -/
  | lane (c : Nat) (f : FmtV)
  /-- MOVR (R125). Moves between a mask register and a scalar register. -/
  | movr (c : Nat) (f : FmtV)
  /-- SEND (R143). Hands a vector register to the core's router. -/
  | send (c : Nat) (f : FmtX)
  /-- RECV (R144). Takes the word delivered this cycle into a vector register, or zeros with EV_XFER_SLOT if none was delivered. -/
  | recv (c : Nat) (f : FmtX)
  /-- SENDA (R141). Sends a group of eight accumulators, optionally clearing them and their block counts. -/
  | senda (c : Nat) (f : FmtX)
  /-- RECVA (R142). Writes or adds a received word into a group of eight accumulators. -/
  | recva (c : Nat) (f : FmtX)
  /-- SENDC (R141). Sends a group of 32 ca registers. -/
  | sendc (c : Nat) (f : FmtX)
  /-- RECVC (R141). Writes a received word into a group of 32 ca registers. -/
  | recvc (c : Nat) (f : FmtX)
  /-- SENDS (R141). Sends a group of 16 scalar registers. -/
  | sends (c : Nat) (f : FmtX)
  /-- RECVS (R141). Writes a received word into a group of 16 scalar registers. -/
  | recvs (c : Nat) (f : FmtX)
  /-- MM4 (R155). Exact 4-bit-class product of weight and activation streams into the accumulator tile. -/
  | mm4 (c : Nat) (f : FmtMM)
  /-- MM8 (R155). Eight-bit product with per-product rounding into the accumulator tile. -/
  | mm8 (c : Nat) (f : FmtM8)
  /-- MMBF (R155). BF16 product with per-product rounding into the accumulator tile. -/
  | mmbf (c : Nat) (f : FmtM8)
  /-- MCLR (R158). Clears the masked accumulator rows and opens a drain group when the mask is all rows. -/
  | mclr (c : Nat) (f : FmtMC)
  /-- MDRAIN (R159). Rounds accumulator rows once, with tensor scale and correction, into a vector register. -/
  | mdrain (c : Nat) (f : FmtMD)
  /-- MGET (R154). Copies eight accumulators in transfer form to a vector register, optionally clearing them. -/
  | mget (c : Nat) (f : FmtMG)
  /-- MPUT (R154). Writes or adds vector lanes into eight accumulators. -/
  | mput (c : Nat) (f : FmtMG)
  /-- MCNT (R154). Reads an accumulator's block count into a scalar register. -/
  | mcnt (c : Nat) (f : FmtMG)
  /-- VLD (R164). Loads one or two scratchpad rows into a vector register. -/
  | vld (c : Nat) (f : FmtVM)
  /-- VST (R164). Stores one or two halves of a vector register to scratchpad rows. -/
  | vst (c : Nat) (f : FmtVM)
  /-- VMOV (R163). Copies a vector register. -/
  | vmov (c : Nat) (f : FmtVR)
  /-- VBCST (R163). Broadcasts a scalar to every lane. -/
  | vbcst (c : Nat) (f : FmtVR)
  /-- VIOTA (R163). Writes a scalar plus the lane index into each integer lane. -/
  | viota (c : Nat) (f : FmtVR)
  /-- VPERM (R163). Permutes lanes by an index vector. -/
  | vperm (c : Nat) (f : FmtVR)
  /-- VLOG (R163). Bitwise logic over all 1,024 bits. -/
  | vlog (c : Nat) (f : FmtVR)
  /-- VADD (R162). Lane-wise addition. -/
  | vadd (c : Nat) (f : FmtVR)
  /-- VSUB (R162). Lane-wise subtraction. -/
  | vsub (c : Nat) (f : FmtVR)
  /-- VMUL (R162). Lane-wise multiplication. -/
  | vmul (c : Nat) (f : FmtVR)
  /-- VFMA (R162). Lane-wise fused multiply-add with one rounding. -/
  | vfma (c : Nat) (f : FmtVR)
  /-- VMAX (R163). Lane-wise maximum or minimum. -/
  | vmax (c : Nat) (f : FmtVR)
  /-- VCMP (R166). Writes a mask register from a lane-wise relation. -/
  | vcmp (c : Nat) (f : FmtVR)
  /-- VSEL (R163). Selects lanes from two registers by a mask. -/
  | vsel (c : Nat) (f : FmtVR)
  /-- VCVT (R167). Converts lanes to another format. -/
  | vcvt (c : Nat) (f : FmtVR)
  /-- VRED (R165). Reduces lane segments on a fixed binary tree. -/
  | vred (c : Nat) (f : FmtVR)
  /-- VFUN (R168). Computes a correctly rounded function on the function pipeline. -/
  | vfun (c : Nat) (f : FmtVR)
  /-- VQNT (R170). Quantises one or two blocks of FP32 input into codes and a BS8 scale. -/
  | vqnt (c : Nat) (f : FmtVQ)
  /-- VDQ (R171). Dequantises codes and scales into FP32 lanes. -/
  | vdq (c : Nat) (f : FmtVQ)
  /-- VSMX (R169). Guarded exponential of a difference for softmax. -/
  | vsmx (c : Nat) (f : FmtVR)
  /-- VSNRM (R169). Guarded division for softmax normalisation, optionally counting empty rows. -/
  | vsnrm (c : Nat) (f : FmtVR)
  /-- VLSE (R169). Adds the natural logarithm of one operand to the other. -/
  | vlse (c : Nat) (f : FmtVR)
  /-- VNRM (R163). Triple product with one rounding. -/
  | vnrm (c : Nat) (f : FmtVR)
  /-- VSHR (R163). Lane-wise integer shift. -/
  | vshr (c : Nat) (f : FmtVR)
  /-- CDOT (R173). Adds V·x products for a chunk into ca registers in ascending order. -/
  | cdot (c : Nat) (f : FmtCD)
  /-- CADD (R172). Adds one ca group into another with one rounding. -/
  | cadd (c : Nat) (f : FmtCA)
  /-- CSCL (R172). Scales a ca group by vector lanes into a vector register. -/
  | cscl (c : Nat) (f : FmtCS)
  /-- CUP (R174). Forms the correction outputs from U and t' into ca registers. -/
  | cup (c : Nat) (f : FmtCU)
  /-- CMOV (R172). Moves FP32 lanes between a vector register and a ca group. -/
  | cmov (c : Nat) (f : FmtCM)
  /-- TSKIP (R177). Exempts the next drain group of the tick from tasting. -/
  | tskip (c : Nat) (rsv : BitVec 58)
  /-- RESULT_LANDING (R121). An instruction's result lands in its destination at the end of cycle c + L − 1. -/
  | resultLanding (c : Nat)
  /-- ROUTER_FORWARD (R194). In each scheduled cycle every router output forwards the word on the input its route-program entry selects. -/
  | routerForward (c : Nat) (i : RouterIn)
  /-- INGRESS_WRITE (R206). An ingress word delivered to P7 is written as two rows of the ingress ring and the position advances. -/
  | ingressWrite (c : Nat)
  /-- HELD_ENTRY_LAND (R98). A held ingress write lands in the first later cycle its bank is free, or in a stretch cycle, or is
    discarded with a tick abort. -/
  | heldEntryLand (c : Nat)
  /-- EGRESS_READ (R207). P7 reads two egress-ring rows for a word entering the router, which leaves with V = 0 if a read misses its
    window. -/
  | egressRead (c : Nat)
  /-- HB_SHORT (R212). A clean heartbeat flit reaches the field's lantern. -/
  | hbShort (h : Hb)
  /-- HB_LONG (R212). A heartbeat that is not clean, with its BEAT tag, reaches the field's lantern. -/
  | hbLong (h : Hb)
  /-- LANTERN_SUMMARY_DEADLINE (R214). 256 cycles after the boundary the lantern sends its summary, listing missed cores. -/
  | lanternSummaryDeadline (f : Nat)
  /-- SUMMARY (R214). The Keep receives a field summary and acts on every core listed as not clean or missed. -/
  | summary (m : Summary)
  /-- HEARTBEAT_MISS (R111). A core whose heartbeat does not arrive within 256 cycles is missed, and the Keep reads its CORE_STATUS. -/
  | heartbeatMiss (c : Nat)
  /-- CORE_STATUS_TIMEOUT (R111). No reply to the CORE_STATUS read within 1,024 cycles declares the core dead. -/
  | coreStatusTimeout (c : Nat)
  /-- LANTERN_SILENT (R213). A powered field's lantern silent for three ticks raises EV_FIELD_LOST and the field is lost. -/
  | lanternSilent (f : Nat)
  /-- STOP_PACKET (R148). A core receiving a stop packet completes the tick, sends its heartbeat and issues nothing at the next
    boundary. -/
  | stopPacket (p : CtlPacket)
  /-- REG_RD (R211). A register read request on the control network, answered by REG_RSP. -/
  | regRd (p : CtlPacket)
  /-- REG_WR (R211). A register write request on the control network, answered with its status. -/
  | regWr (p : CtlPacket)
  /-- REG_RSP (R211). A register response reaches the requester. -/
  | regRsp (p : CtlPacket)
  /-- MBOX (R140). A mailbox word reaches the receiving core and waits for the next boundary. -/
  | mboxWord (p : CtlPacket)
  /-- DEBUG (R211). A packet of 32 bytes of a debug row reaches the Keep. -/
  | debugPacket (p : CtlPacket)
  /-- REPORT (R211). A counter snapshot packet reaches the Keep. -/
  | reportPacket (p : CtlPacket)
  /-- ROW_REPAIR (R93). Before the replay the Keep restores a failed row from the cask master or a KV copy, or recovers the region. -/
  | rowRepair (c row : Nat) (mismatch : Bool)
  /-- REGION_REPLAY (R148). The Keep restores the older checkpoint generation in every core of the fate group and resumes them together. -/
  | regionReplay (r : Nat)
  /-- SUBSTITUTION (R539). While the region is stopped a field row is remapped around a dead tile and moved cores take their content. -/
  | substitution (f row col : Nat)
  /-- REGION_RECOVERY (R538). A region that lost volatile rows is swept, restarted and its streams reseated and re-prefilled from the
    cellar. -/
  | regionRecovery (r : Nat)
  /-- PLL_LOCK_LOSS (R44). Loss of a main PLL's lock gates both halves, abandons the tick and restarts at 400 MHz with a replay. -/
  | pllLockLoss (half : Nat)
  /-- CLOCK_RETURN (R45). After the failed main PLL has held lock for 1 s both halves return to the throttle-selected step. -/
  | clockReturn
  /-- REFCLK_LOSS (R523). REFCLK stopping for 1 µs switches to the backup oscillator and falls back as under R44. -/
  | refclkLoss
  /-- REFCLK_RESTORE (R523). REFCLK present for 1 s lets the main PLLs relock. -/
  | refclkRestore
  /-- CLEAR_FALLBACK (R46). Writing 1 to TICK_CLK_STATUS.FALLBACK in an operator session releases the 400 MHz hold. -/
  | clearFallback (a : Agent)
  /-- COMMIT (R20). A write to a block's COMMIT register captures its shadow copy for the next boundary. -/
  | commit (a : Agent) (addr : Nat)
  /-- REGISTER_WRITE (R21). A write to a register without its own row, with FR, EX and session checks field by field. -/
  | registerWrite (a : Agent) (addr width : Nat) (value : Word)
  /-- READ_CLEAR (R18). A read of an RC field returns its value and clears it. -/
  | readClear (a : Agent) (addr width : Nat)
  /-- DEBUG_ROW_GO (R103). Writing GO reads one scratchpad row through P7 into the debug data registers, or returns zeros with BAD. -/
  | debugRowGo (a : Agent) (c row : Nat)
  /-- BIND (R271). Validates a plan for a region and loads its cores and casks, ending BOUND or RUNNING. -/
  | bind (a : Agent) (r plan : Nat) (autorun keepLees : Bool)
  /-- RUN (R268). Runs a bound region from the next boundary. -/
  | regionRun (a : Agent) (r : Nat)
  /-- STOP (R273). Stops a running region, which becomes BOUND with its streams seated. -/
  | regionStop (a : Agent) (r : Nat)
  /-- UNBIND (R274). Unseats the region's streams, detaches the plan and leaves the region HELD with lees. -/
  | unbind (a : Agent) (r : Nat)
  /-- RELEASE (R275). Sweeps the region and returns it to DEFINED. -/
  | release (a : Agent) (r : Nat)
  /-- REBIND (R278). Moves a region to a new plan and possibly a new tenant. -/
  | rebind (a : Agent) (r plan tenant : Nat) (autorun keepLees : Bool)
  /-- HOLD_EXPIRY (R274). A region HELD beyond HOLD_LIMIT is released by the Keep. -/
  | holdExpiry (r : Nat)
  /-- CODE (R264). A load header writes following words as bundles into the instruction store. -/
  | loadCode (c : Nat) (h : LoadHdr) (words : List NetWord) (linkOk : Bool)
  /-- ROUTE (R265). A load header writes following words as route entries into the route store. -/
  | loadRoute (c : Nat) (h : LoadHdr) (words : List NetWord) (linkOk : Bool)
  /-- ROWS (R264). A load header writes following words as scratchpad rows. -/
  | loadRows (c : Nat) (h : LoadHdr) (words : List NetWord) (linkOk : Bool)
  /-- REG (R264). A load header writes a CS register of the core's CORE_ or NET_ block. -/
  | loadReg (c : Nat) (h : LoadHdr) (words : List NetWord) (linkOk : Bool)
  /-- END (R264). A load header marks the core's load complete. -/
  | loadEnd (c : Nat) (h : LoadHdr) (linkOk : Bool)
  /-- SWEEP_COMPLETE (R102). A core's sweep of its scope finishes and LEES clears. -/
  | sweepComplete (c : Nat)
  /-- UNIT_MBOX_WRITE (R284). A write to REG_UNIT_MBOX appends a word to the IN queue or counts IN_LOST. -/
  | unitMboxWrite (a : Agent) (r : Nat) (value : Word)
  /-- UNIT_MBOX_READ (R284). A read of REG_UNIT_MBOX pops the oldest OUT word. -/
  | unitMboxRead (a : Agent) (r : Nat)
  /-- RECLAIM (R283). The pager spills and parks a tenant's streams until PAGES use meets its quota. -/
  | reclaim (a : Agent) (t : Nat)
  /-- STORE_HOST (R296). Reads an image from host memory into cellar staging and enters it in the directory. -/
  | storeHost (a : Agent) (data : Option (List Byte))
  /-- FETCH_HALL (R296). Reads an image from a hall address by Gorla READ and enters it in the directory. -/
  | fetchHall (a : Agent)
  /-- IMAGE_ARRIVAL (R302). A plan or cask image arriving in staging passes the ordered arrival checks or is refused. -/
  | imageArrival (data : List Byte)
  /-- DELETE (R296). Removes a master or plan image not in use. -/
  | caskDelete (a : Agent)
  /-- VERIFY (R296). Scrubs a named master at once and repairs a mismatch. -/
  | caskVerify (a : Agent) (mismatch : Bool)
  /-- CASK_SCRUB (R303). The scrub re-hashes masters and resident copies of stopped regions over each SCRUB_PERIOD. -/
  | caskScrub (bad : List ScrubFind) (copies : List Nat)
  /-- LOAD (R307). Loads a successor plan's new cask bank in place while the region is stopped. -/
  | rackLoad (a : Agent) (r plan : Nat)
  /-- FLIP (R308). Makes the successor the bound plan so new seats take the new bank. -/
  | rackFlip (a : Agent) (peerLoaded : Bool)
  /-- ABORT (R307). Abandons a loaded rack, clearing the new bank's entries. -/
  | rackAbort (a : Agent)
  /-- DRAIN_DEADLINE (R309). DRAIN_S after a flip every old-version stream is repinned and re-prefilled. -/
  | drainDeadline (r : Nat)
  /-- QP_ENABLE (R320). Setting EN binds a queue pair, whose index block is read at the next boundary. -/
  | qpEnable (a : Agent) (qp : Nat)
  /-- QP_DISABLE (R320). Clearing EN stops fetching, drops uncommitted entries and ends GENERATEs with HOST_RESET. -/
  | qpDisable (a : Agent) (qp : Nat)
  /-- LEDGER_NOP (R328). The NOP ledger command completes with 0x00 OK. -/
  | ledgerNop (id : Nat)
  /-- OPEN (R331). Takes a slot and returns a new stream handle in state OPEN. -/
  | openStream (id : Nat)
  /-- APPEND (R332). Seats the stream and runs the appended positions as prefill steps. -/
  | append (id : Nat)
  /-- GENERATE (R333). Runs steps and samples up to COUNT tokens. -/
  | generate (id : Nat)
  /-- TRUNCATE (R335). Withholds and removes positions from an index onward and advances the epoch. -/
  | truncate (id : Nat)
  /-- FORK (R336). Creates a child stream sharing the parent's full pages. -/
  | fork (id : Nat)
  /-- PARK (R337). Unseats the stream. -/
  | park (id : Nat)
  /-- RESUME (R337). Seats the stream again. -/
  | resume (id : Nat)
  /-- CLOSE (R338). Discards unreleased tokens, frees the slot and advances the generation. -/
  | closeStream (id : Nat)
  /-- QUERY (R339). Reports a stream's state, version, tier and length at the next boundary. -/
  | query (id : Nat)
  /-- SAMPLE_TOKEN (R342). A sampler receives a position's logits and chooses the token, verifying drafts when speculating. -/
  | sampleToken (h : BitVec 32) (logits : List (List (BitVec 32))) (drafts : List Nat)
  /-- SEATING (R247). The pager fills a stream's pages and tail and the stream becomes seated. -/
  | seating (h : BitVec 32)
  /-- UNSEAT (R248). The pager exports the tail, invalidates entries and frees frames. -/
  | unseat (h : BitVec 32)
  /-- SEAL_CELLAR_WRITE (R246). The pager writes the cellar copy of a sealed block, and the twin's copy when paired. -/
  | sealCellarWrite (h : BitVec 32) (layer block : Nat)
  /-- SPILL (R249). Pages of parked streams move to hall memory by age, mode or the CELLAR_HIGH watermark. -/
  | spill
  /-- REPREFILL (R250). A stream's context is rebuilt from its input log. -/
  | reprefill (h : BitVec 32)
  /-- FLR (R317). A Function Level Reset on a port stops its queue pairs and ends their GENERATEs with HOST_RESET. -/
  | flr (port : Nat)
  /-- PCIE_LINK_DOWN (R317). A link down on a port acts on its queue pairs as an FLR. -/
  | pcieLinkDown (port : Nat) (ide : Bool)
  /-- PERST (R521). Assertion of PERST_N on a port acts as a link down on it. -/
  | perst (port : Nat)
  /-- PAIR_EN_SET (R357). A committed PAIR_EN starts offering pairing. -/
  | pairEnSet
  /-- PAIR_EN_CLEAR (R375). Clearing PAIR_EN while paired performs a planned handover and leaves the engine UNPAIRED. -/
  | pairEnClear
  /-- OFFER_TIMER (R357). An offer is sent on every twin port each millisecond, or each second after a failed check. -/
  | offerTimer
  /-- OFFER (R357). A received peer offer is checked in order and settles roles. -/
  | offer (m : OfferMsg)
  /-- KEYX (R391). A signed key-exchange message forms the pair key. -/
  | keyx (m : KeyxMsg)
  /-- SYNC_COMPLETE (R359). When every stream's mirror has landed both engines enter PAIRED. -/
  | syncComplete
  /-- HEARTBEAT (R366). A twin heartbeat arrives with role, state, acknowledged JSNs and KEEP_OK. -/
  | twinHeartbeat (m : TwinHb)
  /-- TWIN_HEARTBEAT_MISS (R366). A twin heartbeat missing for I + HB_GRACE counts a miss; three declare the twin lost. -/
  | twinHeartbeatMiss
  /-- FENCE_RESEND (R368). A FENCE is sent again every 100 µs until the fence is confirmed. -/
  | fenceResend
  /-- FENCE_CONFIRM (R368). The host writes CONFIRM, confirming the partner is fenced. -/
  | fenceConfirm (a : Agent)
  /-- FENCE_WAIT_EXPIRY (R368). No confirmation within FENCE_WAIT puts the engine in HOLDING. -/
  | fenceWaitExpiry
  /-- HANDOVER (R375). An engine hands all its streams to its twin and stops writing. -/
  | handover
  /-- JOURNAL (R362). The twin receives journal records, writes them to its partner ring and acknowledges them. -/
  | journal (recs : List JRec)
  /-- ACK (R401). An acknowledgement frame advances paths and completes messages, and a journal acknowledgement commits records. -/
  | ack (m : AckMsg)
  /-- NAK (R401). A negative acknowledgement triggers selective retransmission or a retry. -/
  | nak (m : NakMsg)
  /-- FENCE (R369). An authenticated FENCE from the twin stops everything and the engine enters FENCED. -/
  | fence (m : FenceMsg)
  /-- FENCE_ACK (R368). A FENCE_ACK from the partner confirms the fence. -/
  | fenceAck (m : FenceMsg)
  /-- HELLO (R392). A discovery message updates neighbours and detects node-ID conflicts. -/
  | hello (m : HelloMsg)
  /-- WRITE (R390). A one-sided write into an exported window is made durable and acknowledged, or refused by NAK. -/
  | gorlaWrite (m : GFrame)
  /-- READ_REQ (R390). A read request for an exported window is answered by READ_RESP or NAK. -/
  | readReq (m : GFrame)
  /-- READ_RESP (R390). Read data for an earlier request arrives. -/
  | readResp (m : GFrame)
  /-- GORLA_SEND (R395). A SEND from a host or the twin is queued for management firmware or refused with NAK BUSY. -/
  | gorlaSend (m : GFrame)
  /-- NEIGHBOR_SOLICITATION (R386). A Neighbor Solicitation naming an engine address is answered. -/
  | neighborSolicitation (port : Nat) (target : BitVec 128)
  /-- ECHO_REQUEST (R386). An Echo Request naming an engine address is answered. -/
  | echoRequest (port : Nat) (target : BitVec 128)
  /-- PTP_MESSAGE (R406). A PTP message drives the boundary clock and slews hall time. -/
  | ptpMessage (m : PtpMsg)
  /-- DISCARDED_FRAME (R386). A frame that is not accepted is discarded and counted. -/
  | discardedFrame (port : Nat) (why : DropCause)
  /-- PORT_LINK_DOWN (R385). A fabric port's link goes down, closing its paths and raising EV_PORT_DOWN or EV_TWIN_PORT once. -/
  | portLinkDown (port : Nat)
  /-- PORT_LINK_UP (R385). A port's link returns and carries traffic from the next boundary. -/
  | portLinkUp (port : Nat)
  /-- PORT_MODE_CHANGE (R384). A committed port mode applies at a boundary as under link loss. -/
  | portModeChange (port : Nat)
  /-- HELLO_TIMER (R392). Each HELLO_MS a HELLO is sent on every POD or SWITCHED port. -/
  | helloTimer
  /-- REORDER_WAIT_EXPIRY (R400). A message still incomplete after REORDER_WAIT sends a NAK for its missing segments. -/
  | reorderWaitExpiry (msg : Nat)
  /-- RTO_EXPIRY (R400). A path's retransmission timer expires, retransmitting and closing the path after three expiries. -/
  | rtoExpiry (path : Nat)
  /-- PATH_PROBE (R400). A path closed for 100 ms is probed with one segment. -/
  | pathProbe (path : Nat)
  /-- MESSAGE_TIMEOUT (R400). A message fails after RETX_MAX retransmissions or 100 ms. -/
  | messageTimeout (msg : Nat)
  /-- ACK_TIMER (R401). 1 µs after the oldest unacknowledged segment an ACK is sent. -/
  | ackTimer (dst : BitVec 16)
  /-- PTP_PARENT_LOSS (R407). Loss of the PTP parent starts holdover on the reference. -/
  | ptpParentLoss
  /-- HOLDOVER_EXPIRY (R407). After 10 s of holdover hall time is no longer valid. -/
  | holdoverExpiry
  /-- PMBUS_POLL (R415). Every 250 µs the Keep polls the Spire's telemetry. -/
  | pmbusPoll (m : PmbusReading)
  /-- PMB_ALERT (R415). PMB_ALERT_N is answered within 50 µs. -/
  | pmbAlert
  /-- STEP_RAISE_SETTLE (R414). When the raised setpoints have settled the new clock step applies at the next boundary. -/
  | stepRaiseSettle
  /-- SPIRE_FAULT (R432). SPIRE_FAULT_N gates the arithmetic clock and raises EV_SPIRE_FAULT. -/
  | spireFault
  /-- BUTTRESS_FAIL (R420). A failing buttress is isolated, derating or dropping its field by the count of failures. -/
  | buttressFail (f b : Nat)
  /-- DROOP_WARN (R429). A field below the WARN threshold raises EV_DROOP for the tick. -/
  | droopWarn (f mv : Nat)
  /-- DROOP_CRIT (R429). A field below CRIT aborts the tick for every region in it, with extra margin after three in 1 s. -/
  | droopCrit (f mv : Nat)
  /-- DROOP_MARGIN_EXPIRY (R430). After 10 s the extra forecast margin and stretch demand of repeated CRIT droops end. -/
  | droopMarginExpiry (f : Nat)
  /-- VMIN_RST (R428). Restarts every field's recorded minimum VCORE. -/
  | vminRst
  /-- FIELD_SHORT (R431). A field domain short is isolated by its buttresses and the field is lost. -/
  | fieldShort (f : Nat)
  /-- ISOLATION_FAIL (R431). A quadrant VCORE still below 0.55 V 10 µs after isolation asserts ENG_FAULT_N. -/
  | isolationFail (q : Nat)
  /-- SAG_LOCK (R437). A sagging supply locks every non-volatile write. -/
  | sagLock
  /-- SAG_RELEASE (R437). After both supplies stand above release levels for 1 s the flash lock is released and deferred writes proceed. -/
  | sagRelease
  /-- AUX12_FAIL (R438). Loss of AUX12 completes a page program in progress on hold-up and loses SRAM-held entries. -/
  | aux12Fail
  /-- CAP_EVALUATION (R440). Every 10 ms the power cap raises or lowers the stretch demand. -/
  | capEvaluation
  /-- CALIBRATION_REPLACE (R436). After the operating bands hold for 10 s a retrained value replaces a provisional one. -/
  | calibrationReplace (kind item value : Nat)
  /-- HIBERNATE (R425). Setting a PWR_HIB bit ramps a hibernatable field down, or is refused FROZEN. -/
  | hibernate (f : Nat)
  /-- WAKE (R426). Clearing a PWR_HIB bit wakes the field by ramp, self-test and sweep. -/
  | wake (f : Nat)
  /-- ADMIT_WAIT_EXPIRY (R424). After ADMIT_WAIT ticks without a window a switch-on starts and holds steps that do not fit. -/
  | admitWaitExpiry
  /-- CHANNEL_SAMPLE (R444). Every 10 ms the sequencer samples every enabled channel. -/
  | channelSample (cs : List ChanSample)
  /-- TEMP_READ (R448). Every 1 ms the Keep reads the temperature sensors and updates the throttle demand. -/
  | tempRead (m : TempReading)
  /-- THROTTLE_STEP_DOWN (R450). Full stretch for 100 ms with temperature still high lowers the clock one step. -/
  | throttleStepDown
  /-- THROTTLE_STEP_UP (R450). Temperatures 3 K below T0 for 1 s raise the clock one step. -/
  | throttleStepUp
  /-- FLOW_EVALUATION (R451). Every 10 ms the Keep compares flow with its thresholds and applies the flow stages. -/
  | flowEvaluation
  /-- FLOW_STAGE_END (R451). A flow stage ends when its condition has been absent for 60 s. -/
  | flowStageEnd
  /-- FLOW_STOP (R452). A detected flow stop hands over to the twin and gates every field. -/
  | flowStop
  /-- FLOW_RESTORED (R453). Flow at or above FLOW_WARN for 10 s wakes the fields and rebinds the plans. -/
  | flowRestored
  /-- HARD_LIMIT (R454). A temperature at its hard limit for two readings hands over and shuts the engine down. -/
  | hardLimit
  /-- TJ_110 (R454). A junction sensor reaching 110 °C asserts ENG_FAULT_N at once. -/
  | tj110
  /-- LEAK (R455). A wet leak cable raises EV_LEAK and acts by LEAK_ACT. -/
  | leak (cable : Nat)
  /-- DEW_ALARM (R456). Inlet temperature below the dew point plus margin raises EV_DEW. -/
  | dewAlarm
  /-- DEW_LIMIT (R456). Inlet below the dew point for 60 s applies LEAK_ACT. -/
  | dewLimit
  /-- VALVE_PUMP_CONTROL (R457). Every 100 ms the Keep steers VALVE and PUMP. -/
  | valvePumpControl
  /-- THERMAL_CYCLE_COUNT (R458). Once per second thermal half-cycles are detected and counted. -/
  | thermalCycleCount
  /-- CYCLE_LOG_WRITE (R458). Hourly the cycle counts are written to flash. -/
  | cycleLogWrite
  /-- CLAMP_SENSE_OPEN (R535). A clamp sense opening while a rail is on acts as a hard limit. -/
  | clampSenseOpen
  /-- CLAMP_SENSE_CLOSED (R535). Both clamp senses closed lets the start leave its wait in phase RAILS. -/
  | clampSenseClosed
  /-- STACK_LOST (R376). An HBM stack failure makes its masters BAD and refetches its contents from the twin. -/
  | stackLost (st : Nat)
  /-- RIM_LOST (R53). Loss of a rim domain removes the segment's resources and hands over to the twin. -/
  | rimLost (seg : Nat)
  /-- WATCHDOG_STAGE (R466). A watchdog PERIOD lapsing without a kick enters stage 1, then stage 2 with a Keep restart. -/
  | watchdogStage (m : Nat)
  /-- KICK (R466). Core m's kick returns its watchdog to stage 0. -/
  | kick (a : Agent) (m : Nat)
  /-- KEEP_SELFTEST (R467). Each second every management core runs the ROM self-test, and a failing core is held in reset. -/
  | keepSelftest (fails : List Nat)
  /-- SRAM_SCRUB (R468). Every 10 s the Keep scrubs its SRAM, restarting on an uncorrectable error. -/
  | sramScrub (corr : Nat) (uncorr : Bool)
  /-- KEEP_RESTART (R514). An unplanned Keep restart gates the array and then takes over or replays by pairing. -/
  | keepRestart (cause : Nat)
  /-- GO (R471). Writing GO submits the host's mailbox request. -/
  | mboxGo (port : Nat)
  /-- PING (R473). Returns an empty response. -/
  | ping (q : Req)
  /-- INFO (R473). Returns KEEP_ID, KEEP_STATUS and hall time. -/
  | info (q : Req)
  /-- EVENT_READ (R474). Returns event records visible to the session from a sequence number. -/
  | eventRead (q : Req)
  /-- SOURCE_EVENT (R478). An event of a Belfry source adds to PENDING and may make it due and deliverable. -/
  | sourceEvent (src : Nat)
  /-- COALESCE_TIMEOUT (R479). TIME after the first pending event the source becomes due. -/
  | coalesceTimeout (src : Nat)
  /-- CLAIM (R482). A read of BELFRY_CLAIM claims the highest deliverable source for the reader's target. -/
  | belfryClaim (a : Agent)
  /-- COMPLETE (R483). A write to BELFRY_COMPLETE clears a claimed source's ACTIVE bit. -/
  | belfryComplete (a : Agent) (src : Nat)
  /-- FORCE (R488). Writing FORCE raises one event of the source. -/
  | belfryForce (a : Agent) (src : Nat)
  /-- BELFRY_CLOCK_RESTART (R485). When the Belfry clock restarts each latched source adds one pending event. -/
  | belfryClockRestart
  /-- AUX12_RISE (R497). AUX12 rising begins a cold start. -/
  | aux12Rise
  /-- START_PHASE_COMPLETE (R497). A start phase finishes and the next begins, ending at READY, HALTED or the recovery ROM. -/
  | startPhaseComplete (m : PhaseResult)
  /-- FLASH_DISCOVERY_RETRY (R493). In recovery with no flash the ROM repeats flash discovery every 10 s. -/
  | flashDiscoveryRetry (fl0 fl1 : Bool)
  /-- READY_WAIT_EXPIRY (R512). A trial start without READY within READY_WAIT falls back to the previous slot. -/
  | readyWaitExpiry
  /-- KEEP_ONLY (R515). Orders a planned Keep-only restart. -/
  | restartKeepOnly (a : Agent)
  /-- WARM (R515). Orders a warm restart with HBM in self-refresh. -/
  | restartWarm (a : Agent)
  /-- COLD (R515). Orders a cold restart through STANDBY. -/
  | restartCold (a : Agent)
  /-- SESSION_CHALLENGE (R506). Draws a nonce and context for opening a session with a named key. -/
  | sessionChallenge (q : Req)
  /-- SESSION_OPEN (R506). Checks the challenge response and opens a session. -/
  | sessionOpen (q : Req)
  /-- SESSION_CLOSE (R505). Closes the requester's session. -/
  | sessionClose (q : Req)
  /-- SESSION_SELECT (R508). Makes the session govern BAR0 accesses through the carrying port. -/
  | sessionSelect (q : Req)
  /-- SESSION_EXPIRY (R507). A session closes LIFE minutes after it opened. -/
  | sessionExpiry (h : BitVec 32)
  /-- CHALLENGE_LOCKOUT_EXPIRY (R506). A channel refusing challenges after FAIL_LIMIT failures accepts them again after 60 s. -/
  | challengeLockoutExpiry (ch : Nat)
  /-- KEY_SET (R504). Sets an access key, closing sessions opened with it. -/
  | keySet (q : Req)
  /-- KEY_REVOKE (R504). Revokes a tenant key, closing its sessions. -/
  | keyRevoke (q : Req)
  /-- KEY_INIT (R504). Sets the operator key once over the UART. -/
  | keyInit (q : Req)
  /-- OWNER_KEY_SET (R505). Sets or clears an entry of the cask owner key table. -/
  | ownerKeySet (q : Req)
  /-- IDENTITY (R505). Returns the identity public key, fingerprint and certificate chain. -/
  | identity (q : Req)
  /-- SETTINGS_SAVE (R502). Snapshots and signs the live settings into flash. -/
  | settingsSave (q : Req)
  /-- DEFECT_MAP_RESTORE (R498). Writes a Nimhoed-signed factory defect map. -/
  | defectMapRestore (q : Req)
  /-- UPDATE_BEGIN (R510). Checks a new manifest and erases the inactive slot for staging. -/
  | updateBegin (q : Req)
  /-- UPDATE_DATA (R510). Programs component data into the inactive slot. -/
  | updateData (q : Req)
  /-- UPDATE_FETCH (R510). Reads a component from host or hall memory into the slot. -/
  | updateFetch (q : Req) (data : Option (List Byte))
  /-- UPDATE_END (R510). Verifies the staged slot and marks it STAGED. -/
  | updateEnd (q : Req)
  /-- UPDATE_ABORT (R510). Abandons staging and returns to IDLE. -/
  | updateAbort (q : Req)
  /-- ACTIVATE (R511). Writes the boot record for a trial of the staged slot and restarts. -/
  | activate (q : Req)
  /-- CONFIRM (R512). Ends the trial, raising MIN_SVN and releasing the old settings format. -/
  | updateConfirm (q : Req)
  /-- ROLLBACK (R512). During a trial falls back to the previous slot. -/
  | rollback (q : Req)
  /-- SET_ENDPOINT_ID (R352). MCTP control message assigning the endpoint ID. -/
  | setEndpointId (m : MctpMsg)
  /-- GET_ENDPOINT_ID (R352). MCTP control message returning the endpoint ID. -/
  | getEndpointId (m : MctpMsg)
  /-- GET_ENDPOINT_UUID (R352). MCTP control message returning the endpoint UUID. -/
  | getEndpointUuid (m : MctpMsg)
  /-- GET_MCTP_VERSION_SUPPORT (R352). MCTP control message returning supported versions. -/
  | getMctpVersionSupport (m : MctpMsg)
  /-- GET_MESSAGE_TYPE_SUPPORT (R352). MCTP control message returning supported message types. -/
  | getMessageTypeSupport (m : MctpMsg)
  /-- GET_VERSION (R352). SPDM request for supported versions. -/
  | getVersion (m : MctpMsg)
  /-- GET_CAPABILITIES (R352). SPDM request for responder capabilities. -/
  | getCapabilities (m : MctpMsg)
  /-- NEGOTIATE_ALGORITHMS (R352). SPDM request negotiating Ed448 and the hash. -/
  | negotiateAlgorithms (m : MctpMsg)
  /-- GET_DIGESTS (R352). SPDM request for certificate chain digests. -/
  | getDigests (m : MctpMsg)
  /-- GET_CERTIFICATE (R509). SPDM request for the identity certificate chain in slot 0. -/
  | getCertificate (m : MctpMsg)
  /-- CHALLENGE (R509). SPDM challenge signed with the identity key. -/
  | spdmChallenge (m : MctpMsg)
  /-- GET_MEASUREMENTS (R509). SPDM request returning the signed measurements. -/
  | getMeasurements (m : MctpMsg)
  /-- GET_TID (R352). PLDM base request for the terminus ID. -/
  | getTid (m : MctpMsg)
  /-- GET_PLDM_VERSION (R352). PLDM base request for a type's version. -/
  | getPldmVersion (m : MctpMsg)
  /-- GET_PLDM_TYPES (R352). PLDM base request for supported types. -/
  | getPldmTypes (m : MctpMsg)
  /-- GET_PLDM_COMMANDS (R352). PLDM base request for supported commands. -/
  | getPldmCommands (m : MctpMsg)
  /-- GET_PDR_REPOSITORY_INFO (R352). PLDM monitoring request for repository information. -/
  | getPdrRepositoryInfo (m : MctpMsg)
  /-- GET_PDR (R352). PLDM monitoring request for a PDR. -/
  | getPdr (m : MctpMsg)
  /-- GET_SENSOR_READING (R352). PLDM request for a numeric sensor reading. -/
  | getSensorReading (m : MctpMsg)
  /-- GET_STATE_SENSOR_READINGS (R352). PLDM request for state sensor readings. -/
  | getStateSensorReadings (m : MctpMsg)
  /-- SET_EVENT_RECEIVER (R352). PLDM request setting where PlatformEventMessages go. -/
  | setEventReceiver (m : MctpMsg)
  /-- UNSUPPORTED_MESSAGE (R352). Any other management message is answered with its type's unsupported-command completion. -/
  | unsupportedMessage (m : MctpMsg)
  /-- PLL_RELOCK (R45). The failed main PLL's lock indication returns to 1, setting W_LOCK or E_LOCK and starting the one-second count
    before the halves leave fallback. -/
  | pllRelock (half : Nat)
  /-- KEEP_OK_WAIT_EXPIRY (R367). During a planned Keep-only restart the twin declares loss if KEEP_OK has not returned within 2 s. -/
  | keepOkWaitExpiry
  /-- KEEP_RESTART_COMPLETE (R350). A Keep restart ends: state is restored, regions run again, ledger fetching and entry writing resume
    and deferred SPDM or PLDM requests are answered. -/
  | keepRestartComplete
  /-- PCIE_LINK_UP (R499). A PCIe port's link trains up, after start or after a link down or PERST, making BAR0 and the queue pairs
    reachable again. -/
  | pcieLinkUp (port : Nat) (bifurcated bme : Bool) (masked : List Nat) (bar2 : Option Nat)
  /-- MGMT_LINK_CHANGE (R488). The 1000BASE-T management port's link goes up or down, raising source MGMT_LINK. -/
  | mgmtLinkChange (up : Bool)
  /-- NEIGHBOR_ADVERTISEMENT (R387). A Neighbor Advertisement answering the engine's solicitation resolves the gateway's MAC address for
    a SWITCHED port. -/
  | neighborAdvertisement (port : Nat) (target : BitVec 128) (mac : BitVec 48)
  /-- PFC_FRAME (R383). A received 802.1Qbb PFC frame pauses transmission of traffic classes 2 and 3 when PFC_EN is set. -/
  | pfcFrame (port : Nat) (quanta : List (Nat × Nat))
  /-- CTL_TIMEOUT (R464). A Keep access to a CORE_ or NET_ block whose REG_RSP does not arrive within 4 µs takes a load access fault and
    counts CTL_TIMEOUT. -/
  | ctlTimeout (a : Agent) (addr : Nat)
  /-- BELFRY_CLOCK_STOP (R485). The Belfry clock stops when every running management core waits in WFI with DEEP_IDLE set, and edge
    latches take over. -/
  | belfryClockStop
  /-- SPIRE_PRESENCE (R528). SPIRE_PRES_N going low lets the Keep switch on rails in phase RAILS. -/
  | spirePresence (low : Bool)
  /-- BUSBAR_RETURN (R439). The busbar returning to an engine in STANDBY ends STANDBY with a full start. -/
  | busbarReturn
  deriving DecidableEq, Repr

end Sys2Proof
end

