-- ==== Sys2Proof/Decode.lean ====
section
/-! DEFINITION. The words of a bundle's slots (R118, R119, R124, R141, R153, R160, R170, R172): the decoder of one slot word, which the
sequencer's own issue uses, its encoder, and the reading of an opcode-table word. The table gives no row any bits. -/

namespace Sys2Proof

/-! ## Fields -/

/-- The opcode of a slot word (R119). -/
def opcodeOf (w : BitVec 64) : Nat := (w.extractLsb' 58 6).toNat

def readA (w : BitVec 64) : FmtA :=
  ⟨w.extractLsb' 53 5, w.extractLsb' 48 5, w.extractLsb' 43 5, w.extractLsb' 40 3, w.extractLsb' 0 40⟩
def readI (w : BitVec 64) : FmtI := ⟨w.extractLsb' 53 5, w.extractLsb' 48 5, w.extractLsb' 16 32, w.extractLsb' 0 16⟩
def readW (w : BitVec 64) : FmtW := ⟨w.extractLsb' 53 5, w.extractLsb' 49 4, w.extractLsb' 48 1, w.extractLsb' 0 48⟩
def readJ (w : BitVec 64) : FmtJ :=
  ⟨w.extractLsb' 55 3, w.extractLsb' 53 2, w.extractLsb' 48 5, w.extractLsb' 32 16, w.extractLsb' 12 20, w.extractLsb' 0 12⟩
def readV (w : BitVec 64) : FmtV :=
  ⟨w.extractLsb' 53 5, w.extractLsb' 48 5, w.extractLsb' 44 4, w.extractLsb' 40 4, w.extractLsb' 0 40⟩
def readX (w : BitVec 64) : FmtX := ⟨w.extractLsb' 53 5, w.extractLsb' 50 3, w.extractLsb' 0 50⟩
def readMM (w : BitVec 64) : FmtMM :=
  ⟨w.extractLsb' 53 5, w.extractLsb' 48 5, w.extractLsb' 45 3, w.extractLsb' 44 1, w.extractLsb' 43 1, w.extractLsb' 40 3,
    w.extractLsb' 28 12, w.extractLsb' 0 28⟩
def readM8 (w : BitVec 64) : FmtM8 :=
  ⟨w.extractLsb' 53 5, w.extractLsb' 48 5, w.extractLsb' 46 2, w.extractLsb' 44 2, w.extractLsb' 43 1, w.extractLsb' 40 3,
    w.extractLsb' 28 12, w.extractLsb' 27 1, w.extractLsb' 0 27⟩
def readMC (w : BitVec 64) : FmtMC := ⟨w.extractLsb' 50 8, w.extractLsb' 0 50⟩
def readMD (w : BitVec 64) : FmtMD :=
  ⟨w.extractLsb' 53 5, w.extractLsb' 48 5, w.extractLsb' 45 3, w.extractLsb' 42 3, w.extractLsb' 41 1, w.extractLsb' 40 1,
    w.extractLsb' 0 40⟩
def readMG (w : BitVec 64) : FmtMG := ⟨w.extractLsb' 53 5, w.extractLsb' 46 7, w.extractLsb' 45 1, w.extractLsb' 0 45⟩
def readVR (w : BitVec 64) : FmtVR :=
  ⟨w.extractLsb' 53 5, w.extractLsb' 48 5, w.extractLsb' 43 5, w.extractLsb' 40 3, w.extractLsb' 37 3, w.extractLsb' 32 5,
    w.extractLsb' 27 5, w.extractLsb' 25 2, w.extractLsb' 0 25⟩
def readVM (w : BitVec 64) : FmtVM :=
  ⟨w.extractLsb' 53 5, w.extractLsb' 48 5, w.extractLsb' 31 17, w.extractLsb' 29 2, w.extractLsb' 0 29⟩
def readVQ (w : BitVec 64) : FmtVQ :=
  ⟨w.extractLsb' 53 5, w.extractLsb' 48 5, w.extractLsb' 43 5, w.extractLsb' 39 4, w.extractLsb' 36 3, w.extractLsb' 33 3,
    w.extractLsb' 32 1, w.extractLsb' 31 1, w.extractLsb' 26 5, w.extractLsb' 21 5, w.extractLsb' 16 5, w.extractLsb' 0 16⟩
def readCD (w : BitVec 64) : FmtCD :=
  ⟨w.extractLsb' 53 5, w.extractLsb' 48 5, w.extractLsb' 46 2, w.extractLsb' 45 1, w.extractLsb' 44 1, w.extractLsb' 35 9,
    w.extractLsb' 0 35⟩
def readCU (w : BitVec 64) : FmtCU :=
  ⟨w.extractLsb' 53 5, w.extractLsb' 48 5, w.extractLsb' 46 2, w.extractLsb' 45 1, w.extractLsb' 43 2, w.extractLsb' 0 43⟩
def readCS (w : BitVec 64) : FmtCS := ⟨w.extractLsb' 53 5, w.extractLsb' 48 5, w.extractLsb' 46 2, w.extractLsb' 0 46⟩
def readCA (w : BitVec 64) : FmtCA := ⟨w.extractLsb' 56 2, w.extractLsb' 54 2, w.extractLsb' 0 54⟩
def readCM (w : BitVec 64) : FmtCM := ⟨w.extractLsb' 53 5, w.extractLsb' 51 2, w.extractLsb' 50 1, w.extractLsb' 0 50⟩
def readN (w : BitVec 64) : BitVec 58 := w.extractLsb' 0 58

/-! ## The decoder -/

/-- A control/scalar slot word (R125). -/
def decodeCtl (c : Nat) (w : BitVec 64) : Option Instr :=
  match opcodeOf w with
  | 0x00 => some (.nop c .ctl (readN w))
  | 0x01 => some (.br c (readJ w))
  | 0x02 => some (.call c (readJ w))
  | 0x03 => some (.ret c (readJ w))
  | 0x04 => some (.loop c (readJ w))
  | 0x05 => some (.twait c (readJ w))
  | 0x06 => some (.idle c (readJ w))
  | 0x07 => some (.beat c (readJ w))
  | 0x08 => some (.stat c (readA w))
  | 0x09 => some (.msend c (readA w))
  | 0x0A => some (.mrecv c (readA w))
  | 0x0B => some (.trap c (readJ w))
  | 0x10 => some (.add c (readA w))
  | 0x11 => some (.sub c (readA w))
  | 0x12 => some (.mul c (readA w))
  | 0x13 => some (.and c (readA w))
  | 0x14 => some (.or c (readA w))
  | 0x15 => some (.xor c (readA w))
  | 0x16 => some (.shift c (readA w))
  | 0x17 => some (.cmp c (readA w))
  | 0x18 => some (.addi c (readI w))
  | 0x19 => some (.li c (readW w))
  | 0x1A => some (.lane c (readV w))
  | 0x1B => some (.movr c (readV w))
  | _ => none

/-- A transfer slot word (R141). -/
def decodeXfer (c : Nat) (w : BitVec 64) : Option Instr :=
  match opcodeOf w with
  | 0x00 => some (.nop c .xfer (readN w))
  | 0x01 => some (.send c (readX w))
  | 0x02 => some (.recv c (readX w))
  | 0x03 => some (.senda c (readX w))
  | 0x04 => some (.recva c (readX w))
  | 0x05 => some (.sendc c (readX w))
  | 0x06 => some (.recvc c (readX w))
  | 0x07 => some (.sends c (readX w))
  | 0x08 => some (.recvs c (readX w))
  | _ => none

/-- A matrix slot word (R154). -/
def decodeMx (c : Nat) (w : BitVec 64) : Option Instr :=
  match opcodeOf w with
  | 0x00 => some (.nop c .mx (readN w))
  | 0x01 => some (.mm4 c (readMM w))
  | 0x02 => some (.mm8 c (readM8 w))
  | 0x03 => some (.mmbf c (readM8 w))
  | 0x04 => some (.mclr c (readMC w))
  | 0x05 => some (.mdrain c (readMD w))
  | 0x06 => some (.mget c (readMG w))
  | 0x07 => some (.mput c (readMG w))
  | 0x08 => some (.mcnt c (readMG w))
  | _ => none

/-- A vector slot word (R163, R172). -/
def decodeVec (c : Nat) (w : BitVec 64) : Option Instr :=
  match opcodeOf w with
  | 0x00 => some (.nop c .vec (readN w))
  | 0x01 => some (.vld c (readVM w))
  | 0x02 => some (.vst c (readVM w))
  | 0x03 => some (.vmov c (readVR w))
  | 0x04 => some (.vbcst c (readVR w))
  | 0x05 => some (.viota c (readVR w))
  | 0x06 => some (.vperm c (readVR w))
  | 0x07 => some (.vlog c (readVR w))
  | 0x08 => some (.vadd c (readVR w))
  | 0x09 => some (.vsub c (readVR w))
  | 0x0A => some (.vmul c (readVR w))
  | 0x0B => some (.vfma c (readVR w))
  | 0x0C => some (.vmax c (readVR w))
  | 0x0D => some (.vcmp c (readVR w))
  | 0x0E => some (.vsel c (readVR w))
  | 0x0F => some (.vcvt c (readVR w))
  | 0x10 => some (.vred c (readVR w))
  | 0x11 => some (.vfun c (readVR w))
  | 0x12 => some (.vqnt c (readVQ w))
  | 0x13 => some (.vdq c (readVQ w))
  | 0x14 => some (.vsmx c (readVR w))
  | 0x15 => some (.vsnrm c (readVR w))
  | 0x16 => some (.vlse c (readVR w))
  | 0x17 => some (.vnrm c (readVR w))
  | 0x18 => some (.vshr c (readVR w))
  | 0x20 => some (.cdot c (readCD w))
  | 0x21 => some (.cadd c (readCA w))
  | 0x22 => some (.cscl c (readCS w))
  | 0x23 => some (.cup c (readCU w))
  | 0x24 => some (.cmov c (readCM w))
  | 0x25 => some (.tskip c (readN w))
  | _ => none

/-- The instruction in one slot of a bundle of core c; none where the opcode is reserved in that slot (R119). -/
def decodeSlot (c : Nat) (sl : Slot) (w : BitVec 64) : Option Instr :=
  match sl with
  | .ctl => decodeCtl c w
  | .mx => decodeMx c w
  | .vec => decodeVec c w
  | .xfer => decodeXfer c w

/-- The word of one slot of a bundle (R118). -/
def slotWord (b : BitVec 256) (sl : Slot) : BitVec 64 :=
  match sl with
  | .ctl => b.extractLsb' 0 64
  | .mx => b.extractLsb' 64 64
  | .vec => b.extractLsb' 128 64
  | .xfer => b.extractLsb' 192 64

/-! ## The encoder -/

def wordA (o : BitVec 6) (f : FmtA) : BitVec 64 := o ++ f.rd ++ f.ra ++ f.rb ++ f.fn ++ f.rsv
def wordI (o : BitVec 6) (f : FmtI) : BitVec 64 := o ++ f.rd ++ f.ra ++ f.imm ++ f.rsv
def wordW (o : BitVec 6) (f : FmtW) : BitVec 64 := o ++ f.rd ++ f.rsv ++ f.h ++ f.imm
def wordJ (o : BitVec 6) (f : FmtJ) : BitVec 64 := o ++ f.cond ++ f.rsv1 ++ f.ra ++ f.imm ++ f.rsv2 ++ f.target
def wordV (o : BitVec 6) (f : FmtV) : BitVec 64 := o ++ f.rs ++ f.vm ++ f.lane ++ f.fn ++ f.rsv
def wordX (o : BitVec 6) (f : FmtX) : BitVec 64 := o ++ f.reg ++ f.fn ++ f.rsv
def wordMM (o : BitVec 6) (f : FmtMM) : BitVec 64 := o ++ f.sw ++ f.sx ++ f.wf ++ f.xf ++ f.clr ++ f.nr ++ f.nb ++ f.rsv
def wordM8 (o : BitVec 6) (f : FmtM8) : BitVec 64 := o ++ f.sw ++ f.sx ++ f.wf ++ f.xf ++ f.clr ++ f.nr ++ f.nb ++ f.s ++ f.rsv
def wordMC (o : BitVec 6) (f : FmtMC) : BitVec 64 := o ++ f.rm ++ f.rsv
def wordMD (o : BitVec 6) (f : FmtMD) : BitVec 64 := o ++ f.vd ++ f.st ++ f.m0 ++ f.fmt ++ f.y ++ f.z ++ f.rsv
def wordMG (o : BitVec 6) (f : FmtMG) : BitVec 64 := o ++ f.r ++ f.a ++ f.f ++ f.rsv
def wordVR (o : BitVec 6) (f : FmtVR) : BitVec 64 := o ++ f.vd ++ f.va ++ f.vb ++ f.msk ++ f.ty ++ f.fn ++ f.sa ++ f.h ++ f.rsv
def wordVM (o : BitVec 6) (f : FmtVM) : BitVec 64 := o ++ f.v ++ f.sa ++ f.off ++ f.hh ++ f.rsv
def wordVQ (o : BitVec 6) (f : FmtVQ) : BitVec 64 :=
  o ++ f.vd ++ f.va ++ f.vs ++ f.idx ++ f.tf ++ f.bpos ++ f.l ++ f.sr ++ f.sg ++ f.sstep ++ f.sidx ++ f.rsv
def wordCD (o : BitVec 6) (f : FmtCD) : BitVec 64 := o ++ f.vx ++ f.sv ++ f.g ++ f.z ++ f.uf ++ f.ni ++ f.rsv
def wordCU (o : BitVec 6) (f : FmtCU) : BitVec 64 := o ++ f.vt ++ f.su ++ f.g ++ f.uf ++ f.rk ++ f.rsv
def wordCS (o : BitVec 6) (f : FmtCS) : BitVec 64 := o ++ f.vd ++ f.vc ++ f.g ++ f.rsv
def wordCA (o : BitVec 6) (f : FmtCA) : BitVec 64 := o ++ f.ga ++ f.gb ++ f.rsv
def wordCM (o : BitVec 6) (f : FmtCM) : BitVec 64 := o ++ f.v ++ f.g ++ f.dir ++ f.rsv
def wordN (o : BitVec 6) (r : BitVec 58) : BitVec 64 := o ++ r

/-- The slot and the word of an instruction of the core; none for every other command. -/
def encodeSlot : Instr → Option (Slot × BitVec 64)
  | .nop _ sl r => some (sl, wordN 0x00 r)
  | .br _ f => some (.ctl, wordJ 0x01 f)
  | .call _ f => some (.ctl, wordJ 0x02 f)
  | .ret _ f => some (.ctl, wordJ 0x03 f)
  | .loop _ f => some (.ctl, wordJ 0x04 f)
  | .twait _ f => some (.ctl, wordJ 0x05 f)
  | .idle _ f => some (.ctl, wordJ 0x06 f)
  | .beat _ f => some (.ctl, wordJ 0x07 f)
  | .stat _ f => some (.ctl, wordA 0x08 f)
  | .msend _ f => some (.ctl, wordA 0x09 f)
  | .mrecv _ f => some (.ctl, wordA 0x0A f)
  | .trap _ f => some (.ctl, wordJ 0x0B f)
  | .add _ f => some (.ctl, wordA 0x10 f)
  | .sub _ f => some (.ctl, wordA 0x11 f)
  | .mul _ f => some (.ctl, wordA 0x12 f)
  | .and _ f => some (.ctl, wordA 0x13 f)
  | .or _ f => some (.ctl, wordA 0x14 f)
  | .xor _ f => some (.ctl, wordA 0x15 f)
  | .shift _ f => some (.ctl, wordA 0x16 f)
  | .cmp _ f => some (.ctl, wordA 0x17 f)
  | .addi _ f => some (.ctl, wordI 0x18 f)
  | .li _ f => some (.ctl, wordW 0x19 f)
  | .lane _ f => some (.ctl, wordV 0x1A f)
  | .movr _ f => some (.ctl, wordV 0x1B f)
  | .send _ f => some (.xfer, wordX 0x01 f)
  | .recv _ f => some (.xfer, wordX 0x02 f)
  | .senda _ f => some (.xfer, wordX 0x03 f)
  | .recva _ f => some (.xfer, wordX 0x04 f)
  | .sendc _ f => some (.xfer, wordX 0x05 f)
  | .recvc _ f => some (.xfer, wordX 0x06 f)
  | .sends _ f => some (.xfer, wordX 0x07 f)
  | .recvs _ f => some (.xfer, wordX 0x08 f)
  | .mm4 _ f => some (.mx, wordMM 0x01 f)
  | .mm8 _ f => some (.mx, wordM8 0x02 f)
  | .mmbf _ f => some (.mx, wordM8 0x03 f)
  | .mclr _ f => some (.mx, wordMC 0x04 f)
  | .mdrain _ f => some (.mx, wordMD 0x05 f)
  | .mget _ f => some (.mx, wordMG 0x06 f)
  | .mput _ f => some (.mx, wordMG 0x07 f)
  | .mcnt _ f => some (.mx, wordMG 0x08 f)
  | .vld _ f => some (.vec, wordVM 0x01 f)
  | .vst _ f => some (.vec, wordVM 0x02 f)
  | .vmov _ f => some (.vec, wordVR 0x03 f)
  | .vbcst _ f => some (.vec, wordVR 0x04 f)
  | .viota _ f => some (.vec, wordVR 0x05 f)
  | .vperm _ f => some (.vec, wordVR 0x06 f)
  | .vlog _ f => some (.vec, wordVR 0x07 f)
  | .vadd _ f => some (.vec, wordVR 0x08 f)
  | .vsub _ f => some (.vec, wordVR 0x09 f)
  | .vmul _ f => some (.vec, wordVR 0x0A f)
  | .vfma _ f => some (.vec, wordVR 0x0B f)
  | .vmax _ f => some (.vec, wordVR 0x0C f)
  | .vcmp _ f => some (.vec, wordVR 0x0D f)
  | .vsel _ f => some (.vec, wordVR 0x0E f)
  | .vcvt _ f => some (.vec, wordVR 0x0F f)
  | .vred _ f => some (.vec, wordVR 0x10 f)
  | .vfun _ f => some (.vec, wordVR 0x11 f)
  | .vqnt _ f => some (.vec, wordVQ 0x12 f)
  | .vdq _ f => some (.vec, wordVQ 0x13 f)
  | .vsmx _ f => some (.vec, wordVR 0x14 f)
  | .vsnrm _ f => some (.vec, wordVR 0x15 f)
  | .vlse _ f => some (.vec, wordVR 0x16 f)
  | .vnrm _ f => some (.vec, wordVR 0x17 f)
  | .vshr _ f => some (.vec, wordVR 0x18 f)
  | .cdot _ f => some (.vec, wordCD 0x20 f)
  | .cadd _ f => some (.vec, wordCA 0x21 f)
  | .cscl _ f => some (.vec, wordCS 0x22 f)
  | .cup _ f => some (.vec, wordCU 0x23 f)
  | .cmov _ f => some (.vec, wordCM 0x24 f)
  | .tskip _ r => some (.vec, wordN 0x25 r)
  | _ => none

/-- The command that an opcode-table word spells: no row of the table has bits. -/
def decodeTableWord (_nbits _w : Nat) : Option Instr := none

end Sys2Proof
end

