-- ==== Sys2Proof/Machine/Keccak.lean ====
section
/-! DEFINITION. The hashes the spec names: SHAKE128 (R76, R342), SHAKE256 (digests), KMAC256 (R506, R507), all over Keccak-f[1600] of
FIPS 202 and SP 800-185, SHA-384 (R352) of FIPS 180-4, and CRC-32C (R361). Bytes come first byte first. -/

namespace Sys2Proof.Machine

/-- The 25 lanes of the Keccak state, lane x + 5y at place x + 5y. -/
abbrev Lanes := List Word

def ln (a : Lanes) (i : Nat) : Word := a.getD i 0

/-- Rotation offsets of rho, lane x + 5y at place x + 5y. -/
def rhoOffsets : List Nat := [0, 1, 62, 28, 27, 36, 44, 6, 55, 20, 3, 10, 43, 25, 39, 41, 45, 15, 21, 8, 18, 2, 61, 56, 14]

/-- One bit of the round-constant register, and its next value: x^8 + x^6 + x^5 + x^4 + 1. -/
def rcStep (r : Nat) : Nat := if 128 ≤ r then ((r * 2) % 256) ^^^ 0x71 else r * 2

/-- The round constants from the register value r. -/
def rcWord : Nat → Nat → Nat → Word × Nat
  | 0, _, r => (0, r)
  | fuel + 1, j, r =>
    let (w, r') := rcWord fuel (j + 1) (rcStep r)
    (if r % 2 = 1 then w ||| (1#64 <<< (2 ^ j - 1)) else w, r')

def theta (a : Lanes) : Lanes :=
  let c := (List.range 5).map fun x => ln a x ^^^ ln a (x + 5) ^^^ ln a (x + 10) ^^^ ln a (x + 15) ^^^ ln a (x + 20)
  (List.range 25).map fun i => ln a i ^^^ ln c ((i % 5 + 4) % 5) ^^^ (ln c ((i % 5 + 1) % 5)).rotateLeft 1

/-- rho and pi together: lane (x, y) goes to (y, 2x + 3y). -/
def rhoPi (a : Lanes) : Lanes :=
  (List.range 25).map fun i =>
    let x := i % 5
    let y := i / 5
    -- the source (u, v) with u = x + 3y, v = x
    let src := (x + 3 * y) % 5 + 5 * x
    (ln a src).rotateLeft (rhoOffsets.getD src 0)

def chi (a : Lanes) : Lanes :=
  (List.range 25).map fun i =>
    let y := 5 * (i / 5)
    ln a i ^^^ (~~~ ln a (y + (i % 5 + 1) % 5) &&& ln a (y + (i % 5 + 2) % 5))

/-- n rounds from the round-constant register value r. -/
def keccakRounds : Nat → Nat → Lanes → Lanes
  | 0, _, a => a
  | n + 1, r, a =>
    let (rc, r') := rcWord 7 0 r
    let b := chi (rhoPi (theta a))
    keccakRounds n r' (b.mapIdx fun i x => if i = 0 then x ^^^ rc else x)

def keccakF (a : Lanes) : Lanes := keccakRounds 24 1 a

/-- A 64-bit word from up to eight bytes, first byte lowest. -/
def wordOfBytes (l : List Byte) : Word := BitVec.ofNat 64 (l.foldr (fun b acc => b.toNat + 256 * acc) 0)

/-- The n low bytes of a number, lowest first. -/
def bytesOf (n x : Nat) : List Byte := (List.range n).map fun i => BitVec.ofNat 8 (x >>> (8 * i))

/-- The number of a byte list, first byte lowest. -/
def natOfBytes (l : List Byte) : Nat := l.foldr (fun b acc => b.toNat + 256 * acc) 0

/-- Lanes of a block of bytes. -/
def lanesOf (l : List Byte) : Lanes := (List.range 25).map fun i => wordOfBytes ((l.drop (8 * i)).take 8)

/-- Blocks of rate bytes absorbed; fuel bounds the number of blocks. -/
def absorb (rate : Nat) : Nat → List Byte → Lanes → Lanes
  | 0, _, a => a
  | fuel + 1, l, a =>
    if l = [] then a
    else absorb rate fuel (l.drop rate) (keccakF ((List.range 25).map fun i => ln a i ^^^ ln (lanesOf (l.take rate)) i))

def squeeze (rate : Nat) : Nat → Lanes → List Byte
  | 0, _ => []
  | n + 1, a => ((a.flatMap fun w => bytesOf 8 w.toNat).take rate) ++ squeeze rate n (keccakF a)

/-- The sponge with domain byte d: padded with d, zeros and 0x80. -/
def sponge (rate d outLen : Nat) (msg : List Byte) : List Byte :=
  let padLen := rate - msg.length % rate
  let pad := (List.range padLen).map fun i =>
    BitVec.ofNat 8 ((if i = 0 then d else 0) + (if i = padLen - 1 then 0x80 else 0))
  let m := msg ++ pad
  (squeeze rate (outLen / rate + 1) (absorb rate (m.length / rate + 1) m (List.replicate 25 0))).take outLen

def shake128 (msg : List Byte) (outLen : Nat) : List Byte := sponge 168 0x1F outLen msg
def shake256 (msg : List Byte) (outLen : Nat) : List Byte := sponge 136 0x1F outLen msg

/-- The bytes of a number, highest first, at least one. -/
def bytesBE (x : Nat) : List Byte := (bytesOf (max 1 ((Nat.log2 x) / 8 + 1)) x).reverse

def leftEncode (x : Nat) : List Byte := BitVec.ofNat 8 (bytesBE x).length :: bytesBE x
def rightEncode (x : Nat) : List Byte := bytesBE x ++ [BitVec.ofNat 8 (bytesBE x).length]
def encodeString (l : List Byte) : List Byte := leftEncode (8 * l.length) ++ l
def bytePad (rate : Nat) (l : List Byte) : List Byte :=
  let z := leftEncode rate ++ l
  z ++ List.replicate ((rate - z.length % rate) % rate) 0

/-- The ASCII codes of "KMAC". -/
def kmacName : List Byte := [0x4B, 0x4D, 0x41, 0x43]

/-- KMAC256 (SP 800-185) of outLen bytes with customisation string cust. -/
def kmac256 (key msg cust : List Byte) (outLen : Nat) : List Byte :=
  let pre := bytePad 136 (encodeString kmacName ++ encodeString cust)
  sponge 136 0x04 outLen (pre ++ bytePad 136 (encodeString key) ++ msg ++ rightEncode (8 * outLen))

/-! ## SHA-384 (FIPS 180-4), one of the two hashes of R352 -/

/-- The 80 round constants: the first 64 bits of the fractional parts of the cube roots of the first 80 primes. -/
def shaK : List Word :=
  [0x428A2F98D728AE22, 0x7137449123EF65CD, 0xB5C0FBCFEC4D3B2F, 0xE9B5DBA58189DBBC, 0x3956C25BF348B538, 0x59F111F1B605D019, 0x923F82A4AF194F9B, 0xAB1C5ED5DA6D8118] ++
  [0xD807AA98A3030242, 0x12835B0145706FBE, 0x243185BE4EE4B28C, 0x550C7DC3D5FFB4E2, 0x72BE5D74F27B896F, 0x80DEB1FE3B1696B1, 0x9BDC06A725C71235, 0xC19BF174CF692694] ++
  [0xE49B69C19EF14AD2, 0xEFBE4786384F25E3, 0x0FC19DC68B8CD5B5, 0x240CA1CC77AC9C65, 0x2DE92C6F592B0275, 0x4A7484AA6EA6E483, 0x5CB0A9DCBD41FBD4, 0x76F988DA831153B5] ++
  [0x983E5152EE66DFAB, 0xA831C66D2DB43210, 0xB00327C898FB213F, 0xBF597FC7BEEF0EE4, 0xC6E00BF33DA88FC2, 0xD5A79147930AA725, 0x06CA6351E003826F, 0x142929670A0E6E70] ++
  [0x27B70A8546D22FFC, 0x2E1B21385C26C926, 0x4D2C6DFC5AC42AED, 0x53380D139D95B3DF, 0x650A73548BAF63DE, 0x766A0ABB3C77B2A8, 0x81C2C92E47EDAEE6, 0x92722C851482353B] ++
  [0xA2BFE8A14CF10364, 0xA81A664BBC423001, 0xC24B8B70D0F89791, 0xC76C51A30654BE30, 0xD192E819D6EF5218, 0xD69906245565A910, 0xF40E35855771202A, 0x106AA07032BBD1B8] ++
  [0x19A4C116B8D2D0C8, 0x1E376C085141AB53, 0x2748774CDF8EEB99, 0x34B0BCB5E19B48A8, 0x391C0CB3C5C95A63, 0x4ED8AA4AE3418ACB, 0x5B9CCA4F7763E373, 0x682E6FF3D6B2B8A3] ++
  [0x748F82EE5DEFB2FC, 0x78A5636F43172F60, 0x84C87814A1F0AB72, 0x8CC702081A6439EC, 0x90BEFFFA23631E28, 0xA4506CEBDE82BDE9, 0xBEF9A3F7B2C67915, 0xC67178F2E372532B] ++
  [0xCA273ECEEA26619C, 0xD186B8C721C0C207, 0xEADA7DD6CDE0EB1E, 0xF57D4F7FEE6ED178, 0x06F067AA72176FBA, 0x0A637DC5A2C898A6, 0x113F9804BEF90DAE, 0x1B710B35131C471B] ++
  [0x28DB77F523047D84, 0x32CAAB7B40C72493, 0x3C9EBE0A15C9BEBC, 0x431D67C49C100D4C, 0x4CC5D4BECB3E42B6, 0x597F299CFC657E2A, 0x5FCB6FAB3AD6FAEC, 0x6C44198C4A475817]

/-- The starting value of SHA-384. -/
def sha384Init : List Word :=
  [0xCBBB9D5DC1059ED8, 0x629A292A367CD507, 0x9159015A3070DD17, 0x152FECD8F70E5939] ++
  [0x67332667FFC00B31, 0x8EB44A8768581511, 0xDB0C2E0D64F98FA7, 0x47B5481DBEFA4FA4]

/-- A 64-bit word from eight bytes, first byte highest. -/
def wordBE (l : List Byte) : Word := wordOfBytes l.reverse

/-- The next word of the message schedule from the last sixteen, newest first. -/
def shaNext (w : List Word) : Word :=
  let s0 (x : Word) : Word := x.rotateRight 1 ^^^ x.rotateRight 8 ^^^ (x >>> 7)
  let s1 (x : Word) : Word := x.rotateRight 19 ^^^ x.rotateRight 61 ^^^ (x >>> 6)
  s1 (ln w 1) + ln w 6 + s0 (ln w 14) + ln w 15

/-- The message schedule of a block, newest first. -/
def shaSchedule : Nat → List Word → List Word
  | 0, w => w
  | n + 1, w => shaSchedule n (shaNext w :: w)

/-- One round on the eight working words. -/
def shaRound (v : List Word) (kw : Word) : List Word :=
  let a := ln v 0
  let e := ln v 4
  let t1 := ln v 7 + (e.rotateRight 14 ^^^ e.rotateRight 18 ^^^ e.rotateRight 41) + ((e &&& ln v 5) ^^^ (~~~ e &&& ln v 6)) + kw
  let t2 := (a.rotateRight 28 ^^^ a.rotateRight 34 ^^^ a.rotateRight 39) + ((a &&& ln v 1) ^^^ (a &&& ln v 2) ^^^ (ln v 1 &&& ln v 2))
  [t1 + t2, a, ln v 1, ln v 2, ln v 3 + t1, e, ln v 5, ln v 6]

/-- One block of 128 bytes. -/
def shaBlock (h : List Word) (block : List Byte) : List Word :=
  let first := (List.range 16).map fun i => wordBE ((block.drop (8 * i)).take 8)
  let w := (shaSchedule 64 first.reverse).reverse
  List.zipWith (· + ·) h ((List.zipWith (· + ·) shaK w).foldl shaRound h)

def sha384 (msg : List Byte) : List Byte :=
  let pad := 128 - (msg.length + 17) % 128
  let m := msg ++ [0x80] ++ List.replicate (pad % 128) 0 ++ (bytesOf 16 (8 * msg.length)).reverse
  let h := (List.range (m.length / 128)).foldl (fun h i => shaBlock h ((m.drop (128 * i)).take 128)) sha384Init
  (h.flatMap fun w => (bytesOf 8 w.toNat).reverse).take 48

/-! ## CRC-32C -/

/-- One bit of the reflected CRC-32C. -/
def crc32cBit (c : BitVec 32) : BitVec 32 := if c.getLsbD 0 then (c >>> 1) ^^^ 0x82F63B78#32 else c >>> 1

/-- CRC-32C of a byte list. -/
def crc32c (l : List Byte) : BitVec 32 :=
  ~~~ l.foldl (fun c b => (List.range 8).foldl (fun c _ => crc32cBit c) (c ^^^ b.setWidth 32)) (BitVec.allOnes 32)

end Sys2Proof.Machine
end

