-- ==== Sys2Proof/Machine/Ed448.lean ====
section
/-! DEFINITION. Pure Ed448 with an empty context (R290, R494, R496), of RFC 8032: keys, signatures and their verification. PRESUMED: the spec names the
algorithm and takes it from there (assumption 99). -/

namespace Sys2Proof.Machine

/-- The field's prime, the curve's constant d and the order of its base point. -/
def edP : Nat := 2 ^ 448 - 2 ^ 224 - 1
def edD : Nat := edP - 39081
def edL : Nat := 2 ^ 446 - 13818066809895115352007386748515426880336692474882178609894547503885

/-- A point in projective coordinates. -/
structure EdPoint where
  x : Nat
  y : Nat
  z : Nat
  deriving DecidableEq, Repr

def edZero : EdPoint := ⟨0, 1, 1⟩

def edBase : EdPoint :=
  ⟨224580040295924300187604334099896036246789641632564134246125461686950415467406032909029192869357953282578032075146446173674602635247710,
   298819210078481492676017930443930673437544040154080242095928241372331506189835876003536878655418784733982303233503462500531545062832660, 1⟩

/-- a − b in the field. -/
def edSub (a b : Nat) : Nat := (a + (edP - b % edP)) % edP

/-- The sum of two points, any two. -/
def edAdd (p q : EdPoint) : EdPoint :=
  let a := p.z * q.z % edP
  let b := a * a % edP
  let c := p.x * q.x % edP
  let d := p.y * q.y % edP
  let e := edD * c % edP * d % edP
  let f := edSub b e
  let g := (b + e) % edP
  let h := (p.x + p.y) * (q.x + q.y) % edP
  ⟨a * f % edP * edSub (edSub h c) d % edP, a * g % edP * edSub d c % edP, f * g % edP⟩

/-- k times a point; fuel bounds the bits of k. -/
def edMulGo : Nat → Nat → EdPoint → EdPoint
  | 0, _, _ => edZero
  | fuel + 1, k, p =>
    if k = 0 then edZero
    else
      let q := edMulGo fuel (k / 2) (edAdd p p)
      if k % 2 = 1 then edAdd p q else q
def edMul (k : Nat) (p : EdPoint) : EdPoint := edMulGo (Nat.log2 k + 1) k p

/-- x to the power k in the field. -/
def edPowGo : Nat → Nat → Nat → Nat
  | 0, _, _ => 1
  | fuel + 1, k, x =>
    if k = 0 then 1
    else
      let y := edPowGo fuel (k / 2) (x * x % edP)
      if k % 2 = 1 then x * y % edP else y
def edPow (k x : Nat) : Nat := edPowGo (Nat.log2 k + 1) k x

/-- Two points are the same. -/
def edSame (p q : EdPoint) : Bool := p.x * q.z % edP = q.x * p.z % edP && p.y * q.z % edP = q.y * p.z % edP

/-- A point as 57 bytes: y, and the low bit of x in the highest bit. -/
def edEncode (p : EdPoint) : List Byte :=
  let zi := edPow (edP - 2) p.z
  bytesOf 57 (p.y * zi % edP + p.x * zi % edP % 2 * 2 ^ 455)

/-- The point that 57 bytes encode, if any. -/
def edDecode (b : List Byte) : Option EdPoint :=
  let n := natOfBytes b
  let y := n % 2 ^ 455
  let sign := n / 2 ^ 455
  let u := edSub (y * y % edP) 1
  let v := edSub (edD * (y * y % edP) % edP) 1
  let u3v := edPow 3 u * v % edP
  let x := u3v * edPow ((edP - 3) / 4) (u3v * (u * u % edP) % edP * (v * v % edP) % edP) % edP
  if b.length ≠ 57 ∨ edP ≤ y ∨ v * (x * x % edP) % edP ≠ u ∨ (x = 0 ∧ sign = 1) then none
  else some ⟨if x % 2 = sign then x else edSub 0 x, y, 1⟩

/-- The hash of Ed448: "SigEd448", the octets 0 and 0 of the pure form with an empty context, and the parts. -/
def edHash (parts : List Byte) : Nat := natOfBytes (shake256 ([0x53, 0x69, 0x67, 0x45, 0x64, 0x34, 0x34, 0x38, 0, 0] ++ parts) 114)

/-- The secret scalar and the prefix of a private key. -/
def edSecret (key : List Byte) : Nat × List Byte :=
  let h := shake256 key 114
  (natOfBytes (h.take 56) / 4 % 2 ^ 445 * 4 + 2 ^ 447, h.drop 57)

/-- The public key of a private key. -/
def edPublic (key : List Byte) : List Byte := edEncode (edMul (edSecret key).1 edBase)

/-- The signature of a message: 57 bytes of R and 57 of S. -/
def edSign (key msg : List Byte) : List Byte :=
  let (a, pre) := edSecret key
  let r := edHash (pre ++ msg) % edL
  let rb := edEncode (edMul r edBase)
  rb ++ bytesOf 57 ((r + edHash (rb ++ edPublic key ++ msg) % edL * a) % edL)

/-- The signature verifies under the public key: 4·S·B = 4·R + 4·k·A. -/
def edVerify (pub msg sig : List Byte) : Bool :=
  match edDecode pub, edDecode (sig.take 57) with
  | some a, some r =>
    let n := natOfBytes (sig.drop 57)
    let k := edHash (sig.take 57 ++ pub ++ msg) % edL
    sig.length = 114 && decide (n < edL) && edSame (edMul (4 * n) edBase) (edMul 4 (edAdd r (edMul k a)))
  | _, _ => false

end Sys2Proof.Machine
end

