-- ==== Sys2Proof/Config.lean ====
section
/-! DEFINITION. What the spec leaves open and what an implementation fixes: opaque constants, so that no proof can lean on a value. -/

namespace Sys2Proof.Config

/-- Free values drawn one after another; the argument is State.freeCtr (assumption 3). -/
opaque freeBits : Nat → Nat

/-- The sign of a zero result of VFUN for an input of -0 where R168 states none (assumption 31). -/
opaque signOfZero : Nat → Bool

/-! ## The sampling generator (R106, assumption 84): its law is not given -/

/-- The state that the generator is seeded with: logical core, the first 8 bytes of the fingerprint, boot count. -/
opaque tasteSeed : Nat → List Byte → Nat → BitVec 32

/-- The generator's next state. -/
opaque tasteNext : BitVec 32 → BitVec 32

/-- The generator's state chooses the group at rate 1 in 2^n. -/
opaque tasteChosen : BitVec 32 → Nat → Bool

/-! ## The control network (R211, R47) -/

/-- The router at which the control packets of a rim block enter and leave. -/
opaque rimRouter : Nat → Nat

/-! ## Identity and signatures (R494, R496) -/

/-- The seed that the engine's PUF array and its helper data give (R494). -/
opaque pufSeed : BitVec 256

/-- The identity certificate chain (R494), whose content Nimhoed fixes at test. -/
opaque certChain : List Byte

/-- The ROM image (R509). -/
opaque romImage : List Byte

/-- What a management answer holds that the spec does not give (R352): versions, identifiers, records; by message and request. -/
opaque mctpValue : Nat → List Byte → List Byte

/-- Nimhoed's signature over a firmware manifest verifies (R501). -/
opaque manifestSigOk : List Byte → Bool

/-- Fields of a manifest, whose byte layout the spec does not give (R501): 0 SVN, 1 settings format, 2 component count. -/
opaque manifestField : List Byte → Nat → Nat

/-- Fields of a component of a manifest: 0 type, 1 version, 2 restart kind (0 KEEP, 1 FULL), 3 length. -/
opaque manifestComp : List Byte → Nat → Nat → Nat

/-- The digest a manifest gives for a component. -/
opaque manifestDigest : List Byte → Nat → List Byte

/-- A factory defect map signed by Nimhoed for this serial number verifies (R498). -/
opaque mapSigOk : List Byte → Bool

/-- The dead tiles that a factory defect map lists, as (field, row, column); its layout is not given. -/
opaque mapEntries : List Byte → List (Nat × Nat × Nat)

/-! ## What a plan set says of streams (R227, R329, R340): its layout is not given -/

/-- The span group of a pipeline position, under a plan set. -/
opaque groupOf : Nat → Nat → Nat

/-- How a plan set lays keys and values out (R227, R238, R240, R242). layers; heads1: H − 1; dim1: d / 64 − 1; members: c, and shift: e, of a span group;
core: the logical core of a member, by layer, group and member; frames: the base rows of its pool, each a multiple of 32; table: the first row of its
KV table; frameIdx: the entry of a position's page, by layer, position and page; tailMember, tailSlot, tailIdx: the member, the base row and the
entry of a position's tail slot in a layer; valueMult: the plan's value multiplier of a layer in FP32 (R231). -/
structure KvLayout where
  layers : Nat
  heads1 : Nat
  dim1 : Nat
  members : Nat → Nat
  shift : Nat → Nat
  core : Nat → Nat → Nat → Fin 14592
  frames : Nat → Nat → Nat → List Nat
  table : Nat → Nat → Nat → Nat
  frameIdx : Nat → Nat → Nat → Nat
  tailMember : Nat → Nat → Nat
  tailSlot : Nat → Nat → Nat
  tailIdx : Nat → Nat → Nat
  valueMult : Nat → Nat
  deriving Inhabited

/-- The key/value heads H of a layer. -/
def KvLayout.heads (k : KvLayout) : Nat := k.heads1 + 1

/-- A head's dimensions in units of 64. -/
def KvLayout.dim (k : KvLayout) : Nat := k.dim1 + 1

/-- The layout of a plan set. -/
opaque kvLayout : Nat → KvLayout

/-- The vocabulary size V of a plan (R329). -/
opaque vocab : Nat → Nat

/-- The embedding width of a plan (R329). -/
opaque embedWidth : Nat → Nat

/-- A token ID lies in the plan's hidden-token set (R233). -/
opaque hiddenToken : Nat → Nat → Bool

/-- The family digest that Dradric gives a plan set (R356). -/
opaque familyDigest : Nat → List Byte

/-! ## Exported memory (R395): its inner layouts are not given -/

/-- The offset in the twin's mirror store at which a block of a stream's layer lies. -/
opaque mirrorPlace : Nat → Nat → Nat → Nat

/-- The offset in the twin's mirror store at which the copy of a stream's input log lies, one word in 4 bytes (R359). -/
opaque mirrorLog : Nat → Nat

/-- The offset in the twin's mirror store of the copy of the embedding of a stream's position (R250, R359). -/
opaque mirrorEmbed : Nat → Nat → Nat

/-- The offset in the twin's mirror store of the copy of a stream's tail record for a layer (R359). -/
opaque mirrorTail : Nat → Nat → Nat

/-- Where the exported cask store of an engine of the pair holds an image, by its key (R395): offset in the window, and length. -/
opaque twinCask : Nat → Nat → Nat → Nat × Nat

/-- The plan-set index of the start list (R503): hall address and length of each image of the set. -/
opaque planSetIndex : List (Nat × Nat)

/-- The share of the fabric in 1/256 that a tenant's messages had over the last second (R399), by the free-value counter and the tenant. -/
opaque fabricShare : Nat → Nat → Nat

/-- A byte of an exported window that no WRITE has set, by the free-value counter and the offset. -/
opaque windowByte : Nat → Nat → Byte

/-! ## Forecasts (R417) and calibration (R434): the layouts and values are not given -/

/-- The worst-case current in 0.1 A of a plan's cores in a field in a tick of its pass. -/
opaque planCurrent : Nat → Nat → Nat → Nat

/-- The ticks of a plan's pass. -/
opaque passLen : Nat → Nat

/-- The Keep's own value in 0.1 A for a core that is sweeping, self-testing or loading. -/
opaque activityCurrent : Nat → Nat

/-- The forecast class of a rim domain in a tick, from the Keep's table of rim activity. -/
opaque rimClass : Nat → Nat → Nat

/-- The words of a plan image's forecast table lie in it up to this offset (R262, R417). -/
opaque forecastEnd : List Byte → Nat

/-! ## What a plan set fixes for the routers (R197, R205): how an image carries it is not given -/

/-- NET_RP of the transit-only program of a router. -/
opaque planTransit : Nat → Nat → BitVec 64

/-- The entries of the transit template in a router's route store. -/
opaque planTransitRoutes : Nat → Nat → List (Nat × BitVec 64)

/-- The slot table of a rim link, named by 4 times its edge core plus the port. -/
opaque planRimSlots : Nat → Nat → List (BitVec 64)

/-- The streamed cask (plan, target, version) that the slot of a plan set's rim link in a cycle delivers, and whether a pass begins with it (R301). -/
opaque streamSlot : Nat → Nat → Nat → Option ((Nat × Nat × Nat) × Bool)

/-- The plan set names a field hibernatable (R197). -/
opaque hibernatable : Nat → Nat → Bool

/-! ## The cellar's allocations over its stacks: not given -/

/-- The stack that holds a master: plan, target and version. -/
opaque masterStack : Nat → Nat → Nat → Nat

/-- The stack that holds a page. -/
opaque pageStack : Nat → Nat

/-- The stack that holds the input log of a stream, by its handle. -/
opaque logStack : Nat → Nat

end Sys2Proof.Config
end

