-- ==== Sys2Proof/Machine/CoreState.lean ====
section
/-! DEFINITION. The state of one core and its router: register files (R86), sequencer (R128–R133), results in flight (R121, R122),
scratchpad rows with their codes and marks (R91–R93), write-hold buffer (R98), checkpoint generations (R104), taster (R106), inbox
(R138) and the two routers' latches (R194, R206, R207). -/

namespace Sys2Proof.Machine

/-- A destination or operand register of R120. -/
inductive RegName where
  | s (n : Nat)
  | v (n : Nat)
  | m (n : Nat)
  | acc (n : Nat)
  | ca (n : Nat)
  deriving DecidableEq, Repr

/-- An accumulator: LA112 value and 28-bit block count (R64, R86). -/
structure AccV where
  la : La112
  cnt : Nat
  deriving DecidableEq, Repr

/-- The register files of one core (R86), each a sparse table whose unlisted entries are zero. -/
structure RegFiles where
  s : Table Word
  v : Table NetWord
  m : Table Word
  acc : Table AccV
  ca : Table (BitVec 32)
  deriving DecidableEq, Repr

/-- An open counted loop (R129): its body runs from start to fin, count times more. -/
structure LoopRec where
  start : Nat
  fin : Nat
  count : Nat
  deriving DecidableEq, Repr

/-- The sequencer (R84, R128–R133). delay: bundles still to end before what a branch decides, its own and its two delay bundles; target: where a taken branch goes after them; idle: empty
cycles still to pass; pops: the branch in force pops loops (BR); jump: the next bundle after a LOOP of count 0; waiting: a TWAIT has issued; resume: the bundle of the next tick's cycle 0; halted: nothing more issues in the
tick (R120, R145). -/
structure Seq where
  pc : Nat
  calls : List Nat
  loops : List LoopRec
  delay : Nat
  target : Option Nat
  pops : Bool
  jump : Option Nat
  idle : Nat
  waiting : Bool
  resume : Nat
  halted : Bool
  deriving DecidableEq, Repr

/-- The core's numeric counters (R82). -/
inductive NumCnt where | resCode | qsat | clamp | nanOp
  deriving DecidableEq, Repr

/-- What lands at the end of a cycle (R121): a register result, a unit's sum, or the effect of an instruction without a register
destination. -/
inductive Eff where
  | setS (n : Nat) (x : Word)
  | setV (n : Nat) (x : NetWord)
  | mergeV (n : Nat) (x sel : NetWord)
  | setM (n : Nat) (x : Word)
  | setAcc (n : Nat) (x : AccV)
  | setCa (n : Nat) (x : BitVec 32)
  | prod (n : Nat)
  | laneSum (n : Nat)
  | load (v : Nat)
  | count (k : NumCnt) (n : Nat)
  | empty (n : Nat)
  | popInbox
  | sendWord (x : NetWord)
  | mail (dest : Nat) (x : Word)
  | fault (event : Nat) (row : Nat)
  | prodCounts
  | taste (rows : Nat) (tensor : Option Nat) (satRows : Nat)
  | opening
  | took
  deriving DecidableEq, Repr

/-- A result in flight: the slot, cycle and bundle that issued it, and the cycle at whose end it lands (R121). -/
structure Pend where
  slot : Slot
  issue : Nat
  pc : Nat
  due : Nat
  eff : Eff
  deriving DecidableEq, Repr

/-- The instructions whose port accesses are scheduled (R150–R152, R164, R173, R174). xs holds operand values read at issue. -/
inductive UnitKind where
  | mm4 (f : FmtMM)
  | mm8 (f : FmtM8)
  | mmbf (f : FmtM8)
  | cdot (f : FmtCD) (xs : List Nat)
  | cup (f : FmtCU) (xs : List Nat)
  | vld (f : FmtVM)
  | vst (f : FmtVM) (x : NetWord)
  deriving DecidableEq, Repr

/-- A unit at work: wBase and xBase are stream base rows; got holds the rows captured so far by 2 * index (weights, U, V, VLD) or
2 * index + 1 (activations). -/
structure UnitOp where
  slot : Slot
  issue : Nat
  pc : Nat
  lat : Nat
  kind : UnitKind
  wBase : Nat
  xBase : Nat
  got : Table RowData
  deriving DecidableEq, Repr

/-- What an instruction asks at issue: whether its word is accepted (R119), the registers it reads, its destinations with their latency
(R121), the effects with their distance in cycles from the issue, the units it starts, and the fault, with its row,
that makes it act as NOP. -/
structure Iss where
  bad : Bool
  reads : List RegName
  writes : List (RegName × Nat)
  effs : List (Nat × Eff)
  ops : List UnitOp
  fault : Option (Nat × Nat)
  deriving DecidableEq, Repr

/-- One scheduled access: port, capture key (2 * index, plus 1 for the activation stream), and row. -/
structure Access where
  port : Nat
  key : Nat
  row : Nat
  data : Option RowData
  deriving DecidableEq, Repr

/-- Which fields of format VR an instruction uses; fn is the bound of its function field. The others must be 0 (R163). -/
structure VrUse where
  va : Bool
  vb : Bool
  msk : Bool
  fn : Nat
  sa : Bool
  h : Bool
  deriving DecidableEq, Repr

/-- A scratchpad row (R91–R93): data, the 16-bit detection code stored with it, and the write mark of each checkpoint generation. -/
structure Row where
  data : RowData
  code : BitVec 16
  mark0 : Bool
  mark1 : Bool
  deriving DecidableEq, Repr

/-- An entry of the write-hold buffer (R98); cyc: the cycle it entered; landed: it landed in the current cycle and frees its place at the cycle's end. -/
structure Held where
  row : Nat
  data : RowData
  cyc : Nat
  landed : Bool
  deriving DecidableEq, Repr

/-- A mailbox word waiting for a boundary (R138): sender (0x3FFF for the unit mailbox) and the word. -/
structure Mail where
  sender : Nat
  word : Word
  deriving DecidableEq, Repr

/-- One checkpoint generation (R104). tick: the tick it opens, low bits of TICK_COUNT; ing and egr: the ring positions (R220). -/
structure Ckpt where
  valid : Bool
  tick : Nat
  regs : RegFiles
  seq : Seq
  inbox : List Mail
  ing : Nat
  egr : Nat
  deriving DecidableEq, Repr

/-- A taste in flight (R106, R107, R175, R176); opened: the cycle of the group's clearing instruction. -/
structure Taste where
  row : Nat
  ordinal : Nat
  opened : Nat
  ran : Bool
  las : List AccV
  sat : Bool
  deriving DecidableEq, Repr

/-- The taster (R106–R108, R175–R177): the 32-bit sampling generator, the next row, groups opened in the tick, TSKIP pending, the group and row a
replay must taste again and whether that replay runs, and the drift window's counts. -/
structure Taster where
  gen : BitVec 32
  nextRow : Nat
  opened : Nat
  skip : Bool
  flight : Option Taste
  forced : Option (Nat × Nat × Bool)
  tastes : Nat
  sat : Nat
  corr : Nat
  deriving DecidableEq, Repr

/-- What advanced in the current tick, for the per-tick reports (R82, R98, R169). -/
structure Advanced where
  resCode : Bool
  qsat : Bool
  clamp : Bool
  nanOp : Bool
  conflict : Bool
  emptyRows : Nat
  deriving DecidableEq, Repr

/-- An ingress word in P7 (R206): the cycle of its lower row's write, the row, and whether the lower row is written. -/
structure P7Word where
  first : Nat
  row : Nat
  word : NetWord
  lowDone : Bool
  deriving DecidableEq, Repr

/-- A word on a router input (R194): the input (0 N, 1 E, 2 S, 3 W, 4 the transfer slot, 5 the egress ring), the cycle of its arrival, the late mark
(R198), and the region whose traffic it is (R208). -/
structure InWord where
  port : Nat
  cycle : Nat
  late : Bool
  region : Nat
  word : NetWord
  deriving DecidableEq, Repr

/-- The halves of an egress word read so far for the L input of a given cycle, and the row of its lower half (R207). -/
structure Egress where
  cycle : Nat
  row : Nat
  lo : Option RowData
  hi : Option RowData
  deriving DecidableEq, Repr

/-- The parts of a cycle that a core has had: its egress reads, its router, its ingress write, its engine accesses, the landing of its held
entries. -/
inductive CycStep where | egress | router | ingress | ports | held
  deriving DecidableEq, Repr

/-- One core with its routers. out: words handed to the router; deliv: words delivered to the transfer slot; p7: the ingress word
in P7, the older first; egress: egress words being read; arrived: mailbox words of this tick; bundle: the slots issued in the current cycle with
the destinations they name (R120); egrBanks: the banks that an egress read of the current cycle has (R96); detects: failed rows not yet repaired (R93); repaired: rows repaired and not yet read again; detectAt: hall
time in ns of the last detection; doomed: R94 declares the core dead; entered: the words that entered the inbox at the last boundary; stopping: the last tick in which the core
issues, once it has received a stop packet (R148); steps: the parts of the current cycle that are done, each once. -/
structure Core where
  regs : RegFiles
  seq : Seq
  done : Bool
  beat : BitVec 8
  faulted : Bool
  aborted : Bool
  pend : List Pend
  ops : List UnitOp
  bundle : List (Slot × List RegName)
  lastMsend : Option Nat
  inbox : List Mail
  arrived : List Mail
  rows : Table Row
  held : List Held
  code : Table (BitVec 256)
  routes : Table Word
  older : Ckpt
  newer : Ckpt
  stopping : Option Nat
  taster : Taster
  adv : Advanced
  inWords : List InWord
  deliv : List (Nat × NetWord)
  taken : Bool
  p7 : List P7Word
  egrBanks : List Nat
  egress : List Egress
  steps : List CycStep
  detects : List Nat
  repaired : List Nat
  detectAt : Option Nat
  doomed : Bool
  entered : Nat
  entryPc : Nat
  planSeed : Word
  deriving DecidableEq, Repr

end Sys2Proof.Machine
end

