-- ==== Sys2Proof/Machine/FabricState.lean ====
section
/-! DEFINITION. The state of the Gorla fabric (chapter 12) that no register holds: discovered nodes, paths, messages, received segments, exported
memory and the boundary clock. -/

namespace Sys2Proof.Machine

/-- A node known by HELLO (R392): its last HELLO. -/
structure GNode where
  hello : HelloMsg
  deriving DecidableEq, Repr

/-- A segment in flight on a path (R398): its message key, its index and its PSN. -/
structure GFlight where
  msg : Nat
  seg : Nat
  psn : Nat
  deriving DecidableEq, Repr

/-- A path (R398, R400): destination, local port, remote port, entropy, next PSN, window, segments in flight, expiries in a row, RTO in ns, and
whether it is closed; turn: the PSN whose acknowledgement ends the round trip in course; cut: the window has been halved in it. -/
structure GPath where
  dst : Nat
  port : Nat
  remote : Nat
  entropy : Nat
  psn : Nat
  win : Nat
  flight : List GFlight
  expiries : Nat
  rto : Nat
  closed : Bool
  turn : Nat
  cut : Bool
  deriving DecidableEq, Repr

/-- Who sent a message: the pager's spill of a page to an extent (R396), its fetch of a page of a stream (R249), the journal (R362), the mirror
write of a sealed block of a stream up to a position (R361) or of its log, embeddings or tail (R359), or an answer to a read (R390). -/
inductive GUser where
  | spill (extent page : Nat)
  | fetch (slot page tries : Nat)
  | journal
  | mirror (handle upto : Nat)
  | mirrorLog (handle : Nat)
  | answer
  | caskOp
  | cask (plan target version : Nat)
  deriving DecidableEq, Repr

/-- A message sent and not complete (R390, R400). key: 2^32 times the destination plus MSG, plus 2^48 for a READ_RESP, whose MSG is the
request's; size: the full payload of its segments (R388); segs: its segments; waiting: not yet given to a path; retx: retransmissions by
segment; via: the path that carried a segment last; held: a READ_REQ that waits for a WRITE (R390); busy: answered by NAK BUSY, until an RTO
has passed (R401). -/
structure GMsg where
  key : Nat
  op : Nat
  tc : Nat
  tenant : Nat
  offset : Nat
  data : List Byte
  mlen : Nat
  size : Nat
  segs : Nat
  waiting : List Nat
  retx : Table Nat
  via : Table Nat
  held : Bool
  busy : Bool
  user : GUser
  deriving DecidableEq, Repr

/-- A message being received (R400, R401). key: as in GMsg, with the source; offset: of its first segment; total: its segments, once LAST has
arrived. -/
structure GRx where
  key : Nat
  op : Nat
  offset : Nat
  mlen : Nat
  total : Option Nat
  parts : Table (List Byte)
  done : Bool
  deriving DecidableEq, Repr

/-- A HELLO sent (R392): the port, the node it goes to (none: all nodes) and its payload. -/
structure HelloOut where
  port : Nat
  node : Option Nat
  payload : List Byte
  deriving DecidableEq, Repr

/-- A frame sent: port, hop limit, UDP source port where the spec gives one (R398), header and payload. -/
structure GOut where
  port : Nat
  hop : Nat
  udp : Option Nat
  hdr : GHdr
  payload : List Byte
  deriving DecidableEq, Repr

/-- A reply outside Gorla (R386): port, 0 Neighbor Advertisement, 1 Echo Reply, 2 Neighbor Solicitation, and the address. -/
structure IcmpOut where
  port : Nat
  kind : Nat
  address : BitVec 128
  deriving DecidableEq, Repr

/-- The fabric. provisional: draws made for a provisional node ID (R393, R394); carry: ports that carry traffic (R385); downSeen: ports whose loss has
been reported (R377); macs: the MAC learnt on a port (R387); rot: rotation over the paths of a destination; expect: the next PSN by 256 times the source
plus PATH; owed: segments by source since the last ACK; window: bytes of the exported windows that WRITEs have set (R395); shut: extents closed to new
spills (R396); fwd: frames forwarded below 1,024 (R403); paused: until which hall time by 4 times the port plus TC (R383); reads: data that answered a read;
acks, naks: sent,
with the destination, newest first; journalled: the highest JSN sent to the twin; parent: a PTP parent is selected (R406); everLocked: the first lock has happened (R407); uniAt: hall time of the last round
of unicast HELLOs (R392). -/
structure FabricSt where
  provisional : Nat
  carry : List Nat
  downSeen : List Nat
  macs : Table (BitVec 48)
  nodes : Table GNode
  paths : Table GPath
  rot : Table Nat
  nextMsg : Table Nat
  msgs : List GMsg
  rxs : List GRx
  expect : Table Nat
  owed : Table Nat
  window : Table Byte
  shut : List Nat
  fwd : Nat
  paused : Table Nat
  sent : List GOut
  icmp : List IcmpOut
  hellos : List HelloOut
  reads : List (List Byte)
  acks : List (Nat × List AckEntry)
  naks : List (Nat × NakMsg)
  journalled : Nat
  parent : Bool
  everLocked : Bool
  uniAt : Nat
  deriving DecidableEq, Repr

def FabricSt.initial : FabricSt where
  provisional := 0
  carry := []
  downSeen := []
  macs := []
  nodes := []
  paths := []
  rot := []
  nextMsg := []
  msgs := []
  rxs := []
  expect := []
  owed := []
  window := []
  shut := []
  fwd := 0
  paused := []
  sent := []
  icmp := []
  hellos := []
  reads := []
  acks := []
  naks := []
  journalled := 0
  parent := false
  everLocked := false
  uniAt := 0

end Sys2Proof.Machine
end

