-- ==== Sys2Proof/Machine/KeepState.lean ====
section
/-! DEFINITION. The state of the Keep and the Belfry that no register holds (chapter 15). -/

namespace Sys2Proof.Machine

/-- A PCIe port (R316, R317, R481): link up, Bus Master Enable, the MSI-X table's masked vectors, its pending bits, its raw table
words by offset, and the host bus address of its BAR2 when the settings enable it (R319). -/
structure Pcie where
  up : Bool
  bme : Bool
  masked : List Nat
  pba : List Nat
  table : Table Word
  bar2 : Option Nat
  deriving DecidableEq, Repr

/-- The Belfry (R478–R487). stopped: its clock is stopped; latches: edge latches set during the stop; timers: hall time of the event that
took PENDING from 0 to 1; forced: sources made due by a restart (R486); ready: (target, source) pairs whose message for the current
deliverable span is sent; claimPrio: the PRIO in force when a source was claimed (R487); sent: MSI-X messages sent (port, vector), newest
first. -/
structure BelfrySt where
  stopped : Bool
  latches : List Nat
  timers : Table Nat
  forced : List Nat
  ready : List (Nat × Nat)
  claimPrio : Table Nat
  sent : List (Nat × Nat)
  deriving DecidableEq, Repr

/-- An open session (R504–R508). key: 0 the operator key, t the key of tenant t; expires in ns of hall time; lastTag: the highest TAG of its
tagged requests (R507). -/
structure Session where
  handle : Nat
  key : Nat
  chan : Nat
  skey : List Byte
  expires : Nat
  lastTag : Option Nat
  deriving DecidableEq, Repr

/-- A challenge waiting for its response (R506). -/
structure Challenge where
  id : Nat
  key : Nat
  chan : Nat
  nonce : List Byte
  context : List Byte
  made : Nat
  deriving DecidableEq, Repr

/-- The mailbox channel of a host port (R470, R471): the request window by 8-byte word, REQ_LEN, the request in progress, the response
bytes, and the flags of KEEP_MBOX_CTL. -/
structure Mailbox where
  window : Table Word
  reqLen : Nat
  busy : Option Req
  done : Bool
  restarted : Bool
  rsp : List Byte
  deriving DecidableEq, Repr

/-- A response that left on a channel other than a host port's: channel, node and bytes (R470). -/
structure Response where
  chan : Nat
  node : BitVec 16
  bytes : List Byte
  deriving DecidableEq, Repr

/-- A boot record (R500). Slots: 0 A, 1 B. -/
structure BootRec where
  seq : Nat
  active : Nat
  fallback : Option Nat
  trial : Bool
  minSvn : Nat
  setFmt : Nat
  setFmtPrev : Nat
  deriving DecidableEq, Repr

/-- A firmware slot: its manifest, the component bytes programmed so far (by component and offset), and whether the slot is verified
(R501, R510). -/
structure SlotImg where
  manifest : List Byte
  chunks : List (Nat × Nat × List Byte)
  verified : Bool
  deriving DecidableEq, Repr

/-- The kinds of a start or restart (R497, R515). -/
inductive StartKind where | cold | warm | keepOnly
  deriving DecidableEq, Repr

/-- An entry of the field overlay (R38): a dead tile as (field, row, column), and the signature of the engine's identity key. -/
structure OverlayEntry where
  tile : Nat × Nat × Nat
  sig : List Byte
  deriving DecidableEq, Repr

/-- What flash holds, and the start in progress (R491–R503, R510–R516). fl0, fl1: the devices are present; factory and overlay: dead tiles
as (field, row, column) (R38); origin, phaseStart: hall times, in its units, of the start's origin and of the phase's start;
trialKind: the start that began the trial; startList: (region, plan) pairs of the start list (R503), and
toBind: those whose bind a start has still to order; restarts: hall times in ns of unplanned Keep restarts;
heldMcs: management cores held in reset (R467); running: the slot whose firmware runs; rerun: regions that a planned Keep-only restart runs again
(R511); planned: it is such a restart that is in progress. -/
structure BootSt where
  fl0 : Bool
  fl1 : Bool
  record : Option BootRec
  slots : Table SlotImg
  settings : Option (Table Word)
  settingsPrev : Option (Table Word)
  factory : List (Nat × Nat × Nat)
  overlay : List OverlayEntry
  kind : StartKind
  origin : Nat
  phaseStart : Nat
  trialKind : StartKind
  startList : List (Nat × Nat)
  toBind : List (Nat × Nat)
  restarts : List Nat
  heldMcs : List Nat
  running : Nat
  rerun : List Nat
  planned : Bool
  deriving DecidableEq, Repr

/-- An answer of the management endpoint (R352, R509): its port, the requester's endpoint ID, the command's name in the table of R352 as a
number, and the values this spec gives it. -/
structure MctpAnswer where
  port : Nat
  eid : BitVec 8
  msg : Nat
  body : List Byte
  deriving DecidableEq, Repr

/-- The MCTP endpoint of R352: the endpoint ID of each port, where platform events go (port and endpoint ID), SPDM and PLDM requests that wait for the
end of a Keep restart, the hash negotiated on each port (R352), and the answers sent, newest first. -/
structure MctpSt where
  eids : Table Nat
  receiver : Option (Nat × Nat)
  deferred : List (Nat × MctpMsg)
  hashes : Table Nat
  answers : List MctpAnswer
  deriving DecidableEq, Repr

/-- The Keep's own state. fails: hall times of failed opens by channel; refused: hall time until which a channel refuses challenges
(R506); keys: access keys by number (R504); owners: the cask owner key table (R290); serials: sessions and challenges made so far;
sends: SENDs queued for the supervisor (R475); reads:
values returned to readers, newest first; wrote: statuses that the Keep returned to sessions for writes that it did not send (R117), newest
first; mgmtUp: the management port's link. -/
structure KeepSt where
  sessions : List Session
  challenges : List Challenge
  fails : List (Nat × Nat)
  refused : Table Nat
  keys : Table (List Byte)
  owners : Table (List Byte)
  serials : Nat
  mbox : Table Mailbox
  responses : List Response
  sends : List (BitVec 16 × List Byte)
  reads : List Word
  wrote : List Nat
  mgmtUp : Bool
  boot : BootSt
  mctp : MctpSt
  deriving DecidableEq, Repr

/-- The Keep as it leaves power-on: no session, no key read yet, both flash devices fitted. -/
def KeepSt.initial : KeepSt where
  sessions := []
  challenges := []
  fails := []
  refused := []
  keys := []
  owners := []
  serials := 0
  mbox := []
  responses := []
  sends := []
  reads := []
  wrote := []
  mgmtUp := false
  boot := { fl0 := true, fl1 := true, record := some ⟨1, 0, none, false, 0, 0, 0⟩, slots := [(0, ⟨[], [], true⟩)], settings := none, settingsPrev := none, factory := [], overlay := [],
            kind := .cold, origin := 0, phaseStart := 0, trialKind := .cold, startList := [], toBind := [], restarts := [], heldMcs := [], running := 0, rerun := [], planned := false }
  mctp := ⟨[], none, [], [], []⟩

end Sys2Proof.Machine
end

