-- ==== Sys2Proof/Machine/NetState.lean ====
section
/-! DEFINITION. The state of the networks outside the cores (chapter 6): lane histories, rim links with their sources and sinks, the control
network's routers, and lanterns. -/

namespace Sys2Proof.Machine

/-- A check failure of a physical lane (R203): the link, the lane and the hall time in ns. A link is named by the physical tiles at its two ends
(`tileLink`); a rim link by 4 times its edge core plus the port. -/
structure LaneFail where
  link : Nat
  lane : Nat
  hall : Nat
  deriving DecidableEq, Repr

/-- A lane that waits to be spared, and the core whose router asks for it (R203, R220). -/
structure SpareReq where
  link : Nat
  lane : Nat
  core : Nat
  deriving DecidableEq, Repr

/-- A word that a rim source drives into edge core core: the tick and cycle of its slot (R205, R208). -/
structure RimIn where
  tick : Nat
  cycle : Nat
  core : Nat
  word : RimWord
  deriving DecidableEq, Repr

/-- A REGION cask that the rim streams to a region (R301): its key, and the next word of its payload, two rows each. -/
structure CaskStream where
  region : Nat
  plan : Nat
  target : Nat
  version : Nat
  next : Nat
  deriving DecidableEq, Repr

/-- A word that left the array through port port of edge core core for a region: the tick and the cycle in which the rim block has it (R190, R208). -/
structure RimOut where
  tick : Nat
  cycle : Nat
  core : Nat
  port : Nat
  region : Nat
  word : NetWord
  deriving DecidableEq, Repr

/-- The flit kinds of the control network (R209). -/
inductive FlitKind where | head | body | tail | single
  deriving DecidableEq, Repr

/-- A flit (R209): kind, the priority of its packet, word and one parity bit per byte. -/
structure CtlFlit where
  kind : FlitKind
  pri : Nat
  word : BitVec 32
  parity : BitVec 4
  deriving DecidableEq, Repr

/-- A flit that an output must repeat (R217): the input that holds it, the control cycles left, and its failures so far. -/
structure CtlRetry where
  inp : Nat
  flit : CtlFlit
  wait : Nat
  fails : Nat
  deriving DecidableEq, Repr

/-- A router of the control network (R209, R210, R217). source: flits that its own blocks still have to put in; bufs: the flits held by
4 * input + priority; arrived: flits that came in the current cycle, with their inputs; owner: the input whose packet has an output, by 4 * output +
priority; turn: the input that an output served last at a priority; kept: the last 16 flits an output sent, newest first; retry: the flit an output
must repeat; parts: the flits delivered here of a packet whose tail is still to come, by priority; done: the current cycle is over. Inputs and
outputs: 0 N, 1 E, 2 S, 3 W, 4 the blocks at the router. -/
structure CtlRouter where
  source : List CtlFlit
  bufs : Table (List CtlFlit)
  arrived : List (Nat × CtlFlit)
  owner : Table Nat
  turn : Table Nat
  kept : Table (List CtlFlit)
  retry : Table CtlRetry
  parts : Table (List CtlFlit)
  done : Bool
  deriving DecidableEq, Repr

/-- The lantern of a field (R110, R213, R214): the tick that the last boundary closed, the bound cores whose heartbeats it expects, those of them
that ran the tick, the heartbeats that arrived, whether the summary is sent, the consecutive ticks without one, and whether the tick fell below CRIT (R429). -/
structure Lantern where
  tick : Nat
  expect : List Nat
  ran : List Nat
  hbs : List Hb
  sent : Bool
  silent : Nat
  droop : Bool
  deriving DecidableEq, Repr

/-- The networks. laneFails: check failures; spareReq: lanes to be spared at the next boundary (R203); deadLinks: R204; spared: the physical lane
excluded on a link (R203); rimKept: words that rim sources delivered in the two most recent ticks of their regions; rimHeld: words that sources hold
back from stopped regions, oldest first; rimRepeat: words that a replay repeats; rimWait: egress words whose tick has not closed cleanly; rimOut:
egress words that sinks accepted, newest first (R208); streams: the casks streamed (R301); ctl: control routers that hold anything; ctlIn: packets that reached their destination,
whose rows have not acted on them yet; regReads: register responses that reached their
requester (TAG and value or status); debugRows: DEBUG packets that reached the Keep; reports: REPORT packets; missed: cores whose CORE_STATUS
read is outstanding (R111), and whether an abort was seen; hbOut and sumOut: heartbeats and summaries sent, newest first. -/
structure NetSt where
  laneFails : List LaneFail
  spareReq : List SpareReq
  deadLinks : List Nat
  spared : Table Nat
  lanterns : Table Lantern
  rimKept : List RimIn
  rimHeld : List RimIn
  rimRepeat : List RimIn
  rimWait : List RimOut
  rimOut : List RimOut
  streams : List CaskStream
  ctl : Table CtlRouter
  ctlIn : List CtlPacket
  regReads : List CtlPacket
  debugRows : List CtlPacket
  reports : List CtlPacket
  missed : List (Nat × Bool)
  hbOut : List Hb
  sumOut : List Summary
  deriving DecidableEq, Repr

def NetSt.initial : NetSt where
  laneFails := []
  spareReq := []
  deadLinks := []
  spared := []
  lanterns := []
  rimKept := []
  rimHeld := []
  rimRepeat := []
  rimWait := []
  rimOut := []
  streams := []
  ctl := []
  ctlIn := []
  regReads := []
  debugRows := []
  reports := []
  missed := []
  hbOut := []
  sumOut := []

end Sys2Proof.Machine
end

