-- ==== Sys2Proof/Machine/PowerState.lean ====
section
/-! DEFINITION. The state of power delivery (chapter 13) and of cooling (chapter 14) that no register holds. -/

namespace Sys2Proof.Machine

/-- Where the switching of a field domain stands (R422–R426): waiting for a window, or ramping up after some steps; self-testing for some more
boundaries; waiting to sweep; sweeping for some more boundaries; ramping down after some steps of 16. -/
inductive RampAt where
  | wait
  | up (step : Nat)
  | test (left : Nat)
  | sweepWait
  | sweep (left : Nat)
  | down (step : Nat)
  deriving DecidableEq, Repr

/-- A field domain switching. lead: boundaries before its first step; delayed: EV_POWER_ADMIT_DELAY is raised; forced: ADMIT_WAIT has passed. -/
structure Ramp where
  phase : RampAt
  lead : Nat
  delayed : Bool
  forced : Bool
  deriving DecidableEq, Repr

/-- A calibration value (R434): kind 0 guardband, 1 droop compensation, 2 HBM PHY, 3 SerDes; its item, its load and temperature bands, its
value, and whether it was stored before the full restart of an ACTIVATE (R511). -/
structure CalVal where
  kind : Nat
  item : Nat
  load : Nat
  temp : Nat
  value : Nat
  stored : Bool
  deriving DecidableEq, Repr

/-- Power. rails: the Spire's rails are on; on: the field domains that are on; rims: the rim domains that are on; present: SPIRE_PRES_N is low; clamped: both clamp senses are
closed; ramps: field domains switching; wakeNext: fields to wake once they are down (R441); margin: fields under the margin of R430; crits: hall
times of CRIT ticks; warnTick, critTick: the last tick counted for a field, plus 1; capDemand: the power cap's stretch demand (R440); raise: a
higher clock step that waits for its voltage (R414); sel: the step that the throttle selects (R45, R450); cal: calibration values; prov: items
in provisional use; guard: guardbands in force, by field; hist: classes of the last 1,024 ticks by domain, newest first; frames: forecast frames sent,
newest first; heldOverlay: overlay entries held in SRAM by the sag lock (R438); logsDue: log writes deferred by it; drop: fields to drop at the next
boundary (R421); poll: the last poll (R415); powers: rail power of the last 10 ms; goal: guardbands that replace those in force at a boundary, and
whether in steps of 2 mV (R436); vout: the VCORE setpoint in mV sent to the Spire for a quadrant (R412, R413); lostStacks, lostRims, lostSamplers, lostPagers: lost since the start (R53, R376). -/
structure PowerSt where
  rails : Bool
  on : List Nat
  rims : List Nat
  present : Bool
  clamped : Bool
  ramps : Table Ramp
  wakeNext : List Nat
  margin : List Nat
  crits : Table (List Nat)
  warnTick : Table Nat
  critTick : Table Nat
  capDemand : Nat
  raise : Option Nat
  sel : Nat
  cal : List CalVal
  prov : List (Nat × Nat)
  guard : Table Nat
  hist : Table (List Nat)
  frames : List (List Byte)
  heldOverlay : List OverlayEntry
  logsDue : Bool
  drop : List Nat
  poll : Option PmbusReading
  powers : List Nat
  goal : Table (Nat × Bool)
  vout : Table Nat
  lostStacks : List Nat
  lostRims : List Nat
  lostSamplers : List Nat
  lostPagers : List Nat
  deriving DecidableEq, Repr

def PowerSt.initial : PowerSt where
  rails := false
  on := []
  rims := []
  present := false
  clamped := false
  ramps := []
  wakeNext := []
  margin := []
  crits := []
  warnTick := []
  critTick := []
  capDemand := 0
  raise := none
  sel := 0
  cal := []
  prov := []
  guard := []
  hist := []
  frames := []
  heldOverlay := []
  logsDue := false
  drop := []
  poll := none
  powers := []
  goal := []
  vout := []
  lostStacks := []
  lostRims := []
  lostSamplers := []
  lostPagers := []

/-- A turning-point search of an item (R458): whether the temperature rises, its last turning point, if there was one, and the extreme since. -/
structure Turn where
  rising : Bool
  last : Option Int
  extreme : Int
  deriving DecidableEq, Repr

/-- Cooling. bad, clean: consecutive samples of a channel in one fault condition (16 times the condition plus the count) and without one; tj, thbm:
highest temperatures of the last reading; overLim: consecutive readings at a hard limit; fallAt: hall time of the demand's last fall; warn, shedFlow:
flow stages in force (R451); noFlow: no flow value (R447); flowCap: watts; leakShed, dewShed: shedding demanded by a wet cable, by the dew point
(R455, R456);
stopped: a flow stop is in force (R453); limit: a hard limit has shut the engine down (R454); leakHold: outputs held by a HANDOVER (R455);
wasWet: cables reported wet; dryAt: hall time since which every cable is dry; dewLow: an EV_DEW episode; valve, pump: outputs in µA and 0.1 %; rebind: regions and plans to bind when flow
returns; turns: by item, 64 more for a stack; flashed: cycle counts in flash by item (C15, C30); snaps: hourly counts by hall time. -/
structure ThermSt where
  bad : Table Nat
  clean : Table Nat
  tj : Int
  thbm : Int
  overLim : Nat
  fallAt : Nat
  warn : Bool
  shedFlow : Bool
  noFlow : Bool
  flowCap : Option Nat
  leakShed : Bool
  dewShed : Bool
  stopped : Bool
  limit : Bool
  leakHold : Bool
  wasWet : List Nat
  dryAt : Nat
  dewLow : Bool
  valve : Nat
  pump : Nat
  rebind : List (Nat × Nat)
  turns : Table Turn
  flashed : Table (Nat × Nat)
  snaps : List (Nat × Table (Nat × Nat))
  deriving DecidableEq, Repr

/-- After AUX12 first rises, VALVE is 20 mA and PUMP 100 % (R457). -/
def ThermSt.initial : ThermSt where
  bad := []
  clean := []
  tj := 0
  thbm := 0
  overLim := 0
  fallAt := 0
  warn := false
  shedFlow := false
  noFlow := false
  flowCap := none
  leakShed := false
  dewShed := false
  stopped := false
  limit := false
  leakHold := false
  wasWet := []
  dryAt := 0
  dewLow := false
  valve := 20000
  pump := 1000
  rebind := []
  turns := []
  flashed := []
  snaps := []

end Sys2Proof.Machine
end

