-- ==== Sys2Proof/Machine/RegionState.lean ====
section
/-! DEFINITION. The state of regions (chapter 8) and of the cask store (chapter 9) that no register holds. -/

namespace Sys2Proof.Machine

/-- Where a region stands in a command (R271, R274, R275, R278): fetching missing masters, waiting for a stop, for the boundary that detaches
its plan, for the boundary that starts its sweep, sweeping, waiting for the boundary that opens its load, loading, waiting for the boundary
that commits, for the RUN of AUTORUN at the boundary after that, and for the boundary that runs it. -/
inductive RPhase where | none | fetch | stop | detach | sweepStart | sweep | begin | load | commit | autorun | run
  deriving DecidableEq, Repr

/-- A region command in progress (R269). -/
structure RCmd where
  cmd : Nat
  plan : Nat
  tenant : Nat
  autorun : Bool
  keepLees : Bool
  deriving DecidableEq, Repr

/-- A fault of a core of the region, or of a droop or a silent core (R147, R537). order: 0 recorded, 1 silent core. -/
structure FaultRec where
  tick : Nat
  order : Nat
  stretch : Nat
  cycle : Nat
  core : Nat
  event : Nat
  pc : Nat
  deriving DecidableEq, Repr

/-- What a stopped region waits for: nothing, a replay (R148), or a recovery (R538). -/
inductive Await where | none | replay | recovery | moves
  deriving DecidableEq, Repr

/-- One region. inq and outq: the unit mailbox (R284); delivered: IN words handed over, with the ticks they opened, none of them closed
cleanly; again: words to hand over again in a replay; outWait: (tick,
sender, word) waiting for a clean close; closedTick: the last tick whose words entered OUT; seqs and tries: the next SEQ and the load
retries of each core (R264, R272); ended: cores that received END; missing: keys of masters being fetched; stopAt: the region stops at
the next boundary; faults: faults of the tick to be decided; lastReplay: event, core and pc of the fault last replayed; rp: NET_RP of the
plan's own programs (R266); heldSince: ns; released: a LOST region whose RELEASE completed (R285); dead: cores declared dead; swept: cores whose
sweep finished; covered: its streams are handed to the twin (R372); stopIn: boundaries until a commanded stop (R273), 0 for none; parts: the plan
regions that the command acts on (R259); result: the status of this region's part; fullSweep: the sweep's scope (R275); loadStart: hall time of
the load's opening; replayed: the running tick is a replay (R147); restart: the tick that the replay starts from (R208); deciding: the fault that
REG_UNIT_FAULT holds (R147); wasLost: the sweep in progress is that of a LOST region (R285); heldWin: CORE_SPAD_WIN.LEN of the cores whose rows
are being repaired (R299). -/
structure Region where
  cmd : Option RCmd
  phase : RPhase
  inq : List Word
  outq : List Word
  delivered : List (Nat × Word)
  again : List Word
  outWait : List (Nat × Nat × Word)
  closedTick : Nat
  ended : List Nat
  seqs : Table Nat
  tries : Table Nat
  missing : List (Nat × Nat × Nat)
  stopAt : Bool
  faults : List FaultRec
  await : Await
  lastReplay : Option (Nat × Nat × Nat)
  runAt : Bool
  rp : Table Word
  heldSince : Nat
  released : Bool
  dead : List Nat
  swept : List Nat
  covered : Bool
  stopIn : Nat
  parts : List Nat
  result : Nat
  fullSweep : Bool
  loadStart : Nat
  replayed : Bool
  restart : Nat
  deciding : Option FaultRec
  wasLost : Bool
  heldWin : Table Nat
  deriving DecidableEq, Repr

/-- A master in the cask directory (R294). key: (PLAN_ID, TARGET, VERSION); source: its hall address. -/
structure Master where
  plan : Nat
  target : Nat
  version : Nat
  image : List Byte
  tenant : Nat
  source : Option Nat
  bad : Bool
  retired : Bool
  tries : Nat
  deriving DecidableEq, Repr

/-- A resident copy of a cask in a core's window (R294): its key, its first row, its number of rows and its bank; live: it is in force. -/
structure Resident where
  core : Nat
  plan : Nat
  target : Nat
  version : Nat
  row : Nat
  rows : Nat
  bank : Nat
  deriving DecidableEq, Repr

/-- A store operation in progress (R296); verify: the key whose master VERIFY has repaired. -/
structure CaskOp where
  hall : Bool
  addr : Nat
  len : Nat
  tenant : Nat
  attempts : Nat
  verify : Option (Nat × Nat × Nat)
  deriving DecidableEq, Repr

/-- A fetch of an image by its key (R293, R304, R503): the hall address it comes from, or none from the twin's cask store; left: the sources to be
tried after it, each the twin's store or a hall address with a length; tenant: for whom an absent master is stored. -/
structure CaskFetch where
  plan : Nat
  target : Nat
  version : Nat
  addr : Option Nat
  left : List (Option (Nat × Nat))
  tenant : Nat
  deriving DecidableEq, Repr

/-- A rack in progress (R306–R310): region, successor plan, its new version and the old one, and the hall time of the flip. -/
structure Rack where
  region : Nat
  successor : Nat
  oldPlan : Nat
  flipReq : Bool
  flip : Bool
  flipAt : Nat
  deriving DecidableEq, Repr

/-- The plan store and the cask store. residents: what the Keep's resident map lists; rack: the one rack of the engine; fetches: images
on their way; unfound: keys that no source yielded; staging: the bytes of the BAR2 staging area, by port and offset (R319). Of the plan set in force: transit: NET_RP of each router's transit-only program; transitRoutes: the entries of the
transit template in each route store (R197); rimSlots: the slot table of each rim link, by 4 * edge core + port (R205). live: the version that a FLIP
put in force for a plan (R308). -/
structure StoreSt where
  plans : Table (List Byte)
  masters : List Master
  residents : List Resident
  op : Option CaskOp
  rack : Option Rack
  fetches : List CaskFetch
  unfound : List (Nat × Nat × Nat)
  staging : Table Byte
  transit : Table Word
  transitRoutes : Table (Table Word)
  rimSlots : Table (List Word)
  live : Table Nat
  deriving DecidableEq, Repr

def StoreSt.initial : StoreSt := ⟨[], [], [], none, none, [], [], [], [], [], [], []⟩

end Sys2Proof.Machine
end

