-- ==== Sys2Proof/Machine/StreamState.lean ====
section
/-! DEFINITION. The state of streams, queue pairs and the journal (chapters 7, 10 and 11) that no register holds. -/

namespace Sys2Proof.Machine

/-- The stream states of R327. -/
inductive SState where | opened | prefill | ready | generating | parked | closed
  deriving DecidableEq, Repr

/-- A page in the cellar or in hall memory (R238, R246, R251). sealedBlocks: 0 to 4; hall: only hall memory holds it, with its check (R249);
cells: the rows of its frame by layer, where a layer not listed holds zeros (R239); place: its extent and offset in the hall pool (R396);
fetching: a READ of it is under way. -/
structure Page where
  tenant : Nat
  sealedBlocks : Nat
  hall : Bool
  check : Nat
  cells : Table (List RowData)
  place : Option (Nat × Nat)
  fetching : Bool
  deriving DecidableEq, Repr

/-- A frame of a member that holds a page (R238, R243): where it lies, the page, and the pipeline
positions whose entries name it with their streams' slots. -/
structure KvFrame where
  layer : Nat
  group : Nat
  member : Nat
  base : Nat
  page : Nat
  seats : List (Nat × Nat)
  deriving DecidableEq, Repr

/-- The rows of a sealed block that a member exported and that are still to reach the cellar (R231, R246): rows of the frame with their places. -/
structure SealExport where
  slot : Nat
  layer : Nat
  block : Nat
  rows : List (Nat × RowData)
  deriving DecidableEq, Repr

/-- A step word (R341). kind: 1 SEAT, 2 STEP, 3 VERIFY, 4 UNSEAT; rows: the embedding rows that follow. -/
structure StepWord where
  kind : Nat
  pos : Nat
  bank : Nat
  embed : Bool
  count : Nat
  first : Nat
  handle : Nat
  tokens : List Nat
  rows : List Byte
  deriving DecidableEq, Repr

/-- A GENERATE in progress (R333): its command, the tokens emitted, whether a later command interrupts it (R334), whether a step is in
flight, the drafts that step presents (R232), whether its completion is discarded (R317), and its status and DETAIL once it has ended and waits for
its tokens to be recorded. -/
structure Run where
  cmd : Nat
  emitted : Nat
  interrupted : Bool
  inFlight : Bool
  drafts : List Nat
  discard : Bool
  ended : Option (Nat × Nat)
  deriving DecidableEq, Repr

/-- A token sampled in a tick that has not yet closed cleanly (R112): the tick, its token entry, its queue pair and
IRQ_TOK, and the drafts that its pass presented. -/
structure Sampled where
  tick : Nat
  entry : List Byte
  qp : Nat
  irq : Bool
  drafts : List Nat
  deriving DecidableEq, Repr

/-- One stream slot (R325–R327). log: one word per position, oldest first (R250); embeds: embeddings by position; pages: page IDs in page
order; tail and prevTail: the tail record and the previous buffer's rows by layer while it has no seat (R240, R248); prev: the previous buffer
holds the last sealed block, cur: the current buffer (R231, R242); built: positions whose keys and values are formed; redo: positions of its log are
re-prefilled (R250, R253); appended: positions that the running APPEND has appended (R332); seat: pipeline position (R340); idleTick: the tick since
which it is idle; parkedAt: ns; withhold: positions from here on are not released (R335); mirror: a mirror of the twin's stream (R326); covered:
handed to the twin (R372); mirrored: positions whose pages the twin's cellar holds (R361); gap: the first position whose page no mirror write of this
stream carries (R359); bulk: the leading positions of a mirror whose log words lie in the mirror store, under the handle bulkOf (R359); waiting: it waits
for a frame (R247); wants: it waits for a position (R340); lost: both copies of its log are lost (R378). -/
structure Stream where
  gen : Nat
  tenant : Nat
  qp : Nat
  region : Nat
  version : Nat
  seed : Nat
  epoch : Nat
  state : SState
  log : List Nat
  embeds : Table (List Byte)
  pages : List Nat
  tail : Table (List RowData)
  prevTail : Table (List RowData)
  prev : Bool
  cur : Nat
  built : Nat
  redo : Bool
  appended : Nat
  seat : Option Nat
  idleTick : Nat
  parkedAt : Nat
  withhold : Option Nat
  run : Option Run
  sampled : List Sampled
  mirror : Bool
  covered : Bool
  mirrored : Nat
  gap : Option Nat
  bulk : Nat
  bulkOf : Nat
  waiting : Bool
  wants : Bool
  lost : Bool
  deriving DecidableEq, Repr

/-- Where a ledger command stands (R321, R330); mirrored: a partner's, which it may or may not have accepted (R370). -/
inductive CPhase where | fetched | mirrored | accepted | done
  deriving DecidableEq, Repr

/-- A ledger command (R328). jsn: its last journal record, 0 for one that failed at fetch; fail: the status and DETAIL of a failed check 1
to 3 or of the DMA rule (R322). discard: its completion is discarded (R317). emitted and ended: of a partner's GENERATE, the committed tokens, and the
status and DETAIL of its end when the last of them ends it (R370). -/
structure LCmd where
  id : Nat
  qp : Nat
  op : Nat
  flags : Nat
  handle : Nat
  tag : List Byte
  entry : List Byte
  data : List Byte
  jsn : Nat
  fail : Option (Nat × Nat)
  phase : CPhase
  discard : Bool
  emitted : Nat
  ended : Option (Nat × Nat)
  deriving DecidableEq, Repr

/-- One queue pair (R320–R324). bound: EN is in force; indexed: its index block is read; out: entries written, newest first; hold and
overflow: R324; stalled: the EV_EMIT_BACKPRESSURE episode; fails: consecutive failed DMA reads of the entry at the fetch position. -/
structure QPair where
  bound : Bool
  indexed : Bool
  fetchPos : Nat
  ci : Nat
  emitPi : Nat
  emitCi : Nat
  out : List (List Byte)
  hold : List (List Byte × Bool)
  overflow : List (List Byte × Bool)
  stalled : Bool
  fails : Nat
  closing : Bool
  deriving DecidableEq, Repr

/-- An emission entry whose journal record is not yet committed (R348). pos: the position of a token entry. -/
structure Emit where
  jsn : Nat
  qp : Nat
  bytes : List Byte
  irq : Bool
  handle : Nat
  pos : Option Nat
  cmd : Option Nat
  deriving DecidableEq, Repr

/-- The journal (R360–R364). next: the JSN of the next record; acked: the highest JSN the twin has acknowledged; ring: the engine's own ring,
oldest first; partner: the ring of the twin's records; through: the highest JSN whose entries are written; full: the EV_JOURNAL_FULL
episode. -/
structure Journal where
  next : Nat
  acked : Nat
  ring : List JRec
  partner : List JRec
  partnerNext : Nat
  through : Nat
  full : Bool
  partnerFull : Bool
  deriving DecidableEq, Repr

/-- Streams by slot, pages by ID, ledger commands by ID, queue pairs, the queue of entries waiting for their commit, the round-robin start
(R321), the words that the rim's host block sends to the serving plan, newest first (R341), the frames that hold pages, the sealed rows on their way
to the cellar, the next SEQ of each core and the words that the pagers deliver in their slots by core, newest first (R244). -/
structure StreamSt where
  slots : Table Stream
  pages : Table Page
  nextPage : Nat
  cmds : List LCmd
  nextCmd : Nat
  qps : Table QPair
  emits : List Emit
  rr : Nat
  journal : Journal
  stepWords : List StepWord
  frames : List KvFrame
  exports : List SealExport
  seqs : Table Nat
  pagerWords : List (Nat × NetWord)
  deriving DecidableEq, Repr

def StreamSt.initial : StreamSt :=
  ⟨[], [], 1, [], 1, [], [], 0, ⟨1, 0, [], [], 1, 0, false, false⟩, [], [], [], [], []⟩

end Sys2Proof.Machine
end

