-- ==== Sys2Proof/Machine/TwinState.lean ====
section
/-! DEFINITION. The state of twin pairing (chapter 11) that no register holds. -/

namespace Sys2Proof.Machine

/-- What an offer carries (R357): node ID, identity public key, ordering code, boot count, family digest, owned open streams, role, this engine's nonce
and that of the peer's latest offer, and the signature over all of it. -/
structure OfferOut where
  node : Nat
  pubKey : List Byte
  order : Nat
  boot : Nat
  family : List Byte
  owned : Nat
  role : Nat
  nonce : Nat
  answered : Nat
  sig : List Byte
  deriving DecidableEq, Repr

/-- A message sent to the twin: an offer (R357), a key exchange (R391), a FENCE or FENCE_ACK with its number (R368,
R369), or an acknowledgement of a JSN (R362). -/
inductive TwinOut where
  | offer (m : OfferOut)
  | keyx
  | fence (num : Nat)
  | fenceAck (boot num : Nat)
  | ack (jsn : Nat)
  | askAgain (jsn : Nat)
  deriving DecidableEq, Repr

/-- Twin pairing. nonce: of this engine's latest offer; peerNonce: of the peer's; checked: the peer's offer passed every check; causes: causes
already reported; slow: offers go once per second; pairKey: agreed under R391; misses: consecutive; lastHb: the last heartbeat received;
hbSent: heartbeats sent, newest first; sent: other messages, newest first; fencedBoot: the boot count of a peer this engine fenced; marker
and recorded: the fence marker and the state in the head of the journal ring (R379); adopted: its
queue pairs; mirrorQps: the partner's bindings; mcmds: the partner's commands not yet completed; owed: its committed entries that it has not reported as written (R364); hbWait: a planned restart of the peer is
being waited for (R367); peerBoot, peerCellar, peerCarrying: from its offer; lastFence: the number of the last FENCE accepted (R391); resync: the
handles whose mirror is being copied (R359), each with the JSN whose acknowledgement completes it once its copy has landed, and resyncAll: their number
at the start; taking: a takeover whose adopted queue pairs are not all written up (R370). -/
structure TwinSt where
  nonce : Nat
  peerNonce : Nat
  checked : Bool
  causes : List Nat
  slow : Bool
  pairKey : Option (List Byte)
  misses : Nat
  lastHb : Option TwinHb
  hbSent : List TwinHb
  sent : List TwinOut
  fenceNum : Nat
  fencedBoot : Option Nat
  marker : Bool
  recorded : Nat
  adopted : List Nat
  mirrorQps : Table (List Byte)
  mcmds : List LCmd
  owed : List Emit
  hbWait : Bool
  peerBoot : Nat
  peerCellar : Nat
  carrying : Bool
  peerCarrying : Bool
  lastFence : Nat
  resync : List (Nat × Option Nat)
  resyncAll : Nat
  taking : Bool
  deriving DecidableEq, Repr

def TwinSt.initial : TwinSt where
  nonce := 0
  peerNonce := 0
  checked := false
  causes := []
  slow := false
  pairKey := none
  misses := 0
  lastHb := none
  hbSent := []
  sent := []
  fenceNum := 0
  fencedBoot := none
  marker := false
  recorded := 0
  adopted := []
  mirrorQps := []
  mcmds := []
  owed := []
  hbWait := false
  peerBoot := 0
  peerCellar := 0
  carrying := false
  peerCarrying := false
  lastFence := 0
  resync := []
  resyncAll := 0
  taking := false

end Sys2Proof.Machine
end

