-- ==== Sys2Proof/Machine/State.lean ====
section
/-! DEFINITION. The state of the engine as plain data, the reasons a command can stop, and the state right after reset. -/

namespace Sys2Proof.Machine

/-! ## Registers -/

/-- The register blocks (R16, R318, R463). -/
inductive Block where
  | keep | belfry | boot | sec | tick | reg | cask | strm | pager | twin | pwr | thm | chan | fab | core | net
  deriving DecidableEq, Repr

/-- The base access codes of R18. -/
inductive Acc where | rw | ro | wo | w1c | rc
  deriving DecidableEq, Repr

/-- A register field: the Keep address of instance 0, the distance between instances, how many there are, its lowest bit and width, its access code with the
qualifiers CS, FR and EX (R18), and the reset value of its whole register. -/
structure Field where
  base : Nat
  stride : Nat
  count : Nat
  lo : Nat
  width : Nat
  acc : Acc
  cs : Bool
  fr : Bool
  ex : Bool
  regRst : Nat
  deriving DecidableEq, Repr

/-- A register: its name, block, address of instance 0, distance between instances, number of instances, and fields. -/
structure Reg where
  name : String
  blk : Block
  base : Nat
  stride : Nat
  count : Nat
  fields : List Field
  deriving DecidableEq, Repr

/-! ## Time and events -/

/-- The clocks. hall: hall time in units of 1/84 ns, in which every clock step's period is whole (R43, R406); cyc: the cycle of the
tick, stretch cycles included (R180); nextStep: a clock step waiting for its boundary (R43); gated: the arithmetic clock is gated (R44,
R432); slew: what hall time has still to gain by slewing, in its units (R407); slewAcc: time passed since its last unit; lossAt: hall time in ns of
the last loss of lock; lastStretch: S of the tick that the last boundary closed (R537); fallback: the halves run from their fallback PLLs (R44); steady: the failed PLL has held its lock for a second (R45); held: two
losses within an hour hold the halves at 400 MHz (R45); refLost: REFCLK is away (R523). -/
structure Clk where
  hall : Nat
  cyc : Nat
  nextStep : Option Nat
  gated : Bool
  slew : Int
  slewAcc : Nat
  lossAt : Option Nat
  lastStretch : Nat
  fallback : Bool
  steady : Bool
  held : Bool
  refLost : Bool
  deriving DecidableEq, Repr

/-- An event record (R476). -/
structure EvRec where
  hall : Nat
  seq : Nat
  code : Nat
  kind : Nat
  tenant : Nat
  region : Nat
  unit : Nat
  data : Word
  deriving DecidableEq, Repr

/-! ## Why a command stops -/

/-- The machine stops with a fault. -/
inductive Fault where
  /-- Raised by every command that names a core outside the logical array of 14,592 cores (R33). Safe: the spec gives no such core. -/
  | noSuchCore (c : Nat)
  deriving DecidableEq, Repr

/-- A command the model gives no meaning. -/
inductive Refusal where
  /-- Raised by the arm of exec of a command that has no meaning yet. Safe: nothing is claimed of the command. -/
  | notModelled (mnemonic : String)
  deriving DecidableEq, Repr

/-! ## The state -/

/-- The engine. regs: live register values by Keep address (R463); shadow: staged values of commit-staged registers; captured: values
that a COMMIT captured for the next boundary (R20). A register that a table does not list holds its reset value. pending: the commands
that wait, first in, first out. -/
structure State where
  regs : Table Word
  shadow : Table Word
  captured : Table Word
  clk : Clk
  cores : Table Core
  events : List EvRec
  alarmFlash : List EvRec
  alarmsDeferred : List EvRec
  bel : BelfrySt
  pcie : Table Pcie
  bifurcated : Bool
  keep : KeepSt
  ctlSent : List CtlPacket
  net : NetSt
  units : Table Region
  store : StoreSt
  strm : StreamSt
  twin : TwinSt
  fab : FabricSt
  pwr : PowerSt
  thm : ThermSt
  freeCtr : Nat
  pending : List Instr
  deriving DecidableEq, Repr

/-- The state right after reset. -/
def State.reset : State where
  regs := [(0x10501000, 0x0003FFFF00003FFF), (0x10501008, 0xFF03FFFFFF), (0x10510000, 0x8000000000000000)]
  shadow := []
  captured := []
  clk := { hall := 0, cyc := 0, nextStep := none, gated := true, slew := 0, slewAcc := 0, lossAt := none, lastStretch := 0, fallback := false, steady := false, held := false, refLost := false }
  cores := []
  events := []
  alarmFlash := []
  alarmsDeferred := []
  bel := ⟨false, [], [], [], [], [], []⟩
  pcie := []
  bifurcated := false
  keep := KeepSt.initial
  ctlSent := []
  net := NetSt.initial
  units := []
  store := StoreSt.initial
  strm := StreamSt.initial
  twin := TwinSt.initial
  fab := FabricSt.initial
  pwr := PowerSt.initial
  thm := ThermSt.initial
  freeCtr := 0
  pending := []

end Sys2Proof.Machine
end

