-- ==== Sys2Proof/Machine/RegTable.lean ====
section
/-! DEFINITION. Every register the spec tabulates, field by field: its address in the Keep's address map (R463, R318, R115, R220),
its bits, its access code (R18) and its reset value. The name of a field is <REGISTER>_<FIELD>, as the spec spells both. The queue pairs from 64 on are the
twin's that this engine has adopted or whose streams it serves (R349, R372); no address reaches them. -/

namespace Sys2Proof.Machine.F

def KEEP_FIELD_MAP_LO_ROW_0 : Field := ⟨0x10001000, 0x10, 48, 0, 8, .ro, false, false, false, 0x1F1F1F1F1F1F1F1F⟩
def KEEP_FIELD_MAP_LO_ROW_1 : Field := ⟨0x10001000, 0x10, 48, 8, 8, .ro, false, false, false, 0x1F1F1F1F1F1F1F1F⟩
def KEEP_FIELD_MAP_LO_ROW_2 : Field := ⟨0x10001000, 0x10, 48, 16, 8, .ro, false, false, false, 0x1F1F1F1F1F1F1F1F⟩
def KEEP_FIELD_MAP_LO_ROW_3 : Field := ⟨0x10001000, 0x10, 48, 24, 8, .ro, false, false, false, 0x1F1F1F1F1F1F1F1F⟩
def KEEP_FIELD_MAP_LO_ROW_4 : Field := ⟨0x10001000, 0x10, 48, 32, 8, .ro, false, false, false, 0x1F1F1F1F1F1F1F1F⟩
def KEEP_FIELD_MAP_LO_ROW_5 : Field := ⟨0x10001000, 0x10, 48, 40, 8, .ro, false, false, false, 0x1F1F1F1F1F1F1F1F⟩
def KEEP_FIELD_MAP_LO_ROW_6 : Field := ⟨0x10001000, 0x10, 48, 48, 8, .ro, false, false, false, 0x1F1F1F1F1F1F1F1F⟩
def KEEP_FIELD_MAP_LO_ROW_7 : Field := ⟨0x10001000, 0x10, 48, 56, 8, .ro, false, false, false, 0x1F1F1F1F1F1F1F1F⟩
def KEEP_FIELD_MAP_HI_ROW_0 : Field := ⟨0x10001008, 0x10, 48, 0, 8, .ro, false, false, false, 0x1F1F1F1F1F1F1F1F⟩
def KEEP_FIELD_MAP_HI_ROW_1 : Field := ⟨0x10001008, 0x10, 48, 8, 8, .ro, false, false, false, 0x1F1F1F1F1F1F1F1F⟩
def KEEP_FIELD_MAP_HI_ROW_2 : Field := ⟨0x10001008, 0x10, 48, 16, 8, .ro, false, false, false, 0x1F1F1F1F1F1F1F1F⟩
def KEEP_FIELD_MAP_HI_ROW_3 : Field := ⟨0x10001008, 0x10, 48, 24, 8, .ro, false, false, false, 0x1F1F1F1F1F1F1F1F⟩
def KEEP_FIELD_MAP_HI_ROW_4 : Field := ⟨0x10001008, 0x10, 48, 32, 8, .ro, false, false, false, 0x1F1F1F1F1F1F1F1F⟩
def KEEP_FIELD_MAP_HI_ROW_5 : Field := ⟨0x10001008, 0x10, 48, 40, 8, .ro, false, false, false, 0x1F1F1F1F1F1F1F1F⟩
def KEEP_FIELD_MAP_HI_ROW_6 : Field := ⟨0x10001008, 0x10, 48, 48, 8, .ro, false, false, false, 0x1F1F1F1F1F1F1F1F⟩
def KEEP_FIELD_MAP_HI_ROW_7 : Field := ⟨0x10001008, 0x10, 48, 56, 8, .ro, false, false, false, 0x1F1F1F1F1F1F1F1F⟩
def KEEP_FIELD_LOST_LOST : Field := ⟨0x10001400, 0x0, 1, 0, 48, .ro, false, false, false, 0x0⟩
def KEEP_ID_STACK_GIB : Field := ⟨0x10000000, 0x0, 1, 40, 8, .ro, false, false, false, 0xB000000B48⟩
def KEEP_ID_STEPPING : Field := ⟨0x10000000, 0x0, 1, 32, 8, .ro, false, false, false, 0xB000000B48⟩
def KEEP_ID_ORDER : Field := ⟨0x10000000, 0x0, 1, 24, 8, .ro, false, false, false, 0xB000000B48⟩
def KEEP_ID_DEVICE : Field := ⟨0x10000000, 0x0, 1, 0, 16, .ro, false, false, false, 0xB000000B48⟩
def KEEP_CTL_EXPERT_EN : Field := ⟨0x10000008, 0x0, 1, 8, 1, .rw, false, false, false, 0x0⟩
def KEEP_CTL_DEEP_IDLE : Field := ⟨0x10000008, 0x0, 1, 0, 1, .rw, false, false, false, 0x0⟩
def KEEP_STATUS_MC_DOWN : Field := ⟨0x10000010, 0x0, 1, 48, 8, .ro, false, false, false, 0x0⟩
def KEEP_STATUS_CAUSE : Field := ⟨0x10000010, 0x0, 1, 32, 8, .ro, false, false, false, 0x0⟩
def KEEP_STATUS_RESTARTS : Field := ⟨0x10000010, 0x0, 1, 16, 16, .ro, false, false, false, 0x0⟩
def KEEP_STATUS_PLANNED_RESTART : Field := ⟨0x10000010, 0x0, 1, 2, 1, .ro, false, false, false, 0x0⟩
def KEEP_STATUS_OK : Field := ⟨0x10000010, 0x0, 1, 0, 1, .ro, false, false, false, 0x0⟩
def KEEP_CNT_SRAM_CORR : Field := ⟨0x10000018, 0x0, 1, 48, 16, .rc, false, false, false, 0x0⟩
def KEEP_CNT_MBOX_BUSY : Field := ⟨0x10000018, 0x0, 1, 32, 16, .rc, false, false, false, 0x0⟩
def KEEP_CNT_CTL_TIMEOUT : Field := ⟨0x10000018, 0x0, 1, 16, 16, .rc, false, false, false, 0x0⟩
def KEEP_CNT_SELFTEST_FAIL : Field := ⟨0x10000018, 0x0, 1, 0, 16, .rc, false, false, false, 0x0⟩
def KEEP_EV_SEQ_SEQ : Field := ⟨0x10000020, 0x0, 1, 0, 64, .ro, false, false, false, 0x0⟩
def KEEP_WDT_PERIOD : Field := ⟨0x10000100, 0x8, 8, 16, 16, .rw, false, false, true, 0x640001⟩
def KEEP_WDT_KICK : Field := ⟨0x10000100, 0x8, 8, 8, 1, .wo, false, false, false, 0x640001⟩
def KEEP_WDT_STAGE : Field := ⟨0x10000100, 0x8, 8, 1, 2, .ro, false, false, false, 0x640001⟩
def KEEP_WDT_EN : Field := ⟨0x10000100, 0x8, 8, 0, 1, .rw, false, false, true, 0x640001⟩
def BELFRY_CTL_EXPERT_EN : Field := ⟨0x10100000, 0x0, 1, 8, 1, .rw, false, false, false, 0x0⟩
def BELFRY_CNT_SPURIOUS : Field := ⟨0x10100008, 0x0, 1, 48, 16, .rc, false, false, false, 0x0⟩
def BELFRY_CNT_BAD_COMPLETE : Field := ⟨0x10100008, 0x0, 1, 32, 16, .rc, false, false, false, 0x0⟩
def BELFRY_CNT_SAT_LOST : Field := ⟨0x10100008, 0x0, 1, 16, 16, .rc, false, false, false, 0x0⟩
def BELFRY_CNT_MSI_DROP : Field := ⟨0x10100008, 0x0, 1, 0, 16, .rc, false, false, false, 0x0⟩
def BELFRY_TGT_RUNNING : Field := ⟨0x10100100, 0x8, 10, 16, 4, .ro, false, false, false, 0x0⟩
def BELFRY_TGT_THRESH : Field := ⟨0x10100100, 0x8, 10, 0, 4, .rw, false, false, false, 0x0⟩
def BELFRY_SRC_CFG_FORCE : Field := ⟨0x10102000, 0x10, 1024, 63, 1, .wo, false, false, false, 0x0⟩
def BELFRY_SRC_CFG_COAL_TIME : Field := ⟨0x10102000, 0x10, 1024, 40, 16, .rw, false, false, true, 0x0⟩
def BELFRY_SRC_CFG_COAL_COUNT : Field := ⟨0x10102000, 0x10, 1024, 32, 8, .rw, false, false, true, 0x0⟩
def BELFRY_SRC_CFG_COAL : Field := ⟨0x10102000, 0x10, 1024, 30, 2, .rw, false, false, false, 0x0⟩
def BELFRY_SRC_CFG_AUTO : Field := ⟨0x10102000, 0x10, 1024, 29, 1, .rw, false, false, false, 0x0⟩
def BELFRY_SRC_CFG_VECTOR : Field := ⟨0x10102000, 0x10, 1024, 18, 11, .rw, false, false, false, 0x0⟩
def BELFRY_SRC_CFG_PRIO : Field := ⟨0x10102000, 0x10, 1024, 14, 4, .rw, false, false, false, 0x0⟩
def BELFRY_SRC_CFG_MASK : Field := ⟨0x10102000, 0x10, 1024, 0, 10, .rw, false, false, false, 0x0⟩
def BELFRY_SRC_STATUS_CLAIMER : Field := ⟨0x10102008, 0x10, 1024, 20, 4, .ro, false, false, false, 0xF00000⟩
def BELFRY_SRC_STATUS_ACTIVE : Field := ⟨0x10102008, 0x10, 1024, 19, 1, .ro, false, false, false, 0xF00000⟩
def BELFRY_SRC_STATUS_LATCHED : Field := ⟨0x10102008, 0x10, 1024, 18, 1, .w1c, false, false, false, 0xF00000⟩
def BELFRY_SRC_STATUS_SAT : Field := ⟨0x10102008, 0x10, 1024, 17, 1, .w1c, false, false, false, 0xF00000⟩
def BELFRY_SRC_STATUS_DUE : Field := ⟨0x10102008, 0x10, 1024, 16, 1, .ro, false, false, false, 0xF00000⟩
def BELFRY_SRC_STATUS_PENDING : Field := ⟨0x10102008, 0x10, 1024, 0, 8, .ro, false, false, false, 0xF00000⟩
def BOOT_CTL_READY_WAIT : Field := ⟨0x10200000, 0x0, 1, 20, 12, .rw, false, false, true, 0x12C00001⟩
def BOOT_CTL_BIST_LEVEL : Field := ⟨0x10200000, 0x0, 1, 16, 2, .rw, false, false, true, 0x12C00001⟩
def BOOT_CTL_EXPERT_EN : Field := ⟨0x10200000, 0x0, 1, 8, 1, .rw, false, false, false, 0x12C00001⟩
def BOOT_CTL_START_LIST_EN : Field := ⟨0x10200000, 0x0, 1, 0, 1, .rw, false, false, false, 0x12C00001⟩
def BOOT_STATUS_CAUSE : Field := ⟨0x10200008, 0x0, 1, 56, 8, .ro, false, false, false, 0x1⟩
def BOOT_STATUS_PARTIAL : Field := ⟨0x10200008, 0x0, 1, 12, 1, .ro, false, false, false, 0x1⟩
def BOOT_STATUS_SETTINGS_DEFAULT : Field := ⟨0x10200008, 0x0, 1, 11, 1, .ro, false, false, false, 0x1⟩
def BOOT_STATUS_WARM : Field := ⟨0x10200008, 0x0, 1, 10, 1, .ro, false, false, false, 0x1⟩
def BOOT_STATUS_TRIAL : Field := ⟨0x10200008, 0x0, 1, 9, 1, .ro, false, false, false, 0x1⟩
def BOOT_STATUS_SLOT : Field := ⟨0x10200008, 0x0, 1, 8, 1, .ro, false, false, false, 0x1⟩
def BOOT_STATUS_PHASE : Field := ⟨0x10200008, 0x0, 1, 0, 4, .ro, false, false, false, 0x1⟩
def BOOT_RESTART_STATUS : Field := ⟨0x10200010, 0x0, 1, 56, 8, .ro, false, false, false, 0x0⟩
def BOOT_RESTART_CMD : Field := ⟨0x10200010, 0x0, 1, 0, 4, .wo, false, false, false, 0x0⟩
def BOOT_COUNT_COUNT : Field := ⟨0x10200018, 0x0, 1, 0, 64, .ro, false, false, false, 0x0⟩
def BOOT_TIME_READY_MS : Field := ⟨0x10200020, 0x0, 1, 32, 32, .ro, false, false, false, 0x0⟩
def BOOT_TIME_PHASE_MS : Field := ⟨0x10200020, 0x0, 1, 0, 32, .ro, false, false, false, 0x0⟩
def BOOT_UPD_STATUS : Field := ⟨0x10200028, 0x0, 1, 56, 8, .ro, false, false, false, 0x0⟩
def BOOT_UPD_STATE : Field := ⟨0x10200028, 0x0, 1, 48, 8, .ro, false, false, false, 0x0⟩
def BOOT_UPD_SVN : Field := ⟨0x10200028, 0x0, 1, 16, 32, .ro, false, false, false, 0x0⟩
def BOOT_UPD_PROGRESS : Field := ⟨0x10200028, 0x0, 1, 0, 7, .ro, false, false, false, 0x0⟩
def SEC_CTL_LIFE : Field := ⟨0x10300000, 0x0, 1, 24, 16, .rw, false, false, true, 0x5A0080001⟩
def SEC_CTL_FAIL_LIMIT : Field := ⟨0x10300000, 0x0, 1, 16, 8, .rw, false, false, true, 0x5A0080001⟩
def SEC_CTL_EXPERT_EN : Field := ⟨0x10300000, 0x0, 1, 8, 1, .rw, false, false, false, 0x5A0080001⟩
def SEC_CTL_UART_SESSION_EN : Field := ⟨0x10300000, 0x0, 1, 0, 1, .rw, false, false, false, 0x5A0080001⟩
def SEC_STATUS_SESSIONS : Field := ⟨0x10300008, 0x0, 1, 8, 8, .ro, false, false, false, 0x0⟩
def SEC_STATUS_IDENTITY : Field := ⟨0x10300008, 0x0, 1, 1, 1, .ro, false, false, false, 0x0⟩
def SEC_STATUS_OPERATOR_KEY : Field := ⟨0x10300008, 0x0, 1, 0, 1, .ro, false, false, false, 0x0⟩
def SEC_PORT_SESSION_TENANT : Field := ⟨0x10300010, 0x8, 2, 32, 8, .ro, false, false, false, 0x0⟩
def SEC_PORT_SESSION_SESSION : Field := ⟨0x10300010, 0x8, 2, 0, 32, .ro, false, false, false, 0x0⟩
def SEC_CNT_OPEN_FAIL : Field := ⟨0x10300020, 0x0, 1, 16, 16, .rc, false, false, false, 0x0⟩
def SEC_CNT_OPENED : Field := ⟨0x10300020, 0x0, 1, 0, 16, .rc, false, false, false, 0x0⟩
def SEC_ID_FP_FP : Field := ⟨0x10300040, 0x8, 4, 0, 64, .ro, false, false, false, 0x0⟩
def SEC_KEYS_PRESENT : Field := ⟨0x10300080, 0x8, 4, 0, 64, .ro, false, false, false, 0x0⟩
def TICK_CTL_SHADOW_VIEW : Field := ⟨0x10400000, 0x0, 1, 9, 1, .rw, false, false, false, 0xC⟩
def TICK_CTL_EXPERT_EN : Field := ⟨0x10400000, 0x0, 1, 8, 1, .rw, false, false, false, 0xC⟩
def TICK_CTL_K : Field := ⟨0x10400000, 0x0, 1, 0, 5, .rw, true, true, false, 0xC⟩
def TICK_COMMIT_COMMIT_STATUS : Field := ⟨0x10400008, 0x0, 1, 56, 8, .ro, false, false, false, 0x0⟩
def TICK_COMMIT_WRITE_STATUS : Field := ⟨0x10400008, 0x0, 1, 48, 8, .rc, false, false, false, 0x0⟩
def TICK_COMMIT_COMMIT : Field := ⟨0x10400008, 0x0, 1, 0, 1, .wo, false, false, false, 0x0⟩
def TICK_COUNT_COUNT : Field := ⟨0x10400010, 0x0, 1, 0, 64, .ro, false, false, false, 0x0⟩
def TICK_STAMP_HALL : Field := ⟨0x10400018, 0x0, 1, 0, 64, .ro, false, false, false, 0x0⟩
def TICK_STRETCH_FORCE_EN : Field := ⟨0x10400020, 0x0, 1, 51, 1, .rw, true, false, true, 0x0⟩
def TICK_STRETCH_FORCE : Field := ⟨0x10400020, 0x0, 1, 34, 17, .rw, true, false, true, 0x0⟩
def TICK_STRETCH_FLOOR : Field := ⟨0x10400020, 0x0, 1, 17, 17, .rw, true, false, false, 0x0⟩
def TICK_STRETCH_CUR : Field := ⟨0x10400020, 0x0, 1, 0, 17, .ro, false, false, false, 0x0⟩
def TICK_CLK_STATUS_FALLBACK_CNT : Field := ⟨0x10400040, 0x0, 1, 16, 16, .rc, false, false, false, 0x3⟩
def TICK_CLK_STATUS_FALLBACK : Field := ⟨0x10400040, 0x0, 1, 4, 1, .w1c, false, false, false, 0x3⟩
def TICK_CLK_STATUS_E_LOCK : Field := ⟨0x10400040, 0x0, 1, 3, 1, .ro, false, false, false, 0x3⟩
def TICK_CLK_STATUS_W_LOCK : Field := ⟨0x10400040, 0x0, 1, 2, 1, .ro, false, false, false, 0x3⟩
def TICK_CLK_STATUS_STEP : Field := ⟨0x10400040, 0x0, 1, 0, 2, .ro, false, false, false, 0x3⟩
def REG_CTL_HOLD_LIMIT : Field := ⟨0x10500000, 0x0, 1, 24, 16, .rw, true, false, false, 0x258020000⟩
def REG_CTL_LOAD_RETRY : Field := ⟨0x10500000, 0x0, 1, 17, 2, .rw, true, false, true, 0x258020000⟩
def REG_CTL_FORCE_FULL : Field := ⟨0x10500000, 0x0, 1, 16, 1, .rw, true, false, true, 0x258020000⟩
def REG_CTL_SHADOW_VIEW : Field := ⟨0x10500000, 0x0, 1, 9, 1, .rw, false, false, false, 0x258020000⟩
def REG_CTL_EXPERT_EN : Field := ⟨0x10500000, 0x0, 1, 8, 1, .rw, false, false, false, 0x258020000⟩
def REG_COMMIT_COMMIT_STATUS : Field := ⟨0x10500008, 0x0, 1, 56, 8, .ro, false, false, false, 0x0⟩
def REG_COMMIT_WRITE_STATUS : Field := ⟨0x10500008, 0x0, 1, 48, 8, .rc, false, false, false, 0x0⟩
def REG_COMMIT_COMMIT : Field := ⟨0x10500008, 0x0, 1, 0, 1, .wo, false, false, false, 0x0⟩
def REG_STATUS_PLAN_SET : Field := ⟨0x10500010, 0x0, 1, 32, 32, .ro, false, false, false, 0x1⟩
def REG_STATUS_COMMIT_STATUS : Field := ⟨0x10500010, 0x0, 1, 24, 8, .ro, false, false, false, 0x1⟩
def REG_STATUS_DESC_USED : Field := ⟨0x10500010, 0x0, 1, 0, 13, .ro, false, false, false, 0x1⟩
def REG_CNT_SWEEPS : Field := ⟨0x10500018, 0x0, 1, 32, 16, .rc, false, false, false, 0x0⟩
def REG_CNT_BIND_FAIL : Field := ⟨0x10500018, 0x0, 1, 16, 16, .rc, false, false, false, 0x0⟩
def REG_CNT_HOLD_EXPIRED : Field := ⟨0x10500018, 0x0, 1, 0, 16, .rc, false, false, false, 0x0⟩
def REG_TENANT_LIM_A_SLOTS : Field := ⟨0x10501000, 0x40, 256, 32, 18, .rw, true, false, false, 0x0⟩
def REG_TENANT_LIM_A_CORES : Field := ⟨0x10501000, 0x40, 256, 0, 14, .rw, true, false, false, 0x0⟩
def REG_TENANT_LIM_B_FABRIC : Field := ⟨0x10501008, 0x40, 256, 32, 8, .rw, true, false, false, 0x0⟩
def REG_TENANT_LIM_B_PAGES : Field := ⟨0x10501008, 0x40, 256, 0, 26, .rw, true, false, false, 0x0⟩
def REG_TENANT_USE_A_SLOTS : Field := ⟨0x10501010, 0x40, 256, 32, 18, .ro, false, false, false, 0x0⟩
def REG_TENANT_USE_A_CORES : Field := ⟨0x10501010, 0x40, 256, 0, 14, .ro, false, false, false, 0x0⟩
def REG_TENANT_USE_B_FABRIC : Field := ⟨0x10501018, 0x40, 256, 32, 8, .ro, false, false, false, 0x0⟩
def REG_TENANT_USE_B_PAGES : Field := ⟨0x10501018, 0x40, 256, 0, 26, .ro, false, false, false, 0x0⟩
def REG_TENANT_CTL_RECLAIM_STATUS : Field := ⟨0x10501020, 0x40, 256, 8, 8, .ro, false, false, false, 0x0⟩
def REG_TENANT_CTL_RECLAIM_BUSY : Field := ⟨0x10501020, 0x40, 256, 1, 1, .ro, false, false, false, 0x0⟩
def REG_TENANT_CTL_RECLAIM : Field := ⟨0x10501020, 0x40, 256, 0, 1, .wo, false, false, false, 0x0⟩
def REG_DESC0_KIND : Field := ⟨0x10510000, 0x40, 4096, 62, 2, .rw, true, true, false, 0x0⟩
def REG_DESC0_FATE : Field := ⟨0x10510000, 0x40, 4096, 56, 1, .rw, true, false, false, 0x0⟩
def REG_DESC0_TENANT : Field := ⟨0x10510000, 0x40, 4096, 48, 8, .rw, true, true, false, 0x0⟩
def REG_DESC0_PARENT : Field := ⟨0x10510000, 0x40, 4096, 32, 12, .rw, true, true, false, 0x0⟩
def REG_DESC1_W : Field := ⟨0x10510008, 0x40, 4096, 24, 8, .rw, true, true, false, 0x0⟩
def REG_DESC1_X0 : Field := ⟨0x10510008, 0x40, 4096, 16, 8, .rw, true, true, false, 0x0⟩
def REG_DESC1_H : Field := ⟨0x10510008, 0x40, 4096, 8, 7, .rw, true, true, false, 0x0⟩
def REG_DESC1_Y0 : Field := ⟨0x10510008, 0x40, 4096, 0, 7, .rw, true, true, false, 0x0⟩
def REG_PLAN_PLAN_ID : Field := ⟨0x10510010, 0x40, 4096, 32, 32, .ro, false, false, false, 0x0⟩
def REG_PLAN_LOADED : Field := ⟨0x10510010, 0x40, 4096, 0, 32, .ro, false, false, false, 0x0⟩
def REG_UNIT_CTL_PLAN_ID : Field := ⟨0x10510018, 0x40, 4096, 32, 32, .wo, false, false, false, 0x0⟩
def REG_UNIT_CTL_TENANT : Field := ⟨0x10510018, 0x40, 4096, 24, 8, .wo, false, false, false, 0x0⟩
def REG_UNIT_CTL_AUTORUN : Field := ⟨0x10510018, 0x40, 4096, 9, 1, .wo, false, false, false, 0x0⟩
def REG_UNIT_CTL_KEEP_LEES : Field := ⟨0x10510018, 0x40, 4096, 8, 1, .wo, false, false, false, 0x0⟩
def REG_UNIT_CTL_CMD : Field := ⟨0x10510018, 0x40, 4096, 0, 4, .wo, false, false, false, 0x0⟩
def REG_UNIT_STATUS_CMD_STATUS : Field := ⟨0x10510020, 0x40, 4096, 56, 8, .ro, false, false, false, 0x0⟩
def REG_UNIT_STATUS_LAST_CMD : Field := ⟨0x10510020, 0x40, 4096, 52, 4, .ro, false, false, false, 0x0⟩
def REG_UNIT_STATUS_OUT_COUNT : Field := ⟨0x10510020, 0x40, 4096, 41, 5, .ro, false, false, false, 0x0⟩
def REG_UNIT_STATUS_IN_COUNT : Field := ⟨0x10510020, 0x40, 4096, 36, 5, .ro, false, false, false, 0x0⟩
def REG_UNIT_STATUS_HEAD : Field := ⟨0x10510020, 0x40, 4096, 24, 12, .ro, false, false, false, 0x0⟩
def REG_UNIT_STATUS_TENANT : Field := ⟨0x10510020, 0x40, 4096, 16, 8, .ro, false, false, false, 0x0⟩
def REG_UNIT_STATUS_SEATED : Field := ⟨0x10510020, 0x40, 4096, 7, 1, .ro, false, false, false, 0x0⟩
def REG_UNIT_STATUS_LEES : Field := ⟨0x10510020, 0x40, 4096, 6, 1, .ro, false, false, false, 0x0⟩
def REG_UNIT_STATUS_COMPOSITE : Field := ⟨0x10510020, 0x40, 4096, 5, 1, .ro, false, false, false, 0x0⟩
def REG_UNIT_STATUS_STATE : Field := ⟨0x10510020, 0x40, 4096, 0, 4, .ro, false, false, false, 0x0⟩
def REG_UNIT_FAULT_VALID : Field := ⟨0x10510028, 0x40, 4096, 63, 1, .ro, false, false, false, 0x0⟩
def REG_UNIT_FAULT_REPLAY : Field := ⟨0x10510028, 0x40, 4096, 62, 1, .ro, false, false, false, 0x0⟩
def REG_UNIT_FAULT_TICK : Field := ⟨0x10510028, 0x40, 4096, 46, 16, .ro, false, false, false, 0x0⟩
def REG_UNIT_FAULT_PC : Field := ⟨0x10510028, 0x40, 4096, 34, 12, .ro, false, false, false, 0x0⟩
def REG_UNIT_FAULT_EVENT : Field := ⟨0x10510028, 0x40, 4096, 24, 10, .ro, false, false, false, 0x0⟩
def REG_UNIT_FAULT_CORE : Field := ⟨0x10510028, 0x40, 4096, 10, 14, .ro, false, false, false, 0x0⟩
def REG_UNIT_MBOX_WORD : Field := ⟨0x10510030, 0x40, 4096, 0, 64, .rw, false, false, false, 0x0⟩
def REG_UNIT_CNT_EMPTY_ROW : Field := ⟨0x10510038, 0x40, 4096, 48, 16, .rc, false, false, false, 0x0⟩
def REG_UNIT_CNT_REPLAYS : Field := ⟨0x10510038, 0x40, 4096, 32, 16, .rc, false, false, false, 0x0⟩
def REG_UNIT_CNT_OUT_LOST : Field := ⟨0x10510038, 0x40, 4096, 24, 8, .rc, false, false, false, 0x0⟩
def REG_UNIT_CNT_IN_LOST : Field := ⟨0x10510038, 0x40, 4096, 16, 8, .rc, false, false, false, 0x0⟩
def REG_UNIT_CNT_BINDS : Field := ⟨0x10510038, 0x40, 4096, 0, 16, .rc, false, false, false, 0x0⟩
def CASK_CTL_DRAIN_S : Field := ⟨0x10600000, 0x0, 1, 40, 16, .rw, true, false, false, 0x258000000⟩
def CASK_CTL_SCRUB_PERIOD : Field := ⟨0x10600000, 0x0, 1, 24, 16, .rw, true, false, false, 0x258000000⟩
def CASK_CTL_SHADOW_VIEW : Field := ⟨0x10600000, 0x0, 1, 9, 1, .rw, false, false, false, 0x258000000⟩
def CASK_CTL_EXPERT_EN : Field := ⟨0x10600000, 0x0, 1, 8, 1, .rw, false, false, false, 0x258000000⟩
def CASK_CTL_REQUIRE_SIG : Field := ⟨0x10600000, 0x0, 1, 0, 1, .rw, true, false, false, 0x258000000⟩
def CASK_STATUS_CELLAR_MIB : Field := ⟨0x10600010, 0x0, 1, 40, 24, .ro, false, false, false, 0x0⟩
def CASK_STATUS_BAD : Field := ⟨0x10600010, 0x0, 1, 24, 16, .ro, false, false, false, 0x0⟩
def CASK_STATUS_MASTERS : Field := ⟨0x10600010, 0x0, 1, 0, 24, .ro, false, false, false, 0x0⟩
def CASK_CNT_LOST : Field := ⟨0x10600018, 0x0, 1, 48, 16, .rc, false, false, false, 0x0⟩
def CASK_CNT_REPAIRS : Field := ⟨0x10600018, 0x0, 1, 32, 16, .rc, false, false, false, 0x0⟩
def CASK_CNT_DIGEST_FAIL : Field := ⟨0x10600018, 0x0, 1, 16, 16, .rc, false, false, false, 0x0⟩
def CASK_CNT_SCRUB_PASSES : Field := ⟨0x10600018, 0x0, 1, 0, 16, .rc, false, false, false, 0x0⟩
def CASK_OP_STATUS : Field := ⟨0x10600020, 0x0, 1, 56, 8, .ro, false, false, false, 0x0⟩
def CASK_OP_BUSY : Field := ⟨0x10600020, 0x0, 1, 55, 1, .ro, false, false, false, 0x0⟩
def CASK_OP_CAUSE : Field := ⟨0x10600020, 0x0, 1, 40, 8, .ro, false, false, false, 0x0⟩
def CASK_OP_CMD : Field := ⟨0x10600020, 0x0, 1, 0, 4, .wo, false, false, false, 0x0⟩
def CASK_COMMIT_COMMIT_STATUS : Field := ⟨0x10600008, 0x0, 1, 56, 8, .ro, false, false, false, 0x0⟩
def CASK_COMMIT_WRITE_STATUS : Field := ⟨0x10600008, 0x0, 1, 48, 8, .rc, false, false, false, 0x0⟩
def CASK_COMMIT_COMMIT : Field := ⟨0x10600008, 0x0, 1, 0, 1, .wo, false, false, false, 0x0⟩
def CASK_OP_ADDR_ADDR : Field := ⟨0x10600028, 0x0, 1, 0, 64, .rw, false, false, false, 0x0⟩
def CASK_OP_LEN_LEN : Field := ⟨0x10600030, 0x0, 1, 0, 64, .rw, false, false, false, 0x0⟩
def CASK_OP_KEY_PLAN_ID : Field := ⟨0x10600038, 0x0, 1, 32, 32, .rw, false, false, false, 0x0⟩
def CASK_OP_KEY_TARGET : Field := ⟨0x10600038, 0x0, 1, 16, 16, .rw, false, false, false, 0x0⟩
def CASK_OP_KEY_VERSION : Field := ⟨0x10600038, 0x0, 1, 0, 16, .rw, false, false, false, 0x0⟩
def CASK_RACK_PLAN_ID : Field := ⟨0x10600040, 0x0, 1, 32, 32, .wo, false, false, false, 0x0⟩
def CASK_RACK_REGION : Field := ⟨0x10600040, 0x0, 1, 20, 12, .wo, false, false, false, 0x0⟩
def CASK_RACK_CMD : Field := ⟨0x10600040, 0x0, 1, 0, 4, .wo, false, false, false, 0x0⟩
def CASK_RACK_STATUS_CMD_STATUS : Field := ⟨0x10600048, 0x0, 1, 56, 8, .ro, false, false, false, 0x0⟩
def CASK_RACK_STATUS_PHASE : Field := ⟨0x10600048, 0x0, 1, 52, 4, .ro, false, false, false, 0x0⟩
def CASK_RACK_STATUS_DRAIN_LEFT : Field := ⟨0x10600048, 0x0, 1, 32, 16, .ro, false, false, false, 0x0⟩
def CASK_RACK_STATUS_OLD_STREAMS : Field := ⟨0x10600048, 0x0, 1, 0, 32, .ro, false, false, false, 0x0⟩
def CASK_SCRUB_THR_SCRUB_BW : Field := ⟨0x10600050, 0x0, 1, 8, 16, .rw, true, false, true, 0x4003⟩
def CASK_SCRUB_THR_HALL_TRIES : Field := ⟨0x10600050, 0x0, 1, 0, 4, .rw, true, false, true, 0x4003⟩
def STRM_CTL_SHADOW_VIEW : Field := ⟨0x10700000, 0x0, 1, 9, 1, .rw, false, false, false, 0x1⟩
def STRM_CTL_EXPERT_EN : Field := ⟨0x10700000, 0x0, 1, 8, 1, .rw, false, false, false, 0x1⟩
def STRM_CTL_SPEC_EN : Field := ⟨0x10700000, 0x0, 1, 0, 1, .rw, true, false, false, 0x1⟩
def STRM_STATUS_OWNED : Field := ⟨0x10700010, 0x0, 1, 47, 17, .ro, false, false, false, 0x0⟩
def STRM_STATUS_MIRRORED : Field := ⟨0x10700010, 0x0, 1, 30, 17, .ro, false, false, false, 0x0⟩
def STRM_STATUS_OUTSTANDING : Field := ⟨0x10700010, 0x0, 1, 15, 15, .ro, false, false, false, 0x0⟩
def STRM_STATUS_SEATED : Field := ⟨0x10700010, 0x0, 1, 0, 11, .ro, false, false, false, 0x0⟩
def STRM_CNT_TRUNCATES : Field := ⟨0x10700018, 0x0, 1, 48, 16, .rc, false, false, false, 0x0⟩
def STRM_CNT_FAILED : Field := ⟨0x10700018, 0x0, 1, 32, 16, .rc, false, false, false, 0x0⟩
def STRM_CNT_TOKENS : Field := ⟨0x10700018, 0x0, 1, 0, 32, .rc, false, false, false, 0x0⟩
def STRM_SEAT_THR_HOLD_PAUSE : Field := ⟨0x10700020, 0x0, 1, 16, 16, .rw, true, false, true, 0x10000400⟩
def STRM_SEAT_THR_SEAT_HOLD : Field := ⟨0x10700020, 0x0, 1, 0, 16, .rw, true, false, true, 0x10000400⟩
def STRM_COMMIT_COMMIT_STATUS : Field := ⟨0x10700008, 0x0, 1, 56, 8, .ro, false, false, false, 0x0⟩
def STRM_COMMIT_WRITE_STATUS : Field := ⟨0x10700008, 0x0, 1, 48, 8, .rc, false, false, false, 0x0⟩
def STRM_COMMIT_COMMIT : Field := ⟨0x10700008, 0x0, 1, 0, 1, .wo, false, false, false, 0x0⟩
def STRM_QP_CFG_EN : Field := ⟨0x10701000, 0x40, 192, 63, 1, .rw, true, false, false, 0x80000C0A0000⟩
def STRM_QP_CFG_PORT : Field := ⟨0x10701000, 0x40, 192, 62, 1, .rw, true, false, false, 0x80000C0A0000⟩
def STRM_QP_CFG_TENANT : Field := ⟨0x10701000, 0x40, 192, 48, 8, .ro, false, false, false, 0x80000C0A0000⟩
def STRM_QP_CFG_OUT_MAX : Field := ⟨0x10701000, 0x40, 192, 33, 15, .rw, true, false, false, 0x80000C0A0000⟩
def STRM_QP_CFG_EMIT_LOG2 : Field := ⟨0x10701000, 0x40, 192, 24, 5, .rw, true, false, false, 0x80000C0A0000⟩
def STRM_QP_CFG_LEDGER_LOG2 : Field := ⟨0x10701000, 0x40, 192, 16, 5, .rw, true, false, false, 0x80000C0A0000⟩
def STRM_QP_CFG_SOURCE : Field := ⟨0x10701000, 0x40, 192, 0, 10, .ro, false, false, false, 0x80000C0A0000⟩
def STRM_QP_LEDGER_ADDR : Field := ⟨0x10701008, 0x40, 192, 6, 58, .rw, true, false, false, 0x0⟩
def STRM_QP_EMIT_ADDR : Field := ⟨0x10701010, 0x40, 192, 6, 58, .rw, true, false, false, 0x0⟩
def STRM_QP_IDX_ADDR : Field := ⟨0x10701018, 0x40, 192, 6, 58, .rw, true, false, false, 0x0⟩
def STRM_QP_STATUS_OUTSTANDING : Field := ⟨0x10701020, 0x40, 192, 32, 16, .ro, false, false, false, 0x0⟩
def STRM_QP_STATUS_HOLD : Field := ⟨0x10701020, 0x40, 192, 16, 16, .ro, false, false, false, 0x0⟩
def STRM_QP_STATUS_TAKEN_OVER : Field := ⟨0x10701020, 0x40, 192, 2, 1, .ro, false, false, false, 0x0⟩
def STRM_QP_STATUS_FAULT : Field := ⟨0x10701020, 0x40, 192, 1, 1, .w1c, false, false, false, 0x0⟩
def STRM_QP_STATUS_ACTIVE : Field := ⟨0x10701020, 0x40, 192, 0, 1, .ro, false, false, false, 0x0⟩
def STRM_PAGER_CTL_SPILL_AGE : Field := ⟨0x10704000, 0x0, 1, 24, 16, .rw, true, false, false, 0x3C000000⟩
def STRM_PAGER_CTL_SHADOW_VIEW : Field := ⟨0x10704000, 0x0, 1, 9, 1, .rw, false, false, false, 0x3C000000⟩
def STRM_PAGER_CTL_EXPERT_EN : Field := ⟨0x10704000, 0x0, 1, 8, 1, .rw, false, false, false, 0x3C000000⟩
def STRM_PAGER_CTL_PREV_PARK : Field := ⟨0x10704000, 0x0, 1, 2, 1, .rw, true, false, false, 0x3C000000⟩
def STRM_PAGER_CTL_MODE : Field := ⟨0x10704000, 0x0, 1, 0, 2, .rw, true, false, false, 0x3C000000⟩
def STRM_PAGER_COMMIT_COMMIT_STATUS : Field := ⟨0x10704008, 0x0, 1, 56, 8, .ro, false, false, false, 0x0⟩
def STRM_PAGER_COMMIT_WRITE_STATUS : Field := ⟨0x10704008, 0x0, 1, 48, 8, .rc, false, false, false, 0x0⟩
def STRM_PAGER_COMMIT_COMMIT : Field := ⟨0x10704008, 0x0, 1, 0, 1, .wo, false, false, false, 0x0⟩
def STRM_PAGER_THR_FETCH_RETRY : Field := ⟨0x10704010, 0x0, 1, 16, 4, .rw, true, false, true, 0x25F55⟩
def STRM_PAGER_THR_CELLAR_HIGH : Field := ⟨0x10704010, 0x0, 1, 8, 8, .rw, true, false, true, 0x25F55⟩
def STRM_PAGER_THR_CELLAR_LOW : Field := ⟨0x10704010, 0x0, 1, 0, 8, .rw, true, false, true, 0x25F55⟩
def STRM_PAGER_CNT_REPREFILL : Field := ⟨0x10704020, 0x0, 1, 48, 16, .rc, false, false, false, 0x0⟩
def STRM_PAGER_CNT_CHECK_FAIL : Field := ⟨0x10704020, 0x0, 1, 32, 16, .rc, false, false, false, 0x0⟩
def STRM_PAGER_CNT_FRAME_WAIT : Field := ⟨0x10704020, 0x0, 1, 16, 16, .rc, false, false, false, 0x0⟩
def STRM_PAGER_CNT_SPILL : Field := ⟨0x10704020, 0x0, 1, 0, 16, .rc, false, false, false, 0x0⟩
def STRM_PAGER_STATUS_HALL_PAGES : Field := ⟨0x10704028, 0x0, 1, 32, 32, .ro, false, false, false, 0x0⟩
def STRM_PAGER_STATUS_CELLAR_PAGES : Field := ⟨0x10704028, 0x0, 1, 0, 32, .ro, false, false, false, 0x0⟩
def STRM_PAGE_PIN_PIN : Field := ⟨0x10704040, 0x8, 16, 32, 2, .rw, true, false, true, 0x0⟩
def STRM_PAGE_PIN_HANDLE : Field := ⟨0x10704040, 0x8, 16, 0, 32, .rw, true, false, true, 0x0⟩
def TWIN_CTL_PORTS : Field := ⟨0x10800000, 0x0, 1, 16, 8, .rw, true, false, false, 0xFF0004⟩
def TWIN_CTL_SHADOW_VIEW : Field := ⟨0x10800000, 0x0, 1, 9, 1, .rw, false, false, false, 0xFF0004⟩
def TWIN_CTL_EXPERT_EN : Field := ⟨0x10800000, 0x0, 1, 8, 1, .rw, false, false, false, 0xFF0004⟩
def TWIN_CTL_COVER_EN : Field := ⟨0x10800000, 0x0, 1, 2, 1, .rw, true, false, false, 0xFF0004⟩
def TWIN_CTL_SHED : Field := ⟨0x10800000, 0x0, 1, 1, 1, .rw, true, false, false, 0xFF0004⟩
def TWIN_CTL_PAIR_EN : Field := ⟨0x10800000, 0x0, 1, 0, 1, .rw, true, false, false, 0xFF0004⟩
def TWIN_STATUS_CAUSE : Field := ⟨0x10800010, 0x0, 1, 56, 8, .ro, false, false, false, 0x0⟩
def TWIN_STATUS_PORTS_UP : Field := ⟨0x10800010, 0x0, 1, 48, 8, .ro, false, false, false, 0x0⟩
def TWIN_STATUS_SYNC : Field := ⟨0x10800010, 0x0, 1, 40, 8, .ro, false, false, false, 0x0⟩
def TWIN_STATUS_PEER_KEEP : Field := ⟨0x10800010, 0x0, 1, 16, 1, .ro, false, false, false, 0x0⟩
def TWIN_STATUS_ROLE : Field := ⟨0x10800010, 0x0, 1, 8, 1, .ro, false, false, false, 0x0⟩
def TWIN_STATUS_STATE : Field := ⟨0x10800010, 0x0, 1, 0, 4, .ro, false, false, false, 0x0⟩
def TWIN_PEER_PEER_ROLE : Field := ⟨0x10800018, 0x0, 1, 16, 1, .ro, false, false, false, 0x0⟩
def TWIN_PEER_PEER_NODE : Field := ⟨0x10800018, 0x0, 1, 0, 16, .ro, false, false, false, 0x0⟩
def TWIN_FENCE_ACKED : Field := ⟨0x10800020, 0x0, 1, 2, 1, .ro, false, false, false, 0x0⟩
def TWIN_FENCE_CONFIRM : Field := ⟨0x10800020, 0x0, 1, 1, 1, .wo, false, false, false, 0x0⟩
def TWIN_FENCE_REQ : Field := ⟨0x10800020, 0x0, 1, 0, 1, .ro, false, false, false, 0x0⟩
def TWIN_THR_FENCE_WAIT : Field := ⟨0x10800028, 0x0, 1, 16, 16, .rw, true, false, true, 0x140002⟩
def TWIN_THR_HB_GRACE : Field := ⟨0x10800028, 0x0, 1, 0, 8, .rw, true, false, true, 0x140002⟩
def TWIN_CNT_TAKEOVERS : Field := ⟨0x10800040, 0x0, 1, 48, 16, .rc, false, false, false, 0x0⟩
def TWIN_CNT_COVERS : Field := ⟨0x10800040, 0x0, 1, 32, 16, .rc, false, false, false, 0x0⟩
def TWIN_CNT_DUP_SUPPRESSED : Field := ⟨0x10800040, 0x0, 1, 16, 16, .rc, false, false, false, 0x0⟩
def TWIN_CNT_HB_MISS : Field := ⟨0x10800040, 0x0, 1, 0, 16, .rc, false, false, false, 0x0⟩
def TWIN_COMMIT_COMMIT_STATUS : Field := ⟨0x10800008, 0x0, 1, 56, 8, .ro, false, false, false, 0x0⟩
def TWIN_COMMIT_WRITE_STATUS : Field := ⟨0x10800008, 0x0, 1, 48, 8, .rc, false, false, false, 0x0⟩
def TWIN_COMMIT_COMMIT : Field := ⟨0x10800008, 0x0, 1, 0, 1, .wo, false, false, false, 0x0⟩
def TWIN_JSN_SENT_JSN : Field := ⟨0x10800030, 0x0, 1, 0, 64, .ro, false, false, false, 0x0⟩
def TWIN_JSN_ACKED_JSN : Field := ⟨0x10800038, 0x0, 1, 0, 64, .ro, false, false, false, 0x0⟩
def TWIN_FAMILY_DIGEST : Field := ⟨0x10800048, 0x0, 1, 0, 64, .ro, false, false, false, 0x0⟩
def TWIN_PEER_FAMILY_DIGEST : Field := ⟨0x10800050, 0x0, 1, 0, 64, .ro, false, false, false, 0x0⟩
def TWIN_PEER_KEY_KEY : Field := ⟨0x10800060, 0x8, 4, 0, 64, .rw, true, false, false, 0x0⟩
def PWR_CTL_CAP : Field := ⟨0x10900000, 0x0, 1, 32, 16, .rw, true, false, false, 0x10000001⟩
def PWR_CTL_DROOP : Field := ⟨0x10900000, 0x0, 1, 28, 2, .rw, true, false, false, 0x10000001⟩
def PWR_CTL_VMIN_RST : Field := ⟨0x10900000, 0x0, 1, 10, 1, .wo, false, false, false, 0x10000001⟩
def PWR_CTL_SHADOW_VIEW : Field := ⟨0x10900000, 0x0, 1, 9, 1, .rw, false, false, false, 0x10000001⟩
def PWR_CTL_EXPERT_EN : Field := ⟨0x10900000, 0x0, 1, 8, 1, .rw, false, false, false, 0x10000001⟩
def PWR_CTL_FCAST_MARGIN : Field := ⟨0x10900000, 0x0, 1, 0, 2, .rw, true, false, false, 0x10000001⟩
def PWR_STATUS_VCORE_NOM : Field := ⟨0x10900010, 0x0, 1, 32, 12, .ro, false, false, false, 0x2BC00000000⟩
def PWR_STATUS_CAL_PROV : Field := ⟨0x10900010, 0x0, 1, 8, 4, .ro, false, false, false, 0x2BC00000000⟩
def PWR_STATUS_SPIRE_FAULT : Field := ⟨0x10900010, 0x0, 1, 7, 1, .ro, false, false, false, 0x2BC00000000⟩
def PWR_STATUS_ENG_FAULT : Field := ⟨0x10900010, 0x0, 1, 6, 1, .ro, false, false, false, 0x2BC00000000⟩
def PWR_STATUS_NVLOCK : Field := ⟨0x10900010, 0x0, 1, 5, 1, .ro, false, false, false, 0x2BC00000000⟩
def PWR_STATUS_DERATE : Field := ⟨0x10900010, 0x0, 1, 4, 1, .ro, false, false, false, 0x2BC00000000⟩
def PWR_STATUS_ADMIT_WAIT : Field := ⟨0x10900010, 0x0, 1, 3, 1, .ro, false, false, false, 0x2BC00000000⟩
def PWR_TELEM_POWER : Field := ⟨0x10900018, 0x0, 1, 48, 16, .ro, false, false, false, 0x0⟩
def PWR_TELEM_BUSBAR : Field := ⟨0x10900018, 0x0, 1, 32, 16, .ro, false, false, false, 0x0⟩
def PWR_TELEM_AUX33 : Field := ⟨0x10900018, 0x0, 1, 16, 16, .ro, false, false, false, 0x0⟩
def PWR_THR_ADMIT_WAIT : Field := ⟨0x10900030, 0x0, 1, 48, 16, .rw, true, false, true, 0x400593146280000⟩
def PWR_THR_SAG_BUS : Field := ⟨0x10900030, 0x0, 1, 41, 7, .rw, true, false, true, 0x400593146280000⟩
def PWR_THR_SAG_AUX : Field := ⟨0x10900030, 0x0, 1, 32, 9, .rw, true, false, true, 0x400593146280000⟩
def PWR_THR_DROOP_CRIT : Field := ⟨0x10900030, 0x0, 1, 24, 8, .rw, true, false, true, 0x400593146280000⟩
def PWR_THR_DROOP_WARN : Field := ⟨0x10900030, 0x0, 1, 16, 8, .rw, true, false, true, 0x400593146280000⟩
def PWR_CNT_FCAST_MISS : Field := ⟨0x10900038, 0x0, 1, 48, 16, .rc, false, false, false, 0x0⟩
def PWR_CNT_ADMIT_DELAY : Field := ⟨0x10900038, 0x0, 1, 32, 16, .rc, false, false, false, 0x0⟩
def PWR_CNT_DROOP_ABORT : Field := ⟨0x10900038, 0x0, 1, 16, 16, .rc, false, false, false, 0x0⟩
def PWR_CNT_DROOP_WARN : Field := ⟨0x10900038, 0x0, 1, 0, 16, .rc, false, false, false, 0x0⟩
def PWR_COMMIT_COMMIT_STATUS : Field := ⟨0x10900008, 0x0, 1, 56, 8, .ro, false, false, false, 0x0⟩
def PWR_COMMIT_WRITE_STATUS : Field := ⟨0x10900008, 0x0, 1, 48, 8, .rc, false, false, false, 0x0⟩
def PWR_COMMIT_COMMIT : Field := ⟨0x10900008, 0x0, 1, 0, 1, .wo, false, false, false, 0x0⟩
def PWR_HIB_REQ : Field := ⟨0x10900020, 0x0, 1, 0, 48, .rw, true, false, false, 0x0⟩
def PWR_HIB_STATUS_OFF : Field := ⟨0x10900028, 0x0, 1, 0, 48, .ro, false, false, false, 0x0⟩
def PWR_QUAD_FCAST : Field := ⟨0x10900100, 0x8, 4, 48, 16, .ro, false, false, false, 0x1A9004B0⟩
def PWR_QUAD_LIMIT : Field := ⟨0x10900100, 0x8, 4, 16, 16, .rw, true, false, true, 0x1A9004B0⟩
def PWR_QUAD_DIDT : Field := ⟨0x10900100, 0x8, 4, 0, 16, .rw, true, false, true, 0x1A9004B0⟩
def PWR_FIELD_TRIM : Field := ⟨0x10901000, 0x20, 48, 24, 8, .rw, true, false, true, 0x0⟩
def PWR_FIELD_OVR_EN : Field := ⟨0x10901000, 0x20, 48, 17, 1, .rw, true, false, true, 0x0⟩
def PWR_FIELD_OVR : Field := ⟨0x10901000, 0x20, 48, 13, 4, .rw, true, false, true, 0x0⟩
def PWR_FIELD_CLASS : Field := ⟨0x10901000, 0x20, 48, 9, 4, .ro, false, false, false, 0x0⟩
def PWR_FIELD_FAILED : Field := ⟨0x10901000, 0x20, 48, 0, 7, .ro, false, false, false, 0x0⟩
def PWR_BUTT_FAILED : Field := ⟨0x10901008, 0x20, 48, 0, 64, .ro, false, false, false, 0x0⟩
def PWR_VMIN_TICK : Field := ⟨0x10901010, 0x20, 48, 16, 16, .ro, false, false, false, 0xFFF⟩
def PWR_VMIN_VMIN : Field := ⟨0x10901010, 0x20, 48, 0, 12, .ro, false, false, false, 0xFFF⟩
def PWR_VMIN_STAMP_HALL : Field := ⟨0x10901018, 0x20, 48, 0, 64, .ro, false, false, false, 0x0⟩
def THM_CTL_FLOW_SET : Field := ⟨0x10A00000, 0x0, 1, 40, 8, .rw, true, false, false, 0x320015000000⟩
def THM_CTL_PROFILE : Field := ⟨0x10A00000, 0x0, 1, 28, 2, .rw, true, false, false, 0x320015000000⟩
def THM_CTL_LEAK_ACT : Field := ⟨0x10A00000, 0x0, 1, 26, 2, .rw, true, false, false, 0x320015000000⟩
def THM_CTL_CTRL : Field := ⟨0x10A00000, 0x0, 1, 24, 2, .rw, true, false, false, 0x320015000000⟩
def THM_CTL_SHADOW_VIEW : Field := ⟨0x10A00000, 0x0, 1, 9, 1, .rw, false, false, false, 0x320015000000⟩
def THM_CTL_EXPERT_EN : Field := ⟨0x10A00000, 0x0, 1, 8, 1, .rw, false, false, false, 0x320015000000⟩
def THM_STATUS_TJ_MAX : Field := ⟨0x10A00010, 0x0, 1, 52, 12, .ro, false, false, false, 0x0⟩
def THM_STATUS_THBM_MAX : Field := ⟨0x10A00010, 0x0, 1, 40, 12, .ro, false, false, false, 0x0⟩
def THM_STATUS_FLOW : Field := ⟨0x10A00010, 0x0, 1, 28, 12, .ro, false, false, false, 0x0⟩
def THM_STATUS_STAGE : Field := ⟨0x10A00010, 0x0, 1, 24, 4, .ro, false, false, false, 0x0⟩
def THM_STATUS_DEMAND : Field := ⟨0x10A00010, 0x0, 1, 0, 17, .ro, false, false, false, 0x0⟩
def THM_THR_TJ_LIMIT : Field := ⟨0x10A00018, 0x0, 1, 56, 8, .rw, true, false, true, 0x6964281E05280200⟩
def THM_THR_THBM_LIMIT : Field := ⟨0x10A00018, 0x0, 1, 48, 8, .rw, true, false, true, 0x6964281E05280200⟩
def THM_THR_FLOW_WARN : Field := ⟨0x10A00018, 0x0, 1, 40, 8, .rw, true, false, true, 0x6964281E05280200⟩
def THM_THR_FLOW_SHED : Field := ⟨0x10A00018, 0x0, 1, 32, 8, .rw, true, false, true, 0x6964281E05280200⟩
def THM_THR_FLOW_STOP : Field := ⟨0x10A00018, 0x0, 1, 24, 8, .rw, true, false, true, 0x6964281E05280200⟩
def THM_THR_SLOPE : Field := ⟨0x10A00018, 0x0, 1, 16, 8, .rw, true, false, true, 0x6964281E05280200⟩
def THM_THR_DEW_MARGIN : Field := ⟨0x10A00018, 0x0, 1, 8, 8, .rw, true, false, true, 0x6964281E05280200⟩
def THM_CURVE_TJ_T0 : Field := ⟨0x10A00020, 0x0, 1, 24, 8, .rw, true, false, true, 0x5A62585F⟩
def THM_CURVE_TJ_T1 : Field := ⟨0x10A00020, 0x0, 1, 16, 8, .rw, true, false, true, 0x5A62585F⟩
def THM_CURVE_HBM_T0 : Field := ⟨0x10A00020, 0x0, 1, 8, 8, .rw, true, false, true, 0x5A62585F⟩
def THM_CURVE_HBM_T1 : Field := ⟨0x10A00020, 0x0, 1, 0, 8, .rw, true, false, true, 0x5A62585F⟩
def THM_CNT_LIMIT : Field := ⟨0x10A00028, 0x0, 1, 48, 16, .rc, false, false, false, 0x0⟩
def THM_CNT_FLOW_STOP : Field := ⟨0x10A00028, 0x0, 1, 32, 16, .rc, false, false, false, 0x0⟩
def THM_CNT_FLOW_LOW : Field := ⟨0x10A00028, 0x0, 1, 16, 16, .rc, false, false, false, 0x0⟩
def THM_CNT_STEP_DOWN : Field := ⟨0x10A00028, 0x0, 1, 0, 16, .rc, false, false, false, 0x0⟩
def THM_LIFE_ITEM : Field := ⟨0x10A00030, 0x0, 1, 32, 8, .ro, false, false, false, 0xFFFF⟩
def THM_LIFE_USED : Field := ⟨0x10A00030, 0x0, 1, 16, 16, .ro, false, false, false, 0xFFFF⟩
def THM_LIFE_YEARS_LEFT : Field := ⟨0x10A00030, 0x0, 1, 0, 16, .ro, false, false, false, 0xFFFF⟩
def THM_COMMIT_COMMIT_STATUS : Field := ⟨0x10A00008, 0x0, 1, 56, 8, .ro, false, false, false, 0x0⟩
def THM_COMMIT_WRITE_STATUS : Field := ⟨0x10A00008, 0x0, 1, 48, 8, .rc, false, false, false, 0x0⟩
def THM_COMMIT_COMMIT : Field := ⟨0x10A00008, 0x0, 1, 0, 1, .wo, false, false, false, 0x0⟩
def THM_FIELD_TEMP : Field := ⟨0x10A01000, 0x10, 48, 52, 12, .ro, false, false, false, 0x0⟩
def THM_FCYC_C15 : Field := ⟨0x10A01008, 0x10, 48, 32, 32, .ro, false, false, false, 0x0⟩
def THM_FCYC_C30 : Field := ⟨0x10A01008, 0x10, 48, 0, 32, .ro, false, false, false, 0x0⟩
def THM_STACK_TEMP : Field := ⟨0x10A02000, 0x10, 48, 52, 12, .ro, false, false, false, 0x0⟩
def THM_SCYC_C15 : Field := ⟨0x10A02008, 0x10, 48, 32, 32, .ro, false, false, false, 0x0⟩
def THM_SCYC_C30 : Field := ⟨0x10A02008, 0x10, 48, 0, 32, .ro, false, false, false, 0x0⟩
def CHAN_CTL_SHADOW_VIEW : Field := ⟨0x10B00000, 0x0, 1, 9, 1, .rw, false, false, false, 0x0⟩
def CHAN_CTL_EXPERT_EN : Field := ⟨0x10B00000, 0x0, 1, 8, 1, .rw, false, false, false, 0x0⟩
def CHAN_COMMIT_COMMIT_STATUS : Field := ⟨0x10B00008, 0x0, 1, 56, 8, .ro, false, false, false, 0x0⟩
def CHAN_COMMIT_WRITE_STATUS : Field := ⟨0x10B00008, 0x0, 1, 48, 8, .rc, false, false, false, 0x0⟩
def CHAN_COMMIT_COMMIT : Field := ⟨0x10B00008, 0x0, 1, 0, 1, .wo, false, false, false, 0x0⟩
def CHAN_CFG_SCALE : Field := ⟨0x10B00100, 0x10, 16, 32, 16, .rw, true, false, false, 0x0⟩
def CHAN_CFG_FIXED : Field := ⟨0x10B00100, 0x10, 16, 16, 16, .rw, true, false, true, 0x0⟩
def CHAN_CFG_MODE : Field := ⟨0x10B00100, 0x10, 16, 4, 4, .rw, true, false, false, 0x0⟩
def CHAN_CFG_LOOP_PWR : Field := ⟨0x10B00100, 0x10, 16, 2, 1, .rw, true, false, false, 0x0⟩
def CHAN_CFG_EN : Field := ⟨0x10B00100, 0x10, 16, 0, 1, .rw, true, false, false, 0x0⟩
def CHAN_VAL_STATE : Field := ⟨0x10B00108, 0x10, 16, 61, 3, .ro, false, false, false, 0x0⟩
def CHAN_VAL_VALUE : Field := ⟨0x10B00108, 0x10, 16, 0, 32, .ro, false, false, false, 0x0⟩
def NET_FAB_CTL_NODE : Field := ⟨0x10C00000, 0x0, 1, 48, 16, .rw, true, false, false, 0xB7A500060000⟩
def NET_FAB_CTL_UDP_PORT : Field := ⟨0x10C00000, 0x0, 1, 32, 16, .rw, true, false, false, 0xB7A500060000⟩
def NET_FAB_CTL_VLAN : Field := ⟨0x10C00000, 0x0, 1, 20, 12, .rw, true, false, false, 0xB7A500060000⟩
def NET_FAB_CTL_PFC_EN : Field := ⟨0x10C00000, 0x0, 1, 19, 1, .rw, true, false, true, 0xB7A500060000⟩
def NET_FAB_CTL_FWD_EN : Field := ⟨0x10C00000, 0x0, 1, 18, 1, .rw, true, false, false, 0xB7A500060000⟩
def NET_FAB_CTL_JUMBO : Field := ⟨0x10C00000, 0x0, 1, 17, 1, .rw, true, false, false, 0xB7A500060000⟩
def NET_FAB_CTL_SHADOW_VIEW : Field := ⟨0x10C00000, 0x0, 1, 9, 1, .rw, false, false, false, 0xB7A500060000⟩
def NET_FAB_CTL_EXPERT_EN : Field := ⟨0x10C00000, 0x0, 1, 8, 1, .rw, false, false, false, 0xB7A500060000⟩
def NET_FAB_STATUS_UNREACH : Field := ⟨0x10C00010, 0x0, 1, 32, 16, .rc, false, false, false, 0x1⟩
def NET_FAB_STATUS_POD_NODES : Field := ⟨0x10C00010, 0x0, 1, 24, 8, .ro, false, false, false, 0x1⟩
def NET_FAB_STATUS_ID_CONFLICT : Field := ⟨0x10C00010, 0x0, 1, 1, 1, .ro, false, false, false, 0x1⟩
def NET_FAB_STATUS_PROVISIONAL : Field := ⟨0x10C00010, 0x0, 1, 0, 1, .ro, false, false, false, 0x1⟩
def NET_FAB_THR_HELLO_MS : Field := ⟨0x10C00020, 0x0, 1, 56, 8, .rw, true, false, true, 0x108021440100010⟩
def NET_FAB_THR_RETX_MAX : Field := ⟨0x10C00020, 0x0, 1, 48, 8, .rw, true, false, true, 0x108021440100010⟩
def NET_FAB_THR_REORDER_WAIT : Field := ⟨0x10C00020, 0x0, 1, 40, 8, .rw, true, false, true, 0x108021440100010⟩
def NET_FAB_THR_RTO_MIN : Field := ⟨0x10C00020, 0x0, 1, 32, 8, .rw, true, false, true, 0x108021440100010⟩
def NET_FAB_THR_WIN_MAX : Field := ⟨0x10C00020, 0x0, 1, 24, 8, .rw, true, false, true, 0x108021440100010⟩
def NET_FAB_THR_WIN_INIT : Field := ⟨0x10C00020, 0x0, 1, 16, 8, .rw, true, false, true, 0x108021440100010⟩
def NET_FAB_THR_PATHS : Field := ⟨0x10C00020, 0x0, 1, 0, 9, .rw, true, false, true, 0x108021440100010⟩
def NET_FAB_CNT_RETX : Field := ⟨0x10C00028, 0x0, 1, 48, 16, .rc, false, false, false, 0x0⟩
def NET_FAB_CNT_FORWARDED : Field := ⟨0x10C00028, 0x0, 1, 32, 16, .rc, false, false, false, 0x0⟩
def NET_FAB_CNT_AUTH_FAIL : Field := ⟨0x10C00028, 0x0, 1, 24, 8, .rc, false, false, false, 0x0⟩
def NET_FAB_CNT_POOL_FULL : Field := ⟨0x10C00028, 0x0, 1, 16, 8, .rc, false, false, false, 0x0⟩
def NET_FAB_CNT_DUP : Field := ⟨0x10C00028, 0x0, 1, 8, 8, .rc, false, false, false, 0x0⟩
def NET_FAB_CNT_DISCARD : Field := ⟨0x10C00028, 0x0, 1, 0, 8, .rc, false, false, false, 0x0⟩
def NET_PTP_OFFSET : Field := ⟨0x10C00038, 0x0, 1, 32, 32, .ro, false, false, false, 0xF8800000⟩
def NET_PTP_PRIO1 : Field := ⟨0x10C00038, 0x0, 1, 24, 8, .rw, true, false, false, 0xF8800000⟩
def NET_PTP_PRIO2 : Field := ⟨0x10C00038, 0x0, 1, 16, 8, .rw, true, false, false, 0xF8800000⟩
def NET_PTP_DOMAIN : Field := ⟨0x10C00038, 0x0, 1, 8, 8, .rw, true, false, false, 0xF8800000⟩
def NET_PTP_STEPS : Field := ⟨0x10C00038, 0x0, 1, 4, 4, .ro, false, false, false, 0xF8800000⟩
def NET_PTP_TRACEABLE : Field := ⟨0x10C00038, 0x0, 1, 3, 1, .ro, false, false, false, 0xF8800000⟩
def NET_PTP_GM : Field := ⟨0x10C00038, 0x0, 1, 2, 1, .ro, false, false, false, 0xF8800000⟩
def NET_PTP_LOCKED : Field := ⟨0x10C00038, 0x0, 1, 1, 1, .ro, false, false, false, 0xF8800000⟩
def NET_PTP_VALID : Field := ⟨0x10C00038, 0x0, 1, 0, 1, .ro, false, false, false, 0xF8800000⟩
def NET_FAB_COMMIT_COMMIT_STATUS : Field := ⟨0x10C00008, 0x0, 1, 56, 8, .ro, false, false, false, 0x0⟩
def NET_FAB_COMMIT_WRITE_STATUS : Field := ⟨0x10C00008, 0x0, 1, 48, 8, .rc, false, false, false, 0x0⟩
def NET_FAB_COMMIT_COMMIT : Field := ⟨0x10C00008, 0x0, 1, 0, 1, .wo, false, false, false, 0x0⟩
def NET_FAB_PREFIX_PREFIX : Field := ⟨0x10C00018, 0x0, 1, 0, 64, .rw, true, false, false, 0x0⟩
def NET_HALL_TIME_HALL : Field := ⟨0x10C00030, 0x0, 1, 0, 64, .ro, false, false, false, 0x0⟩
def NET_FAB_GW_GATEWAY : Field := ⟨0x10C00040, 0x0, 1, 0, 64, .rw, true, false, false, 0x0⟩
def NET_POOL_A_NODE : Field := ⟨0x10C00100, 0x10, 8, 48, 16, .rw, true, false, false, 0x0⟩
def NET_POOL_A_OFFSET : Field := ⟨0x10C00100, 0x10, 8, 0, 48, .rw, true, false, false, 0x0⟩
def NET_POOL_B_EN : Field := ⟨0x10C00108, 0x10, 8, 63, 1, .rw, true, false, false, 0x0⟩
def NET_POOL_B_LEN : Field := ⟨0x10C00108, 0x10, 8, 0, 48, .rw, true, false, false, 0x0⟩
def NET_RIM_LANE_FORCE_7 : Field := ⟨0x10C00400, 0x8, 31, 60, 4, .rw, true, false, true, 0xFFFFFFFFFFFFFFFF⟩
def NET_RIM_LANE_SPARED_7 : Field := ⟨0x10C00400, 0x8, 31, 56, 4, .ro, false, false, false, 0xFFFFFFFFFFFFFFFF⟩
def NET_RIM_LANE_FORCE_6 : Field := ⟨0x10C00400, 0x8, 31, 52, 4, .rw, true, false, true, 0xFFFFFFFFFFFFFFFF⟩
def NET_RIM_LANE_SPARED_6 : Field := ⟨0x10C00400, 0x8, 31, 48, 4, .ro, false, false, false, 0xFFFFFFFFFFFFFFFF⟩
def NET_RIM_LANE_FORCE_5 : Field := ⟨0x10C00400, 0x8, 31, 44, 4, .rw, true, false, true, 0xFFFFFFFFFFFFFFFF⟩
def NET_RIM_LANE_SPARED_5 : Field := ⟨0x10C00400, 0x8, 31, 40, 4, .ro, false, false, false, 0xFFFFFFFFFFFFFFFF⟩
def NET_RIM_LANE_FORCE_4 : Field := ⟨0x10C00400, 0x8, 31, 36, 4, .rw, true, false, true, 0xFFFFFFFFFFFFFFFF⟩
def NET_RIM_LANE_SPARED_4 : Field := ⟨0x10C00400, 0x8, 31, 32, 4, .ro, false, false, false, 0xFFFFFFFFFFFFFFFF⟩
def NET_RIM_LANE_FORCE_3 : Field := ⟨0x10C00400, 0x8, 31, 28, 4, .rw, true, false, true, 0xFFFFFFFFFFFFFFFF⟩
def NET_RIM_LANE_SPARED_3 : Field := ⟨0x10C00400, 0x8, 31, 24, 4, .ro, false, false, false, 0xFFFFFFFFFFFFFFFF⟩
def NET_RIM_LANE_FORCE_2 : Field := ⟨0x10C00400, 0x8, 31, 20, 4, .rw, true, false, true, 0xFFFFFFFFFFFFFFFF⟩
def NET_RIM_LANE_SPARED_2 : Field := ⟨0x10C00400, 0x8, 31, 16, 4, .ro, false, false, false, 0xFFFFFFFFFFFFFFFF⟩
def NET_RIM_LANE_FORCE_1 : Field := ⟨0x10C00400, 0x8, 31, 12, 4, .rw, true, false, true, 0xFFFFFFFFFFFFFFFF⟩
def NET_RIM_LANE_SPARED_1 : Field := ⟨0x10C00400, 0x8, 31, 8, 4, .ro, false, false, false, 0xFFFFFFFFFFFFFFFF⟩
def NET_RIM_LANE_FORCE_0 : Field := ⟨0x10C00400, 0x8, 31, 4, 4, .rw, true, false, true, 0xFFFFFFFFFFFFFFFF⟩
def NET_RIM_LANE_SPARED_0 : Field := ⟨0x10C00400, 0x8, 31, 0, 4, .ro, false, false, false, 0xFFFFFFFFFFFFFFFF⟩
def NET_PORT_PEER_NODE : Field := ⟨0x10C01000, 0x10, 64, 48, 16, .ro, false, false, false, 0x0⟩
def NET_PORT_PEER_PORT : Field := ⟨0x10C01000, 0x10, 64, 40, 8, .ro, false, false, false, 0x0⟩
def NET_PORT_UP : Field := ⟨0x10C01000, 0x10, 64, 7, 1, .ro, false, false, false, 0x0⟩
def NET_PORT_AN_OFF : Field := ⟨0x10C01000, 0x10, 64, 6, 1, .rw, true, false, true, 0x0⟩
def NET_PORT_MODE : Field := ⟨0x10C01000, 0x10, 64, 0, 2, .rw, true, false, false, 0x0⟩
def NET_PORT_CNT_FEC_UNCORR : Field := ⟨0x10C01008, 0x10, 64, 48, 16, .rc, false, false, false, 0x0⟩
def NET_PORT_CNT_FCS_ERR : Field := ⟨0x10C01008, 0x10, 64, 32, 16, .rc, false, false, false, 0x0⟩
def NET_PORT_CNT_LINK_DOWN : Field := ⟨0x10C01008, 0x10, 64, 16, 16, .rc, false, false, false, 0x0⟩
def NET_PORT_CNT_PAUSE : Field := ⟨0x10C01008, 0x10, 64, 0, 16, .rc, false, false, false, 0x0⟩
def CORE_ID_FIELD : Field := ⟨0x20000000, 0x1000, 14592, 32, 6, .ro, false, false, false, 0x0⟩
def CORE_ID_PHYS : Field := ⟨0x20000000, 0x1000, 14592, 16, 14, .ro, false, false, false, 0x0⟩
def CORE_ID_LOGICAL : Field := ⟨0x20000000, 0x1000, 14592, 0, 14, .ro, false, false, false, 0x0⟩
def CORE_STATUS_TICK : Field := ⟨0x20000008, 0x1000, 14592, 32, 16, .ro, false, false, false, 0x0⟩
def CORE_STATUS_CKPT : Field := ⟨0x20000008, 0x1000, 14592, 25, 1, .ro, false, false, false, 0x0⟩
def CORE_STATUS_LEES : Field := ⟨0x20000008, 0x1000, 14592, 24, 1, .ro, false, false, false, 0x0⟩
def CORE_STATUS_TENANT : Field := ⟨0x20000008, 0x1000, 14592, 16, 8, .ro, false, false, false, 0x0⟩
def CORE_STATUS_REGION : Field := ⟨0x20000008, 0x1000, 14592, 4, 12, .ro, false, false, false, 0x0⟩
def CORE_STATUS_STATE : Field := ⟨0x20000008, 0x1000, 14592, 0, 4, .ro, false, false, false, 0x0⟩
def CORE_FAULT_VALID : Field := ⟨0x20000010, 0x1000, 14592, 63, 1, .w1c, false, false, false, 0x0⟩
def CORE_FAULT_ENGINE : Field := ⟨0x20000010, 0x1000, 14592, 62, 1, .ro, false, false, false, 0x0⟩
def CORE_FAULT_STRETCH : Field := ⟨0x20000010, 0x1000, 14592, 61, 1, .ro, false, false, false, 0x0⟩
def CORE_FAULT_LATER : Field := ⟨0x20000010, 0x1000, 14592, 55, 1, .ro, false, false, false, 0x0⟩
def CORE_FAULT_ROW : Field := ⟨0x20000010, 0x1000, 14592, 38, 17, .ro, false, false, false, 0x0⟩
def CORE_FAULT_CYCLE : Field := ⟨0x20000010, 0x1000, 14592, 22, 16, .ro, false, false, false, 0x0⟩
def CORE_FAULT_PC : Field := ⟨0x20000010, 0x1000, 14592, 10, 12, .ro, false, false, false, 0x0⟩
def CORE_FAULT_EVENT : Field := ⟨0x20000010, 0x1000, 14592, 0, 10, .ro, false, false, false, 0x0⟩
def CORE_COMMIT_COMMIT_STATUS : Field := ⟨0x20000028, 0x1000, 14592, 56, 8, .ro, false, false, false, 0x0⟩
def CORE_COMMIT_WRITE_STATUS : Field := ⟨0x20000028, 0x1000, 14592, 48, 8, .rc, false, false, false, 0x0⟩
def CORE_COMMIT_COMMIT : Field := ⟨0x20000028, 0x1000, 14592, 0, 1, .wo, false, false, false, 0x0⟩
def CORE_CTL_SHADOW_VIEW : Field := ⟨0x20000030, 0x1000, 14592, 8, 1, .rw, false, false, false, 0x0⟩
def CORE_CTL_EXPERT_EN : Field := ⟨0x20000030, 0x1000, 14592, 0, 1, .rw, false, false, false, 0x0⟩
def CORE_SPAD_WIN_LEN : Field := ⟨0x20000100, 0x1000, 14592, 17, 17, .rw, true, true, false, 0x0⟩
def CORE_SPAD_WIN_BASE : Field := ⟨0x20000100, 0x1000, 14592, 0, 17, .rw, true, true, false, 0x0⟩
def CORE_SPAD_CNT_ABORT : Field := ⟨0x20000108, 0x1000, 14592, 48, 8, .rc, false, false, false, 0x0⟩
def CORE_SPAD_CNT_FORWARD : Field := ⟨0x20000108, 0x1000, 14592, 32, 16, .rc, false, false, false, 0x0⟩
def CORE_SPAD_CNT_CONFLICT : Field := ⟨0x20000108, 0x1000, 14592, 16, 16, .rc, false, false, false, 0x0⟩
def CORE_SPAD_CNT_DETECT : Field := ⟨0x20000108, 0x1000, 14592, 0, 16, .rc, false, false, false, 0x0⟩
def CORE_DBG_ROW_GO : Field := ⟨0x20000110, 0x1000, 14592, 63, 1, .wo, false, false, false, 0x0⟩
def CORE_DBG_ROW_BAD : Field := ⟨0x20000110, 0x1000, 14592, 62, 1, .ro, false, false, false, 0x0⟩
def CORE_DBG_ROW_DONE : Field := ⟨0x20000110, 0x1000, 14592, 61, 1, .ro, false, false, false, 0x0⟩
def CORE_DBG_ROW_ROW : Field := ⟨0x20000110, 0x1000, 14592, 0, 17, .rw, false, false, false, 0x0⟩
def CORE_TASTE_CTL_DRIFT : Field := ⟨0x20000200, 0x1000, 14592, 4, 2, .rw, true, false, false, 0x11⟩
def CORE_TASTE_CTL_RATE : Field := ⟨0x20000200, 0x1000, 14592, 0, 2, .rw, true, false, false, 0x11⟩
def CORE_TASTE_THR_CORR_LIMIT : Field := ⟨0x20000208, 0x1000, 14592, 32, 8, .rw, true, false, true, 0x1004400A06⟩
def CORE_TASTE_THR_SAT_LIMIT : Field := ⟨0x20000208, 0x1000, 14592, 24, 8, .rw, true, false, true, 0x1004400A06⟩
def CORE_TASTE_THR_CORR_RATIO : Field := ⟨0x20000208, 0x1000, 14592, 16, 8, .rw, true, false, true, 0x1004400A06⟩
def CORE_TASTE_THR_WIN_LOG2 : Field := ⟨0x20000208, 0x1000, 14592, 8, 4, .rw, true, false, true, 0x1004400A06⟩
def CORE_TASTE_THR_RATE_LOG2 : Field := ⟨0x20000208, 0x1000, 14592, 0, 4, .rw, true, false, true, 0x1004400A06⟩
def CORE_TASTE_CNT_DRIFT_CORR : Field := ⟨0x20000210, 0x1000, 14592, 48, 8, .rc, false, false, false, 0x0⟩
def CORE_TASTE_CNT_DRIFT_SAT : Field := ⟨0x20000210, 0x1000, 14592, 40, 8, .rc, false, false, false, 0x0⟩
def CORE_TASTE_CNT_MISMATCH : Field := ⟨0x20000210, 0x1000, 14592, 32, 8, .rc, false, false, false, 0x0⟩
def CORE_TASTE_CNT_SKIPPED : Field := ⟨0x20000210, 0x1000, 14592, 16, 16, .rc, false, false, false, 0x0⟩
def CORE_TASTE_CNT_TASTES : Field := ⟨0x20000210, 0x1000, 14592, 0, 16, .rc, false, false, false, 0x0⟩
def CORE_NUM_CTL_SAT_TRAP : Field := ⟨0x20000300, 0x1000, 14592, 9, 1, .rw, true, false, true, 0x0⟩
def CORE_NUM_CTL_NAN_TRAP : Field := ⟨0x20000300, 0x1000, 14592, 8, 1, .rw, true, false, true, 0x0⟩
def CORE_NUM_CTL_QSR_EN : Field := ⟨0x20000300, 0x1000, 14592, 0, 1, .rw, true, false, false, 0x0⟩
def CORE_NUM_CNT_NAN_OP : Field := ⟨0x20000308, 0x1000, 14592, 48, 16, .rc, false, false, false, 0x0⟩
def CORE_NUM_CNT_CLAMP : Field := ⟨0x20000308, 0x1000, 14592, 32, 16, .rc, false, false, false, 0x0⟩
def CORE_NUM_CNT_QSAT : Field := ⟨0x20000308, 0x1000, 14592, 16, 16, .rc, false, false, false, 0x0⟩
def CORE_NUM_CNT_RES_CODE : Field := ⟨0x20000308, 0x1000, 14592, 0, 16, .rc, false, false, false, 0x0⟩
def CORE_DBG_DATA_0_DATA : Field := ⟨0x20000140, 0x1000, 14592, 0, 64, .ro, false, false, false, 0x0⟩
def CORE_DBG_DATA_1_DATA : Field := ⟨0x20000148, 0x1000, 14592, 0, 64, .ro, false, false, false, 0x0⟩
def CORE_DBG_DATA_2_DATA : Field := ⟨0x20000150, 0x1000, 14592, 0, 64, .ro, false, false, false, 0x0⟩
def CORE_DBG_DATA_3_DATA : Field := ⟨0x20000158, 0x1000, 14592, 0, 64, .ro, false, false, false, 0x0⟩
def CORE_DBG_DATA_4_DATA : Field := ⟨0x20000160, 0x1000, 14592, 0, 64, .ro, false, false, false, 0x0⟩
def CORE_DBG_DATA_5_DATA : Field := ⟨0x20000168, 0x1000, 14592, 0, 64, .ro, false, false, false, 0x0⟩
def CORE_DBG_DATA_6_DATA : Field := ⟨0x20000170, 0x1000, 14592, 0, 64, .ro, false, false, false, 0x0⟩
def CORE_DBG_DATA_7_DATA : Field := ⟨0x20000178, 0x1000, 14592, 0, 64, .ro, false, false, false, 0x0⟩
def NET_RP_LEN : Field := ⟨0x24000000, 0x1000, 14592, 16, 13, .rw, true, true, false, 0x0⟩
def NET_RP_BASE : Field := ⟨0x24000000, 0x1000, 14592, 0, 13, .rw, true, true, false, 0x0⟩
def NET_COMMIT_COMMIT_STATUS : Field := ⟨0x24000008, 0x1000, 14592, 56, 8, .ro, false, false, false, 0x0⟩
def NET_COMMIT_WRITE_STATUS : Field := ⟨0x24000008, 0x1000, 14592, 48, 8, .rc, false, false, false, 0x0⟩
def NET_COMMIT_COMMIT : Field := ⟨0x24000008, 0x1000, 14592, 0, 1, .wo, false, false, false, 0x0⟩
def NET_ING_RING_LEN : Field := ⟨0x24000020, 0x1000, 14592, 17, 17, .rw, true, true, false, 0x0⟩
def NET_ING_RING_BASE : Field := ⟨0x24000020, 0x1000, 14592, 0, 17, .rw, true, true, false, 0x0⟩
def NET_EGR_RING_LEN : Field := ⟨0x24000028, 0x1000, 14592, 17, 17, .rw, true, true, false, 0x0⟩
def NET_EGR_RING_BASE : Field := ⟨0x24000028, 0x1000, 14592, 0, 17, .rw, true, true, false, 0x0⟩
def NET_RING_POS_EGR : Field := ⟨0x24000030, 0x1000, 14592, 32, 17, .ro, false, false, false, 0x0⟩
def NET_RING_POS_ING : Field := ⟨0x24000030, 0x1000, 14592, 0, 17, .ro, false, false, false, 0x0⟩
def NET_LANE_S_FORCE : Field := ⟨0x24000038, 0x1000, 14592, 24, 4, .rw, true, false, true, 0xF0F0F0F⟩
def NET_LANE_E_FORCE : Field := ⟨0x24000038, 0x1000, 14592, 16, 4, .rw, true, false, true, 0xF0F0F0F⟩
def NET_LANE_S_SPARED : Field := ⟨0x24000038, 0x1000, 14592, 8, 4, .ro, false, false, false, 0xF0F0F0F⟩
def NET_LANE_E_SPARED : Field := ⟨0x24000038, 0x1000, 14592, 0, 4, .ro, false, false, false, 0xF0F0F0F⟩
def NET_CNT_CTL_RETRY : Field := ⟨0x24000040, 0x1000, 14592, 48, 16, .rc, false, false, false, 0x0⟩
def NET_CNT_LATE : Field := ⟨0x24000040, 0x1000, 14592, 32, 16, .rc, false, false, false, 0x0⟩
def NET_CNT_DROP : Field := ⟨0x24000040, 0x1000, 14592, 16, 16, .rc, false, false, false, 0x0⟩
def NET_CNT_CHECK : Field := ⟨0x24000040, 0x1000, 14592, 0, 16, .rc, false, false, false, 0x0⟩
def NET_CTL_SHADOW_VIEW : Field := ⟨0x24000010, 0x1000, 14592, 9, 1, .rw, false, false, false, 0x0⟩
def NET_CTL_EXPERT_EN : Field := ⟨0x24000010, 0x1000, 14592, 8, 1, .rw, false, false, false, 0x0⟩

/-- The registers of the keep block. -/
def regs_keep : List Reg := [
  ⟨"KEEP_FIELD_MAP_LO", .keep, 0x10001000, 0x10, 48, [KEEP_FIELD_MAP_LO_ROW_0, KEEP_FIELD_MAP_LO_ROW_1, KEEP_FIELD_MAP_LO_ROW_2, KEEP_FIELD_MAP_LO_ROW_3, KEEP_FIELD_MAP_LO_ROW_4, KEEP_FIELD_MAP_LO_ROW_5, KEEP_FIELD_MAP_LO_ROW_6, KEEP_FIELD_MAP_LO_ROW_7]⟩,
  ⟨"KEEP_FIELD_MAP_HI", .keep, 0x10001008, 0x10, 48, [KEEP_FIELD_MAP_HI_ROW_0, KEEP_FIELD_MAP_HI_ROW_1, KEEP_FIELD_MAP_HI_ROW_2, KEEP_FIELD_MAP_HI_ROW_3, KEEP_FIELD_MAP_HI_ROW_4, KEEP_FIELD_MAP_HI_ROW_5, KEEP_FIELD_MAP_HI_ROW_6, KEEP_FIELD_MAP_HI_ROW_7]⟩,
  ⟨"KEEP_FIELD_LOST", .keep, 0x10001400, 0x0, 1, [KEEP_FIELD_LOST_LOST]⟩,
  ⟨"KEEP_ID", .keep, 0x10000000, 0x0, 1, [KEEP_ID_STACK_GIB, KEEP_ID_STEPPING, KEEP_ID_ORDER, KEEP_ID_DEVICE]⟩,
  ⟨"KEEP_CTL", .keep, 0x10000008, 0x0, 1, [KEEP_CTL_EXPERT_EN, KEEP_CTL_DEEP_IDLE]⟩,
  ⟨"KEEP_STATUS", .keep, 0x10000010, 0x0, 1, [KEEP_STATUS_MC_DOWN, KEEP_STATUS_CAUSE, KEEP_STATUS_RESTARTS, KEEP_STATUS_PLANNED_RESTART, KEEP_STATUS_OK]⟩,
  ⟨"KEEP_CNT", .keep, 0x10000018, 0x0, 1, [KEEP_CNT_SRAM_CORR, KEEP_CNT_MBOX_BUSY, KEEP_CNT_CTL_TIMEOUT, KEEP_CNT_SELFTEST_FAIL]⟩,
  ⟨"KEEP_EV_SEQ", .keep, 0x10000020, 0x0, 1, [KEEP_EV_SEQ_SEQ]⟩,
  ⟨"KEEP_WDT", .keep, 0x10000100, 0x8, 8, [KEEP_WDT_PERIOD, KEEP_WDT_KICK, KEEP_WDT_STAGE, KEEP_WDT_EN]⟩]

/-- The registers of the belfry block. -/
def regs_belfry : List Reg := [
  ⟨"BELFRY_CTL", .belfry, 0x10100000, 0x0, 1, [BELFRY_CTL_EXPERT_EN]⟩,
  ⟨"BELFRY_CNT", .belfry, 0x10100008, 0x0, 1, [BELFRY_CNT_SPURIOUS, BELFRY_CNT_BAD_COMPLETE, BELFRY_CNT_SAT_LOST, BELFRY_CNT_MSI_DROP]⟩,
  ⟨"BELFRY_TGT", .belfry, 0x10100100, 0x8, 10, [BELFRY_TGT_RUNNING, BELFRY_TGT_THRESH]⟩,
  ⟨"BELFRY_SRC_CFG", .belfry, 0x10102000, 0x10, 1024, [BELFRY_SRC_CFG_FORCE, BELFRY_SRC_CFG_COAL_TIME, BELFRY_SRC_CFG_COAL_COUNT, BELFRY_SRC_CFG_COAL, BELFRY_SRC_CFG_AUTO, BELFRY_SRC_CFG_VECTOR, BELFRY_SRC_CFG_PRIO, BELFRY_SRC_CFG_MASK]⟩,
  ⟨"BELFRY_SRC_STATUS", .belfry, 0x10102008, 0x10, 1024, [BELFRY_SRC_STATUS_CLAIMER, BELFRY_SRC_STATUS_ACTIVE, BELFRY_SRC_STATUS_LATCHED, BELFRY_SRC_STATUS_SAT, BELFRY_SRC_STATUS_DUE, BELFRY_SRC_STATUS_PENDING]⟩]

/-- The registers of the boot block. -/
def regs_boot : List Reg := [
  ⟨"BOOT_CTL", .boot, 0x10200000, 0x0, 1, [BOOT_CTL_READY_WAIT, BOOT_CTL_BIST_LEVEL, BOOT_CTL_EXPERT_EN, BOOT_CTL_START_LIST_EN]⟩,
  ⟨"BOOT_STATUS", .boot, 0x10200008, 0x0, 1, [BOOT_STATUS_CAUSE, BOOT_STATUS_PARTIAL, BOOT_STATUS_SETTINGS_DEFAULT, BOOT_STATUS_WARM, BOOT_STATUS_TRIAL, BOOT_STATUS_SLOT, BOOT_STATUS_PHASE]⟩,
  ⟨"BOOT_RESTART", .boot, 0x10200010, 0x0, 1, [BOOT_RESTART_STATUS, BOOT_RESTART_CMD]⟩,
  ⟨"BOOT_COUNT", .boot, 0x10200018, 0x0, 1, [BOOT_COUNT_COUNT]⟩,
  ⟨"BOOT_TIME", .boot, 0x10200020, 0x0, 1, [BOOT_TIME_READY_MS, BOOT_TIME_PHASE_MS]⟩,
  ⟨"BOOT_UPD", .boot, 0x10200028, 0x0, 1, [BOOT_UPD_STATUS, BOOT_UPD_STATE, BOOT_UPD_SVN, BOOT_UPD_PROGRESS]⟩]

/-- The registers of the sec block. -/
def regs_sec : List Reg := [
  ⟨"SEC_CTL", .sec, 0x10300000, 0x0, 1, [SEC_CTL_LIFE, SEC_CTL_FAIL_LIMIT, SEC_CTL_EXPERT_EN, SEC_CTL_UART_SESSION_EN]⟩,
  ⟨"SEC_STATUS", .sec, 0x10300008, 0x0, 1, [SEC_STATUS_SESSIONS, SEC_STATUS_IDENTITY, SEC_STATUS_OPERATOR_KEY]⟩,
  ⟨"SEC_PORT_SESSION", .sec, 0x10300010, 0x8, 2, [SEC_PORT_SESSION_TENANT, SEC_PORT_SESSION_SESSION]⟩,
  ⟨"SEC_CNT", .sec, 0x10300020, 0x0, 1, [SEC_CNT_OPEN_FAIL, SEC_CNT_OPENED]⟩,
  ⟨"SEC_ID_FP", .sec, 0x10300040, 0x8, 4, [SEC_ID_FP_FP]⟩,
  ⟨"SEC_KEYS", .sec, 0x10300080, 0x8, 4, [SEC_KEYS_PRESENT]⟩]

/-- The registers of the tick block. -/
def regs_tick : List Reg := [
  ⟨"TICK_CTL", .tick, 0x10400000, 0x0, 1, [TICK_CTL_SHADOW_VIEW, TICK_CTL_EXPERT_EN, TICK_CTL_K]⟩,
  ⟨"TICK_COMMIT", .tick, 0x10400008, 0x0, 1, [TICK_COMMIT_COMMIT_STATUS, TICK_COMMIT_WRITE_STATUS, TICK_COMMIT_COMMIT]⟩,
  ⟨"TICK_COUNT", .tick, 0x10400010, 0x0, 1, [TICK_COUNT_COUNT]⟩,
  ⟨"TICK_STAMP", .tick, 0x10400018, 0x0, 1, [TICK_STAMP_HALL]⟩,
  ⟨"TICK_STRETCH", .tick, 0x10400020, 0x0, 1, [TICK_STRETCH_FORCE_EN, TICK_STRETCH_FORCE, TICK_STRETCH_FLOOR, TICK_STRETCH_CUR]⟩,
  ⟨"TICK_CLK_STATUS", .tick, 0x10400040, 0x0, 1, [TICK_CLK_STATUS_FALLBACK_CNT, TICK_CLK_STATUS_FALLBACK, TICK_CLK_STATUS_E_LOCK, TICK_CLK_STATUS_W_LOCK, TICK_CLK_STATUS_STEP]⟩]

/-- The registers of the reg block. -/
def regs_reg : List Reg := [
  ⟨"REG_CTL", .reg, 0x10500000, 0x0, 1, [REG_CTL_HOLD_LIMIT, REG_CTL_LOAD_RETRY, REG_CTL_FORCE_FULL, REG_CTL_SHADOW_VIEW, REG_CTL_EXPERT_EN]⟩,
  ⟨"REG_COMMIT", .reg, 0x10500008, 0x0, 1, [REG_COMMIT_COMMIT_STATUS, REG_COMMIT_WRITE_STATUS, REG_COMMIT_COMMIT]⟩,
  ⟨"REG_STATUS", .reg, 0x10500010, 0x0, 1, [REG_STATUS_PLAN_SET, REG_STATUS_COMMIT_STATUS, REG_STATUS_DESC_USED]⟩,
  ⟨"REG_CNT", .reg, 0x10500018, 0x0, 1, [REG_CNT_SWEEPS, REG_CNT_BIND_FAIL, REG_CNT_HOLD_EXPIRED]⟩,
  ⟨"REG_TENANT_LIM_A", .reg, 0x10501000, 0x40, 256, [REG_TENANT_LIM_A_SLOTS, REG_TENANT_LIM_A_CORES]⟩,
  ⟨"REG_TENANT_LIM_B", .reg, 0x10501008, 0x40, 256, [REG_TENANT_LIM_B_FABRIC, REG_TENANT_LIM_B_PAGES]⟩,
  ⟨"REG_TENANT_USE_A", .reg, 0x10501010, 0x40, 256, [REG_TENANT_USE_A_SLOTS, REG_TENANT_USE_A_CORES]⟩,
  ⟨"REG_TENANT_USE_B", .reg, 0x10501018, 0x40, 256, [REG_TENANT_USE_B_FABRIC, REG_TENANT_USE_B_PAGES]⟩,
  ⟨"REG_TENANT_CTL", .reg, 0x10501020, 0x40, 256, [REG_TENANT_CTL_RECLAIM_STATUS, REG_TENANT_CTL_RECLAIM_BUSY, REG_TENANT_CTL_RECLAIM]⟩,
  ⟨"REG_DESC0", .reg, 0x10510000, 0x40, 4096, [REG_DESC0_KIND, REG_DESC0_FATE, REG_DESC0_TENANT, REG_DESC0_PARENT]⟩,
  ⟨"REG_DESC1", .reg, 0x10510008, 0x40, 4096, [REG_DESC1_W, REG_DESC1_X0, REG_DESC1_H, REG_DESC1_Y0]⟩,
  ⟨"REG_PLAN", .reg, 0x10510010, 0x40, 4096, [REG_PLAN_PLAN_ID, REG_PLAN_LOADED]⟩,
  ⟨"REG_UNIT_CTL", .reg, 0x10510018, 0x40, 4096, [REG_UNIT_CTL_PLAN_ID, REG_UNIT_CTL_TENANT, REG_UNIT_CTL_AUTORUN, REG_UNIT_CTL_KEEP_LEES, REG_UNIT_CTL_CMD]⟩,
  ⟨"REG_UNIT_STATUS", .reg, 0x10510020, 0x40, 4096, [REG_UNIT_STATUS_CMD_STATUS, REG_UNIT_STATUS_LAST_CMD, REG_UNIT_STATUS_OUT_COUNT, REG_UNIT_STATUS_IN_COUNT, REG_UNIT_STATUS_HEAD, REG_UNIT_STATUS_TENANT, REG_UNIT_STATUS_SEATED, REG_UNIT_STATUS_LEES, REG_UNIT_STATUS_COMPOSITE, REG_UNIT_STATUS_STATE]⟩,
  ⟨"REG_UNIT_FAULT", .reg, 0x10510028, 0x40, 4096, [REG_UNIT_FAULT_VALID, REG_UNIT_FAULT_REPLAY, REG_UNIT_FAULT_TICK, REG_UNIT_FAULT_PC, REG_UNIT_FAULT_EVENT, REG_UNIT_FAULT_CORE]⟩,
  ⟨"REG_UNIT_MBOX", .reg, 0x10510030, 0x40, 4096, [REG_UNIT_MBOX_WORD]⟩,
  ⟨"REG_UNIT_CNT", .reg, 0x10510038, 0x40, 4096, [REG_UNIT_CNT_EMPTY_ROW, REG_UNIT_CNT_REPLAYS, REG_UNIT_CNT_OUT_LOST, REG_UNIT_CNT_IN_LOST, REG_UNIT_CNT_BINDS]⟩]

/-- The registers of the cask block. -/
def regs_cask : List Reg := [
  ⟨"CASK_CTL", .cask, 0x10600000, 0x0, 1, [CASK_CTL_DRAIN_S, CASK_CTL_SCRUB_PERIOD, CASK_CTL_SHADOW_VIEW, CASK_CTL_EXPERT_EN, CASK_CTL_REQUIRE_SIG]⟩,
  ⟨"CASK_STATUS", .cask, 0x10600010, 0x0, 1, [CASK_STATUS_CELLAR_MIB, CASK_STATUS_BAD, CASK_STATUS_MASTERS]⟩,
  ⟨"CASK_CNT", .cask, 0x10600018, 0x0, 1, [CASK_CNT_LOST, CASK_CNT_REPAIRS, CASK_CNT_DIGEST_FAIL, CASK_CNT_SCRUB_PASSES]⟩,
  ⟨"CASK_OP", .cask, 0x10600020, 0x0, 1, [CASK_OP_STATUS, CASK_OP_BUSY, CASK_OP_CAUSE, CASK_OP_CMD]⟩,
  ⟨"CASK_COMMIT", .cask, 0x10600008, 0x0, 1, [CASK_COMMIT_COMMIT_STATUS, CASK_COMMIT_WRITE_STATUS, CASK_COMMIT_COMMIT]⟩,
  ⟨"CASK_OP_ADDR", .cask, 0x10600028, 0x0, 1, [CASK_OP_ADDR_ADDR]⟩,
  ⟨"CASK_OP_LEN", .cask, 0x10600030, 0x0, 1, [CASK_OP_LEN_LEN]⟩,
  ⟨"CASK_OP_KEY", .cask, 0x10600038, 0x0, 1, [CASK_OP_KEY_PLAN_ID, CASK_OP_KEY_TARGET, CASK_OP_KEY_VERSION]⟩,
  ⟨"CASK_RACK", .cask, 0x10600040, 0x0, 1, [CASK_RACK_PLAN_ID, CASK_RACK_REGION, CASK_RACK_CMD]⟩,
  ⟨"CASK_RACK_STATUS", .cask, 0x10600048, 0x0, 1, [CASK_RACK_STATUS_CMD_STATUS, CASK_RACK_STATUS_PHASE, CASK_RACK_STATUS_DRAIN_LEFT, CASK_RACK_STATUS_OLD_STREAMS]⟩,
  ⟨"CASK_SCRUB_THR", .cask, 0x10600050, 0x0, 1, [CASK_SCRUB_THR_SCRUB_BW, CASK_SCRUB_THR_HALL_TRIES]⟩]

/-- The registers of the strm block. -/
def regs_strm : List Reg := [
  ⟨"STRM_CTL", .strm, 0x10700000, 0x0, 1, [STRM_CTL_SHADOW_VIEW, STRM_CTL_EXPERT_EN, STRM_CTL_SPEC_EN]⟩,
  ⟨"STRM_STATUS", .strm, 0x10700010, 0x0, 1, [STRM_STATUS_OWNED, STRM_STATUS_MIRRORED, STRM_STATUS_OUTSTANDING, STRM_STATUS_SEATED]⟩,
  ⟨"STRM_CNT", .strm, 0x10700018, 0x0, 1, [STRM_CNT_TRUNCATES, STRM_CNT_FAILED, STRM_CNT_TOKENS]⟩,
  ⟨"STRM_SEAT_THR", .strm, 0x10700020, 0x0, 1, [STRM_SEAT_THR_HOLD_PAUSE, STRM_SEAT_THR_SEAT_HOLD]⟩,
  ⟨"STRM_COMMIT", .strm, 0x10700008, 0x0, 1, [STRM_COMMIT_COMMIT_STATUS, STRM_COMMIT_WRITE_STATUS, STRM_COMMIT_COMMIT]⟩,
  ⟨"STRM_QP_CFG", .strm, 0x10701000, 0x40, 64, [STRM_QP_CFG_EN, STRM_QP_CFG_PORT, STRM_QP_CFG_TENANT, STRM_QP_CFG_OUT_MAX, STRM_QP_CFG_EMIT_LOG2, STRM_QP_CFG_LEDGER_LOG2, STRM_QP_CFG_SOURCE]⟩,
  ⟨"STRM_QP_LEDGER", .strm, 0x10701008, 0x40, 64, [STRM_QP_LEDGER_ADDR]⟩,
  ⟨"STRM_QP_EMIT", .strm, 0x10701010, 0x40, 64, [STRM_QP_EMIT_ADDR]⟩,
  ⟨"STRM_QP_IDX", .strm, 0x10701018, 0x40, 64, [STRM_QP_IDX_ADDR]⟩,
  ⟨"STRM_QP_STATUS", .strm, 0x10701020, 0x40, 64, [STRM_QP_STATUS_OUTSTANDING, STRM_QP_STATUS_HOLD, STRM_QP_STATUS_TAKEN_OVER, STRM_QP_STATUS_FAULT, STRM_QP_STATUS_ACTIVE]⟩]

/-- The registers of the pager block. -/
def regs_pager : List Reg := [
  ⟨"STRM_PAGER_CTL", .pager, 0x10704000, 0x0, 1, [STRM_PAGER_CTL_SPILL_AGE, STRM_PAGER_CTL_SHADOW_VIEW, STRM_PAGER_CTL_EXPERT_EN, STRM_PAGER_CTL_PREV_PARK, STRM_PAGER_CTL_MODE]⟩,
  ⟨"STRM_PAGER_COMMIT", .pager, 0x10704008, 0x0, 1, [STRM_PAGER_COMMIT_COMMIT_STATUS, STRM_PAGER_COMMIT_WRITE_STATUS, STRM_PAGER_COMMIT_COMMIT]⟩,
  ⟨"STRM_PAGER_THR", .pager, 0x10704010, 0x0, 1, [STRM_PAGER_THR_FETCH_RETRY, STRM_PAGER_THR_CELLAR_HIGH, STRM_PAGER_THR_CELLAR_LOW]⟩,
  ⟨"STRM_PAGER_CNT", .pager, 0x10704020, 0x0, 1, [STRM_PAGER_CNT_REPREFILL, STRM_PAGER_CNT_CHECK_FAIL, STRM_PAGER_CNT_FRAME_WAIT, STRM_PAGER_CNT_SPILL]⟩,
  ⟨"STRM_PAGER_STATUS", .pager, 0x10704028, 0x0, 1, [STRM_PAGER_STATUS_HALL_PAGES, STRM_PAGER_STATUS_CELLAR_PAGES]⟩,
  ⟨"STRM_PAGE_PIN", .pager, 0x10704040, 0x8, 16, [STRM_PAGE_PIN_PIN, STRM_PAGE_PIN_HANDLE]⟩]

/-- The registers of the twin block. -/
def regs_twin : List Reg := [
  ⟨"TWIN_CTL", .twin, 0x10800000, 0x0, 1, [TWIN_CTL_PORTS, TWIN_CTL_SHADOW_VIEW, TWIN_CTL_EXPERT_EN, TWIN_CTL_COVER_EN, TWIN_CTL_SHED, TWIN_CTL_PAIR_EN]⟩,
  ⟨"TWIN_STATUS", .twin, 0x10800010, 0x0, 1, [TWIN_STATUS_CAUSE, TWIN_STATUS_PORTS_UP, TWIN_STATUS_SYNC, TWIN_STATUS_PEER_KEEP, TWIN_STATUS_ROLE, TWIN_STATUS_STATE]⟩,
  ⟨"TWIN_PEER", .twin, 0x10800018, 0x0, 1, [TWIN_PEER_PEER_ROLE, TWIN_PEER_PEER_NODE]⟩,
  ⟨"TWIN_FENCE", .twin, 0x10800020, 0x0, 1, [TWIN_FENCE_ACKED, TWIN_FENCE_CONFIRM, TWIN_FENCE_REQ]⟩,
  ⟨"TWIN_THR", .twin, 0x10800028, 0x0, 1, [TWIN_THR_FENCE_WAIT, TWIN_THR_HB_GRACE]⟩,
  ⟨"TWIN_CNT", .twin, 0x10800040, 0x0, 1, [TWIN_CNT_TAKEOVERS, TWIN_CNT_COVERS, TWIN_CNT_DUP_SUPPRESSED, TWIN_CNT_HB_MISS]⟩,
  ⟨"TWIN_COMMIT", .twin, 0x10800008, 0x0, 1, [TWIN_COMMIT_COMMIT_STATUS, TWIN_COMMIT_WRITE_STATUS, TWIN_COMMIT_COMMIT]⟩,
  ⟨"TWIN_JSN_SENT", .twin, 0x10800030, 0x0, 1, [TWIN_JSN_SENT_JSN]⟩,
  ⟨"TWIN_JSN_ACKED", .twin, 0x10800038, 0x0, 1, [TWIN_JSN_ACKED_JSN]⟩,
  ⟨"TWIN_FAMILY", .twin, 0x10800048, 0x0, 1, [TWIN_FAMILY_DIGEST]⟩,
  ⟨"TWIN_PEER_FAMILY", .twin, 0x10800050, 0x0, 1, [TWIN_PEER_FAMILY_DIGEST]⟩,
  ⟨"TWIN_PEER_KEY", .twin, 0x10800060, 0x8, 4, [TWIN_PEER_KEY_KEY]⟩]

/-- The registers of the pwr block. -/
def regs_pwr : List Reg := [
  ⟨"PWR_CTL", .pwr, 0x10900000, 0x0, 1, [PWR_CTL_CAP, PWR_CTL_DROOP, PWR_CTL_VMIN_RST, PWR_CTL_SHADOW_VIEW, PWR_CTL_EXPERT_EN, PWR_CTL_FCAST_MARGIN]⟩,
  ⟨"PWR_STATUS", .pwr, 0x10900010, 0x0, 1, [PWR_STATUS_VCORE_NOM, PWR_STATUS_CAL_PROV, PWR_STATUS_SPIRE_FAULT, PWR_STATUS_ENG_FAULT, PWR_STATUS_NVLOCK, PWR_STATUS_DERATE, PWR_STATUS_ADMIT_WAIT]⟩,
  ⟨"PWR_TELEM", .pwr, 0x10900018, 0x0, 1, [PWR_TELEM_POWER, PWR_TELEM_BUSBAR, PWR_TELEM_AUX33]⟩,
  ⟨"PWR_THR", .pwr, 0x10900030, 0x0, 1, [PWR_THR_ADMIT_WAIT, PWR_THR_SAG_BUS, PWR_THR_SAG_AUX, PWR_THR_DROOP_CRIT, PWR_THR_DROOP_WARN]⟩,
  ⟨"PWR_CNT", .pwr, 0x10900038, 0x0, 1, [PWR_CNT_FCAST_MISS, PWR_CNT_ADMIT_DELAY, PWR_CNT_DROOP_ABORT, PWR_CNT_DROOP_WARN]⟩,
  ⟨"PWR_COMMIT", .pwr, 0x10900008, 0x0, 1, [PWR_COMMIT_COMMIT_STATUS, PWR_COMMIT_WRITE_STATUS, PWR_COMMIT_COMMIT]⟩,
  ⟨"PWR_HIB", .pwr, 0x10900020, 0x0, 1, [PWR_HIB_REQ]⟩,
  ⟨"PWR_HIB_STATUS", .pwr, 0x10900028, 0x0, 1, [PWR_HIB_STATUS_OFF]⟩,
  ⟨"PWR_QUAD", .pwr, 0x10900100, 0x8, 4, [PWR_QUAD_FCAST, PWR_QUAD_LIMIT, PWR_QUAD_DIDT]⟩,
  ⟨"PWR_FIELD", .pwr, 0x10901000, 0x20, 48, [PWR_FIELD_TRIM, PWR_FIELD_OVR_EN, PWR_FIELD_OVR, PWR_FIELD_CLASS, PWR_FIELD_FAILED]⟩,
  ⟨"PWR_BUTT", .pwr, 0x10901008, 0x20, 48, [PWR_BUTT_FAILED]⟩,
  ⟨"PWR_VMIN", .pwr, 0x10901010, 0x20, 48, [PWR_VMIN_TICK, PWR_VMIN_VMIN]⟩,
  ⟨"PWR_VMIN_STAMP", .pwr, 0x10901018, 0x20, 48, [PWR_VMIN_STAMP_HALL]⟩]

/-- The registers of the thm block. -/
def regs_thm : List Reg := [
  ⟨"THM_CTL", .thm, 0x10A00000, 0x0, 1, [THM_CTL_FLOW_SET, THM_CTL_PROFILE, THM_CTL_LEAK_ACT, THM_CTL_CTRL, THM_CTL_SHADOW_VIEW, THM_CTL_EXPERT_EN]⟩,
  ⟨"THM_STATUS", .thm, 0x10A00010, 0x0, 1, [THM_STATUS_TJ_MAX, THM_STATUS_THBM_MAX, THM_STATUS_FLOW, THM_STATUS_STAGE, THM_STATUS_DEMAND]⟩,
  ⟨"THM_THR", .thm, 0x10A00018, 0x0, 1, [THM_THR_TJ_LIMIT, THM_THR_THBM_LIMIT, THM_THR_FLOW_WARN, THM_THR_FLOW_SHED, THM_THR_FLOW_STOP, THM_THR_SLOPE, THM_THR_DEW_MARGIN]⟩,
  ⟨"THM_CURVE", .thm, 0x10A00020, 0x0, 1, [THM_CURVE_TJ_T0, THM_CURVE_TJ_T1, THM_CURVE_HBM_T0, THM_CURVE_HBM_T1]⟩,
  ⟨"THM_CNT", .thm, 0x10A00028, 0x0, 1, [THM_CNT_LIMIT, THM_CNT_FLOW_STOP, THM_CNT_FLOW_LOW, THM_CNT_STEP_DOWN]⟩,
  ⟨"THM_LIFE", .thm, 0x10A00030, 0x0, 1, [THM_LIFE_ITEM, THM_LIFE_USED, THM_LIFE_YEARS_LEFT]⟩,
  ⟨"THM_COMMIT", .thm, 0x10A00008, 0x0, 1, [THM_COMMIT_COMMIT_STATUS, THM_COMMIT_WRITE_STATUS, THM_COMMIT_COMMIT]⟩,
  ⟨"THM_FIELD", .thm, 0x10A01000, 0x10, 48, [THM_FIELD_TEMP]⟩,
  ⟨"THM_FCYC", .thm, 0x10A01008, 0x10, 48, [THM_FCYC_C15, THM_FCYC_C30]⟩,
  ⟨"THM_STACK", .thm, 0x10A02000, 0x10, 48, [THM_STACK_TEMP]⟩,
  ⟨"THM_SCYC", .thm, 0x10A02008, 0x10, 48, [THM_SCYC_C15, THM_SCYC_C30]⟩]

/-- The registers of the chan block. -/
def regs_chan : List Reg := [
  ⟨"CHAN_CTL", .chan, 0x10B00000, 0x0, 1, [CHAN_CTL_SHADOW_VIEW, CHAN_CTL_EXPERT_EN]⟩,
  ⟨"CHAN_COMMIT", .chan, 0x10B00008, 0x0, 1, [CHAN_COMMIT_COMMIT_STATUS, CHAN_COMMIT_WRITE_STATUS, CHAN_COMMIT_COMMIT]⟩,
  ⟨"CHAN_CFG", .chan, 0x10B00100, 0x10, 16, [CHAN_CFG_SCALE, CHAN_CFG_FIXED, CHAN_CFG_MODE, CHAN_CFG_LOOP_PWR, CHAN_CFG_EN]⟩,
  ⟨"CHAN_VAL", .chan, 0x10B00108, 0x10, 16, [CHAN_VAL_STATE, CHAN_VAL_VALUE]⟩]

/-- The registers of the fab block. -/
def regs_fab : List Reg := [
  ⟨"NET_FAB_CTL", .fab, 0x10C00000, 0x0, 1, [NET_FAB_CTL_NODE, NET_FAB_CTL_UDP_PORT, NET_FAB_CTL_VLAN, NET_FAB_CTL_PFC_EN, NET_FAB_CTL_FWD_EN, NET_FAB_CTL_JUMBO, NET_FAB_CTL_SHADOW_VIEW, NET_FAB_CTL_EXPERT_EN]⟩,
  ⟨"NET_FAB_STATUS", .fab, 0x10C00010, 0x0, 1, [NET_FAB_STATUS_UNREACH, NET_FAB_STATUS_POD_NODES, NET_FAB_STATUS_ID_CONFLICT, NET_FAB_STATUS_PROVISIONAL]⟩,
  ⟨"NET_FAB_THR", .fab, 0x10C00020, 0x0, 1, [NET_FAB_THR_HELLO_MS, NET_FAB_THR_RETX_MAX, NET_FAB_THR_REORDER_WAIT, NET_FAB_THR_RTO_MIN, NET_FAB_THR_WIN_MAX, NET_FAB_THR_WIN_INIT, NET_FAB_THR_PATHS]⟩,
  ⟨"NET_FAB_CNT", .fab, 0x10C00028, 0x0, 1, [NET_FAB_CNT_RETX, NET_FAB_CNT_FORWARDED, NET_FAB_CNT_AUTH_FAIL, NET_FAB_CNT_POOL_FULL, NET_FAB_CNT_DUP, NET_FAB_CNT_DISCARD]⟩,
  ⟨"NET_PTP", .fab, 0x10C00038, 0x0, 1, [NET_PTP_OFFSET, NET_PTP_PRIO1, NET_PTP_PRIO2, NET_PTP_DOMAIN, NET_PTP_STEPS, NET_PTP_TRACEABLE, NET_PTP_GM, NET_PTP_LOCKED, NET_PTP_VALID]⟩,
  ⟨"NET_FAB_COMMIT", .fab, 0x10C00008, 0x0, 1, [NET_FAB_COMMIT_COMMIT_STATUS, NET_FAB_COMMIT_WRITE_STATUS, NET_FAB_COMMIT_COMMIT]⟩,
  ⟨"NET_FAB_PREFIX", .fab, 0x10C00018, 0x0, 1, [NET_FAB_PREFIX_PREFIX]⟩,
  ⟨"NET_HALL_TIME", .fab, 0x10C00030, 0x0, 1, [NET_HALL_TIME_HALL]⟩,
  ⟨"NET_FAB_GW", .fab, 0x10C00040, 0x0, 1, [NET_FAB_GW_GATEWAY]⟩,
  ⟨"NET_POOL_A", .fab, 0x10C00100, 0x10, 8, [NET_POOL_A_NODE, NET_POOL_A_OFFSET]⟩,
  ⟨"NET_POOL_B", .fab, 0x10C00108, 0x10, 8, [NET_POOL_B_EN, NET_POOL_B_LEN]⟩,
  ⟨"NET_RIM_LANE", .fab, 0x10C00400, 0x8, 31, [NET_RIM_LANE_FORCE_7, NET_RIM_LANE_SPARED_7, NET_RIM_LANE_FORCE_6, NET_RIM_LANE_SPARED_6, NET_RIM_LANE_FORCE_5, NET_RIM_LANE_SPARED_5, NET_RIM_LANE_FORCE_4, NET_RIM_LANE_SPARED_4, NET_RIM_LANE_FORCE_3, NET_RIM_LANE_SPARED_3, NET_RIM_LANE_FORCE_2, NET_RIM_LANE_SPARED_2, NET_RIM_LANE_FORCE_1, NET_RIM_LANE_SPARED_1, NET_RIM_LANE_FORCE_0, NET_RIM_LANE_SPARED_0]⟩,
  ⟨"NET_PORT", .fab, 0x10C01000, 0x10, 64, [NET_PORT_PEER_NODE, NET_PORT_PEER_PORT, NET_PORT_UP, NET_PORT_AN_OFF, NET_PORT_MODE]⟩,
  ⟨"NET_PORT_CNT", .fab, 0x10C01008, 0x10, 64, [NET_PORT_CNT_FEC_UNCORR, NET_PORT_CNT_FCS_ERR, NET_PORT_CNT_LINK_DOWN, NET_PORT_CNT_PAUSE]⟩]

/-- The registers of the core block. -/
def regs_core : List Reg := [
  ⟨"CORE_ID", .core, 0x20000000, 0x1000, 14592, [CORE_ID_FIELD, CORE_ID_PHYS, CORE_ID_LOGICAL]⟩,
  ⟨"CORE_STATUS", .core, 0x20000008, 0x1000, 14592, [CORE_STATUS_TICK, CORE_STATUS_CKPT, CORE_STATUS_LEES, CORE_STATUS_TENANT, CORE_STATUS_REGION, CORE_STATUS_STATE]⟩,
  ⟨"CORE_FAULT", .core, 0x20000010, 0x1000, 14592, [CORE_FAULT_VALID, CORE_FAULT_ENGINE, CORE_FAULT_STRETCH, CORE_FAULT_LATER, CORE_FAULT_ROW, CORE_FAULT_CYCLE, CORE_FAULT_PC, CORE_FAULT_EVENT]⟩,
  ⟨"CORE_COMMIT", .core, 0x20000028, 0x1000, 14592, [CORE_COMMIT_COMMIT_STATUS, CORE_COMMIT_WRITE_STATUS, CORE_COMMIT_COMMIT]⟩,
  ⟨"CORE_CTL", .core, 0x20000030, 0x1000, 14592, [CORE_CTL_SHADOW_VIEW, CORE_CTL_EXPERT_EN]⟩,
  ⟨"CORE_SPAD_WIN", .core, 0x20000100, 0x1000, 14592, [CORE_SPAD_WIN_LEN, CORE_SPAD_WIN_BASE]⟩,
  ⟨"CORE_SPAD_CNT", .core, 0x20000108, 0x1000, 14592, [CORE_SPAD_CNT_ABORT, CORE_SPAD_CNT_FORWARD, CORE_SPAD_CNT_CONFLICT, CORE_SPAD_CNT_DETECT]⟩,
  ⟨"CORE_DBG_ROW", .core, 0x20000110, 0x1000, 14592, [CORE_DBG_ROW_GO, CORE_DBG_ROW_BAD, CORE_DBG_ROW_DONE, CORE_DBG_ROW_ROW]⟩,
  ⟨"CORE_TASTE_CTL", .core, 0x20000200, 0x1000, 14592, [CORE_TASTE_CTL_DRIFT, CORE_TASTE_CTL_RATE]⟩,
  ⟨"CORE_TASTE_THR", .core, 0x20000208, 0x1000, 14592, [CORE_TASTE_THR_CORR_LIMIT, CORE_TASTE_THR_SAT_LIMIT, CORE_TASTE_THR_CORR_RATIO, CORE_TASTE_THR_WIN_LOG2, CORE_TASTE_THR_RATE_LOG2]⟩,
  ⟨"CORE_TASTE_CNT", .core, 0x20000210, 0x1000, 14592, [CORE_TASTE_CNT_DRIFT_CORR, CORE_TASTE_CNT_DRIFT_SAT, CORE_TASTE_CNT_MISMATCH, CORE_TASTE_CNT_SKIPPED, CORE_TASTE_CNT_TASTES]⟩,
  ⟨"CORE_NUM_CTL", .core, 0x20000300, 0x1000, 14592, [CORE_NUM_CTL_SAT_TRAP, CORE_NUM_CTL_NAN_TRAP, CORE_NUM_CTL_QSR_EN]⟩,
  ⟨"CORE_NUM_CNT", .core, 0x20000308, 0x1000, 14592, [CORE_NUM_CNT_NAN_OP, CORE_NUM_CNT_CLAMP, CORE_NUM_CNT_QSAT, CORE_NUM_CNT_RES_CODE]⟩,
  ⟨"CORE_DBG_DATA_0", .core, 0x20000140, 0x1000, 14592, [CORE_DBG_DATA_0_DATA]⟩,
  ⟨"CORE_DBG_DATA_1", .core, 0x20000148, 0x1000, 14592, [CORE_DBG_DATA_1_DATA]⟩,
  ⟨"CORE_DBG_DATA_2", .core, 0x20000150, 0x1000, 14592, [CORE_DBG_DATA_2_DATA]⟩,
  ⟨"CORE_DBG_DATA_3", .core, 0x20000158, 0x1000, 14592, [CORE_DBG_DATA_3_DATA]⟩,
  ⟨"CORE_DBG_DATA_4", .core, 0x20000160, 0x1000, 14592, [CORE_DBG_DATA_4_DATA]⟩,
  ⟨"CORE_DBG_DATA_5", .core, 0x20000168, 0x1000, 14592, [CORE_DBG_DATA_5_DATA]⟩,
  ⟨"CORE_DBG_DATA_6", .core, 0x20000170, 0x1000, 14592, [CORE_DBG_DATA_6_DATA]⟩,
  ⟨"CORE_DBG_DATA_7", .core, 0x20000178, 0x1000, 14592, [CORE_DBG_DATA_7_DATA]⟩]

/-- The registers of the net block. -/
def regs_net : List Reg := [
  ⟨"NET_RP", .net, 0x24000000, 0x1000, 14592, [NET_RP_LEN, NET_RP_BASE]⟩,
  ⟨"NET_COMMIT", .net, 0x24000008, 0x1000, 14592, [NET_COMMIT_COMMIT_STATUS, NET_COMMIT_WRITE_STATUS, NET_COMMIT_COMMIT]⟩,
  ⟨"NET_ING_RING", .net, 0x24000020, 0x1000, 14592, [NET_ING_RING_LEN, NET_ING_RING_BASE]⟩,
  ⟨"NET_EGR_RING", .net, 0x24000028, 0x1000, 14592, [NET_EGR_RING_LEN, NET_EGR_RING_BASE]⟩,
  ⟨"NET_RING_POS", .net, 0x24000030, 0x1000, 14592, [NET_RING_POS_EGR, NET_RING_POS_ING]⟩,
  ⟨"NET_LANE", .net, 0x24000038, 0x1000, 14592, [NET_LANE_S_FORCE, NET_LANE_E_FORCE, NET_LANE_S_SPARED, NET_LANE_E_SPARED]⟩,
  ⟨"NET_CNT", .net, 0x24000040, 0x1000, 14592, [NET_CNT_CTL_RETRY, NET_CNT_LATE, NET_CNT_DROP, NET_CNT_CHECK]⟩,
  ⟨"NET_CTL", .net, 0x24000010, 0x1000, 14592, [NET_CTL_SHADOW_VIEW, NET_CTL_EXPERT_EN]⟩]

/-- Every register of the engine. -/
def allRegs : List Reg :=
  regs_keep ++ regs_belfry ++ regs_boot ++ regs_sec ++ regs_tick ++ regs_reg ++ regs_cask ++ regs_strm ++ regs_pager ++ regs_twin ++ regs_pwr ++ regs_thm ++ regs_chan ++ regs_fab ++ regs_core ++ regs_net

end Sys2Proof.Machine.F
end

