-- ==== Sys2Proof/Machine/Ops.lean ====
section
/-! DEFINITION. The named operations every meaning uses: sparse tables, register fields, counters, free values, the Belfry's raise of a
source (R478–R484), events (R476) and the geometry of the array (R31–R36). -/

namespace Sys2Proof.Machine

/-! ## Sparse tables -/

/-- The entry of k, or d. -/
def tget {α : Type} : Table α → Nat → α → α
  | [], _, d => d
  | (j, x) :: t, k, d => if j = k then x else tget t k d

/-- The entry of k, if there is one. -/
def tget? {α : Type} : Table α → Nat → Option α
  | [], _ => none
  | (j, x) :: t, k => if j = k then some x else tget? t k

/-- The table with entry k set; keys stay in rising order. -/
def tset {α : Type} : Table α → Nat → α → Table α
  | [], k, x => [(k, x)]
  | (j, y) :: t, k, x =>
    if k < j then (k, x) :: (j, y) :: t
    else if k = j then (k, x) :: t
    else (j, y) :: tset t k x

/-- The table without entry k. -/
def tdel {α : Type} (t : Table α) (k : Nat) : Table α := t.filter fun e => e.1 ≠ k

/-- The table with entry k set, or removed where x is what an unlisted entry reads as. -/
def tput {α : Type} [DecidableEq α] (t : Table α) (k : Nat) (x d : α) : Table α :=
  if x = d then tdel t k else tset t k x

/-- The keys of a table rise strictly. -/
def risingKeys {α : Type} : Table α → Bool
  | [] => true
  | (j, _) :: t => t.all (fun e => j < e.1) && risingKeys t

/-- Every key of the list set to the value f gives it. -/
def tsetAll {α : Type} (t : Table α) (kvs : List (Nat × α)) : Table α := kvs.foldl (fun t kv => tset t kv.1 kv.2) t

/-! ## Register fields -/

/-- The Keep address of instance i of a field's register. A number past the last instance names none, and never leaves the register's own instances. -/
def fkey (f : Field) (i : Nat) : Nat := f.base + f.stride * (i % f.count)

/-- A field's bits in a register word. -/
def getF (f : Field) (w : Word) : Nat := (w.toNat >>> f.lo) % 2 ^ f.width

/-- A register word with a field's bits replaced. -/
def putF (f : Field) (w : Word) (v : Nat) : Word :=
  (w &&& ~~~ BitVec.ofNat 64 ((2 ^ f.width - 1) <<< f.lo)) ||| BitVec.ofNat 64 ((v % 2 ^ f.width) <<< f.lo)

/-- The live word of a field's register. -/
def regWord (s : State) (f : Field) (i : Nat) : Word := tget s.regs (fkey f i) (BitVec.ofNat 64 f.regRst)

/-- The live value of a field. -/
def rd (s : State) (f : Field) (i : Nat) : Nat := getF f (regWord s f i)

/-- The state with a field's live value set. -/
def wr (s : State) (f : Field) (i v : Nat) : State :=
  { s with regs := tset s.regs (fkey f i) (putF f (regWord s f i) v) }

/-- A field that is a flag. -/
def rdB (s : State) (f : Field) (i : Nat) : Bool := rd s f i = 1

def bit (b : Bool) : Nat := if b then 1 else 0

/-- A counter advanced by n, saturating at the field's width. -/
def bump (s : State) (f : Field) (i n : Nat) : State := wr s f i (min (rd s f i + n) (2 ^ f.width - 1))

/-- Several fields of instance i set. -/
def wrAll (s : State) (i : Nat) (l : List (Field × Nat)) : State := l.foldl (fun s fv => wr s fv.1 i fv.2) s

/-! ## Time -/

/-- Hall time in ns (R406). -/
def hallNs (s : State) : Nat := s.clk.hall / 84

/-- Cycle period of a clock step in units of 1/84 ns: 0 is 800, 1 is 700, 2 is 600, 3 is 400 MHz (R46). -/
def period (step : Nat) : Nat :=
  match step with
  | 0 => 105
  | 1 => 120
  | 2 => 140
  | _ => 210

/-- The tick exponent in force (R179). -/
def tickK (s : State) : Nat := rd s F.TICK_CTL_K 0

/-- The low bits of TICK_COUNT. -/
def tickCount (s : State) : Nat := rd s F.TICK_COUNT_COUNT 0

/-- S of the current tick (R186). -/
def stretchOf (s : State) : Nat := rd s F.TICK_STRETCH_CUR 0

/-! ## Free values -/

/-- A fresh free value below n, and the state with the counter advanced (assumption 3). -/
def draw (s : State) (n : Nat) : Nat × State :=
  (Config.freeBits s.freeCtr % n, { s with freeCtr := s.freeCtr + 1 })

/-! ## The Belfry (R478–R484) -/

/-- COUNT and TIME of a source's coalescing profile (R479). -/
def coalLimits (s : State) (src : Nat) : Nat × Nat :=
  match rd s F.BELFRY_SRC_CFG_COAL src with
  | 0 => (1, 0)
  | 1 => (8, 50)
  | 2 => (64, 500)
  | _ => (max 1 (rd s F.BELFRY_SRC_CFG_COAL_COUNT src), rd s F.BELFRY_SRC_CFG_COAL_TIME src)

/-- A source is due (R479, R486). -/
def srcDue (s : State) (src : Nat) : Bool :=
  let p := rd s F.BELFRY_SRC_STATUS_PENDING src
  let (count, time) := coalLimits s src
  count ≤ p || (0 < p && s.bel.forced.contains src) ||
    (0 < p && 0 < time && time * 1000 ≤ hallNs s - tget s.bel.timers src (hallNs s))

/-- The effective threshold of a target (R480). -/
def effThresh (s : State) (t : Nat) : Nat := max (rd s F.BELFRY_TGT_THRESH t) (rd s F.BELFRY_TGT_RUNNING t)

/-- A source is deliverable to target t (R480); target 9 is present only when the port is bifurcated. -/
def deliverable (s : State) (src t : Nat) : Bool :=
  srcDue s src && !rdB s F.BELFRY_SRC_STATUS_ACTIVE src && 0 < rd s F.BELFRY_SRC_CFG_PRIO src &&
    (rd s F.BELFRY_SRC_CFG_MASK src).testBit t && effThresh s t < rd s F.BELFRY_SRC_CFG_PRIO src && (t < 9 || s.bifurcated)

/-- MSI-X vectors of a port (R316). -/
def portVectors (s : State) : Nat := if s.bifurcated then 1024 else 2048

def pcieOf (s : State) (p : Nat) : Pcie := tget s.pcie p ⟨false, false, [], [], [], none⟩

/-- One MSI-X message on port p (R481): dropped beyond the port's vectors or without Bus Master Enable; a masked vector sets its pending
bit. The flag says whether it was sent. -/
def sendMsi (s : State) (p vector : Nat) : State × Bool :=
  let port := pcieOf s p
  if portVectors s ≤ vector ∨ port.bme = false then (bump s F.BELFRY_CNT_MSI_DROP 0 1, false)
  else if port.masked.contains vector then
    ({ s with pcie := tset s.pcie p { port with pba := (port.pba.filter (· ≠ vector)) ++ [vector] } }, true)
  else ({ s with bel := { s.bel with sent := (p, vector) :: s.bel.sent } }, true)

/-- PENDING taken: reset to 0, timer stopped (R482, R484). -/
def takePending (s : State) (src : Nat) : State :=
  let s := wrAll s src [(F.BELFRY_SRC_STATUS_PENDING, 0), (F.BELFRY_SRC_STATUS_DUE, 0)]
  { s with bel := { s.bel with timers := tdel s.bel.timers src, forced := s.bel.forced.filter (· ≠ src),
                               ready := s.bel.ready.filter fun e => e.2 ≠ src } }

/-- Delivery of a source to host target t on its transition into deliverable (R481, R484). -/
def notifyHost (src : Nat) (s : State) (t : Nat) : State :=
  if deliverable s src t then
    if s.bel.ready.contains (t, src) then s
    else
      let auto := rdB s F.BELFRY_SRC_CFG_AUTO src && rd s F.BELFRY_SRC_CFG_MASK src % 256 = 0
      let (s, ok) := sendMsi s (t - 8) (rd s F.BELFRY_SRC_CFG_VECTOR src)
      if auto && ok then takePending s src
      else { s with bel := { s.bel with ready := (t, src) :: s.bel.ready } }
  else { s with bel := { s.bel with ready := s.bel.ready.filter (· ≠ (t, src)) } }

/-- The Belfry evaluates one source: DUE, then the host targets (R480, R481). -/
def evalSource (s : State) (src : Nat) : State :=
  let s := wr s F.BELFRY_SRC_STATUS_DUE src (bit (srcDue s src))
  [8, 9].foldl (notifyHost src) s

/-- The Belfry evaluates every source. -/
def evalAll (s : State) : State := (List.range 1024).foldl evalSource s

/-- One event added to a source's PENDING (R478). -/
def addPending (s : State) (src : Nat) : State :=
  let p := rd s F.BELFRY_SRC_STATUS_PENDING src
  if p = 255 then bump (wr s F.BELFRY_SRC_STATUS_SAT src 1) F.BELFRY_CNT_SAT_LOST 0 1
  else
    let s := wr s F.BELFRY_SRC_STATUS_PENDING src (p + 1)
    let s := if p = 0 then { s with bel := { s.bel with timers := tset s.bel.timers src (hallNs s) } } else s
    if p + 1 = 255 then wr s F.BELFRY_SRC_STATUS_SAT src 1 else s

/-- One event of a source: into its edge latch while the clock is stopped (R485), else into PENDING (R478). -/
def raiseSource (s : State) (src : Nat) : State :=
  if s.bel.stopped then
    if s.bel.latches.contains src then s else { s with bel := { s.bel with latches := s.bel.latches ++ [src] } }
  else evalSource (addPending s src) src

/-! ## Events (R476, R477) -/

/-- The kinds of an event. -/
inductive EvKind where | fault | replay | report | alarm
  deriving DecidableEq, Repr

def EvKind.code : EvKind → Nat
  | .fault => 0
  | .replay => 1
  | .report => 2
  | .alarm => 3

/-- An event is raised: its record is appended to the log, of which the newest 4,096 stay (R476); an ALARM record is also written to
flash, or deferred while the flash is locked (R437, R438); and the source of its kind is raised (R477). -/
def raiseEv (s : State) (kind : EvKind) (code tenant region unit : Nat) (data : Word) : State :=
  let seq := rd s F.KEEP_EV_SEQ_SEQ 0 + 1
  let r : EvRec := ⟨hallNs s, seq, code, kind.code, tenant, region, unit, data⟩
  let s := wr { s with events := r :: s.events.take 4095 } F.KEEP_EV_SEQ_SEQ 0 seq
  let s := if kind = .alarm then
      (if rdB s F.PWR_STATUS_NVLOCK 0 then { s with alarmsDeferred := s.alarmsDeferred ++ [r] }
       else { s with alarmFlash := s.alarmFlash ++ [r] })
    else s
  raiseSource s (256 + kind.code)

/-- An engine-wide event. -/
def raiseEngine (s : State) (kind : EvKind) (code unit : Nat) (data : Nat) : State :=
  raiseEv s kind code 0 0 unit (BitVec.ofNat 64 data)

/-! ## The array (R31–R36) -/

/-- Logical cores (R33). -/
def nCores : Nat := 14592

/-- Logical coordinates of a core. -/
def coreX (c : Nat) : Nat := c % 152
def coreY (c : Nat) : Nat := c / 152
def coreAt (x y : Nat) : Nat := 152 * y + x

/-- The field of a logical core and its row within it (R33). -/
def fieldOf (c : Nat) : Nat := 8 * (coreY c / 16) + coreX c / 19
def rowOf (c : Nat) : Nat := coreY c % 16

/-- The row byte of a field row (R40). -/
def rowByteF (r : Nat) : Field :=
  { (if r < 8 then F.KEEP_FIELD_MAP_LO_ROW_0 else F.KEEP_FIELD_MAP_HI_ROW_0) with lo := 8 * (r % 8) }

/-- The dead column of a field row, or none (R34). -/
def deadCol (s : State) (f r : Nat) : Option Nat :=
  let d := rd s (rowByteF r) f % 32
  if d < 20 then some d else none

/-- The physical column of logical column j in a row with dead column d (R34). -/
def physCol (d : Option Nat) (j : Nat) : Nat :=
  match d with
  | some d => if d ≤ j then j + 1 else j
  | none => j

/-- The physical core ID of a logical core (R32, R34). -/
def physOf (s : State) (c : Nat) : Nat :=
  320 * fieldOf c + 20 * rowOf c + physCol (deadCol s (fieldOf c) (rowOf c)) (coreX c % 19)

/-- The 304 logical cores of a field. -/
def fieldCores (f : Nat) : List Nat :=
  (List.range 16).flatMap fun r => (List.range 19).map fun j => coreAt (19 * (f % 8) + j) (16 * (f / 8) + r)

end Sys2Proof.Machine
end

