-- ==== Sys2Proof/Machine/CtlNet.lean ====
section
/-! DEFINITION. The control network's packets and how they enter it (R209–R214): formats, addresses, flits with their parity, and the sources of its
routers. -/

namespace Sys2Proof.Machine

/-! ## Packets (R211) -/

/-- Type, priority and payload length of a packet are those of R211. -/
def packetOk (p : CtlPacket) : Bool :=
  match p.type.toNat with
  | 2 => p.pri = 3 && p.len = 1
  | 3 => p.pri = 3 && 1 ≤ p.len && p.len ≤ 8
  | 4 => p.pri = 3 && p.len = 1
  | 5 => p.pri = 2 && p.len = 1
  | 6 => p.pri = 2 && p.len = 3
  | 7 => p.pri = 2 && (p.len = 1 || p.len = 2)
  | 8 => p.pri = 1 && p.len = 2
  | 9 => p.pri = 0 && p.len = 8
  | 10 => p.pri = 0 && 2 ≤ p.len && p.len ≤ 8
  | _ => false

/-- A control address names something. -/
def addressOk (n : Nat) : Bool :=
  n < nCores || (0x4000 ≤ n && n ≤ 0x402F) || (0x5000 ≤ n && n ≤ 0x50FF) || (0x6000 ≤ n && n ≤ 0x6007) || (0x7001 ≤ n && n ≤ 0x7FFF)

/-- The router of a Keep control port (R215). -/
def portRouter (i : Nat) : Nat := coreAt (19 * i + 9) 0

/-- The router at which a rim block's packets enter and leave, an edge router of its segment that the spec does not name (assumption 88). -/
def rimRouter (n : Nat) : Nat := Config.rimRouter n % nCores

/-- The router at which an address lies, for a packet that is at router c: a unit mailbox lies behind the Keep's port of the field column (R215). -/
def addressRouter (c n : Nat) : Nat :=
  if n < nCores then n
  else if 0x4000 ≤ n ∧ n ≤ 0x402F then (fieldCores (n - 0x4000)).headD 0
  else if 0x5000 ≤ n ∧ n ≤ 0x50FF then rimRouter (n - 0x5000)
  else if 0x6000 ≤ n ∧ n ≤ 0x6007 then portRouter (n - 0x6000)
  else portRouter (coreX c / 19)

/-- The router at which a packet enters the network: its sender's. -/
def firstRouter (p : CtlPacket) : Option Nat :=
  let n := p.src.toNat
  if addressOk n ∧ n < 0x7000 then some (addressRouter 0 n) else none

/-- The Keep's control port of a core's field column (R215). -/
def keepPort (c : Nat) : Nat := 0x6000 + coreX c / 19

/-- The header flit of a packet. -/
def headFlit (p : CtlPacket) : BitVec 32 :=
  (p.type.setWidth 32 <<< 28) ||| (p.pri.setWidth 32 <<< 26) ||| (p.len.setWidth 32 <<< 22) ||| (p.rsv.setWidth 32 <<< 16) ||| p.dest.setWidth 32

/-- The words of a packet: header, SRC with TAG, payload. -/
def packetWords (p : CtlPacket) : List (BitVec 32) := headFlit p :: ((p.src.setWidth 32 <<< 16) ||| p.tag.setWidth 32) :: p.flits

/-- The packet that words spell. -/
def wordsPacket (ws : List (BitVec 32)) : CtlPacket :=
  let h := ws.headD 0
  let t := ws.getD 1 0
  ⟨(h >>> 28).setWidth 4, (h >>> 26).setWidth 2, (h >>> 22).setWidth 4, (h >>> 16).setWidth 6, h.setWidth 16, (t >>> 16).setWidth 16, t.setWidth 16,
    ws.drop 2⟩

/-! ## Flits (R209) -/

/-- The parity bit of byte i of a word: the byte and its bit hold an even number of ones. -/
def byteParity (w : BitVec 32) (i : Nat) : Bool := (List.range 8).foldl (fun b j => xor b (w.getLsbD (8 * i + j))) false

/-- One parity bit per byte. -/
def parityOf (w : BitVec 32) : BitVec 4 := BitVec.ofNat 4 ((List.range 4).map fun i => bit (byteParity w i) * 2 ^ i).sum

/-- A flit formed by a sender. -/
def mkFlit (k : FlitKind) (pri : Nat) (w : BitVec 32) : CtlFlit := ⟨k, pri, w, parityOf w⟩

/-- The flit passes its parity check (R217). -/
def flitOk (f : CtlFlit) : Bool := f.parity = parityOf f.word

/-- A flit as it arrives when the bits of a mask flipped on the wire: the word below, the parity above. -/
def flipFlit (f : CtlFlit) (m : BitVec 36) : CtlFlit := { f with word := f.word ^^^ m.setWidth 32, parity := f.parity ^^^ (m >>> 32).setWidth 4 }

/-- The flits of a packet: HEAD, BODY and TAIL, or one SINGLE. -/
def toFlits (pri : Nat) (ws : List (BitVec 32)) : List CtlFlit :=
  match ws with
  | [w] => [mkFlit .single pri w]
  | _ => ws.zipIdx.map fun e => mkFlit (if e.2 = 0 then .head else if e.2 + 1 = ws.length then .tail else .body) pri e.1

/-! ## Heartbeats and summaries (R212, R214) -/

/-- The single flit of HB_SHORT; HB_LONG's payload is laid out in the same way with TYPE 0x2. -/
def hbWord (type : Nat) (h : Hb) : BitVec 32 :=
  BitVec.ofNat 32 (type * 2 ^ 28 + h.core % 16384 * 2 ^ 14 + h.tick.toNat * 2 ^ 6 + bit h.done * 32 + bit h.fault * 16 + bit h.abort * 8)

/-- The lantern's address (R211). -/
def lanternAddr (c : Nat) : BitVec 16 := BitVec.ofNat 16 (0x4000 + fieldOf c)

/-- The packet of HB_LONG. -/
def hbPacket (h : Hb) : CtlPacket := ⟨2, 3, 1, 0, lanternAddr h.core, BitVec.ofNat 16 h.core, h.tag.setWidth 16, [hbWord 2 h]⟩

/-- The words of a heartbeat: a clean one is HB_SHORT, any other HB_LONG (R212). -/
def hbWords (h : Hb) : List (BitVec 32) := if h.done && !h.fault && !h.abort then [hbWord 1 h] else packetWords (hbPacket h)

/-- The tick flit of a summary packet. -/
def tickFlit (m : Summary) : BitVec 32 :=
  BitVec.ofNat 32 (m.tick.toNat * 2 ^ 16 + bit m.last * 2 ^ 15 + bit m.allField * 2 ^ 14 + bit m.doneAll * 2 ^ 13 + bit m.faultAny * 2 ^ 12 +
    bit m.abortAny * 2 ^ 11 + m.count % 512)

/-- The flit of a summary entry. -/
def entryFlit (e : SumEntry) : BitVec 32 :=
  BitVec.ofNat 32 (e.core % 16384 * 2 ^ 14 + e.tag.toNat * 2 ^ 6 + bit e.done * 32 + bit e.fault * 16 + bit e.abort * 8 + bit e.missed * 4)

/-- A summary packet: from the field's lantern, at priority 3, to the Keep's control port of the field's column (R214, R215). -/
def sumPacket (m : Summary) : CtlPacket :=
  let fl := tickFlit m :: m.entries.map entryFlit
  ⟨3, 3, BitVec.ofNat 4 fl.length, 0, BitVec.ofNat 16 (0x6000 + m.field % 8), BitVec.ofNat 16 (0x4000 + m.field), 0, fl⟩

/-! ## Entering the network -/

def blankCtl : CtlRouter := ⟨[], [], [], [], [], [], [], [], false⟩
def ctlAt (s : State) (c : Nat) : CtlRouter := tget s.net.ctl c blankCtl
def setCtl (s : State) (c : Nat) (r : CtlRouter) : State := { s with net := { s.net with ctl := tput s.net.ctl c r blankCtl } }

/-- Words handed to router c by a block at it. -/
def inject (s : State) (c pri : Nat) (ws : List (BitVec 32)) : State :=
  let r := ctlAt s c
  setCtl s c { r with source := r.source ++ toFlits pri ws }

/-- A packet that the engine sends: it is noted, and its flits enter at its sender's router. -/
def sendCtl (s : State) (p : CtlPacket) : State :=
  let s := { s with ctlSent := p :: s.ctlSent }
  match firstRouter p with
  | some c => inject s c p.pri.toNat (packetWords p)
  | none => s

def sendAllCtl (s : State) (l : List CtlPacket) : State := l.foldl sendCtl s

/-- A packet whose row acts leaves the list of those that reached their destination. -/
def takeIn (s : State) (p : CtlPacket) : State := { s with net := { s.net with ctlIn := s.net.ctlIn.erase p } }

end Sys2Proof.Machine
end

