-- ==== Sys2Proof/Machine/Events.lean ====
section
/-! DEFINITION. The event codes of R382. The name of a code is ev followed by the name of the event. -/

namespace Sys2Proof.Machine

def evIllegalBundle : Nat := 0x001
def evHazard : Nat := 0x002
def evSeqStack : Nat := 0x003
def evTrap : Nat := 0x004
def evMboxFault : Nat := 0x005
def evMboxLate : Nat := 0x006
def evTickOverrun : Nat := 0x007
def evXferSlot : Nat := 0x008
def evAddrRange : Nat := 0x009
def evLaRange : Nat := 0x00A
def evNumSat : Nat := 0x00B
def evNanOperand : Nat := 0x00C
def evCodeReserved : Nat := 0x00D
def evBankConflict : Nat := 0x00E
def evCaskWrite : Nat := 0x00F
def evSpadDetect : Nat := 0x010
def evTasteMismatch : Nat := 0x011
def evTasteDrift : Nat := 0x012
def evHeartbeatMiss : Nat := 0x013
def evCoreDead : Nat := 0x014
def evEmptyRow : Nat := 0x015
def evTickAbort : Nat := 0x016
def evRouteFault : Nat := 0x040
def evLinkCheck : Nat := 0x041
def evLaneSpared : Nat := 0x042
def evLinkDead : Nat := 0x043
def evKvFrameWait : Nat := 0x080
def evKvPageCheck : Nat := 0x081
def evKvReprefill : Nat := 0x082
def evHostLink : Nat := 0x083
def evEmitBackpressure : Nat := 0x084
def evStreamLost : Nat := 0x085
def evRegionCmd : Nat := 0x0C0
def evBindFault : Nat := 0x0C1
def evCaskDigest : Nat := 0x0C2
def evCaskSig : Nat := 0x0C3
def evCaskLost : Nat := 0x0C4
def evRack : Nat := 0x0C5
def evTwinPaired : Nat := 0x100
def evTwinPairFail : Nat := 0x101
def evTwinLost : Nat := 0x102
def evTwinFenced : Nat := 0x103
def evTwinTakeover : Nat := 0x104
def evTwinFenceFail : Nat := 0x105
def evTwinCover : Nat := 0x106
def evTwinRejoin : Nat := 0x107
def evJournalFull : Nat := 0x108
def evJournalCheck : Nat := 0x109
def evTwinPort : Nat := 0x10A
def evFieldLost : Nat := 0x140
def evClockFallback : Nat := 0x141
def evStackLost : Nat := 0x142
def evRimLost : Nat := 0x143
def evPortDown : Nat := 0x144
def evReplan : Nat := 0x145
def evButtressFail : Nat := 0x180
def evButtressDerate : Nat := 0x181
def evDroop : Nat := 0x182
def evSpireFault : Nat := 0x183
def evSagNvlock : Nat := 0x184
def evCalProvisional : Nat := 0x185
def evPowerAdmitDelay : Nat := 0x186
def evFlowLow : Nat := 0x1C0
def evFlowStop : Nat := 0x1C1
def evThermThrottle : Nat := 0x1C2
def evThermLimit : Nat := 0x1C3
def evLeak : Nat := 0x1C4
def evDew : Nat := 0x1C5
def evChanFault : Nat := 0x1C6
def evKeepWdt : Nat := 0x200
def evKeepRestart : Nat := 0x201
def evBootManifest : Nat := 0x202
def evRecoveryRom : Nat := 0x203
def evDefectMapSig : Nat := 0x204
def evSessionFail : Nat := 0x205
def evUpdate : Nat := 0x206

end Sys2Proof.Machine
end

