-- ==== Sys2Proof/Machine/Numeric.lean ====
section
/-! DEFINITION. The arithmetic of chapter 2 and the exact functions of R168 and R169: codes to exact values, one rounding to a format,
the 4-bit element codes, the BS8 scale, the quantiser and the correctly rounded functions. -/

namespace Sys2Proof.Machine

/-! ## Rounding -/

/-- n / d rounded to the nearest integer, ties to even. -/
def rneNat (n d : Nat) : Nat :=
  let q := n / d
  let r := n % d
  if 2 * r < d then q else if d < 2 * r then q + 1 else q + q % 2

/-- n / d rounded to the nearest integer, ties to even, for a signed n. -/
def rneInt (n : Int) (d : Nat) : Int :=
  if n < 0 then -(rneNat n.natAbs d : Int) else (rneNat n.natAbs d : Int)

/-- num * 2^e / den as a pair of naturals. -/
def scaleRat (num den : Nat) (e : Int) : Nat × Nat :=
  if e < 0 then (num, den * 2 ^ e.natAbs) else (num * 2 ^ e.natAbs, den)

/-- The magnitude code of num / den in format f, rounded to nearest, ties to even, with no bound at the top: a code above f.maxCode
is an overflow. -/
def magCode (f : FFmt) (num den : Nat) : Nat :=
  if num = 0 then 0 else
    let est : Int := (Nat.log2 num : Int) - (Nat.log2 den : Int)
    let (a, b) := scaleRat num den (-est)
    let fl : Int := if b ≤ a then est else est - 1
    let e : Int := max (fl - (f.mb : Int)) f.emin
    let (c, d) := scaleRat num den (-e)
    (e - f.emin).toNat * 2 ^ f.mb + rneNat c d

/-- A code with its sign bit. -/
def withSign (f : FFmt) (neg : Bool) (mag : Nat) : Nat := if neg then 2 ^ (f.w - 1) + mag else mag

/-- One rounding to nearest even; overflow gives an infinity, or the largest finite value where the format has none (R162, R167). -/
def roundF (f : FFmt) (neg : Bool) (num den : Nat) : Nat :=
  let c := magCode f num den
  withSign f neg (if c ≤ f.maxCode then c else if f.hasInf then f.maxCode + 1 else f.maxCode)

/-- The value of a code (R61). -/
def valOf (f : FFmt) (code : Nat) : Val :=
  let neg := 2 ^ (f.w - 1) ≤ code % 2 ^ f.w
  let c := code % 2 ^ (f.w - 1)
  if c ≤ f.maxCode then
    if c < 2 ^ f.mb then .fin neg c f.emin
    else .fin neg (2 ^ f.mb + c % 2 ^ f.mb) (f.emin + (c / 2 ^ f.mb : Nat) - 1)
  else if f.hasInf ∧ c = f.maxCode + 1 then .inf neg else .nan

/-- Neither an infinity nor a NaN. -/
def Val.isFin : Val → Bool
  | .fin _ _ _ => true
  | _ => false

/-- A zero of either sign. -/
def Val.isZero : Val → Bool
  | .fin _ 0 _ => true
  | _ => false

def Val.isNan : Val → Bool
  | .nan => true
  | _ => false

def Val.neg : Val → Bool
  | .nan => false
  | .inf n => n
  | .fin n _ _ => n

/-- A finite value as an exact dyadic m * 2^e; any other value reads as 0 (R61). -/
def Val.dyadic : Val → Int × Int
  | .fin n m e => (if n then -(m : Int) else (m : Int), e)
  | _ => (0, 0)

/-- Sum of two dyadics. -/
def dyAdd (a b : Int × Int) : Int × Int :=
  let e := min a.2 b.2
  (a.1 * 2 ^ (a.2 - e).toNat + b.1 * 2 ^ (b.2 - e).toNat, e)

/-- Product of two dyadics. -/
def dyMul (a b : Int × Int) : Int × Int := (a.1 * b.1, a.2 + b.2)

/-- One rounding of a dyadic; zeroNeg is the sign of an exact zero. -/
def roundDy (f : FFmt) (x : Int × Int) (zeroNeg : Bool) : Nat :=
  let (n, d) := scaleRat x.1.natAbs 1 x.2
  roundF f (if x.1 = 0 then zeroNeg else decide (x.1 < 0)) n d

/-- a < b for dyadics. -/
def dyLt (a b : Int × Int) : Bool := decide ((dyAdd a (-b.1, b.2)).1 < 0)

/-! ## Floating-point operations of the vector unit (R162) -/

/-- The canonical NaN of a format (R162). -/
def nanOf (f : FFmt) : Nat := f.nanCode

/-- The code of an infinity. -/
def infOf (f : FFmt) (neg : Bool) : Nat := withSign f neg (f.maxCode + 1)

/-- a + b, one rounding; an exact zero is -0 only when both addends are negative (assumption 30). -/
def fAddVal (f : FFmt) (a b : Val) : Nat :=
  match a, b with
  | .nan, _ => nanOf f
  | _, .nan => nanOf f
  | .inf x, .inf y => if x = y then infOf f x else nanOf f
  | .inf x, _ => infOf f x
  | _, .inf y => infOf f y
  | .fin x _ _, .fin y _ _ => roundDy f (dyAdd a.dyadic b.dyadic) (x && y)

def Val.flip : Val → Val
  | .nan => .nan
  | .inf n => .inf (!n)
  | .fin n m e => .fin (!n) m e

/-- The exact product of two values, as a value: invalid operations give NaN. -/
def valMul (a b : Val) : Val :=
  match a, b with
  | .nan, _ => .nan
  | _, .nan => .nan
  | .inf x, .inf y => .inf (x != y)
  | .inf x, .fin y m _ => if m = 0 then .nan else .inf (x != y)
  | .fin x m _, .inf y => if m = 0 then .nan else .inf (x != y)
  | .fin x m e, .fin y n k => .fin (x != y) (m * n) (e + k)

/-- One rounding of an exact value. -/
def roundVal (f : FFmt) : Val → Nat
  | .nan => nanOf f
  | .inf n => infOf f n
  | .fin n m e => roundDy f (if n then -(m : Int) else (m : Int), e) n

def fAdd (f : FFmt) (a b : Nat) : Nat := fAddVal f (valOf f a) (valOf f b)
def fSub (f : FFmt) (a b : Nat) : Nat := fAddVal f (valOf f a) (valOf f b).flip
def fMul (f : FFmt) (a b : Nat) : Nat := roundVal f (valMul (valOf f a) (valOf f b))
def fFma (f : FFmt) (a b c : Nat) : Nat := fAddVal f (valMul (valOf f a) (valOf f b)) (valOf f c)
def fMul3 (f : FFmt) (a b c : Nat) : Nat := roundVal f (valMul (valMul (valOf f a) (valOf f b)) (valOf f c))

/-- a < b, with +0 above -0 when zeroOrder is set (R163 VMAX); false with a NaN. -/
def fLt (f : FFmt) (zeroOrder : Bool) (a b : Nat) : Bool :=
  match valOf f a, valOf f b with
  | .nan, _ => false
  | _, .nan => false
  | .inf x, .inf y => x && !y
  | .inf x, _ => x
  | _, .inf y => !y
  | .fin x m e, .fin y n k =>
    if m = 0 ∧ n = 0 then zeroOrder && x && !y
    else dyLt (Val.fin x m e).dyadic (Val.fin y n k).dyadic

/-- Equality of values: +0 equals -0, a NaN equals nothing. -/
def fEq (f : FFmt) (a b : Nat) : Bool :=
  match valOf f a, valOf f b with
  | .nan, _ => false
  | _, .nan => false
  | .inf x, .inf y => x == y
  | .inf _, _ => false
  | _, .inf _ => false
  | x, y => (dyAdd x.dyadic ((-y.dyadic.1), y.dyadic.2)).1 = 0

/-- Maximum (fn 0) and minimum (fn 1); a NaN in either gives NaN (R163). -/
def fMaxMin (f : FFmt) (minimum : Bool) (a b : Nat) : Nat :=
  if (valOf f a).isNan || (valOf f b).isNan then nanOf f
  else if minimum then (if fLt f true b a then b else a) else (if fLt f true a b then b else a)

/-- va / vb rounded once, with the guard of R169: +0 when vb is a zero. -/
def fGuardDiv (f : FFmt) (a b : Nat) : Nat :=
  match valOf f a, valOf f b with
  | .nan, _ => nanOf f
  | _, .nan => nanOf f
  | x, .fin yn 0 _ => let _ := x; let _ := yn; 0
  | .inf _, .inf _ => nanOf f
  | .inf x, y => infOf f (x != y.neg)
  | .fin x _ _, .inf y => withSign f (x != y) 0
  | .fin x m e, .fin y n k => let (p, q) := scaleRat m n (e - k); roundF f (x != y) p q

/-! ## Integer lanes -/

/-- The signed value of a w-bit code. -/
def sInt (w : Nat) (x : Nat) : Int := if 2 ^ (w - 1) ≤ x % 2 ^ w then (x % 2 ^ w : Nat) - 2 ^ w else (x % 2 ^ w : Nat)

/-- The w-bit two's complement code of an integer, wrapped. -/
def wrapInt (w : Nat) (x : Int) : Nat := (x % (2 ^ w : Nat)).toNat

/-- Clamped to the range of w-bit two's complement. -/
def clampInt (w : Nat) (x : Int) : Int := max (-(2 ^ (w - 1) : Nat)) (min ((2 ^ (w - 1) : Nat) - 1) x)

/-- A value converted to a w-bit integer: nearest, ties to even, saturating, NaN gives 0 (R167). -/
def toIntSat (w : Nat) : Val → Nat
  | .nan => 0
  | .inf n => wrapInt w (if n then -(2 ^ (w - 1) : Nat) else (2 ^ (w - 1) : Nat) - 1)
  | .fin n m e =>
    let (a, b) := scaleRat m 1 e
    wrapInt w (clampInt w (if n then -(rneNat a b : Int) else (rneNat a b : Int)))

/-! ## 4-bit class codes and the block scale (R55–R60) -/

/-- The 4-bit class formats. -/
inductive Fmt4 where | d4f | d4i | d3i | d2t
  deriving DecidableEq, Repr

/-- Bits per code. -/
def Fmt4.bits : Fmt4 → Nat
  | .d4f => 4
  | .d4i => 4
  | .d3i => 3
  | .d2t => 2

/-- Twice the value of a D4F code (R56): E2M1 magnitudes 0, 0.5, 1, 1.5, 2, 3, 4, 6. -/
def d4fTwice (c : Nat) : Int :=
  let m : Int := match c % 8 with
    | 0 => 0 | 1 => 1 | 2 => 2 | 3 => 3 | 4 => 4 | 5 => 6 | 6 => 8 | _ => 12
  if 8 ≤ c % 16 then -m else m

/-- Twice the value of a code; reserved codes read as 0 (R56–R58). -/
def code4Twice : Fmt4 → Nat → Int
  | .d4f, c => d4fTwice c
  | .d4i, c => if c % 16 = 8 then 0 else 2 * sInt 4 c
  | .d3i, c => if c % 8 = 4 then 0 else 2 * sInt 3 c
  | .d2t, c => match c % 4 with | 1 => 2 | 2 => -2 | _ => 0

/-- The reserved codes of R58, which count RES_CODE. -/
def code4Reserved : Fmt4 → Nat → Bool
  | .d4f, _ => false
  | .d4i, c => c % 16 = 8
  | .d3i, c => c % 8 = 4
  | .d2t, c => c % 4 = 3

/-- The BS8 value of a code in units of 2^-17 (R59); 0xFF reads as 0xFE. -/
def bs8 (c : Nat) : Nat :=
  let c := if c % 256 = 255 then 254 else c % 256
  if c < 8 then c else (8 + c % 8) * 2 ^ (c / 8 - 1)

/-- The BS8 value as a dyadic. -/
def bs8Dy (c : Nat) : Int × Int := ((bs8 c : Int), -17)

/-- The formats of an eight-bit operand (R153). -/
inductive Fmt8 where | e4m3 | e5m2 | int8
  deriving DecidableEq, Repr

/-- The value of an eight-bit code. -/
def code8Val : Fmt8 → Nat → Val
  | .e4m3, c => valOf Machine.e4m3 c
  | .e5m2, c => valOf Machine.e5m2 c
  | .int8, c => let x := sInt 8 c; .fin (decide (x < 0)) x.natAbs 0

/-! ## The long accumulator (R64–R66) -/

/-- A dyadic as a multiple of 2^-40, rounded to nearest even. -/
def toGrid (x : Int × Int) : Int :=
  let (n, d) := scaleRat x.1.natAbs 1 (x.2 + 40)
  if x.1 < 0 then -(rneNat n d : Int) else (rneNat n d : Int)

/-- One product of the eight-bit and BF16 classes on the grid, and whether it was clamped (R66). -/
def gridProduct (x : Int × Int) : Int × Bool :=
  let g := toGrid x
  let lim : Int := 2 ^ 79 - 1
  if lim < g then (lim, true) else if g < -lim then (-lim, true) else (g, false)

/-- LA112 addition. -/
def laAdd (a : La112) (x : Int) : La112 := a + BitVec.ofInt 112 x

/-- The transfer form of an accumulator: 128 bits, sign-extended (R64). -/
def laTransfer (a : La112) : BitVec 128 := a.signExtend 128

/-- What the drain rounds: LA * T + yc exactly, as a dyadic (R68). -/
def drainExact (a : La112) (t yc : Val) : Int × Int := dyAdd (dyMul (a.toInt, -40) t.dyadic) yc.dyadic

/-- The drain targets (R159). -/
inductive DrainFmt where | fp32 | bf16 | fp16 | e4m3 | e5m2 | int8
  deriving DecidableEq, Repr

/-- The format of a floating-point drain target. -/
def DrainFmt.ffmt : DrainFmt → FFmt
  | .fp32 => Machine.fp32
  | .bf16 => Machine.bf16
  | .fp16 => Machine.fp16
  | .e4m3 => Machine.e4m3
  | .e5m2 => Machine.e5m2
  | .int8 => Machine.fp32

/-- One rounding to the target, saturated, a zero result +0; and whether it saturated (R68–R70). -/
def drainRound (t : DrainFmt) (x : Int × Int) : Nat × Bool :=
  match t with
  | .int8 =>
    let (n, d) := scaleRat x.1.natAbs 1 x.2
    let r : Int := if x.1 < 0 then -(rneNat n d : Int) else (rneNat n d : Int)
    (wrapInt 8 (clampInt 8 r), decide (clampInt 8 r ≠ r))
  | _ =>
    let f := t.ffmt
    let (n, d) := scaleRat x.1.natAbs 1 x.2
    let c := magCode f n d
    if c = 0 then (0, false)
    else if c ≤ f.maxCode then (withSign f (decide (x.1 < 0)) c, false)
    else (withSign f (decide (x.1 < 0)) f.maxCode, true)

/-! ## FP32 sums of the correction lane (R78, R79) -/

/-- A finite FP32 result with overflow clamped to the largest finite value, and whether it was clamped (R79). -/
def laneRound (x : Int × Int) (zeroNeg : Bool) : Nat × Bool :=
  let (n, d) := scaleRat x.1.natAbs 1 x.2
  let neg := if x.1 = 0 then zeroNeg else decide (x.1 < 0)
  let c := magCode fp32 n d
  if c ≤ fp32.maxCode then (withSign fp32 neg c, false) else (withSign fp32 neg fp32.maxCode, true)

/-- sum + product, rounded once (R78). -/
def laneAdd (sum : Nat) (p : Val) : Nat × Bool :=
  let a := valOf fp32 sum
  laneRound (dyAdd a.dyadic p.dyadic) (a.neg && p.neg)

/-- A product rounded once, clamped on overflow (R79, R172). -/
def laneMul (a b : Nat) : Nat × Bool :=
  let p := valMul (valOf fp32 a) (valOf fp32 b)
  laneRound p.dyadic p.neg

/-! ## The quantiser (R71–R76) -/

/-- The quantiser's target formats (R170). -/
inductive QFmt where | d4f | d4i | int8 | e4m3 | e5m2
  deriving DecidableEq, Repr

/-- R72. -/
def QFmt.qmax : QFmt → Nat
  | .d4f => 6
  | .d4i => 7
  | .int8 => 127
  | .e4m3 => 448
  | .e5m2 => 57344

/-- The element u = v * g of R71: NaN and infinity times zero contribute 0 and count; other infinities stay. -/
def quantElem (v g : Val) : Val × Bool :=
  match valMul v g with
  | .nan => (.fin false 0 0, true)
  | u => (u, false)

/-- |u| of a finite element as a rational pair over 2^-300 units: u = m * 2^e. -/
def magDy : Val → Int × Int
  | .fin _ m e => ((m : Int), e)
  | _ => (0, 0)

/-- The first code c in the list with bs8 c * Qmax ≥ amax (R73). -/
def firstScale (qmax : Nat) (amax : Int × Int) : List Nat → Option Nat
  | [] => none
  | c :: cs => if dyLt (dyMul (bs8Dy c) ((qmax : Int), 0)) amax then firstScale qmax amax cs else some c

/-- The grid magnitudes of a 4-bit or integer target as twice their value, ascending. -/
def gridTwice : QFmt → List Nat
  | .d4f => [0, 1, 2, 3, 4, 6, 8, 12]
  | .d4i => [0, 2, 4, 6, 8, 10, 12, 14]
  | _ => []

/-- t = n / d rounded onto an ascending grid given as twice the values: nearest, a tie to the entry at an even place (R75). -/
def roundGrid (n d : Nat) : List Nat → Nat → Nat
  | a :: b :: rest, i =>
    -- compare 2t with the midpoint (a + b) / 2
    if 4 * n < (a + b) * d then i
    else if 4 * n = (a + b) * d then (if i % 2 = 0 then i else i + 1)
    else roundGrid n d (b :: rest) (i + 1)
  | _, i => i

/-- t = n / d rounded onto the grid stochastically: up when f > k / 256 (R76). -/
def stochGrid (k n d : Nat) : List Nat → Nat → Nat
  | a :: b :: rest, i =>
    if 2 * n < b * d then
      -- f = (2n - a d) / ((b - a) d)
      (if k * ((b - a) * d) < 256 * (2 * n - a * d) then i + 1 else i)
    else stochGrid k n d (b :: rest) (i + 1)
  | _, i => i

/-- The magnitude code of t = n / d in a target: nearest, or stochastic with byte k. -/
def quantMag (q : QFmt) (k : Option Nat) (n d : Nat) : Nat :=
  match q with
  | .d4f => match k with | none => roundGrid n d (gridTwice q) 0 | some k => stochGrid k n d (gridTwice q) 0
  | .d4i => match k with | none => roundGrid n d (gridTwice q) 0 | some k => stochGrid k n d (gridTwice q) 0
  | .int8 =>
    min 127 (match k with
      | none => rneNat n d
      | some k => if k * d < 256 * (n % d) then n / d + 1 else n / d)
  | _ =>
    let f := if q = .e4m3 then Machine.e4m3 else Machine.e5m2
    let c := match k with
      | none => magCode f n d
      | some k =>
        -- the neighbours below and above on the format's grid
        let c0 := magCode f n d
        let dy (c : Nat) : Int × Int := (valOf f c).dyadic
        let below := if dyLt ((n : Int), 0) (dyMul (dy c0) ((d : Int), 0)) then c0 - 1 else c0
        let a := dyMul (dy below) ((d : Int), 0)
        let gap := dyAdd (dyMul (dy (below + 1)) ((d : Int), 0)) (-a.1, a.2)
        let off := dyAdd ((n : Int), 0) (-a.1, a.2)
        if below + 1 ≤ f.maxCode ∧ dyLt (dyMul gap ((k : Int), -8)) off then below + 1 else below
    min c f.maxCode

/-- The code of a signed element; a zero result is code 0 (R58). -/
def quantCode (q : QFmt) (neg : Bool) (mag : Nat) : Nat :=
  if mag = 0 then 0 else
  match q with
  | .d4f => if neg then 8 + mag else mag
  | .d4i => wrapInt 4 (if neg then -(mag : Int) else (mag : Int))
  | .int8 => wrapInt 8 (if neg then -(mag : Int) else (mag : Int))
  | .e4m3 => withSign e4m3 neg mag
  | .e5m2 => withSign e5m2 neg mag

/-- The magnitude code of Qmax. -/
def QFmt.maxMag : QFmt → Nat
  | .d4f => 7
  | .d4i => 7
  | .int8 => 127
  | .e4m3 => 0x7E
  | .e5m2 => 0x7B

/-- The largest of a list of dyadics, at least 0. -/
def dyMax : List (Int × Int) → Int × Int
  | [] => (0, 0)
  | x :: xs => let m := dyMax xs; if dyLt m x then x else m

/-- u / s as a pair of naturals; s = 0 gives 0. -/
def divScale (u : Val) (code : Nat) : Nat × Nat :=
  let m := magDy u
  if bs8 code = 0 then (0, 1) else scaleRat m.1.natAbs (bs8 code) (m.2 + 17)

/-- One block quantised: the codes, the scale code, the NaN count and whether it is saturated (R71–R76). draws gives the byte k of
an element when stochastic rounding is in force. -/
def quantBlock (q : QFmt) (us : List Val) (draws : Nat → Option Nat) : List Nat × Nat × Bool :=
  let anyInf := us.any fun u => match u with | .inf _ => true | _ => false
  let amax := dyMax (us.map magDy)
  let pick := if anyInf then none else firstScale q.qmax amax (List.range 255)
  let code := pick.getD 0xFF
  let sat := pick.isNone
  let one (i : Nat) (u : Val) : Nat :=
    match u with
    | .inf n => quantCode q n q.maxMag
    | .nan => 0
    | .fin n _ _ =>
      let (a, b) := divScale u code
      quantCode q n (min q.maxMag (quantMag q (draws i) a b))
  (us.mapIdx one, code, sat)

/-- The value of a quantised code, as a dyadic and whether it is reserved (R171). -/
def dequantVal (q : QFmt) (c : Nat) : Val × Bool :=
  match q with
  | .d4f => (.fin (decide (d4fTwice c < 0)) (d4fTwice c).natAbs (-1), false)
  | .d4i => let x := code4Twice .d4i c; (.fin (decide (x < 0)) x.natAbs (-1), code4Reserved .d4i c)
  | .int8 => (code8Val .int8 c, false)
  | .e4m3 => (code8Val .e4m3 c, false)
  | .e5m2 => (code8Val .e5m2 c, false)

/-! ## Correctly rounded functions (R168, R169)

Each function is enclosed in an interval of rationals with a common scale 2^-p; when both ends round to one code, that code is the
correctly rounded result. The precision climbs until they agree. -/

/-- A rational as a numerator and a positive denominator. -/
abbrev Q := Int × Nat

/-- The term loop of a power series: term_{i} = term_{i-1} * x / 2^p / i. -/
def expTerms (p : Nat) (x : Int) : Nat → Nat → Int → Int → Int
  | 0, _, _, acc => acc
  | fuel + 1, i, t, acc => let t' := t * x / 2 ^ p / (i : Int); expTerms p x fuel (i + 1) t' (acc + t')

/-- Σ y^(2i+1)/(2i+1) for y scaled by 2^p. -/
def atanhTerms (p : Nat) (y2 : Int) : Nat → Nat → Int → Int → Int
  | 0, _, _, acc => acc
  | fuel + 1, i, t, acc => atanhTerms p y2 fuel (i + 2) (t * y2 / 2 ^ p) (acc + t / (i : Int))

/-- 2 * atanh(a/b) scaled by 2^p. -/
def atanh2 (p : Nat) (a b : Int) : Int :=
  let y := a * 2 ^ p / b
  2 * atanhTerms p (y * y / 2 ^ p) (p / 2 + 8) 1 y 0

/-- ln 2 scaled by 2^p. -/
def ln2Fix (p : Nat) : Int := atanh2 p 1 3

/-- e^x for x = n/d as an interval [lo, hi] * 2^k; |x| is below 2^12. -/
def expI (p : Nat) (x : Q) : Int × Int × Int :=
  let l := ln2Fix p
  let xf := x.1 * 2 ^ p / (x.2 : Int)
  let k := xf / l
  let r := xf - k * l
  let e := 2 ^ p + expTerms p r (p + 8) 1 (2 ^ p) 0
  let err : Int := 2 ^ 24
  (max 0 (e - err), e + err, k - p)

/-- ln(m * 2^e) for m > 0, scaled by 2^p, with its error. -/
def lnI (p : Nat) (m : Nat) (e : Int) : Int × Int :=
  let b := Nat.log2 m
  let c := (2 : Int) ^ b
  let v := atanh2 p ((m : Int) - c) ((m : Int) + c) + ((b : Int) + e) * ln2Fix p
  let err : Int := 2 ^ 20
  (v - err, v + err)

/-- Σ 2^n z^(2n+1)/(2n+1)!! scaled by 2^p. -/
def erfTerms (p : Nat) (z2 : Int) : Nat → Nat → Int → Int → Int
  | 0, _, _, acc => acc
  | fuel + 1, i, t, acc => let t' := t * z2 * 2 / 2 ^ p / (i : Int); erfTerms p z2 fuel (i + 2) t' (acc + t')

/-- arctan(1/b) scaled by 2^p. -/
def atanInv (p b : Nat) : Nat → Nat → Int → Int → Int
  | 0, _, _, acc => acc
  | fuel + 1, i, t, acc => atanInv p b fuel (i + 2) (-t / ((b * b : Nat) : Int)) (acc + t / (i : Int))

/-- π scaled by 2^p (Machin). -/
def piFix (p : Nat) : Int :=
  4 * (4 * atanInv p 5 (p / 4 + 8) 1 (2 ^ p / 5) 0 - atanInv p 239 (p / 14 + 8) 1 (2 ^ p / 239) 0)

/-- Newton's integer square root with fuel. -/
def isqrt (n : Nat) : Nat → Nat → Nat
  | 0, x => x
  | fuel + 1, x => let y := (x + n / x) / 2; if y < x then isqrt n fuel y else x

/-- ⌊√n⌋. -/
def sqrtNat (n : Nat) : Nat := if n = 0 then 0 else isqrt n (Nat.log2 n + 8) (2 ^ (Nat.log2 n / 2 + 1))

/-- Φ(x) = (1 + erf(x/√2))/2 for x = n/d, |x| ≤ 16, scaled by 2^p, with its error. -/
def phiI (p : Nat) (x : Q) : Int × Int :=
  let xf := x.1 * 2 ^ p / (x.2 : Int)
  let x2 := xf * xf / 2 ^ p
  -- erf(x/√2) = (2/√π) e^(-x²/2) Σ 2^n z^(2n+1)/(2n+1)!!, z = x/√2; z² = x²/2
  let z := xf * 2 ^ p / (sqrtNat (2 * 2 ^ (2 * p)) : Int)
  let sum := erfTerms p (x2 / 2) (p + 4096) 3 z z
  let (lo, hi, k) := expI p (-(xf * xf), 2 * 2 ^ (2 * p))
  let ex := if k + p ≤ 0 then (lo + hi) / 2 / 2 ^ (-(k + p)).toNat else (lo + hi) / 2 * 2 ^ (k + p).toNat
  let rootPi : Int := (sqrtNat ((piFix p).natAbs * 2 ^ p) : Int)
  let erf := 2 * (sum * ex / 2 ^ p) * 2 ^ p / rootPi
  let phi := (2 ^ p + erf) / 2
  let err : Int := 2 ^ 220
  (max 0 (phi - err), phi + err)

/-- The code of a rational. -/
def codeOfQ (f : FFmt) (x : Q) : Nat := roundF f (decide (x.1 < 0)) x.1.natAbs x.2

/-- lo * 2^k as a rational. -/
def qScale (n : Int) (k : Int) : Q := if k < 0 then (n, 2 ^ k.natAbs) else (n * 2 ^ k.natAbs, 1)

def qMul (a b : Q) : Q := (a.1 * b.1, a.2 * b.2)
def qAdd (a b : Q) : Q := (a.1 * b.2 + b.1 * a.2, a.2 * b.2)
/-- a / b for b > 0. -/
def qDiv (a b : Q) : Q := (a.1 * b.2, a.2 * b.1.natAbs)

/-- The first precision whose interval rounds to one code; the last one's lower end otherwise. -/
def settle (f : FFmt) (enc : Nat → Q × Q) : List Nat → Nat
  | [] => 0
  | [p] => codeOfQ f (enc p).1
  | p :: ps => let (a, b) := enc p; if codeOfQ f a = codeOfQ f b then codeOfQ f a else settle f enc ps

def precisions : List Nat := [128, 256, 512, 1024]

/-- A finite value as a rational. -/
def Val.q : Val → Q
  | .fin n m e => qScale (if n then -(m : Int) else (m : Int)) e
  | _ => (0, 1)

/-- e^x of a rational, in format f: beyond ±2^11 the result over- or underflows. -/
def fExpQ (f : FFmt) (x : Q) : Nat :=
  if x.1 = 0 then codeOfQ f (1, 1)
  else if 2048 * (x.2 : Int) < x.1 then infOf f false
  else if x.1 < -(2048 * (x.2 : Int)) then 0
  else settle f (fun p => let (lo, hi, k) := expI p x; (qScale lo k, qScale hi k)) precisions

/-- The enclosure of 1/(1 + e^-x) for |x| < 2^11. -/
def sigmI (x : Q) (p : Nat) : Q × Q :=
  let (lo, hi, k) := expI p (-x.1, x.2)
  let one : Q := (1, 1)
  (qDiv one (qAdd one (qScale hi k)), qDiv one (qAdd one (qScale lo k)))

/-- The functions of VFUN on one lane (R168). -/
def vfun (f : FFmt) (fn : Nat) (code : Nat) : Nat :=
  match valOf f code with
  | .nan => nanOf f
  | .inf n =>
    match fn with
    | 0 => if n then 0 else infOf f false
    | 1 => if n then 0 else infOf f false
    | 2 => if n then nanOf f else infOf f false
    | 3 => withSign f n 0
    | 4 => if n then nanOf f else 0
    | 5 => if n then nanOf f else infOf f false
    | 6 => if n then 0 else codeOfQ f (1, 1)
    | 7 => codeOfQ f (if n then -1 else 1, 1)
    | _ => if n then 0 else infOf f false
  | .fin n m e =>
    let x := (Val.fin n m e).q
    let zeroCode := if n then (if Config.signOfZero fn then withSign f true 0 else 0) else 0
    match fn with
    | 0 => fExpQ f x
    | 1 =>
      if m = 0 then codeOfQ f (1, 1)
      else if 2048 * (x.2 : Int) < x.1 then infOf f false
      else if x.1 < -(2048 * (x.2 : Int)) then 0
      else if x.1 % (x.2 : Int) = 0 then codeOfQ f (qScale 1 (x.1 / (x.2 : Int)))
      else
        let k := x.1 / (x.2 : Int)
        let r : Q := (x.1 - k * (x.2 : Int), x.2)
        settle f (fun p =>
          let (lo, hi, j) := expI p (r.1 * ln2Fix p, r.2 * 2 ^ p)
          (qScale (lo - 2 ^ 26) (j + k), qScale (hi + 2 ^ 26) (j + k))) precisions
    | 2 =>
      if m = 0 then infOf f true
      else if n then nanOf f
      else if x.1 = (x.2 : Int) then 0
      else settle f (fun p => let (lo, hi) := lnI p m e; ((lo, 2 ^ p), (hi, 2 ^ p))) precisions
    | 3 => if m = 0 then infOf f n else (let (a, b) := scaleRat 1 m (-e); roundF f n a b)
    | 4 =>
      if m = 0 then infOf f n else if n then nanOf f
      else settle f (fun p =>
        -- 1/√(m 2^e) scaled by 2^(p + 160)
        let (a, b) := scaleRat 1 m (-e)
        let r := sqrtNat (a * 2 ^ (2 * (p + 160)) / b)
        (((r : Int), 2 ^ (p + 160)), (if r * r * b = a * 2 ^ (2 * (p + 160)) then (r : Int) else (r : Int) + 1, 2 ^ (p + 160)))) precisions
    | 5 =>
      if m = 0 then withSign f n 0 else if n then nanOf f
      else settle f (fun p =>
        let (a, b) := scaleRat m 1 e
        let r := sqrtNat (a * 2 ^ (2 * (p + 160)) / b)
        (((r : Int), 2 ^ (p + 160)), (if r * r * b = a * 2 ^ (2 * (p + 160)) then (r : Int) else (r : Int) + 1, 2 ^ (p + 160)))) precisions
    | 6 =>
      if 2048 * (x.2 : Int) < x.1 then codeOfQ f (1, 1)
      else if x.1 < -(2048 * (x.2 : Int)) then 0
      else settle f (sigmI x) precisions
    | 7 =>
      if m = 0 then zeroCode
      else if (x.1.natAbs : Int) * 2 ^ 14 < (x.2 : Int) then code
      else if 2048 * (x.2 : Int) < (x.1.natAbs : Int) then codeOfQ f (if n then -1 else 1, 1)
      else
        let s : Int := if n then -1 else 1
        settle f (fun p =>
          let (lo, hi, k) := expI p (-(2 * (x.1.natAbs : Int)), x.2)
          let one : Q := (1, 1)
          let g (t : Q) : Q := qMul (s, 1) (qDiv (qAdd one (-t.1, t.2)) (qAdd one t))
          (g (qScale lo k), g (qScale hi k))) precisions
    | 8 =>
      if m = 0 then zeroCode
      else if 2048 * (x.2 : Int) < x.1 then code
      else if x.1 < -(2048 * (x.2 : Int)) then withSign f true 0
      else settle f (fun p => let (a, b) := sigmI x p; (qMul x a, qMul x b)) precisions
    | 9 =>
      if m = 0 then zeroCode
      else if 16 * (x.2 : Int) < x.1 then code
      else if x.1 < -(16 * (x.2 : Int)) then withSign f true 0
      else settle f (fun p => let (lo, hi) := phiI p x; (qMul x (lo, 2 ^ p), qMul x (hi, 2 ^ p))) [512, 1024]
    | _ => if n then 0 else code

/-- VSMX on one lane: guarded e^(va - vb) (R169). -/
def vsmxLane (f : FFmt) (a b : Nat) : Nat :=
  match valOf f a, valOf f b with
  | .nan, _ => nanOf f
  | _, .nan => nanOf f
  | .inf true, _ => 0
  | _, .inf true => 0
  | .inf false, .inf false => nanOf f
  | .inf false, .fin _ _ _ => infOf f false
  | .fin _ _ _, .inf false => 0
  | .fin x m e, .fin y n k =>
    let d := dyAdd (Val.fin x m e).dyadic (-(Val.fin y n k).dyadic.1, (Val.fin y n k).dyadic.2)
    fExpQ f (qScale d.1 d.2)

/-- VLSE on one lane: va + ln vb, one rounding (R169). -/
def vlseLane (f : FFmt) (a b : Nat) : Nat :=
  match valOf f a, valOf f b with
  | .nan, _ => nanOf f
  | _, .nan => nanOf f
  | x, .inf false => fAddVal f x (.inf false)
  | _, .inf true => nanOf f
  | x, .fin yn n k =>
    if n = 0 then fAddVal f x (.inf true)
    else if yn then nanOf f
    else match x with
      | .inf s => infOf f s
      | .nan => nanOf f
      | .fin xn m e =>
        if (Val.fin false n k).q.1 = ((Val.fin false n k).q.2 : Int) then fAddVal f (.fin xn m e) (.fin false 0 0)
        else settle f (fun p =>
          let (lo, hi) := lnI p n k
          (qAdd (Val.fin xn m e).q (lo, 2 ^ p), qAdd (Val.fin xn m e).q (hi, 2 ^ p))) precisions

end Sys2Proof.Machine
end

