-- ==== Sys2Proof/Machine/Operands.lean ====
section
/-! DEFINITION. The operand forms of the core: register reads (R86), lanes of a vector register (R142, R160), operand streams and their
port schedule (R149–R152, R164, R173, R174), and what one row of a stream holds (R151). -/

namespace Sys2Proof.Machine

/-! ## Registers -/

def blankRegs : RegFiles := ⟨[], [], [], [], []⟩
def blankSeq : Seq := ⟨0, [], [], 0, none, false, none, 0, false, 0, false⟩
def blankCkpt : Ckpt := ⟨false, 0, blankRegs, blankSeq, [], 0, 0⟩

/-- A core of which nothing has been written: every register, row and store entry zero. -/
def blankCore : Core where
  regs := blankRegs
  seq := blankSeq
  done := false
  beat := 0
  faulted := false
  aborted := false
  pend := []
  ops := []
  bundle := []
  lastMsend := none
  inbox := []
  arrived := []
  rows := []
  held := []
  code := []
  routes := []
  older := blankCkpt
  newer := blankCkpt
  stopping := none
  taster := ⟨0, 0, 0, false, none, none, 0, 0, 0⟩
  adv := ⟨false, false, false, false, false, 0⟩
  inWords := []
  deliv := []
  taken := false
  p7 := []
  egrBanks := []
  egress := []
  steps := []
  detects := []
  repaired := []
  detectAt := none
  doomed := false
  entered := 0
  entryPc := 0
  planSeed := 0

def coreOf (s : State) (c : Nat) : Core := tget s.cores c blankCore
def setCore (s : State) (c : Nat) (co : Core) : State := { s with cores := tset s.cores c co }
def modCore (s : State) (c : Nat) (f : Core → Core) : State := setCore s c (f (coreOf s c))

/-- s0 reads as 0 (R86). -/
def rdS (r : RegFiles) (n : Nat) : Word := if n = 0 then 0 else tget r.s n 0
def rdV (r : RegFiles) (n : Nat) : NetWord := tget r.v n 0
/-- m0 reads as all ones (R86). -/
def rdM (r : RegFiles) (n : Nat) : Word := if n = 0 then BitVec.allOnes 64 else tget r.m n 0
def rdAcc (r : RegFiles) (n : Nat) : AccV := tget r.acc n ⟨0, 0⟩
def rdCa (r : RegFiles) (n : Nat) : BitVec 32 := tget r.ca n 0

/-- Writes to s0 and m0 are discarded (R86). -/
def wrS (r : RegFiles) (n : Nat) (x : Word) : RegFiles := if n = 0 then r else { r with s := tset r.s n x }
def wrV (r : RegFiles) (n : Nat) (x : NetWord) : RegFiles := { r with v := tset r.v n x }
def wrM (r : RegFiles) (n : Nat) (x : Word) : RegFiles := if n = 0 then r else { r with m := tset r.m n x }
def wrAcc (r : RegFiles) (n : Nat) (x : AccV) : RegFiles := { r with acc := tset r.acc n x }
def wrCa (r : RegFiles) (n : Nat) (x : BitVec 32) : RegFiles := { r with ca := tset r.ca n x }

/-! ## Lanes -/

/-- Lane i of w bits. -/
def laneOf (w : Nat) (x : NetWord) (i : Nat) : Nat := (x.toNat >>> (w * i)) % 2 ^ w

/-- A register word from its lanes of w bits, lane 0 first. -/
def packLanes (w : Nat) (l : List Nat) : NetWord := BitVec.ofNat 1024 (l.foldr (fun x acc => x % 2 ^ w + acc * 2 ^ w) 0)

/-- A register word with some lanes of w bits replaced: f gives the new value of a lane, or none to keep it. -/
def mapLanes (w : Nat) (x : NetWord) (f : Nat → Option Nat) : NetWord :=
  packLanes w ((List.range (1024 / w)).map fun i => (f i).getD (laneOf w x i))

/-- The landing, d cycles after the issue, of the lanes of w bits that f gives; the others keep what v[n] holds when they land (R161,
assumption 32). -/
def mergeLanes (d n w : Nat) (f : Nat → Option Nat) : Nat × Eff :=
  (d, .mergeV n (mapLanes w 0 f) (mapLanes w 0 fun i => (f i).map fun _ => 2 ^ w - 1))

/-- Width of a lane type (R160). -/
def LaneTy.width : LaneTy → Nat
  | .fp32 => 32
  | .bf16 => 16
  | .fp16 => 16
  | .i32 => 32
  | .i16 => 16
  | .i8 => 8

/-- The lane type of a ty code; 6 and 7 are not accepted. -/
def laneTy (ty : Nat) : Option LaneTy :=
  match ty with
  | 0 => some .fp32 | 1 => some .bf16 | 2 => some .fp16 | 3 => some .i32 | 4 => some .i16 | 5 => some .i8
  | _ => none

def LaneTy.ffmt : LaneTy → Option FFmt
  | .fp32 => some Machine.fp32
  | .bf16 => some Machine.bf16
  | .fp16 => some Machine.fp16
  | _ => none

def LaneTy.lanes (t : LaneTy) : Nat := 1024 / t.width

/-- The mask bit of lane i (R86, R161): bit i, or bit i / 2 for 8-bit lanes. -/
def maskBit (m : Word) (t : LaneTy) (i : Nat) : Bool := m.getLsbD (if t = .i8 then i / 2 else i)

/-! ## Streams (R149) -/

/-- The row of stream index k with base row b. -/
def streamRow (b k : Nat) : Nat :=
  let a := b / 32
  let h := b / 16 % 2
  let o := b % 16
  32 * (a + (o + k) / 16) + 16 * h + (o + k) % 16

/-- A base register is in range and the stream stays within the scratchpad (R150). -/
def streamOk (base : Word) (last : Nat) : Bool := base.toNat < 2 ^ 17 && streamRow base.toNat last < 131072

/-! ## The rows of the matrix and correction streams (R151, R173, R174) -/

/-- Index of the weight scale row and code rows of block b, by weight format. -/
def wScaleIdx (wf : Fmt4) (b : Nat) : Nat :=
  match wf with
  | .d3i => 7 * (b / 4)
  | .d2t => 5 * (b / 4)
  | _ => 9 * (b / 4)

/-- The last index of the weight stream of an MM4 over blocks 0 to nb. -/
def wLast4 (wf : Fmt4) (nb : Nat) : Nat :=
  match wf with
  | .d3i => 7 * (nb / 4) + (match nb % 4 with | 0 => 2 | 1 => 3 | 2 => 5 | _ => 6)
  | .d2t => 5 * (nb / 4) + 1 + nb % 4
  | _ => 9 * (nb / 4) + 2 + 2 * (nb % 4)

def xLast4 (nb : Nat) : Nat := 9 * (nb / 8) + 1 + nb % 8

def wLast8 (scaled : Bool) (nb : Nat) : Nat := if scaled then 17 * (nb / 4) + 1 + 4 * (nb % 4) + 3 else 4 * nb + 3
def xLast8 (scaled : Bool) (nb : Nat) : Nat := if scaled then 17 * (nb / 8) + 1 + 2 * (nb % 8) + 1 else 2 * nb + 1

def fmt4 (n : Nat) : Fmt4 := match n with | 0 => .d4f | 1 => .d4i | 2 => .d3i | _ => .d2t
def fmt8 (n : Nat) : Fmt8 := match n with | 0 => .e4m3 | 1 => .e5m2 | _ => .int8

/-- The rank of an rk code (R172). -/
def rankOf (rk : Nat) : Nat := 8 * 2 ^ rk

/-- The stream reads of a unit d cycles after its issue, and a store's writes (R152, R164, R173, R174). -/
def accessesAt (op : UnitOp) (d : Nat) : List Access :=
  let w (port idx : Nat) : Access := ⟨port, 2 * idx, streamRow op.wBase idx, none⟩
  let x (port idx : Nat) : Access := ⟨port, 2 * idx + 1, streamRow op.xBase idx, none⟩
  match op.kind with
  | .mm4 f =>
    let nb := f.nb.toNat
    let wf := fmt4 f.wf.toNat
    let scaleX := if 1 ≤ d ∧ (d - 1) % 8 = 0 ∧ (d - 1) / 8 ≤ nb / 8 then [x 3 (9 * ((d - 1) / 8))] else []
    let scaleW := if 2 ≤ d ∧ (d - 2) % 4 = 0 ∧ (d - 2) / 4 ≤ nb / 4 then [w 3 (wScaleIdx wf (d - 2))] else []
    let b := d - 3
    let codes := if 3 ≤ d ∧ b ≤ nb then
        let q := b / 4
        let j := b % 4
        (match wf with
         | .d3i => (match j with
            | 0 => [w 0 (7 * q + 1), w 1 (7 * q + 2)] | 1 => [w 0 (7 * q + 3)]
            | 2 => [w 0 (7 * q + 4), w 1 (7 * q + 5)] | _ => [w 0 (7 * q + 6)])
         | .d2t => [w 0 (5 * q + 1 + j)]
         | _ => [w 0 (9 * q + 1 + 2 * j), w 1 (9 * q + 2 + 2 * j)]) ++ [x 2 (9 * (b / 8) + 1 + b % 8)]
      else []
    scaleX ++ scaleW ++ codes
  | .mm8 f =>
    let nb := f.nb.toNat
    let sc := f.s = 1
    let scaleX := if sc ∧ 1 ≤ d ∧ (d - 1) % 32 = 0 ∧ (d - 1) / 32 ≤ nb / 8 then [x 3 (17 * ((d - 1) / 32))] else []
    let scaleW := if sc ∧ 2 ≤ d ∧ (d - 2) % 16 = 0 ∧ (d - 2) / 16 ≤ nb / 4 then [w 3 (17 * ((d - 2) / 16))] else []
    let b := (d - 3) / 4
    let st := (d - 3) % 4
    let codes := if 3 ≤ d ∧ b ≤ nb then
        [w 0 (if sc then 17 * (b / 4) + 1 + 4 * (b % 4) + st else 4 * b + st)] ++
        (if st % 2 = 0 then [x 2 (if sc then 17 * (b / 8) + 1 + 2 * (b % 8) + st / 2 else 2 * b + st / 2)] else [])
      else []
    scaleX ++ scaleW ++ codes
  | .mmbf f =>
    let k := d - 3
    if 3 ≤ d ∧ k < 16 * (f.nb.toNat + 1) then
      (if k % 2 = 0 then [w 0 (k / 2)] else []) ++ (if k % 4 = 0 then [x 2 (k / 4)] else [])
    else []
  | .cdot f _ =>
    let i := d - 1
    if 1 ≤ d ∧ i ≤ f.ni.toNat then
      (if f.uf = 1 then [w 6 i] else if i % 2 = 0 then [w 6 (i / 2)] else [])
    else []
  | .cup f _ =>
    let j := d - 1
    if 1 ≤ d ∧ j < rankOf f.rk.toNat then
      (if f.uf = 1 then (if j % 2 = 0 then [w 6 (j / 2)] else []) else if j % 4 = 0 then [w 6 (j / 4)] else [])
    else []
  | .vld f =>
    if d = 1 then (match f.hh.toNat with
      | 0 => [⟨4, 0, streamRow op.wBase 0, none⟩, ⟨5, 2, streamRow op.wBase 1, none⟩]
      | 1 => [⟨4, 0, streamRow op.wBase 0, none⟩]
      | _ => [⟨4, 2, streamRow op.wBase 0, none⟩]) else []
  | .vst f v =>
    let lo : RowData := v.setWidth 512
    let hi : RowData := (v >>> 512).setWidth 512
    if d = 1 then (match f.hh.toNat with
      | 0 => [⟨4, 0, streamRow op.wBase 0, some lo⟩, ⟨5, 2, streamRow op.wBase 1, some hi⟩]
      | 1 => [⟨4, 0, streamRow op.wBase 0, some lo⟩]
      | _ => [⟨4, 2, streamRow op.wBase 0, some hi⟩]) else []

/-- The last distance at which a unit accesses the scratchpad. -/
def lastAccess (op : UnitOp) : Nat :=
  match op.kind with
  | .mm4 f => 3 + f.nb.toNat
  | .mm8 f => 3 + 4 * f.nb.toNat + 3
  | .mmbf f => 3 + 16 * f.nb.toNat + 14
  | .cdot f _ => if f.uf = 1 then 1 + f.ni.toNat else 1 + f.ni.toNat / 2 * 2
  | .cup f _ => if f.uf = 1 then rankOf f.rk.toNat - 1 else rankOf f.rk.toNat - 3
  | .vld _ => 1
  | .vst _ _ => 1

/-! ## Captured operands -/

/-- Bits of a captured row: len bits from bit lo of the row with key k; a row that was not captured reads as zeros. -/
def gotBits (op : UnitOp) (k lo len : Nat) : Nat := ((tget op.got k 0).toNat >>> lo) % 2 ^ len

/-- The packed word of weight column n of block b of an MM4. -/
def wWord4 (op : UnitOp) (wf : Fmt4) (b n : Nat) : Nat :=
  let q := b / 4
  let j := b % 4
  match wf with
  | .d3i =>
    -- a run of 192 bytes over three rows: the even block at byte 6n, the odd block at byte 96 + 6n
    let r0 := 7 * q + 1 + 3 * (j / 2)
    let run := (tget op.got (2 * r0) 0).toNat + (tget op.got (2 * r0 + 2) 0).toNat * 2 ^ 512 + (tget op.got (2 * r0 + 4) 0).toNat * 2 ^ 1024
    (run >>> (8 * ((if j % 2 = 0 then 0 else 96) + 6 * n))) % 2 ^ 48
  | .d2t => gotBits op (2 * (5 * q + 1 + j)) (32 * n) 32
  | _ => if n < 8 then gotBits op (2 * (9 * q + 1 + 2 * j)) (64 * n) 64
         else gotBits op (2 * (9 * q + 2 + 2 * j)) (64 * (n - 8)) 64

/-- The packed word of activation row m of block b of an MM4. -/
def xWord4 (op : UnitOp) (b m : Nat) : Nat := gotBits op (2 * (9 * (b / 8) + 1 + b % 8) + 1) (64 * m) 64

/-- Element i of a packed word (R55). -/
def elem4 (f : Fmt4) (word i : Nat) : Nat := (word >>> (f.bits * i)) % 2 ^ f.bits

/-- The scale codes of column n and row m of block b of an MM4. -/
def wScale4 (op : UnitOp) (wf : Fmt4) (b n : Nat) : Nat := gotBits op (2 * wScaleIdx wf b) (8 * (16 * (b % 4) + n)) 8
def xScale4 (op : UnitOp) (b m : Nat) : Nat := gotBits op (2 * (9 * (b / 8)) + 1) (8 * (8 * (b % 8) + m)) 8

/-- One block's contribution to the accumulator of row m and column n, in units of 2^-40 (R65). -/
def block4 (op : UnitOp) (wf xf : Fmt4) (b m n : Nat) : Int :=
  let ww := wWord4 op wf b n
  let xw := xWord4 op b m
  let p : Int := ((List.range 16).map fun i => code4Twice wf (elem4 wf ww i) * code4Twice xf (elem4 xf xw i)).sum
  p * (bs8 (wScale4 op wf b n) : Int) * (bs8 (xScale4 op b m) : Int) * 16

/-- Weight and activation codes of element e (0–15) of block b of an MM8 (R151). -/
def wCode8 (op : UnitOp) (sc : Bool) (b n e : Nat) : Nat :=
  gotBits op (2 * (if sc then 17 * (b / 4) + 1 + 4 * (b % 4) + e / 4 else 4 * b + e / 4)) (8 * (4 * n + e % 4)) 8
def xCode8 (op : UnitOp) (sc : Bool) (b m e : Nat) : Nat :=
  gotBits op (2 * (if sc then 17 * (b / 8) + 1 + 2 * (b % 8) + e / 8 else 2 * b + e / 8) + 1) (8 * (8 * m + e % 8)) 8
def wScale8 (op : UnitOp) (sc : Bool) (b n : Nat) : Nat :=
  if sc then gotBits op (2 * (17 * (b / 4))) (8 * (16 * (b % 4) + n)) 8 else 0x78
def xScale8 (op : UnitOp) (sc : Bool) (b m : Nat) : Nat :=
  if sc then gotBits op (2 * (17 * (b / 8)) + 1) (8 * (8 * (b % 8) + m)) 8 else 0x78

/-- The 16 element products of one block of an MM8, each on the grid with its clamp flag (R66). -/
def block8 (op : UnitOp) (wf xf : Fmt8) (sc : Bool) (b m n : Nat) : List (Int × Bool) :=
  (List.range 16).map fun e =>
    gridProduct (dyMul (dyMul (code8Val wf (wCode8 op sc b n e)).dyadic (code8Val xf (xCode8 op sc b m e)).dyadic)
      (dyMul (bs8Dy (wScale8 op sc b n)) (bs8Dy (xScale8 op sc b m))))

/-- The 16 element products of block b of an MMBF. -/
def blockBf (op : UnitOp) (b m n : Nat) : List (Int × Bool) :=
  (List.range 16).map fun e =>
    let k := 16 * b + e
    gridProduct (dyMul (valOf bf16 (gotBits op (2 * (k / 2)) (8 * (32 * (k % 2) + 2 * n)) 16)).dyadic
      (valOf bf16 (gotBits op (2 * (k / 4) + 1) (8 * (16 * (k % 4) + 2 * m)) 16)).dyadic)

/-- The blocks and highest row of a product. -/
def prodNb : UnitKind → Nat
  | .mm4 f => f.nb.toNat
  | .mm8 f => f.nb.toNat
  | .mmbf f => f.nb.toNat
  | _ => 0
def prodNr : UnitKind → Nat
  | .mm4 f => f.nr.toNat
  | .mm8 f => f.nr.toNat
  | .mmbf f => f.nr.toNat
  | _ => 0
def prodClr : UnitKind → Bool
  | .mm4 f => f.clr = 1
  | .mm8 f => f.clr = 1
  | .mmbf f => f.clr = 1
  | _ => false
def isProduct : UnitKind → Bool
  | .mm4 _ => true
  | .mm8 _ => true
  | .mmbf _ => true
  | _ => false

/-- What a product adds to the accumulator of row m and column n, and how many of its element products were clamped (R65, R66). -/
def prodSum (op : UnitOp) (m n : Nat) : Int × Nat :=
  let blocks := List.range (prodNb op.kind + 1)
  let ofPairs (l : List (Int × Bool)) : Int × Nat := ((l.map (·.1)).sum, l.countP (·.2))
  match op.kind with
  | .mm4 f => ((blocks.map fun b => block4 op (fmt4 f.wf.toNat) (fmt4 f.xf.toNat) b m n).sum, 0)
  | .mm8 f => ofPairs (blocks.flatMap fun b => block8 op (fmt8 f.wf.toNat) (fmt8 f.xf.toNat) (f.s = 1) b m n)
  | .mmbf _ => ofPairs (blocks.flatMap fun b => blockBf op b m n)
  | _ => (0, 0)

/-- Accumulator n after a product lands (R155). -/
def prodAcc (op : UnitOp) (old : AccV) (i : Nat) : AccV :=
  let base : AccV := if prodClr op.kind then ⟨0, 0⟩ else old
  if i / 16 ≤ prodNr op.kind then
    ⟨laAdd base.la (prodSum op (i / 16) (i % 16)).1, base.cnt + prodNb op.kind + 1⟩
  else base

/-- Reserved codes among the 16 elements of a packed word (R58). -/
def wordReserved (f : Fmt4) (word : Nat) : Nat := (List.range 16).countP fun i => code4Reserved f (elem4 f word i)

/-- Reserved codes that the capture of row pos of the three D3I rows of a block pair completes: a code that crosses into a row is read with
that row. nb: the last block of the product. -/
def d3iReserved (op : UnitOp) (nb q half pos : Nat) : Nat :=
  ((List.range 2).map fun p =>
    if nb < 4 * q + 2 * half + p then 0
    else ((List.range 16).map fun n => (List.range 16).countP fun e =>
      (768 * p + 48 * n + 3 * e + 2) / 512 = pos && code4Reserved .d3i (elem4 .d3i (wWord4 op .d3i (4 * q + 2 * half + p) n) e)).sum).sum

/-- Reserved 4-bit-class codes that an MM4 reads with the row of capture key k, which op holds (R58): those of the columns and rows it uses, of
its own blocks. -/
def rowReserved (op : UnitOp) (k : Nat) : Nat :=
  match op.kind with
  | .mm4 f =>
    let nb := f.nb.toNat
    let i := k / 2
    if k % 2 = 1 then
      if i % 9 = 0 then 0
      else ((List.range (f.nr.toNat + 1)).map fun m => wordReserved (fmt4 f.xf.toNat) (xWord4 op (8 * (i / 9) + i % 9 - 1) m)).sum
    else match fmt4 f.wf.toNat with
      | .d3i => if i % 7 = 0 then 0 else d3iReserved op nb (i / 7) ((i % 7 - 1) / 3) ((i % 7 - 1) % 3)
      | .d2t => if i % 5 = 0 then 0
          else ((List.range 16).map fun n => wordReserved .d2t (wWord4 op .d2t (4 * (i / 5) + i % 5 - 1) n)).sum
      | wf => if i % 9 = 0 then 0
          else ((List.range 8).map fun n =>
            wordReserved wf (wWord4 op wf (4 * (i / 9) + (i % 9 - 1) / 2) (8 * ((i % 9 - 1) % 2) + n))).sum
  | _ => 0

/-- Clamped element products of a product over all its rows (R66). -/
def prodClamps (op : UnitOp) : Nat :=
  ((List.range (prodNr op.kind + 1)).map fun m => ((List.range 16).map fun n => (prodSum op m n).2).sum).sum

/-- A block of the row's operands carried BS8 code 0xFF (R108). -/
def prodSat (op : UnitOp) (m : Nat) : Bool :=
  (List.range (prodNb op.kind + 1)).any fun b =>
    match op.kind with
    | .mm4 f => xScale4 op b m = 255 || (List.range 16).any fun n => wScale4 op (fmt4 f.wf.toNat) b n = 255
    | .mm8 f => f.s = 1 && (xScale8 op true b m = 255 || (List.range 16).any fun n => wScale8 op true b n = 255)
    | _ => false

/-- Non-finite operands in one captured row of a unit's stream (R61): each operand once. -/
def rowNonFinite (op : UnitOp) (key : Nat) (d : RowData) : Nat :=
  let bytes (w : Nat) (l : List Nat) (bad : Nat → Bool) : Nat := l.countP fun i => bad ((d.toNat >>> (w * i)) % 2 ^ w)
  let bad8 (f : Fmt8) (c : Nat) : Bool := !(code8Val f c).isFin
  let badBf (c : Nat) : Bool := !(valOf bf16 c).isFin
  match op.kind with
  | .mm8 f =>
    let scale := f.s = 1 ∧ key / 2 % 17 = 0
    if scale then 0
    else if key % 2 = 0 then bytes 8 (List.range 64) (bad8 (fmt8 f.wf.toNat))
    else bytes 8 (List.range (8 * (f.nr.toNat + 1))) (bad8 (fmt8 f.xf.toNat))
  | .mmbf f =>
    if key % 2 = 0 then bytes 16 (List.range 32) badBf
    else bytes 16 ((List.range 32).filter fun i => i % 8 ≤ f.nr.toNat) badBf
  | .cdot f _ =>
    if f.uf = 1 then bytes 16 (List.range 32) badBf
    else bytes 8 ((List.range 64).filter fun i => 2 * (key / 2) + i / 32 ≤ f.ni.toNat) (bad8 .e4m3)
  | .cup f _ => if f.uf = 1 then bytes 16 (List.range 32) badBf else bytes 8 (List.range 64) (bad8 .e4m3)
  | _ => 0

/-- One lane's sum over a list of exact products, with the number of clamped additions (R78, R79). -/
def laneSums (start : Nat) (ps : List Val) : Nat × Nat :=
  ps.foldl (fun acc p => let (x, cl) := laneAdd acc.1 p; (x, acc.2 + bit cl)) (start, 0)

/-- A value with a non-finite one read as 0 (R61). -/
def finiteOr0 (v : Val) : Val := if v.isFin then v else .fin false 0 0

/-- The new ca register l of the group of a CDOT or CUP, with the clamped additions (R173, R174). -/
def laneResult (op : UnitOp) (old : Nat) (l : Nat) : Nat × Nat :=
  match op.kind with
  | .cdot f xs =>
    let v (i : Nat) : Val :=
      if f.uf = 1 then valOf bf16 (gotBits op (2 * i) (16 * l) 16)
      else valOf e4m3 (gotBits op (2 * (i / 2)) (8 * (32 * (i % 2) + l)) 8)
    laneSums (if f.z = 1 then 0 else old)
      ((List.range (f.ni.toNat + 1)).map fun i => valMul (finiteOr0 (v i)) (finiteOr0 (valOf bf16 (xs.getD i 0))))
  | .cup f xs =>
    let n := l % 16
    let r := rankOf f.rk.toNat
    let u (j : Nat) : Val :=
      if f.uf = 1 then valOf bf16 (gotBits op (2 * (j / 2)) (8 * (32 * (j % 2) + 2 * n)) 16)
      else valOf e4m3 (gotBits op (2 * (j / 4)) (8 * (16 * (j % 4) + n)) 8)
    laneSums 0 ((List.range r).map fun j => valMul (finiteOr0 (u j)) (finiteOr0 (valOf fp32 (xs.getD (r * (l / 16) + j) 0))))
  | _ => (old, 0)

/-! ## Rows of the scratchpad (R91, R92) -/

/-- One step of the detection code: generator x^16 + x^15 + x^2 + 1. -/
def crcStep (crc : BitVec 16) (b : Bool) : BitVec 16 :=
  if xor (crc.getLsbD 15) b then (crc <<< 1) ^^^ 0x8005#16 else crc <<< 1

/-- The detection code of a row (R92): data bits, byte 0 first and bit 0 of each byte first, then the 17 address bits. -/
def rowCode (d : RowData) (a : Nat) : BitVec 16 :=
  let c := (List.range 512).foldl (fun c i => crcStep c (d.getLsbD i)) 0xFFFF#16
  (List.range 17).foldl (fun c i => crcStep c (a.testBit i)) c

/-- A row that nothing has written: zeros with a valid code (assumption 4). -/
def blankRow (a : Nat) : Row := ⟨0, rowCode 0 a, false, false⟩

def rowAt (co : Core) (a : Nat) : Row := tget co.rows a (blankRow a)

/-- An entry that says no more than an unlisted row does. -/
def blankEntry (a : Nat) (r : Row) : Bool := r.data = 0 && !r.mark0 && !r.mark1 && r.code = rowCode 0 a

/-- The rows with row a stored; an entry that equals an unlisted row's is not listed. -/
def storeRow (t : Table Row) (a : Nat) (r : Row) : Table Row := if blankEntry a r then tdel t a else tset t a r

/-- The canonical form of a core's rows: addresses rising, and no entry that equals an unlisted row's. -/
def rowsWf (t : Table Row) : Bool := risingKeys t && t.all fun e => !blankEntry e.1 e.2

/-- A row written: its code is formed and both write marks are set (R92, R93). -/
def putRow (co : Core) (a : Nat) (d : RowData) : Core := { co with rows := storeRow co.rows a ⟨d, rowCode d a, true, true⟩ }

/-- A row passes its check. -/
def rowGood (a : Nat) (r : Row) : Bool := r.code = rowCode r.data a

/-- Row a lies in the core's cask window (R101). -/
def inWindow (s : State) (c a : Nat) : Bool :=
  let b := rd s F.CORE_SPAD_WIN_BASE c
  b ≤ a && a < b + rd s F.CORE_SPAD_WIN_LEN c

/-- The bank of a row (R91). -/
def bankOf (a : Nat) : Nat := a % 32

end Sys2Proof.Machine
end

