-- ==== Sys2Proof/Machine/Issue.lean ====
section
/-! DEFINITION. The shared operations of a core: recording a fault (R114, R145), issuing an instruction under the rules of the bundle
(R119–R123), the port accesses of a cycle (R95–R98), the landing of results (R121), tasting (R106–R108, R175–R177) and the sequencer's
advance (R128–R132). -/

namespace Sys2Proof.Machine

/-! ## Faults of a core -/

/-- Scheduled cycles of a tick. -/
def schedCycles (s : State) : Nat := 2 ^ tickK s

/-- The cycle of the tick as CORE_FAULT records it: the scheduled cycle, or the stretch cycle's index with STRETCH (R145). -/
def faultCycle (s : State) (cyc : Nat) : Nat × Bool :=
  if cyc < schedCycles s then (cyc, false) else (cyc - schedCycles s, true)

/-- CORE_FAULT takes the first fault; a later one sets LATER (R114). The FAULT flag of the coming heartbeat is set (R145). -/
def recordFault (s : State) (c ev pc cyc row : Nat) (engine : Bool) : State :=
  let s := modCore s c fun co => { co with faulted := true }
  if rdB s F.CORE_FAULT_VALID c then wr s F.CORE_FAULT_LATER c 1
  else
    let (cy, st) := faultCycle s cyc
    wrAll s c [(F.CORE_FAULT_VALID, 1), (F.CORE_FAULT_ENGINE, bit engine), (F.CORE_FAULT_STRETCH, bit st), (F.CORE_FAULT_LATER, 0),
      (F.CORE_FAULT_ROW, row), (F.CORE_FAULT_CYCLE, cy), (F.CORE_FAULT_PC, pc), (F.CORE_FAULT_EVENT, ev)]

/-- A fault of the bundle that core c issues now. -/
def bundleFault (s : State) (c ev row : Nat) : State := recordFault s c ev (coreOf s c).seq.pc s.clk.cyc row false

/-- A numeric counter advanced, and noted for the per-tick report (R82). A counter that stands at 0xFFFF stays there, and a further occurrence is
noted all the same, so that its flag is set and its event is raised: DESIGN CHOICE (assumption 97). -/
def countNum (s : State) (c : Nat) (k : NumCnt) (n : Nat) : State :=
  if n = 0 then s else
  match k with
  | .resCode => bump (modCore s c fun co => { co with adv := { co.adv with resCode := true } }) F.CORE_NUM_CNT_RES_CODE c n
  | .qsat => bump (modCore s c fun co => { co with adv := { co.adv with qsat := true } }) F.CORE_NUM_CNT_QSAT c n
  | .clamp => bump (modCore s c fun co => { co with adv := { co.adv with clamp := true } }) F.CORE_NUM_CNT_CLAMP c n
  | .nanOp => bump (modCore s c fun co => { co with adv := { co.adv with nanOp := true } }) F.CORE_NUM_CNT_NAN_OP c n

/-- One write-hold or egress conflict (R98, R100). -/
def countConflict (s : State) (c : Nat) : State :=
  bump (modCore s c fun co => { co with adv := { co.adv with conflict := true } }) F.CORE_SPAD_CNT_CONFLICT c 1

/-- What non-finite operands do: count NAN_OP, or fault under NAN_TRAP (R61). -/
def nanEffs (s : State) (c n : Nat) : List (Nat × Eff) :=
  if n = 0 then [] else if rdB s F.CORE_NUM_CTL_NAN_TRAP c then [(0, .fault evNanOperand 0)] else [(0, .count .nanOp n)]

/-! ## Issue (R119–R123) -/

/-- The register an effect lands in. -/
def effDest : Eff → Option RegName
  | .setS n _ => some (.s n)
  | .setV n _ => some (.v n)
  | .mergeV n _ _ => some (.v n)
  | .setM n _ => some (.m n)
  | .setAcc n _ => some (.acc n)
  | .setCa n _ => some (.ca n)
  | .prod n => some (.acc n)
  | .laneSum n => some (.ca n)
  | .load n => some (.v n)
  | _ => none

/-- s0 and m0 hold no result, so no instruction awaits one there (R86, R126); as destinations of a bundle they count like any register (R120). -/
def realDest (r : RegName) : Bool := r ≠ .s 0 && r ≠ .m 0

/-- Register r awaits a result of an instruction issued before cycle t (R122). -/
def awaits (co : Core) (t : Nat) (r : RegName) : Bool :=
  realDest r && co.pend.any fun p => p.issue < t && effDest p.eff = some r

/-- A result for r landing at the end of cycle d would land with or before an older one (R122). -/
def landsTooEarly (co : Core) (t d : Nat) (r : RegName) : Bool :=
  co.pend.any fun p => p.issue < t && effDest p.eff = some r && d ≤ p.due

/-- The slots of the current bundle that name one of the destinations. -/
def clashes (co : Core) (ds : List RegName) : List Slot :=
  (co.bundle.filter fun b => b.2.any fun r => ds.contains r).map (·.1)

/-- Everything that a slot of the bundle of cycle t set going is taken back (R120). -/
def cancelSlots (co : Core) (t : Nat) (sl : List Slot) : Core :=
  { co with pend := co.pend.filter fun p => !(p.issue = t && sl.contains p.slot),
            ops := co.ops.filter fun o => !(o.issue = t && sl.contains o.slot) }

/-- The current cycle is a scheduled cycle of a running clock (R180, R187, R44). -/
def clocked (s : State) : Bool := s.clk.cyc < schedCycles s && !s.clk.gated

/-- The sequencer issues in this cycle: a scheduled cycle (R187) of a clock that is not gated (R44), in a core that is RUNNING (R115, R148), with
a bundle already issuing or neither a wait, a halt nor an empty cycle in force (R131, R132, R145). -/
def canIssue (s : State) (c : Nat) (co : Core) : Bool :=
  clocked s && rd s F.CORE_STATUS_STATE c = 3 && (co.bundle ≠ [] || !(co.seq.waiting || co.seq.halted || 0 < co.seq.idle))

/-- A slot of core c's bundle issues in the current cycle. Where the word is not accepted, it acts as NOP with EV_ILLEGAL_BUNDLE (R119);
where it names a destination of another slot, both act as NOP (R120); where it reads a register that awaits a result, it acts as NOP
with EV_HAZARD (R122); where the instruction's own rule names a fault, it acts as NOP with it (R178). Otherwise its effects are
scheduled, a result that would land with or before an older one is discarded with EV_HAZARD (R122), and k makes the change that is not
scheduled. -/
def issueThen (s : State) (c : Nat) (sl : Slot) (x : Iss) (k : State → State) : State :=
  let t := s.clk.cyc
  let co := coreOf s c
  let ds := x.writes.map (·.1)
  if ¬ canIssue s c co then s
  else if x.bad then
    bundleFault (setCore s c { co with bundle := co.bundle ++ [(sl, [])] }) c evIllegalBundle 0
  else if clashes co ds ≠ [] then
    let co := cancelSlots co t (clashes co ds)
    bundleFault (setCore s c { co with bundle := co.bundle ++ [(sl, ds)] }) c evIllegalBundle 0
  else
    let s := setCore s c { co with bundle := co.bundle ++ [(sl, ds)] }
    if x.reads.any (awaits co t) then bundleFault s c evHazard 0
    else match x.fault with
      | some (ev, row) => bundleFault s c ev row
      | none =>
        let early := (x.writes.filter fun w => realDest w.1 && landsTooEarly co t (t + w.2 - 1) w.1).map (·.1)
        let keep (e : Nat × Eff) : Bool := match effDest e.2 with | some r => !early.contains r | none => true
        let new := (x.effs.filter keep).map fun e => (⟨sl, t, co.seq.pc, t + e.1, e.2⟩ : Pend)
        let s := modCore s c fun co => { co with pend := co.pend ++ new, ops := co.ops ++ x.ops }
        let s := if early = [] then s else bundleFault s c evHazard 0
        k s

/-- An instruction with scheduled effects only. -/
def issueSlot (s : State) (c : Nat) (sl : Slot) (x : Iss) : State := issueThen s c sl x id

/-- The machine goes on where the core exists (R33). -/
def onCore (c : Nat) (s : State) (f : State → State) : Host.Outcome State Fault Refusal :=
  if c < nCores then .next (f s) else .fault (.noSuchCore c)

/-- Nothing asked. -/
def issNone : Iss := ⟨false, [], [], [], [], none⟩

/-- A slot word that is not accepted unless ok. -/
def issCheck (ok : Bool) (x : Iss) : Iss := { x with bad := x.bad || !ok }

/-! ## Port accesses of a cycle (R95–R98) -/

/-- The accesses that core c's units make in cycle t, lower ports first. -/
def engineAccesses (co : Core) (t : Nat) : List (UnitOp × Access) :=
  let all := co.ops.flatMap fun o => if o.issue ≤ t then (accessesAt o (t - o.issue)).map fun a => (o, a) else []
  (List.range 8).flatMap fun p => all.filter fun e => e.2.port = p

/-- The newest entry of the write-hold buffer that entered before cycle t and holds a row (R98). -/
def heldFor (co : Core) (t row : Nat) : Option Held := (co.held.filter fun h => h.row = row && h.cyc < t).getLast?

/-- An access occupies its bank, unless it is a read that is forwarded (R98). -/
def occupies (co : Core) (t : Nat) (a : Access) : Bool := !(a.data.isNone && (heldFor co t a.row).isSome)

/-- Bank b has an engine access in cycle t. -/
def bankBusy (co : Core) (t b : Nat) : Bool :=
  (engineAccesses co t).any fun e => bankOf e.2.row = b && occupies co t e.2

/-- A row captured by the unit that issued it. -/
def capture (co : Core) (o : UnitOp) (key : Nat) (d : RowData) : Core :=
  { co with ops := co.ops.map fun p =>
      if p.issue = o.issue ∧ p.slot = o.slot then { p with got := tset p.got key d } else p }

/-- A failed row: EV_SPAD_DETECT with the row, DETECT counted (R93). A second failure within 1 s, or the failure of a repaired row on its
first read, dooms the core (R94). pc and cyc: the bundle and its issue cycle, or those of an egress read (R145, R537). -/
def detectFail (s : State) (c pc cyc row : Nat) : State :=
  let s := bump s F.CORE_SPAD_CNT_DETECT c 1
  let again (co : Core) : Bool := match co.detectAt with | some h => hallNs s ≤ h + 1000000000 | none => false
  let s := modCore s c fun co => { co with detects := co.detects ++ [row], doomed := co.doomed || again co || co.repaired.contains row,
                                           detectAt := some (hallNs s), repaired := co.repaired.filter (· ≠ row) }
  recordFault s c evSpadDetect pc cyc row false

/-- What the operands of a row that was just captured count: reserved codes (R58) and non-finite operands, which under NAN_TRAP fault with the
cycle of the read (R61, R537). -/
def noteOperands (s : State) (c : Nat) (o : UnitOp) (key : Nat) (d : RowData) : State :=
  let s := countNum s c .resCode (rowReserved { o with got := tset o.got key d } key)
  let n := rowNonFinite o key d
  if n = 0 then s
  else if rdB s F.CORE_NUM_CTL_NAN_TRAP c then recordFault s c evNanOperand o.pc s.clk.cyc 0 false
  else countNum s c .nanOp n

/-- One engine access served (R93, R97, R98, R101). conflict: a lower-numbered port has the bank. -/
def serveAccess (s : State) (c : Nat) (o : UnitOp) (a : Access) (conflict : Bool) : State :=
  let co := coreOf s c
  match a.data with
  | some d =>
    if conflict then s
    else setCore s c (putRow { co with held := co.held.filter fun h => h.row ≠ a.row || h.landed || s.clk.cyc ≤ h.cyc } a.row d)
  | none =>
    match heldFor co s.clk.cyc a.row with
    | some h => noteOperands (bump (setCore s c (capture co o a.key h.data)) F.CORE_SPAD_CNT_FORWARD c 1) c o a.key h.data
    | none =>
      if conflict then setCore s c (capture co o a.key 0)
      else
        let r := rowAt co a.row
        let s := if rowGood a.row r then s else detectFail s c o.pc o.issue a.row
        noteOperands (modCore s c fun co => { capture co o a.key r.data with repaired := co.repaired.filter (· ≠ a.row) }) c o a.key r.data

/-- The unit at work as the core holds it now, with the rows captured so far. -/
def opNow (co : Core) (o : UnitOp) : UnitOp := (co.ops.find? fun p => p.issue = o.issue ∧ p.slot = o.slot).getD o

/-- The accesses of a cycle served in port order; busy lists the banks already taken. A second access to a bank is a conflict: the core
records EV_BANK_CONFLICT with the engine flag and the bundle's issue cycle (R97, R145, R537). -/
def serveAll (c : Nat) : List (UnitOp × Access) → List Nat → State → State
  | [], _, s => s
  | (o, a) :: rest, busy, s =>
    let occ := occupies (coreOf s c) s.clk.cyc a
    let conflict := occ && busy.contains (bankOf a.row)
    let s := if conflict then recordFault (countConflict s c) c evBankConflict o.pc o.issue a.row true else s
    let s := serveAccess s c (opNow (coreOf s c) o) a conflict
    serveAll c rest (if occ then bankOf a.row :: busy else busy) s

/-- Held entries whose bank is free in cycle t land, the oldest of each bank; they free their places at the cycle's end (R98). -/
def landHeldList (co : Core) (t : Nat) : List Held → List Nat → Core → Core
  | [], _, acc => acc
  | h :: rest, banks, acc =>
    let free := !h.landed && h.cyc < t && !bankBusy co t (bankOf h.row) && !banks.contains (bankOf h.row)
    let acc := if free then
        { putRow acc h.row h.data with held := acc.held.map fun g => if g = h then { g with landed := true } else g }
      else acc
    landHeldList co t rest (bankOf h.row :: banks) acc

/-- The held entries of a core that can land in the current cycle do; a stretch cycle has no engine access (R182, R187). -/
def landHeld (s : State) (c : Nat) : State :=
  let co := coreOf s c
  let view := if s.clk.cyc < schedCycles s then co else { co with ops := [] }
  setCore s c (landHeldList view s.clk.cyc co.held [] co)

/-- One part of core c's cycle, unless the cycle has had it. -/
def oncePerCycle (s : State) (c : Nat) (x : CycStep) (f : State → State) : State :=
  if s.clk.gated || (coreOf s c).steps.contains x then s else modCore (f s) c fun co => { co with steps := x :: co.steps }

/-- The port accesses of the current cycle, once. -/
def doPorts (s : State) (c : Nat) : State :=
  oncePerCycle s c .ports fun s => if s.clk.cyc < schedCycles s then serveAll c (engineAccesses (coreOf s c) s.clk.cyc) [] s else s

/-! ## Tasting (R106–R108, R175–R177) -/

/-- The rate in force: tasting 1 in 2^n groups, or off (R109). -/
def tasteRate (s : State) (c : Nat) : Option Nat :=
  match rd s F.CORE_TASTE_CTL_RATE c with
  | 0 => some 10
  | 1 => some 6
  | 2 => some 2
  | _ => if rd s F.CORE_TASTE_THR_RATE_LOG2 c = 15 then none else some (rd s F.CORE_TASTE_THR_RATE_LOG2 c)

/-- ρ × 256, window, SAT limit and CORR limit in force (R109). -/
def driftProfile (s : State) (c : Nat) : Nat × Nat × Nat × Nat :=
  match rd s F.CORE_TASTE_CTL_DRIFT c with
  | 0 => (128, 4096, 16, 64)
  | 1 => (64, 1024, 4, 16)
  | 2 => (32, 256, 0, 4)
  | _ => (rd s F.CORE_TASTE_THR_CORR_RATIO c, 2 ^ max 4 (rd s F.CORE_TASTE_THR_WIN_LOG2 c),
          rd s F.CORE_TASTE_THR_SAT_LIMIT c, rd s F.CORE_TASTE_THR_CORR_LIMIT c)

/-- The group that a replay must taste again opens now: its row. -/
def forcedRow (ts : Taster) : Option Nat :=
  match ts.forced with
  | some (o, row, true) => if o = ts.opened then some row else none
  | _ => none

/-- A drain group opens in cycle t: the generator draws, and the group is tasted, skipped, exempted by TSKIP, or tasted again in a replay
(R106, R107, R177). The law of the generator is open (assumption 84); a forced taste takes the place of one in flight, which counts SKIPPED
(assumption 84). -/
def openGroup (s : State) (c : Nat) : State :=
  let co := coreOf s c
  let old := co.taster
  let chosen : Bool := match tasteRate s c with
    | some n => Config.tasteChosen old.gen n
    | none => false
  let ts := { old with gen := Config.tasteNext old.gen, opened := old.opened + 1, skip := false }
  let fresh (row : Nat) : Taste := ⟨row, old.opened, s.clk.cyc, false, List.replicate 16 ⟨0, 0⟩, false⟩
  let put (ts : Taster) : State := setCore s c { co with taster := ts }
  match forcedRow old with
  | some row => bump (put { ts with flight := some (fresh row), forced := none }) F.CORE_TASTE_CNT_SKIPPED c (bit ts.flight.isSome)
  | none =>
    if old.skip ∨ ¬ chosen then put ts
    else match ts.flight with
      | some _ => bump (put ts) F.CORE_TASTE_CNT_SKIPPED c 1
      | none => put { ts with flight := some (fresh (ts.nextRow % 8)), nextRow := (ts.nextRow + 1) % 8 }

/-- The larger magnitude of two FP32 codes. -/
def maxMag (a b : Nat) : Nat := max (a % 2 ^ 31) (b % 2 ^ 31)

/-- The row's correction is large against its main term (R108), evaluated in FP32. -/
def corrLarge (co : Core) (row ratio tcode : Nat) : Bool :=
  let yc := ((List.range 16).map fun n => (rdCa co.regs (16 * row + n)).toNat).foldl maxMag 0
  let main := ((List.range 16).map fun n =>
      (laneRound (dyMul ((rdAcc co.regs (16 * row + n)).la.toInt, -40) (valOf fp32 tcode).dyadic) false).1).foldl maxMag 0
  let rho := roundF fp32 false ratio 256
  ratio ≠ 0 && fLt fp32 false (fMul fp32 rho main) yc

/-- The taste's two counts enter the window; the window ends by a limit with one EV_TASTE_DRIFT, or at its length (R108). -/
def driftStep (s : State) (c : Nat) (sat corr : Bool) : State :=
  let (_, w, satLim, corrLim) := driftProfile s c
  let ts := (coreOf s c).taster
  let sat' := ts.sat + bit sat
  let corr' := ts.corr + bit corr
  let setWin (s : State) (a b d : Nat) : State :=
    modCore s c fun co => { co with taster := { co.taster with tastes := a, sat := b, corr := d } }
  if satLim < sat' ∨ corrLim < corr' then
    let s := if satLim < sat' then bump s F.CORE_TASTE_CNT_DRIFT_SAT c 1 else s
    let s := if corrLim < corr' then bump s F.CORE_TASTE_CNT_DRIFT_CORR c 1 else s
    raiseEv (setWin s 0 0 0) .report evTasteDrift (rd s F.CORE_STATUS_TENANT c) (rd s F.CORE_STATUS_REGION c) c 0
  else if w ≤ ts.tastes + 1 then setWin s 0 0 0
  else setWin s (ts.tastes + 1) sat' corr'

/-- A tasting point for the rows of the mask: the exactness check and the drift check of a taste in flight on one of them (R107, R108,
R175, R176). -/
def tastePoint (s : State) (c pc rows : Nat) (tensor : Option Nat) (satRows : Nat) : State :=
  let co := coreOf s c
  match co.taster.flight with
  | none => s
  | some f =>
    if ¬ rows.testBit f.row then s
    else
      let s := modCore s c fun co => { co with taster := { co.taster with flight := none } }
      if ¬ f.ran then bump s F.CORE_TASTE_CNT_SKIPPED c 1
      else
        let s := bump s F.CORE_TASTE_CNT_TASTES c 1
        let same := (List.range 16).all fun n => rdAcc co.regs (16 * f.row + n) = f.las.getD n ⟨0, 0⟩
        let s := if same then s
          else
            let s := bump s F.CORE_TASTE_CNT_MISMATCH c 1
            let s := modCore s c fun co => { co with taster := { co.taster with forced := match co.taster.forced with | some (o, row, false) => some (o, row, false) | _ => some (f.ordinal, f.row, false) } }
            recordFault s c evTasteMismatch pc s.clk.cyc 0 false
        let corr := match tensor with
          | some t => corrLarge co f.row (driftProfile s c).1 t
          | none => false
        driftStep s c (f.sat || satRows.testBit f.row) corr

/-- A product's landing adds to the taste in flight, if it belongs to its group: the group's own products issue with its clearing instruction or
after it (R106). -/
def tasteProduct (co : Core) (op : UnitOp) : Core :=
  match co.taster.flight with
  | none => co
  | some f =>
    if op.issue < f.opened then co else
    let las := (List.range 16).map fun n =>
      let old := f.las.getD n ⟨0, 0⟩
      if f.row ≤ prodNr op.kind then
        (⟨laAdd old.la (prodSum op f.row n).1, old.cnt + prodNb op.kind + 1⟩ : AccV) else old
    let clamped := (List.range 16).any fun n => (prodSum op f.row n).2 ≠ 0
    let sat := f.sat || (f.row ≤ prodNr op.kind && (clamped || prodSat op f.row))
    { co with taster := { co.taster with flight := some ⟨f.row, f.ordinal, f.opened, true, las, sat⟩ } }

/-! ## Landing (R121) -/

/-- The unit that an effect belongs to. -/
def opOf (co : Core) (p : Pend) : Option UnitOp := co.ops.find? fun o => o.issue = p.issue ∧ o.slot = p.slot

/-- The 128-byte word of a VLD (R164): the halves not moved keep their value. -/
def loadWord (co : Core) (op : UnitOp) (v : Nat) : NetWord :=
  let old := (rdV co.regs v).toNat
  let lo := match tget? op.got 0 with | some d => d.toNat | none => old % 2 ^ 512
  let hi := match tget? op.got 2 with | some d => d.toNat | none => old / 2 ^ 512
  BitVec.ofNat 1024 (lo + hi * 2 ^ 512)

/-- A mailbox packet leaves the core (R137, R140, R211): the word, the sender and the low bits of the tick count. -/
def mailPacket (s : State) (c dest : Nat) (x : Word) : CtlPacket :=
  ⟨8, 1, 2, 0, BitVec.ofNat 16 dest, BitVec.ofNat 16 c, BitVec.ofNat 16 (tickCount s % 256), [x.setWidth 32, (x >>> 32).setWidth 32]⟩

/-- One effect of core c lands at the end of the current cycle. The CLAMP counts of a product or of lane sums advance with the landing, which
is the model's choice of cycle: a product discarded at the end of the scheduled cycles counts none (assumption 85). -/
def landEff (s : State) (c : Nat) (p : Pend) : State :=
  let co := coreOf s c
  let onRegs (f : RegFiles → RegFiles) : State := setCore s c { co with regs := f co.regs }
  match p.eff with
  | .setS n x => onRegs fun r => wrS r n x
  | .setV n x => onRegs fun r => wrV r n x
  | .mergeV n x sel => onRegs fun r => wrV r n ((rdV r n &&& ~~~sel) ||| (x &&& sel))
  | .setM n x => onRegs fun r => wrM r n x
  | .setAcc n x => onRegs fun r => wrAcc r n x
  | .setCa n x => onRegs fun r => wrCa r n x
  | .prod n => match opOf co p with
    | some op => onRegs fun r => wrAcc r n (prodAcc op (rdAcc r n) n)
    | none => s
  | .laneSum n => match opOf co p with
    | some op =>
      let (x, cl) := laneResult op (rdCa co.regs n).toNat (n % 32)
      countNum (onRegs fun r => wrCa r n (BitVec.ofNat 32 x)) c .clamp cl
    | none => s
  | .load v => match opOf co p with
    | some op => onRegs fun r => wrV r v (loadWord co op v)
    | none => s
  | .count k n => countNum s c k n
  | .empty n => setCore s c { co with adv := { co.adv with emptyRows := co.adv.emptyRows + n } }
  | .popInbox => setCore s c { co with inbox := co.inbox.drop 1 }
  | .sendWord x => setCore s c { co with inWords := co.inWords ++ [⟨4, p.due + 1, false, rd s F.CORE_STATUS_REGION c, x⟩] }
  | .mail d x => sendCtl s (mailPacket s c d x)
  | .fault ev row => recordFault s c ev p.pc s.clk.cyc row false
  | .prodCounts => match opOf co p with
    | some op => countNum (setCore s c (tasteProduct co op)) c .clamp (prodClamps op)
    | none => s
  | .taste rows t satRows => tastePoint s c p.pc rows t satRows
  | .opening => openGroup s c
  | .took => setCore s c { co with taken := true }

/-- The order in which the effects of a cycle act: the tasting points, on the registers as they stood; the products of the group that is in
flight; the openings; then the results (R106, R175). -/
def effRank : Eff → Nat
  | .taste _ _ _ => 0
  | .prodCounts => 1
  | .opening => 2
  | _ => 3

/-- The results of core c due in the current cycle land, oldest first, after the tasting points of the cycle; finished units go. -/
def landCore (s : State) (c : Nat) : State :=
  let t := s.clk.cyc
  let co := coreOf s c
  let due := co.pend.filter fun p => p.due ≤ t
  let s := (List.range 4).foldl (fun s k => (due.filter fun p => effRank p.eff = k).foldl (fun s p => landEff s c p) s) s
  modCore s c fun co => { co with pend := co.pend.filter fun p => t < p.due, ops := co.ops.filter fun o => t < o.issue + o.lat - 1 ∨ t < o.issue + lastAccess o }

/-! ## The sequencer (R128–R132) -/

/-- The innermost loop ends at bundle a. -/
def atLoopEnd (q : Seq) (a : Nat) : Option LoopRec :=
  match q.loops with
  | l :: _ => if l.fin = a then some l else none
  | [] => none

/-- The loop's count after its last bundle issued (R129). -/
def loopStep (q : Seq) (a : Nat) : Seq × Option Nat :=
  match atLoopEnd q a, q.loops with
  | some l, _ :: rest =>
    if 1 < l.count then ({ q with loops := { l with count := l.count - 1 } :: rest }, some l.start)
    else ({ q with loops := rest }, none)
  | _, _ => (q, none)

/-- Every open loop whose body does not contain the target is popped (R130). -/
def popLoops (target : Nat) (l : List LoopRec) : List LoopRec := l.filter fun x => x.start ≤ target && target ≤ x.fin

/-- The sequencer after the bundle at its pc has issued: a branch in force goes to its target after its last delay bundle, a loop's last
bundle goes back unless a branch decides what follows (R129, R130). -/
def seqNext (q : Seq) : Seq :=
  let a := q.pc
  let (q1, back) := loopStep q a
  let q1 := { q1 with jump := none }
  if 0 < q.delay then
    match q.target with
    | some tg =>
      if q.delay = 1 then
        { q1 with delay := 0, target := none, pc := tg, loops := if q.pops then popLoops tg q1.loops else q1.loops }
      else { q1 with delay := q.delay - 1, pc := a + 1 }
    | none => { q1 with delay := q.delay - 1, pc := back.getD (a + 1) }
  else { q1 with pc := (q.jump.orElse fun _ => back).getD (a + 1) }

/-- Core c ends the current cycle: its accesses, its landings, and, where it issued a bundle, its sequencer's advance. A delivered
word that met no receive is a fault (R144); sequential issue past address 4,095 is one after which it issues nothing more in the tick
(R120). -/
def endCycle (s : State) (c : Nat) : State :=
  let s := doPorts s c
  let s := oncePerCycle s c .held fun s => landHeld s c
  let s := if clocked s then landCore s c else s
  let co := coreOf s c
  let missed := co.deliv.any (fun d => d.1 = s.clk.cyc) && !co.taken
  let s := if missed then recordFault s c evXferSlot 0 s.clk.cyc 0 false else s
  let q := co.seq
  let issued := co.bundle ≠ []
  let stop := q.waiting || q.halted
  let q' := if issued && !stop then seqNext q else if !issued then { q with idle := q.idle - 1 } else q
  let past := issued && !stop && 4096 ≤ q'.pc
  let s := if past then bundleFault s c evIllegalBundle 0 else s
  modCore s c fun co =>
    { co with seq := if past then { q' with pc := q.pc, halted := true } else q', bundle := [], taken := false, steps := [], egrBanks := [],
              held := co.held.filter fun h => !h.landed,
              deliv := co.deliv.filter fun d => s.clk.cyc < d.1 }

end Sys2Proof.Machine
end

