-- ==== Sys2Proof/Machine/Rights.lean ====
section
/-! DEFINITION. Statuses (R346), sessions in force and the rights of an agent (R280, R504–R508), and small operations of the Keep that
several families share. -/

namespace Sys2Proof.Machine

/-! ## Statuses (R346) -/

def stOk : Nat := 0x00
def stAccepted : Nat := 0x01
def stQuota : Nat := 0x10
def stNoSlot : Nat := 0x11
def stFrozen : Nat := 0x12
def stBadHandle : Nat := 0x20
def stStaleGen : Nat := 0x21
def stRetired : Nat := 0x30
def stDegraded : Nat := 0x40
def stInternal : Nat := 0x7F

/-! ## Phases of BOOT_STATUS (R497, R514, R518) -/

def phKeep : Nat := 1
def phIdentity : Nat := 2
def phManifest : Nat := 3
def phSettings : Nat := 4
def phRails : Nat := 5
def phCellar : Nat := 6
def phFields : Nat := 7
def phJournal : Nat := 8
def phPlans : Nat := 9
def phReady : Nat := 10
def phHalted : Nat := 11
def phRecovery : Nat := 12
def phKeepRestart : Nat := 13

def bootPhase (s : State) : Nat := rd s F.BOOT_STATUS_PHASE 0

/-- The Keep restarts: no stage is evaluated (R460), and forecasts repeat (R511). -/
def keepDown (s : State) : Bool := bootPhase s = phKeepRestart

/-! ## Sessions -/

/-- An open session by handle; a session ends LIFE minutes after it opened (R507). -/
def sessionOf (s : State) (h : Nat) : Option Session :=
  if h = 0 then none else s.keep.sessions.find? fun x => x.handle = h && hallNs s < x.expires

/-- The session handle an agent's register accesses carry: a host's is the one selected on its port (R508). -/
def agentSession (s : State) (a : Agent) : Nat :=
  match a with
  | .host p => rd s F.SEC_PORT_SESSION_SESSION p
  | .session h => h.toNat
  | .mc _ => 0

/-- The rights of an agent: some 0 the operator's, some t tenant t's, none without a session. Management cores run the Keep's firmware and
act with the operator's rights (assumption 40). -/
def rightsOf (s : State) (a : Agent) : Option Nat :=
  match a with
  | .mc _ => some 0
  | _ => (sessionOf s (agentSession s a)).map (·.key)

def isOperator (s : State) (a : Agent) : Bool := rightsOf s a = some 0

/-- Some operator session is open, or the agent is a management core (R22). -/
def ownsOrOperator (s : State) (a : Agent) (tenant : Nat) : Bool := rightsOf s a = some 0 || rightsOf s a = some tenant

/-- A register write that is discarded is noted in its block's WRITE_STATUS, the first since the last read (R23). -/
def noteRefused (s : State) (f : Field) (i st : Nat) : State := if rd s f i = 0 then wr s f i st else s

/-- The sag lock holds: every non-volatile write waits or is refused (R437, R438). -/
def sagLocked (s : State) : Bool := rdB s F.PWR_STATUS_NVLOCK 0

/-- A value returned to a reader. -/
def returned (s : State) (x : Word) : State := { s with keep := { s.keep with reads := x :: s.keep.reads } }

/-- SESSIONS counts the open sessions (R518). -/
def countSessions (s : State) : State := wr s F.SEC_STATUS_SESSIONS 0 s.keep.sessions.length

/-- Ports that name a session that is no longer open return to no session (R508, R517). -/
def dropPorts (s : State) : State :=
  [0, 1].foldl (fun s p =>
    if s.keep.sessions.any (fun x => x.handle = rd s F.SEC_PORT_SESSION_SESSION p) then s
    else wrAll s p [(F.SEC_PORT_SESSION_SESSION, 0), (F.SEC_PORT_SESSION_TENANT, 0)]) s

/-- Sessions that satisfy p close (R504, R507). -/
def closeSessions (s : State) (p : Session → Bool) : State :=
  dropPorts (countSessions { s with keep := { s.keep with sessions := s.keep.sessions.filter fun x => !p x } })

/-- Strings as bytes. -/
def ascii (t : String) : List Byte := t.toList.map fun c => BitVec.ofNat 8 c.toNat

/-- The Ed448 identity key, derived from the seed (R494). -/
def identityKey : List Byte := shake256 (bytesOf 32 Config.pufSeed.toNat ++ ascii "QB48-ID") 57

/-- The signature of the identity key over a message (R496). -/
def identitySign (msg : List Byte) : List Byte := edSign identityKey msg

/-- The identity public key and its fingerprint, the first 32 bytes of its SHAKE256 digest (R357, R494). -/
def identityPub : List Byte := edPublic identityKey
def fingerprint : List Byte := shake256 identityPub 32

/-- The boot count (R497, R518). -/
def bootCount (s : State) : Nat := rd s F.BOOT_COUNT_COUNT 0

/-- The tenant of a region, as its descriptor names it (R256). -/
def regionTenant (s : State) (r : Nat) : Nat := rd s F.REG_DESC0_TENANT r

/-- An event of a region with a data value. -/
def raiseRegion (s : State) (kind : EvKind) (code r unit data : Nat) : State :=
  raiseEv s kind code (regionTenant s r) r unit (BitVec.ofNat 64 data)

end Sys2Proof.Machine
end

