-- ==== Sys2Proof/Machine/Belfry.lean ====
section
/-! DEFINITION. The commands of the Belfry (R478–R489): events, coalescing, claims, completions and clock stops. -/

namespace Sys2Proof.Machine

/-- The source numbers of R488; others are never raised. -/
def sourceListed (n : Nat) : Bool :=
  (1 ≤ n && n ≤ 30) || (32 ≤ n && n ≤ 83) || (96 ≤ n && n ≤ 143) || (160 ≤ n && n ≤ 223) || (256 ≤ n && n ≤ 259) ||
    (880 ≤ n && n ≤ 895) || (960 ≤ n && n ≤ 1023)

/-- The Belfry target that an agent reads and completes for (R482). -/
def targetOf (a : Agent) : Option Nat :=
  match a with
  | .mc m => if m < 8 then some m else none
  | .host p => if p < 2 then some (8 + p) else none
  | .session _ => none

/-- The sources deliverable to target t. -/
def candidates (s : State) (t : Nat) : List Nat := (List.range 1024).filter fun n => 1 ≤ n && deliverable s n t

/-- The better of two sources: higher PRIO, then lower number (R482); the list is scanned in rising order. -/
def bestSource (s : State) (l : List Nat) : Option Nat :=
  l.foldl (fun b n => match b with
    | none => some n
    | some m => if rd s F.BELFRY_SRC_CFG_PRIO m < rd s F.BELFRY_SRC_CFG_PRIO n then some n else some m) none

/-- RUNNING of target t: the highest PRIO among the sources it has claimed and not completed (R480, R487). -/
def setRunning (s : State) (t : Nat) : State :=
  let held := s.bel.claimPrio.filter fun e => rd s F.BELFRY_SRC_STATUS_CLAIMER e.1 = t
  wr s F.BELFRY_TGT_RUNNING t (held.foldl (fun m e => max m e.2) 0)

/-- A claim by target t (R482): the value read and the state after it. -/
def claimFor (s : State) (t : Nat) : Word × State :=
  match bestSource s (candidates s t) with
  | none => (0, bump s F.BELFRY_CNT_SPURIOUS 0 1)
  | some n =>
    let prio := rd s F.BELFRY_SRC_CFG_PRIO n
    let count := rd s F.BELFRY_SRC_STATUS_PENDING n
    let s := wrAll (takePending s n) n [(F.BELFRY_SRC_STATUS_ACTIVE, 1), (F.BELFRY_SRC_STATUS_CLAIMER, t)]
    let s := { s with bel := { s.bel with claimPrio := tset s.bel.claimPrio n prio } }
    (BitVec.ofNat 64 (prio * 2 ^ 18 + count * 2 ^ 10 + n), evalAll (setRunning s t))

/-- Source n is no longer held by its claimer (R483, R486). -/
def releaseSource (s : State) (n : Nat) : State :=
  let t := rd s F.BELFRY_SRC_STATUS_CLAIMER n
  let s := wrAll s n [(F.BELFRY_SRC_STATUS_ACTIVE, 0), (F.BELFRY_SRC_STATUS_CLAIMER, 0xF)]
  setRunning { s with bel := { s.bel with claimPrio := tdel s.bel.claimPrio n } } t

/-- Every source that target t holds is completed: FLR or link down of its port (R486). -/
def completeAllOf (s : State) (t : Nat) : State :=
  let held := (s.bel.claimPrio.map (·.1)).filter fun n => rd s F.BELFRY_SRC_STATUS_CLAIMER n = t
  evalAll (held.foldl releaseSource s)

/-- The Belfry clock starts again (R485). -/
def belfryRestart (s : State) : State :=
  let ls := s.bel.latches
  let s := { s with bel := { s.bel with stopped := false, latches := [] } }
  evalAll (ls.foldl (fun s n => addPending (wr s F.BELFRY_SRC_STATUS_LATCHED n 1) n) s)

/-- A Keep restart (R485, R486): the Belfry's clock stops for its reset, and each source that a management core holds is pending and due again. -/
def belfryKeepRestart (s : State) : State :=
  let s := { s with bel := { s.bel with stopped := true } }
  let held := (s.bel.claimPrio.map (·.1)).filter fun n => rd s F.BELFRY_SRC_STATUS_CLAIMER n < 8
  held.foldl (fun s n =>
    let s := addPending (releaseSource s n) n
    { s with bel := { s.bel with forced := n :: s.bel.forced.filter (· ≠ n) } }) s

/-- The Keep's reset is over: a clock that still stands starts again (R485). -/
def belfryRunning (s : State) : State := if s.bel.stopped then belfryRestart s else s

/-- R478: one event of a source. -/
def execSourceEvent (src : Nat) (s : State) : Host.Outcome State Fault Refusal :=
  .next (if sourceListed src then raiseSource s src else s)

/-- R479: TIME has passed since the first pending event, which makes the source due; during a clock stop it is delivered only at the
restart (R485). -/
def execCoalesceTimeout (src : Nat) (s : State) : Host.Outcome State Fault Refusal :=
  .next (if 0 < rd s F.BELFRY_SRC_STATUS_PENDING src ∧ 0 < (coalLimits s src).2 then
      let s := { s with bel := { s.bel with forced := src :: s.bel.forced.filter (· ≠ src) } }
      if s.bel.stopped then s else evalSource s src
    else s)

/-- R482: a read of BELFRY_CLAIM. -/
def execBelfryClaim (a : Agent) (s : State) : Host.Outcome State Fault Refusal :=
  .next (match targetOf a with
    | some t => let (w, s') := claimFor s t; returned s' w
    | none => returned (bump s F.BELFRY_CNT_SPURIOUS 0 1) 0)

/-- R483: a write of a source number to BELFRY_COMPLETE. -/
def execBelfryComplete (a : Agent) (src : Nat) (s : State) : Host.Outcome State Fault Refusal :=
  .next (if src < 1024 ∧ rdB s F.BELFRY_SRC_STATUS_ACTIVE src ∧ targetOf a = some (rd s F.BELFRY_SRC_STATUS_CLAIMER src) then
      evalAll (releaseSource s src)
    else bump s F.BELFRY_CNT_BAD_COMPLETE 0 1)

/-- FORCE is an expert control for a host, free for a management core (R489). -/
def mayForce (s : State) (a : Agent) : Bool :=
  match a with
  | .mc _ => true
  | _ => isOperator s a && rdB s F.BELFRY_CTL_EXPERT_EN 0

/-- R488: FORCE raises one event of the source. -/
def execBelfryForce (a : Agent) (src : Nat) (s : State) : Host.Outcome State Fault Refusal :=
  .next (if mayForce s a ∧ sourceListed src then raiseSource s src else s)

/-- R485: the Belfry clock starts again. -/
def execBelfryClockRestart (s : State) : Host.Outcome State Fault Refusal := .next (belfryRestart s)

/-- R485: every running management core waits in WFI; with DEEP_IDLE set the Belfry clock stops. -/
def execBelfryClockStop (s : State) : Host.Outcome State Fault Refusal :=
  .next (if rdB s F.KEEP_CTL_DEEP_IDLE 0 then { s with bel := { s.bel with stopped := true } } else s)

/-- R488: the management port's link goes up or down. -/
def execMgmtLinkChange (up : Bool) (s : State) : Host.Outcome State Fault Refusal :=
  .next (raiseSource { s with keep := { s.keep with mgmtUp := up } } 28)

/-- R466: a kick by core m returns its watchdog to stage 0; a kick from any other source is ignored. -/
def execKick (a : Agent) (m : Nat) (s : State) : Host.Outcome State Fault Refusal :=
  .next (if a = .mc m ∧ m < 8 then wr s F.KEEP_WDT_STAGE m 0 else s)

end Sys2Proof.Machine
end

