-- ==== Sys2Proof/Machine/Transport.lean ====
section
/-! DEFINITION. Gorla transport (R386–R404): node IDs, routes and paths, sending a message, acknowledgement, loss and retransmission. The smoothed
round trip of R400 is a measured time and is left out: an RTO starts from RTO_MIN (assumption 50). -/

namespace Sys2Proof.Machine

def modFab (s : State) (f : FabricSt → FabricSt) : State := { s with fab := f s.fab }

/-! ## Node IDs (R393, R394) -/

/-- The provisional node ID after some draws. -/
def provisionalNode (draws : Nat) : Nat := 0xF000 + ((fingerprint.getD 0 0).toNat + 256 * (fingerprint.getD 1 0).toNat + draws) % 0x0FFF

def ownNode (s : State) : Nat :=
  let n := rd s F.NET_FAB_CTL_NODE 0
  if n = 0 then provisionalNode s.fab.provisional else n

/-- The engine may send other than HELLO: its node ID is configured and not in conflict. -/
def mayOriginate (s : State) : Bool := rd s F.NET_FAB_CTL_NODE 0 ≠ 0 && !rdB s F.NET_FAB_STATUS_ID_CONFLICT 0

/-! ## Ports (R384) -/

def pmOff : Nat := 0
def pmPod : Nat := 1
def pmSwitched : Nat := 2
def pmTwin : Nat := 3

def portMode (s : State) (p : Nat) : Nat := rd s F.NET_PORT_MODE p
def portUp (s : State) (p : Nat) : Bool := p < 64 && rdB s F.NET_PORT_UP p && portMode s p ≠ pmOff
def portPeer (s : State) (p : Nat) : Nat := rd s F.NET_PORT_PEER_NODE p

/-- The port carries traffic (R385). -/
def portCarries (s : State) (p : Nat) : Bool := portUp s p && s.fab.carry.contains p

/-- A frame leaves on a path: a SWITCHED path has the UDP source port 0xC000 + 64 e + local port (R398). -/
def sendFrame (s : State) (p : GPath) (h : GHdr) (payload : List Byte) : State :=
  let udp := if portMode s p.port = pmSwitched then some (0xC000 + 64 * p.entropy + p.port) else none
  modFab s fun f => { f with sent := ⟨p.port, 64, udp, h, payload⟩ :: f.sent }

/-- Payload bytes of a full segment (R388). -/
def segSize (s : State) : Nat := if rdB s F.NET_FAB_CTL_JUMBO 0 then 8192 else 1024

def ports : List Nat := List.range 64

/-! ## HELLO (R392) -/

/-- Nodes directly attached on POD ports. -/
def podPeers (s : State) : List Nat := ((ports.filter fun p => portUp s p && portMode s p = pmPod && portPeer s p ≠ 0).map (portPeer s)).eraseDups

/-- The HELLO payload on a port: an engine, its flags, its ports, its identity and up to 64 neighbours. -/
def helloPayload (s : State) (p : Nat) : List Byte :=
  let flags := bit (rd s F.NET_FAB_CTL_NODE 0 = 0) + 2 * bit (rdB s F.NET_FAB_CTL_FWD_EN 0)
  let up := ports.foldl (fun n q => if portUp s q ∧ portMode s q ≠ pmTwin then n + 2 ^ q else n) 0
  let near := (podPeers s).take 64
  bytesOf 1 1 ++ bytesOf 1 p ++ bytesOf 2 flags ++ bytesOf 8 up ++ fingerprint ++ bytesOf 4 (bootCount s) ++
    (near ++ List.replicate (64 - near.length) 0).flatMap (bytesOf 2)

/-- A HELLO leaves on a port: to all nodes, or to one. -/
def sendHello (s : State) (p : Nat) (node : Option Nat) : State :=
  modFab s fun f => { f with hellos := ⟨p, node, helloPayload s p⟩ :: f.hellos }

/-! ## Routes and paths (R398, R402, R405) -/

/-- The peer of the pair. -/
def twinNode (s : State) : Nat := rd s F.TWIN_PEER_PEER_NODE 0

/-- The ports by which a destination is reached, with the remote port: twin ports to the twin, direct pod links, pod links through one intermediate, or
switched ports. -/
def routesTo (s : State) (dst : Nat) : List (Nat × Nat) :=
  let up := ports.filter (portCarries s)
  let own (m : Nat) : List Nat := up.filter fun p => portMode s p = m
  if dst = twinNode s ∧ dst ≠ 0 ∧ own pmTwin ≠ [] then (own pmTwin).map fun p => (p, rd s F.NET_PORT_PEER_PORT p)
  else
    let direct := (own pmPod).filter fun p => portPeer s p = dst
    let via := (own pmPod).filter fun p => match tget? s.fab.nodes (portPeer s p) with
      | some n => n.hello.forwards && n.hello.neighbours.any fun x => x.toNat = dst
      | none => false
    if direct ≠ [] then direct.map fun p => (p, rd s F.NET_PORT_PEER_PORT p)
    else if via ≠ [] then via.map fun p => (p, rd s F.NET_PORT_PEER_PORT p)
    else if rd s F.NET_FAB_GW_GATEWAY 0 = 0 then []
    else
      let remotes := match tget? s.fab.nodes dst with
        | some n => ports.filter fun q => n.hello.portsUp.getLsbD q
        | none => []
      (own pmSwitched).flatMap fun p => (if remotes = [] then [0] else remotes).map fun q => (p, q)

/-- Paths per destination: 0 acts as 1. -/
def pathLimit (s : State) : Nat := min 256 (max 1 (rd s F.NET_FAB_THR_PATHS 0))

/-- The window that a path opens with. -/
def winInit (s : State) : Nat := max 1 (min (rd s F.NET_FAB_THR_WIN_INIT 0) (rd s F.NET_FAB_THR_WIN_MAX 0))

/-- RTO_MIN in ns: 0 acts as 1 µs. -/
def rtoMin (s : State) : Nat := 1000 * max 1 (rd s F.NET_FAB_THR_RTO_MIN 0)

/-- The paths of a destination, by key 256 * node + index. -/
def pathsTo (s : State) (dst : Nat) : Table GPath := s.fab.paths.filter fun e => e.1 / 256 = dst

/-- Path i over the routes of a destination: routes in turn, entropy rising on switched ports. -/
def pathAt (s : State) (dst : Nat) (routes : List (Nat × Nat)) (i : Nat) : Option GPath :=
  match routes[i % max 1 routes.length]? with
  | some (p, q) =>
    let e := i / max 1 routes.length
    if e ≠ 0 ∧ portMode s p ≠ pmSwitched then none else some ⟨dst, p, q, e % 256, 0, winInit s, [], 0, rtoMin s, false, 0, false⟩
  | none => none

/-- The gateway of a SWITCHED port is resolved: its MAC is known (R387). With GATEWAY = 0 the port sends nothing but HELLO. -/
def resolved (s : State) (p : Nat) : Bool := portMode s p ≠ pmSwitched || (rd s F.NET_FAB_GW_GATEWAY 0 ≠ 0 && (tget? s.fab.macs p).isSome)

/-- An address of this engine's prefix (R387). -/
def hallAddress (s : State) (iid : Nat) : BitVec 128 := BitVec.ofNat 128 (rd s F.NET_FAB_PREFIX_PREFIX 0 * 2 ^ 64 + iid)

/-- The gateway is solicited on ports that have not resolved it (R387). -/
def solicit (s : State) (ps : List Nat) : State :=
  let ask := ps.filter fun p => !resolved s p
  modFab s fun f => { f with icmp := (ask.map fun p => ⟨p, 2, hallAddress s (rd s F.NET_FAB_GW_GATEWAY 0)⟩) ++ f.icmp }

/-- At the first use of a destination by SWITCHED ports, the gateway is solicited (R387), and a unicast HELLO goes to the destination (R392). -/
def firstUse (s : State) (dst : Nat) (ps : List Nat) : State :=
  (ps.take 1).foldl (fun s p => sendHello s p (some dst)) (solicit s ps)

/-- The gateway or its prefix changes (R387): what was resolved is not the gateway's, and the ports in use solicit the new one. -/
def gatewayChange (s : State) : State :=
  let own (p : Nat) : Bool := portMode s p = pmSwitched
  let used := ((s.fab.paths.map (·.2.port)).filter own).eraseDups
  let s := modFab s fun f => { f with macs := f.macs.filter fun e => !own e.1 }
  if rd s F.NET_FAB_GW_GATEWAY 0 = 0 then s else solicit s used

/-- Paths to a destination are opened at its use, at most PATHS of them and 16,384 in the engine. -/
def openPaths (s : State) (dst : Nat) : State :=
  let routes := routesTo s dst
  let switched := ((routes.map (·.1)).filter fun p => portMode s p = pmSwitched).eraseDups
  let s := if pathsTo s dst = [] ∧ switched ≠ [] then firstUse s dst switched else s
  let free := (List.range (pathLimit s)).filter fun i => (tget? s.fab.paths (dst * 256 + i)).isNone
  free.foldl (fun s i => match pathAt s dst routes i with
    | some p => if s.fab.paths.length < 16384 then modFab s fun f => { f with paths := tset f.paths (dst * 256 + i) p } else s
    | none => s) s

/-! ## Sending (R389, R390, R398) -/

/-- The destination of a message key. -/
def msgDst (key : Nat) : Nat := key / 2 ^ 32 % 65536

def msgOf (s : State) (key : Nat) : Option GMsg := s.fab.msgs.find? fun m => m.key = key
def setMsg (s : State) (m : GMsg) : State := modFab s fun f => { f with msgs := f.msgs.map fun x => if x.key = m.key then m else x }

/-- PFC pauses a traffic class on a port (R383). -/
def pausedAt (s : State) (port tc : Nat) : Bool := s.clk.hall < tget s.fab.paused (4 * port + tc) 0

/-- The next path in rotation with window room, on a port that may send the class; the path that lost the segment only where there is no other
(R400). -/
def nextPath (s : State) (dst tc : Nat) (lostOn : Option Nat) : Option (Nat × GPath) :=
  let all := (pathsTo s dst).filter fun e =>
    !e.2.closed && e.2.flight.length < e.2.win && resolved s e.2.port && !pausedAt s e.2.port tc
  let others := all.filter fun e => some e.1 ≠ lostOn
  let ps := if others = [] then all else others
  let r := tget s.fab.rot dst 0
  (ps.find? fun e => r < e.1 + 1).orElse fun _ => ps.head?

/-- The header of a segment of a message on a path. -/
def segHdr (s : State) (m : GMsg) (seg : Nat) (path : Nat) (p : GPath) (retx : Bool) (len : Nat) : GHdr where
  ver := 1
  op := BitVec.ofNat 4 m.op
  last := seg + 1 = m.segs
  auth := portMode s p.port = pmTwin
  ece := false
  retx := retx
  fwd := false
  tc := BitVec.ofNat 2 m.tc
  path := BitVec.ofNat 8 path
  dst := BitVec.ofNat 16 p.dst
  src := BitVec.ofNat 16 (ownNode s)
  psn := BitVec.ofNat 32 p.psn
  msg := BitVec.ofNat 32 m.key
  seg := BitVec.ofNat 16 seg
  len := BitVec.ofNat 16 len
  offset := BitVec.ofNat 48 (if m.op = 2 ∨ m.op = 4 then m.offset + seg * m.size else m.offset)
  tenant := BitVec.ofNat 8 m.tenant
  mlen := BitVec.ofNat 32 m.mlen

/-- One segment leaves on the next path, or waits for window room. -/
def sendSeg (retx : Bool) (s : State) (key seg : Nat) : State :=
  match msgOf s key with
  | none => s
  | some m =>
    match nextPath s (msgDst key) m.tc (tget? m.via seg) with
    | none => setMsg s { m with waiting := m.waiting.filter (· ≠ seg) ++ [seg] }
    | some (k, p) =>
      let payload := (m.data.drop (seg * m.size)).take m.size
      let s := sendFrame s p (segHdr s m seg (k % 256) p retx payload.length) payload
      let s := modFab s fun f => { f with
        paths := tset f.paths k { p with psn := p.psn + 1, flight := p.flight ++ [⟨key, seg, p.psn⟩] }
        rot := tset f.rot (msgDst key) (k + 1) }
      setMsg s { m with waiting := m.waiting.filter (· ≠ seg), via := tset m.via seg k }

/-- The waiting segments of a message are sent as windows allow. -/
def pumpMsg (s : State) (key : Nat) : State :=
  match msgOf s key with
  | some m => if m.held ∨ m.busy then s else m.waiting.foldl (fun s seg => sendSeg (tget m.retx seg 0 ≠ 0) s key seg) s
  | none => s

/-- Every message to a destination goes on. -/
def pumpTo (s : State) (dst : Nat) : State :=
  (s.fab.msgs.filter fun m => msgDst m.key = dst).foldl (fun s m => pumpMsg s m.key) s

/-- Two ranges overlap. -/
def overlaps (a n b k : Nat) : Bool := a < b + k && b < a + n

/-- A READ_REQ that overlaps a WRITE in flight to the same node waits for it (R390). -/
def readWaits (s : State) (dst offset mlen : Nat) : Bool :=
  s.fab.msgs.any fun m => m.op = 2 && msgDst m.key = dst && overlaps m.offset m.mlen offset mlen

/-- A message with a key is sent: its segments go to the paths. The flag says whether there was a route. -/
def sendKeyed (s : State) (key op tc tenant offset : Nat) (data : List Byte) (mlen : Nat) (user : GUser) : Bool × State :=
  let dst := msgDst key
  if mayOriginate s = false then (false, s)
  else
    let s := openPaths s dst
    if pathsTo s dst = [] then (false, bump s F.NET_FAB_STATUS_UNREACH 0 1)
    else
      let segs := max 1 ((data.length + segSize s - 1) / segSize s)
      let m : GMsg := ⟨key, op, tc, tenant, offset, data, mlen, segSize s, segs, List.range segs, [], [], op = 3 && readWaits s dst offset mlen, false, user⟩
      (true, pumpMsg (modFab s fun f => { f with msgs := f.msgs ++ [m] }) key)

/-- A message is sent: its number is the destination's next. -/
def sendMessage (s : State) (dst op tc tenant offset : Nat) (data : List Byte) (mlen : Nat) (user : GUser) : Bool × State :=
  let n := tget s.fab.nextMsg dst 0
  let (ok, s) := sendKeyed s (dst * 2 ^ 32 + n % 2 ^ 32) op tc tenant offset data mlen user
  (ok, if ok then modFab s fun f => { f with nextMsg := tset f.nextMsg dst (n + 1) } else s)

/-! ## Completion and loss (R400, R401) -/

/-- A message leaves the table; reads that waited for it go on. -/
def dropMsg (s : State) (key : Nat) : State :=
  let dst := msgDst key
  let s := modFab s fun f => { f with
    msgs := f.msgs.filter fun m => m.key ≠ key
    paths := f.paths.map fun e => (e.1, { e.2 with flight := e.2.flight.filter fun x => x.msg ≠ key }) }
  let free (m : GMsg) : GMsg := if m.held ∧ msgDst m.key = dst then { m with held := readWaits s dst m.offset m.mlen } else m
  let s := modFab s fun f => { f with msgs := f.msgs.map free }
  pumpTo s dst

/-- The window of a path halves, to at least 1, on an ECE echo or a loss, at most once in a round trip (R398). -/
def halved (p : GPath) : GPath := if p.cut then p else { p with win := max 1 (p.win / 2), cut := true }

def halve (s : State) (k : Nat) : State :=
  match tget? s.fab.paths k with
  | some p => modFab s fun f => { f with paths := tset f.paths k (halved p) }
  | none => s

/-- A round trip ends: without a mark the window grows by one, up to WIN_MAX (R398). -/
def roundTrip (s : State) (p : GPath) : GPath :=
  { p with win := if p.cut then p.win else min (max 1 (rd s F.NET_FAB_THR_WIN_MAX 0)) (p.win + 1), turn := p.psn, cut := false }

/-- A path's cumulative acknowledgement: its segments leave the flight. -/
def ackPath (s : State) (dst index psn : Nat) (ece : Bool) : State :=
  let k := dst * 256 + index
  match tget? s.fab.paths k with
  | none => s
  | some p =>
    let p := { p with flight := p.flight.filter fun x => psn < x.psn, expiries := 0, rto := rtoMin s }
    let p := if ece then halved p else p
    modFab s fun f => { f with paths := tset f.paths k (if p.turn ≤ psn ∧ p.turn < p.psn then roundTrip s p else p) }

/-- A message may fail (R400), unless it is of class 2 or 3 to the twin and the twin is not declared lost (states FENCING to HOLDING, R366). -/
def mayFail (s : State) (m : GMsg) : Bool :=
  let st := rd s F.TWIN_STATUS_STATE 0
  !(2 ≤ m.tc && msgDst m.key = twinNode s && (st < 4 || 7 < st))

/-- A segment has been retransmitted RETX_MAX times and is lost again: the message fails (R400). -/
def exhausted (s : State) (m : GMsg) : Bool := mayFail s m && m.retx.any fun e => rd s F.NET_FAB_THR_RETX_MAX 0 < e.2

/-- Segments of a message leave every flight and are sent again with RETX; RETX counts, and each segment's own retransmissions. A message that
fails by it is sent no more. -/
def resend (s : State) (key : Nat) (segs : List Nat) : State :=
  match msgOf s key with
  | none => s
  | some m =>
    let segs := segs.filter fun i => i < m.segs
    let s := modFab s fun f => { f with paths := f.paths.map fun e =>
      (e.1, { e.2 with flight := e.2.flight.filter fun x => !(x.msg = key && segs.contains x.seg) }) }
    let m := { m with retx := segs.foldl (fun t i => tset t i (tget t i 0 + 1)) m.retx, waiting := m.waiting ++ segs.filter fun i => !m.waiting.contains i }
    if exhausted s m then setMsg s m else pumpMsg (bump (setMsg s m) F.NET_FAB_CNT_RETX 0 segs.length) key

/-- Segments in flight are sent again, grouped by message. -/
def resendFlight (s : State) (l : List GFlight) : State :=
  (l.map (·.msg)).eraseDups.foldl (fun s key => resend s key ((l.filter fun x => x.msg = key).map (·.seg))) s


/-- The paths over a port close; their segments go out on others at once (R400). -/
def closePort (s : State) (p : Nat) : State :=
  let gone := s.fab.paths.filter fun e => e.2.port = p
  let s := modFab s fun f => { f with paths := f.paths.filter fun e => e.2.port ≠ p }
  resendFlight s (gone.flatMap (·.2.flight))

/-! ## Exported windows (R395) -/

/-- Where the cask store lies among the exported windows. -/
def caskBase : Nat := 0x040000000000

/-- The byte of a master that the cask store's window holds at an offset, if any (R304, R395). -/
def caskByte (s : State) (off : Nat) : Option Byte :=
  if off < caskBase then none
  else s.store.masters.findSome? fun m =>
    let first := caskBase + (Config.twinCask m.plan m.target m.version).1
    if off < first then none else m.image[off - first]?

/-- Bytes of an exported window; what neither a WRITE nor a master has set is free (assumption 3). -/
def exportBytes (s : State) (off len : Nat) : List Byte :=
  (List.range len).map fun i => (caskByte s (off + i)).getD (tget s.fab.window (off + i) (Config.windowByte s.freeCtr (off + i)))

/-! ## The hall pool (R396) -/

/-- The extents in use. -/
def poolExtents (s : State) : List Nat :=
  (List.range 8).filter fun e => rdB s F.NET_POOL_B_EN e && !s.fab.shut.contains e

end Sys2Proof.Machine
end

