-- ==== Sys2Proof/Machine/Mailbox.lean ====
section
/-! DEFINITION. The Keep's mailbox (R470–R474) and the session and identity commands (R502, R504–R508). -/

namespace Sys2Proof.Machine

/-! ## Channels -/

def blankMailbox : Mailbox := ⟨[], 16, none, false, false, []⟩
def mboxOf (s : State) (p : Nat) : Mailbox := tget s.keep.mbox p blankMailbox
def setMbox (s : State) (p : Nat) (m : Mailbox) : State := { s with keep := { s.keep with mbox := tset s.keep.mbox p m } }

/-- The bytes of a request window. -/
def windowBytes (m : Mailbox) : List Byte := (List.range 512).flatMap fun i => bytesOf 8 (tget m.window i 0).toNat

/-- A number of n bytes at an offset of a byte list. -/
def numAt (l : List Byte) (off n : Nat) : Nat := natOfBytes ((l.drop off).take n)

/-- The request in a host port's window (R471, R472). -/
def requestOf (port reqLen : Nat) (b : List Byte) : Req :=
  { chan := port, cmd := BitVec.ofNat 16 (numAt b 0 2), len := numAt b 2 2, frameLen := reqLen, tag := BitVec.ofNat 32 (numAt b 4 4),
    session := BitVec.ofNat 32 (numAt b 8 4), body := (b.drop 16).take (numAt b 2 2), mac := [], node := 0 }

/-- The bytes of a response (R472). -/
def responseBytes (q : Req) (status : Nat) (body : List Byte) : List Byte :=
  bytesOf 2 q.cmd.toNat ++ bytesOf 2 body.length ++ bytesOf 4 q.tag.toNat ++ bytesOf 4 status ++ bytesOf 4 0 ++ body

/-- A channel is the queue of Gorla SENDs (R475); in the recovery ROM channel 4 is fabric port 0 and carries datagrams (R516). -/
def sendQueue (s : State) (chan : Nat) : Bool := chan = 4 && bootPhase s ≠ phRecovery

/-- A response leaves on the management port or the UART, or goes to the node of its request by a Gorla SEND (R470, R475). -/
def sendResponse (s : State) (q : Req) (status : Nat) (body : List Byte) : State :=
  let b := responseBytes q status body
  let s := { s with keep := { s.keep with responses := ⟨q.chan, q.node, b⟩ :: s.keep.responses } }
  if sendQueue s q.chan then (sendMessage s q.node.toNat 5 0 0 0 b b.length .answer).2 else s

/-- A response leaves on the channel that carried its request (R470–R472, R475); one to a queued SEND takes it off the queue. -/
def respond (s : State) (q : Req) (status : Nat) (body : List Byte) : State :=
  if q.chan < 2 then
    let m := mboxOf s q.chan
    raiseSource (setMbox s q.chan { m with busy := none, done := true, rsp := responseBytes q status body }) (13 + q.chan)
  else
    let s := if sendQueue s q.chan then { s with keep := { s.keep with sends := s.keep.sends.tail } } else s
    sendResponse s q status body

/-- The commands of R473, R505 and R510. -/
def knownCmd (c : Nat) : Bool :=
  [0x0000, 0x0001, 0x0010, 0x0100, 0x0101, 0x0102, 0x0103, 0x0110, 0x0111, 0x0112, 0x0113, 0x0120, 0x0121, 0x0122,
   0x0200, 0x0201, 0x0202, 0x0203, 0x0204, 0x0205, 0x0206, 0x0207].contains c

/-- A request is well-formed and names a command (R472, R473). -/
def requestGood (q : Req) : Bool := q.len + 16 = q.frameLen && knownCmd q.cmd.toNat

/-- A SEND as a mailbox request (R475): a request in a session ends its body with its tag (R507). -/
def sendRequest (e : BitVec 16 × List Byte) : Req :=
  let q := { requestOf 4 e.2.length e.2 with node := e.1 }
  if q.session = 0 then q else { q with body := q.body.take (q.body.length - 16), mac := q.body.drop (q.body.length - 16) }

/-- The request that a command row serves: a host channel's is the one in progress with that command, the fabric's the oldest SEND of the queue,
where that is one with that command. -/
def served (s : State) (q : Req) (cmd : Nat) : Option Req :=
  let held := if q.chan < 2 then (mboxOf s q.chan).busy else if sendQueue s q.chan then s.keep.sends.head?.map sendRequest
    else some { q with cmd := BitVec.ofNat 16 cmd }
  held.filter fun b => b.cmd.toNat = cmd

/-- What a command asks of its session (R473, R505). -/
inductive Need where | none | any | operator
  deriving DecidableEq, Repr

/-- A request of a session on the management port, the UART or the fabric carries a valid tag, and its TAG is above every earlier one
(R507). -/
def tagGood (x : Session) (q : Req) : Bool :=
  let hdr := bytesOf 2 q.cmd.toNat ++ bytesOf 2 q.len ++ bytesOf 4 q.tag.toNat ++ bytesOf 4 q.session.toNat ++ bytesOf 4 0
  q.mac = kmac256 x.skey (hdr ++ q.body) ("QB48-MSG".toList.map fun c => BitVec.ofNat 8 c.toNat) 16 &&
    (match x.lastTag with | some t => t < q.tag.toNat | none => true)

/-- The tag a request used is noted in its session. -/
def noteTag (s : State) (h tag : Nat) : State :=
  { s with keep := { s.keep with sessions := s.keep.sessions.map fun x => if x.handle = h then { x with lastTag := some tag } else x } }

/-- The checks every mailbox command passes (R472, R473, R505, R507): its length, its session and its tag. k serves it with the session, if
any. -/
def serve (s : State) (q : Req) (cmd : Nat) (need : Need) (k : State → Req → Option Session → State) : State :=
  match served s q cmd with
  | none => s
  | some q =>
    if q.len + 16 ≠ q.frameLen then respond s q stInternal []
    else match sessionOf s q.session.toNat with
      | none => if need = .none then k s q none else respond s q stBadHandle []
      | some x =>
        if 2 ≤ q.chan ∧ tagGood x q = false then respond s q stBadHandle []
        else
          let s := if 2 ≤ q.chan then noteTag s x.handle q.tag.toNat else s
          if need = .operator ∧ x.key ≠ 0 then respond s q stBadHandle [] else k s q (some x)

/-- R471: GO submits the request of a host port. One that is malformed or names no command is answered at once with INTERNAL (R472,
R473). -/
def mboxGo (s : State) (port : Nat) : State :=
  if 2 ≤ port ∨ (port = 1 ∧ s.bifurcated = false) then s
  else
    let m := mboxOf s port
    match m.busy with
    | some _ => bump s F.KEEP_CNT_MBOX_BUSY 0 1
    | none =>
      let q := requestOf port m.reqLen (windowBytes m)
      let s := raiseSource (setMbox s port { m with busy := some q, done := false, rsp := [] }) (9 + port)
      if requestGood q then s else respond s q stInternal []

def execMboxGo (port : Nat) (s : State) : Host.Outcome State Fault Refusal := .next (mboxGo s port)

/-! ## Commands without effect on the engine -/

/-- R473: the response of PING is empty. -/
def execPing (q : Req) (s : State) : Host.Outcome State Fault Refusal :=
  .next (serve s q 0x0000 .none fun s q _ => respond s q stOk [])

/-- R473: KEEP_ID, KEEP_STATUS and hall time. -/
def execInfo (q : Req) (s : State) : Host.Outcome State Fault Refusal :=
  .next (serve s q 0x0001 .none fun s q _ =>
    respond s q stOk (bytesOf 8 (regWord s F.KEEP_ID_DEVICE 0).toNat ++ bytesOf 8 (regWord s F.KEEP_STATUS_OK 0).toNat ++ bytesOf 8 (hallNs s)))

/-- The 32 bytes of an event record (R476). -/
def recordBytes (r : EvRec) : List Byte :=
  bytesOf 8 r.hall ++ bytesOf 8 r.seq ++ bytesOf 2 r.code ++ bytesOf 1 r.kind ++ bytesOf 1 r.tenant ++ bytesOf 2 r.region ++ bytesOf 2 r.unit ++
    bytesOf 8 r.data.toNat

/-- R474: records from FIRST on, at most MAX, that the session may see. -/
def execEventRead (q : Req) (s : State) : Host.Outcome State Fault Refusal :=
  .next (serve s q 0x0010 .any fun s q x =>
    let first := numAt q.body 0 8
    let most := numAt q.body 8 2
    if most = 0 ∨ 127 < most then respond s q stInternal []
    else
      let mine (r : EvRec) : Bool := match x with | some y => y.key = 0 || r.tenant = y.key | none => false
      let all := (s.events.reverse.filter fun r => first ≤ r.seq && mine r)
      let out := all.take most
      let newest := rd s F.KEEP_EV_SEQ_SEQ 0 + 1
      let next := if most < all.length then (match out.getLast? with | some r => r.seq + 1 | none => newest) else max first newest
      respond s q stOk (out.flatMap recordBytes ++ bytesOf 8 next))

/-! ## Sessions (R506–R508) -/

/-- The CONTEXT of a challenge (R506). -/
def challengeContext (s : State) (key chan : Nat) : List Byte :=
  bytesOf 1 key ++ bytesOf 1 chan ++ bytesOf 2 0 ++ bytesOf 4 (bootCount s) ++ fingerprint

/-- The channel may not open sessions: the UART while UART_SESSION_EN is 0 (R518). -/
def uartShut (s : State) (chan : Nat) : Bool := chan = 3 && !rdB s F.SEC_CTL_UART_SESSION_EN 0

/-- R506: a NONCE is drawn and a challenge noted. -/
def execSessionChallenge (q : Req) (s : State) : Host.Outcome State Fault Refusal :=
  .next (serve s q 0x0100 .none fun s q _ =>
    if uartShut s q.chan then respond s q stBadHandle []
    else if hallNs s < tget s.keep.refused q.chan 0 then respond s q stFrozen []
    else
      let key := numAt q.body 0 1
      let (n, s) := draw s (2 ^ 256)
      let id := s.keep.serials + 1
      let c : Challenge := ⟨id % 2 ^ 32, key, q.chan, bytesOf 32 n, challengeContext s key q.chan, hallNs s⟩
      let s := { s with keep := { s.keep with serials := id, challenges := c :: s.keep.challenges } }
      respond s q stOk (c.nonce ++ bytesOf 4 c.id ++ c.context))

/-- A failed open (R506): EV_SESSION_FAIL, OPEN_FAIL, and the channel's lockout after FAIL_LIMIT failures within 60 s. -/
def openFailed (s : State) (chan : Nat) : State :=
  let now := hallNs s
  let s := raiseEngine (bump s F.SEC_CNT_OPEN_FAIL 0 1) .report evSessionFail 0 0
  let fails := (chan, now) :: s.keep.fails
  let recent := fails.filter fun e => e.1 = chan && now ≤ e.2 + 60000000000
  let k := { s.keep with fails := fails }
  if max 1 (rd s F.SEC_CTL_FAIL_LIMIT 0) ≤ recent.length then
    { s with keep := { k with fails := fails.filter fun e => e.1 ≠ chan, refused := tset k.refused chan (now + 60000000000) } }
  else { s with keep := k }

/-- The session governs BAR0 accesses through a port (R508). -/
def selectSession (s : State) (p : Nat) (x : Session) : State :=
  wrAll s p [(F.SEC_PORT_SESSION_SESSION, x.handle), (F.SEC_PORT_SESSION_TENANT, x.key)]

/-- A session opens (R506, R507). The low half of its handle counts sessions, the high half is free (assumption 3). -/
def openSession (s : State) (q : Req) (c : Challenge) (key : List Byte) : State :=
  let (hi, s) := draw s (2 ^ 16)
  let n := s.keep.serials + 1
  let life := min 1440 (max 1 (rd s F.SEC_CTL_LIFE 0))
  let x : Session := ⟨hi * 2 ^ 16 + n % (2 ^ 16 - 1) + 1, c.key, q.chan, kmac256 key (c.nonce ++ c.context) (ascii "QB48-SKEY") 32,
    hallNs s + life * 60000000000, none⟩
  let s := { s with keep := { s.keep with serials := n, sessions := x :: s.keep.sessions } }
  let s := countSessions (bump s F.SEC_CNT_OPENED 0 1)
  let s := if q.chan < 2 ∧ numAt q.body 36 1 % 2 = 1 then selectSession s q.chan x else s
  respond s q stOk (bytesOf 4 x.handle ++ bytesOf 8 x.expires)

/-- Key n, which is sealed under a key derived from the identity: without one it cannot be unsealed (R504, R516). -/
def unsealedKey (s : State) (n : Nat) : Option (List Byte) := if rdB s F.SEC_STATUS_IDENTITY 0 then tget? s.keep.keys n else none

/-- R506: the response to a challenge is checked and a session opens. -/
def execSessionOpen (q : Req) (s : State) : Host.Outcome State Fault Refusal :=
  .next (serve s q 0x0101 .none fun s q _ =>
    let id := numAt q.body 0 4
    let found := s.keep.challenges.find? fun c => c.id = id && c.chan = q.chan && hallNs s ≤ c.made + 10000000000
    let s := { s with keep := { s.keep with challenges := s.keep.challenges.filter fun c => c.id ≠ id } }
    match found.bind fun c => (unsealedKey s c.key).map fun k => (c, k) with
    | some (c, key) =>
      if (q.body.drop 4).take 32 = kmac256 key (c.nonce ++ c.context) (ascii "QB48-OPEN") 32 ∧ uartShut s q.chan = false then
        if 64 ≤ s.keep.sessions.length then respond s q stNoSlot [] else openSession s q c key
      else respond (openFailed s q.chan) q stBadHandle []
    | none => respond (openFailed s q.chan) q stBadHandle [])

/-- R505: the requester's session closes. -/
def execSessionClose (q : Req) (s : State) : Host.Outcome State Fault Refusal :=
  .next (serve s q 0x0102 .any fun s q x =>
    match x with
    | some x => respond (closeSessions s fun y => y.handle = x.handle) q stOk []
    | none => s)

/-- R508: the session governs BAR0 accesses through the host port that carried the request. -/
def execSessionSelect (q : Req) (s : State) : Host.Outcome State Fault Refusal :=
  .next (serve s q 0x0103 .any fun s q x =>
    match x with
    | some x => if q.chan < 2 then respond (selectSession s q.chan x) q stOk [] else respond s q stInternal []
    | none => s)

/-- R507: LIFE minutes have passed since the session opened. -/
def execSessionExpiry (h : BitVec 32) (s : State) : Host.Outcome State Fault Refusal :=
  .next (closeSessions s fun x => x.handle = h.toNat)

/-- R506: 60 s after the lockout the channel accepts challenges again. -/
def execChallengeLockoutExpiry (ch : Nat) (s : State) : Host.Outcome State Fault Refusal :=
  .next { s with keep := { s.keep with refused := tdel s.keep.refused ch } }

/-! ## Keys (R504, R290) -/

/-- Key n is set or revoked; every session opened with it closes (R504). -/
def putKey (s : State) (n : Nat) (key : Option (List Byte)) : State :=
  let s := { s with keep := { s.keep with keys := match key with | some k => tset s.keep.keys n k | none => tdel s.keep.keys n } }
  let f : Field := { F.SEC_KEYS_PRESENT with lo := n % 64, width := 1 }
  let s := wr s f (n / 64) (bit key.isSome)
  let s := if n = 0 then wr s F.SEC_STATUS_OPERATOR_KEY 0 (bit key.isSome) else s
  closeSessions s fun x => x.key = n

/-- A command that needs a flash write completes with FROZEN while the sag lock holds (R505). -/
def unlessSag (s : State) (q : Req) (f : State → State) : State := if sagLocked s then respond s q stFrozen [] else f s

/-- R504: KEY_SET carries the key masked by the session key and TAG. -/
def execKeySet (q : Req) (s : State) : Host.Outcome State Fault Refusal :=
  .next (serve s q 0x0110 .operator fun s q x =>
    unlessSag s q fun s =>
      match x with
      | some x =>
        let mask := kmac256 x.skey (ascii "QB48-WRAP" ++ bytesOf 4 q.tag.toNat) [] 32
        let key := List.zipWith (· ^^^ ·) ((q.body.drop 1).take 32) mask
        if q.body.length < 33 then respond s q stInternal []
        else putKey (respond s q stOk []) (numAt q.body 0 1) (some key)
      | none => s)

/-- R504: KEY_REVOKE, for keys 1 to 255. -/
def execKeyRevoke (q : Req) (s : State) : Host.Outcome State Fault Refusal :=
  .next (serve s q 0x0111 .operator fun s q _ =>
    unlessSag s q fun s =>
      let n := numAt q.body 0 1
      if n = 0 then respond s q stInternal [] else putKey (respond s q stOk []) n none)

/-- R504: KEY_INIT sets key 0 once, over the UART. -/
def execKeyInit (q : Req) (s : State) : Host.Outcome State Fault Refusal :=
  .next (serve s q 0x0112 .none fun s q _ =>
    if q.chan ≠ 3 ∨ (tget? s.keep.keys 0).isSome then respond s q stBadHandle []
    else unlessSag s q fun s =>
      if q.body.length < 32 then respond s q stInternal [] else putKey (respond s q stOk []) 0 (some (q.body.take 32)))

/-- R505, R290: an entry of the cask owner key table is set, or cleared by zeros. -/
def execOwnerKeySet (q : Req) (s : State) : Host.Outcome State Fault Refusal :=
  .next (serve s q 0x0113 .operator fun s q _ =>
    unlessSag s q fun s =>
      let i := numAt q.body 0 1
      let key := (q.body.drop 1).take 57
      if 32 ≤ i ∨ key.length < 57 then respond s q stInternal []
      else
        let t := if key.all (· = 0) then tdel s.keep.owners i else tset s.keep.owners i key
        respond { s with keep := { s.keep with owners := t } } q stOk [])

/-- R505: public key, fingerprint and certificate chain. -/
def execIdentity (q : Req) (s : State) : Host.Outcome State Fault Refusal :=
  .next (serve s q 0x0120 .none fun s q _ => respond s q stOk (identityPub ++ fingerprint ++ Config.certChain))

/-! ## Settings and the defect map (R498, R502) -/

/-- A register word with only its RW fields. -/
def rwPart (r : Reg) (w : Word) : Word := r.fields.foldl (fun acc f => if f.acc = .rw then putF f acc (getF f w) else acc) 0

/-- The register that holds a Keep address, with its instance. -/
def regAt (addr : Nat) : Option (Reg × Nat) :=
  (F.allRegs.find? fun r => r.base ≤ addr && (if r.stride = 0 then addr = r.base
    else (addr - r.base) % r.stride = 0 && (addr - r.base) / r.stride < r.count)).map
    fun r => (r, if r.stride = 0 then 0 else (addr - r.base) / r.stride)

/-- The settings: the RW fields of every block register that has been written (R502); CORE_ and NET_ registers belong to plans, and
queue pairs to the sessions that bind them (R320). -/
def settingsOf (s : State) : Table Word :=
  s.regs.filterMap fun e =>
    if 0x20000000 ≤ e.1 ∨ (0x10701000 ≤ e.1 ∧ e.1 < 0x10703000) then none
    else (regAt e.1).bind fun (r, _) => if r.fields.any (·.acc = .rw) then some (e.1, rwPart r e.2) else none

/-- Saved settings applied to the registers (R502). -/
def applySettings (s : State) (t : Table Word) : State :=
  t.foldl (fun s e =>
    match regAt e.1 with
    | some (r, i) => r.fields.foldl (fun s f => if f.acc = .rw then wr s f i (getF f e.2) else s) s
    | none => s) s

/-- R498: a factory map signed by Nimhoed replaces the one in flash. -/
def execDefectMapRestore (q : Req) (s : State) : Host.Outcome State Fault Refusal :=
  .next (serve s q 0x0122 .operator fun s q _ =>
    unlessSag s q fun s =>
      if Config.mapSigOk q.body then
        let b := { s.keep.boot with factory := Config.mapEntries q.body }
        respond { s with keep := { s.keep with boot := b } } q stOk []
      else respond s q stInternal [])

end Sys2Proof.Machine
end

