-- ==== Sys2Proof/Machine/Plans.lean ====
section
/-! DEFINITION. Plan images (R262–R264), cask images (R289, R290) and cask tables (R292): their byte layouts. -/

namespace Sys2Proof.Machine

/-! ## Plan images (R262) -/

/-- Bytes 0x80 to 0xBF of a plan image replaced by zeros, as its digest reads them. -/
def planUndigested (b : List Byte) : List Byte := b.take 0x80 ++ List.replicate 64 0 ++ b.drop 0xC0

def planId (b : List Byte) : Nat := numAt b 0x08 4
def planSet (b : List Byte) : Nat := numAt b 0x0C 4
def planK (b : List Byte) : Nat := numAt b 0x10 1
def planRects (b : List Byte) : Nat := numAt b 0x11 1
def planMboxCore (b : List Byte) : Nat := numAt b 0x12 2
def planCores (b : List Byte) : Nat := numAt b 0x14 4
def planFieldMask (b : List Byte) : Nat := numAt b 0x18 8
def planLength (b : List Byte) : Nat := numAt b 0x20 8
def planCoreTable (b : List Byte) : Nat := numAt b 0x30 8
def planCaskTable (b : List Byte) : Nat := numAt b 0x38 8
def planSeedOf (b : List Byte) : Word := BitVec.ofNat 64 (numAt b 0xC0 8)

/-- A byte range is zero. -/
def zerosAt (b : List Byte) (off n : Nat) : Bool := numAt b off n = 0

/-- The image is a plan image (R262). -/
def isPlan (b : List Byte) : Bool := b.take 4 = [0x51, 0x50, 0x4C, 0x4E]

/-- The footprint's rectangles (X0, W, Y0, H). -/
def planFootprint (b : List Byte) : List (Nat × Nat × Nat × Nat) :=
  (List.range (planRects b)).map fun i =>
    (numAt b (0x40 + 4 * i) 1, numAt b (0x41 + 4 * i) 1, numAt b (0x42 + 4 * i) 1, numAt b (0x43 + 4 * i) 1)

/-- The cores of a rectangle. -/
def rectCores (x0 w y0 h : Nat) : List Nat := (List.range h).flatMap fun j => (List.range w).map fun i => coreAt (x0 + i) (y0 + j)

/-- The logical cores of the footprint, in ascending order. -/
def planCoreSet (b : List Byte) : List Nat :=
  let all := (planFootprint b).flatMap fun r => rectCores r.1 r.2.1 r.2.2.1 r.2.2.2
  (List.range nCores).filter fun c => all.contains c

/-- The head of the cask table: COUNT and BANKS (R292). -/
def caskCount (b : List Byte) : Nat := numAt b (planCaskTable b) 4
def caskBanks (b : List Byte) : Nat := numAt b (planCaskTable b + 4) 1

/-- Check 1 for a plan image (R262, R302): len is CASK_OP_LEN. -/
def planFormatOk (b : List Byte) (len : Nat) : Bool :=
  numAt b 4 2 = 1 && numAt b 6 2 = 256 && planLength b = b.length && b.length = len && 12 ≤ planK b && planK b ≤ 16 &&
    1 ≤ planRects b && planRects b ≤ 16 && zerosAt b 0x2C 4 && zerosAt b 0xC8 56 && 256 ≤ b.length &&
    planCoreTable b + 32 * planCores b ≤ b.length && planCaskTable b + 16 + 16 * caskCount b ≤ b.length &&
    ((List.range 16).all fun i => i < planRects b || zerosAt b (0x40 + 4 * i) 4) && decide (Config.forecastEnd b ≤ b.length)

def planDigestOk (b : List Byte) : Bool := (b.drop 0x80).take 64 = shake256 (planUndigested b) 64

/-- The core table's entry of a core: entry bundle, offset and length in words of its load sequence (R263). -/
def planEntry (b : List Byte) (c : Nat) : Option (Nat × Nat × Nat) :=
  ((List.range (planCores b)).map fun i => planCoreTable b + 32 * i).findSome? fun o =>
    if numAt b o 2 = c then some (numAt b (o + 2) 2, numAt b (o + 8) 8, numAt b (o + 16) 4) else none

/-- A load sequence as 1,024-bit words (R264). -/
def loadWords (b : List Byte) (off n : Nat) : List NetWord :=
  (List.range n).map fun i => BitVec.ofNat 1024 (numAt b (off + 128 * i) 128)

/-- A header word read under the layout of R264. -/
def headerOf (w : NetWord) : LoadHdr :=
  { seq := (w >>> 48).setWidth 16, odd := w.getLsbD 34, n := ((w >>> 21).setWidth 13).toNat, dest := (w >>> 4).setWidth 17,
    kind := w.setWidth 4, rsvZero := (w >>> 64).setWidth 64 = (0 : Word) && (w >>> 35).setWidth 13 = (0 : BitVec 13) }

/-- A load sequence cut into headers with their raw words; a REG header's value is in its own word (R264). -/
def cutLoads : Nat → List NetWord → List (LoadHdr × NetWord × List NetWord)
  | 0, _ => []
  | _, [] => []
  | n + 1, w :: rest =>
    let h := headerOf w
    let k := if h.kind = 1 ∨ h.kind = 2 ∨ h.kind = 3 then h.n else 0
    (h, w, rest.take k) :: cutLoads n (rest.drop k)

/-- The load sequence of a core, cut into headers. -/
def coreLoads (b : List Byte) (c : Nat) : List (LoadHdr × NetWord × List NetWord) :=
  match planEntry b c with
  | some (_, off, n) => cutLoads n (loadWords b off n)
  | none => []

/-- The last word of a core's load sequence is an END header (R264). -/
def endsWithEnd (b : List Byte) (c : Nat) : Bool :=
  match (coreLoads b c).getLast? with
  | some (h, _, _) => h.kind = 5
  | none => false

/-! ## Cask tables (R292) -/

/-- An entry of a cask table. core: none for a REGION entry. -/
structure CaskEntry where
  core : Option Nat
  plan : Nat
  target : Nat
  version : Nat
  bank : Nat
  streamed : Bool
  row : Nat
  deriving DecidableEq, Repr

def caskEntries (b : List Byte) : List CaskEntry :=
  (List.range (caskCount b)).map fun i =>
    let o := planCaskTable b + 16 + 16 * i
    let l := numAt b o 2
    ⟨if l = 0xFFFF then none else some l, numAt b (o + 12) 4, numAt b (o + 2) 2, numAt b (o + 4) 2, numAt b (o + 6) 1,
      numAt b (o + 7) 1 % 2 = 1, numAt b (o + 8) 4⟩

/-! ## Cask images (R289, R290) -/

def isCask (b : List Byte) : Bool := b.take 4 = [0x51, 0x43, 0x53, 0x4B]
def caskPlan (b : List Byte) : Nat := numAt b 0x08 4
def caskTarget (b : List Byte) : Nat := numAt b 0x0C 2
def caskVersion (b : List Byte) : Nat := numAt b 0x0E 2
def caskKind (b : List Byte) : Nat := numAt b 0x10 1
def caskSigned (b : List Byte) : Bool := (numAt b 0x12 1).testBit 0
def caskShared (b : List Byte) : Bool := (numAt b 0x12 1).testBit 1
def caskOwnerKey (b : List Byte) : Nat := numAt b 0x13 1
def caskRows (b : List Byte) : Nat := numAt b 0x14 4
def caskLength (b : List Byte) : Nat := numAt b 0x18 8
def caskDigest (b : List Byte) : List Byte := (b.drop 0x20).take 64
def caskSignature (b : List Byte) : List Byte := (b.drop 0x60).take 114

/-- Check 1 for a cask image (R302). -/
def caskFormatOk (b : List Byte) (len : Nat) : Bool :=
  numAt b 4 2 = 1 && numAt b 6 2 = 256 && (caskKind b = 1 || caskKind b = 2) && caskLength b = 256 + 64 * caskRows b &&
    caskLength b = b.length && b.length = len && numAt b 0x12 1 / 8 = 0 && zerosAt b 0xD2 46

/-- DIGEST is SHAKE256 over the image with DIGEST and SIGNATURE read as zeros (R290). -/
def caskDigestOk (b : List Byte) : Bool := caskDigest b = shake256 (b.take 0x20 ++ List.replicate 178 0 ++ b.drop 0xD2) 64

/-- The payload rows of a cask image. -/
def caskPayload (b : List Byte) (i : Nat) : RowData := BitVec.ofNat 512 (numAt b (256 + 64 * i) 64)

end Sys2Proof.Machine
end

