-- ==== Sys2Proof/Machine/Journal.lean ====
section
/-! DEFINITION. The journal (R360–R364), the emission of entries (R324, R345, R348) and completions (R346). -/

namespace Sys2Proof.Machine

/-! ## Twin states (R381) -/

def twUnpaired : Nat := 0
def twOffering : Nat := 1
def twSyncing : Nat := 2
def twPaired : Nat := 3
def twFencing : Nat := 4
def twCarrying : Nat := 5
def twFenced : Nat := 6
def twHolding : Nat := 7
def twHandback : Nat := 8

def twState (s : State) : Nat := rd s F.TWIN_STATUS_STATE 0

/-- Records travel to the twin and are committed by its acknowledgement (R360). -/
def journaled (s : State) : Bool := twState s = twPaired || twState s = twSyncing || twState s = twHandback

/-! ## Streams and queue pairs -/

def blankStream : Stream where
  gen := 1
  tenant := 0
  qp := 0
  region := 0
  version := 0
  seed := 0
  epoch := 0
  state := .closed
  log := []
  embeds := []
  pages := []
  tail := []
  prevTail := []
  prev := false
  cur := 0
  built := 0
  redo := false
  appended := 0
  seat := none
  idleTick := 0
  parkedAt := 0
  withhold := none
  run := none
  sampled := []
  mirror := false
  covered := false
  mirrored := 0
  gap := none
  bulk := 0
  bulkOf := 0
  waiting := false
  wants := false
  lost := false

def slotOf (handle : Nat) : Nat := handle % 2 ^ 17
def genOf (handle : Nat) : Nat := handle / 2 ^ 17
def handleOf (slot gen : Nat) : Nat := gen * 2 ^ 17 + slot

def streamAt (s : State) (slot : Nat) : Stream := tget s.strm.slots slot blankStream
def setStream (s : State) (slot : Nat) (x : Stream) : State := { s with strm := { s.strm with slots := tset s.strm.slots slot x } }
def modStream (s : State) (slot : Nat) (f : Stream → Stream) : State := setStream s slot (f (streamAt s slot))

/-- This engine's queue pair n is queue pair n; one of its partner's (R349) takes the same number, or 64 above it where this engine has bound its own;
the commands that it serves under cover for its partner (R372) carry 128 above it, and no ring of this engine is written for them. -/
def blankQp : QPair := ⟨false, false, 0, 0, 0, 0, [], [], [], false, 0, false⟩
def qpOf (s : State) (n : Nat) : QPair := tget s.strm.qps n blankQp
def setQp (s : State) (n : Nat) (q : QPair) : State := { s with strm := { s.strm with qps := tset s.strm.qps n q } }

/-! ## Records -/

/-- A record joins the journal with the next JSN (R360, R361). -/
def addRecord (s : State) (type handle qp version : Nat) (last : Bool) (body : List Byte) : Nat × State :=
  let j := s.strm.journal
  let r : JRec := ⟨BitVec.ofNat 8 type, last, BitVec.ofNat 32 handle, j.next, hallNs s, if qp = 0xFF then qp else qp % 64, BitVec.ofNat 16 version, body, true⟩
  (j.next, { s with strm := { s.strm with journal := { j with next := j.next + 1, ring := j.ring ++ [r] } } })

/-- Bytes of a record in a ring: its header and its body in units of 32 bytes (R361). -/
def recSize (r : JRec) : Nat := 32 + 32 * ((r.body.length + 31) / 32)

/-- Bytes of a ring. -/
def ringBytes (l : List JRec) : Nat := l.foldl (fun n r => n + recSize r) 0

/-- The highest committed JSN (R360). -/
def committedJsn (s : State) : Nat := if journaled s then s.strm.journal.acked else s.strm.journal.next - 1

/-- A stream's state, epoch, seed, serving region and length as a STATE record (R361). -/
def stateBody (x : Stream) : List Byte :=
  let st := match x.state with
    | .opened => 0 | .prefill => 1 | .ready => 2 | .generating => 3 | .parked => 4 | .closed => 5
  bytesOf 4 st ++ bytesOf 4 x.epoch ++ bytesOf 8 x.seed ++ bytesOf 2 x.region ++ bytesOf 6 0 ++ bytesOf 8 x.log.length

def addStateRecord (s : State) (slot : Nat) : State :=
  let x := streamAt s slot
  (addRecord s 5 (handleOf slot x.gen) 0xFF x.version false (stateBody x)).2

/-! ## Emission (R324, R345, R348, R351) -/

/-- Entries of the emission ring. -/
def ringSize (s : State) (n : Nat) : Nat := 2 ^ rd s F.STRM_QP_CFG_EMIT_LOG2 n

/-- An entry written to the ring at EMIT_PI, with its PHASE bit; then its interrupt (R324, R351). A token entry counts (R354). -/
def ringWrite (s : State) (n : Nat) (b : List Byte) (irq : Bool) : State :=
  let q := qpOf s n
  let phase := bit ((q.emitPi / ringSize s n) % 2 = 0)
  let e := b.take 7 ++ bytesOf 1 (128 * phase) ++ b.drop 8
  let s := setQp s n { q with emitPi := q.emitPi + 1, out := e :: q.out }
  let s := if b.getD 4 0 = 1 then bump s F.STRM_CNT_TOKENS 0 1 else s
  if irq then raiseSource s (960 + n % 64) else s

def ringFree (s : State) (n : Nat) : Bool :=
  let q := qpOf s n
  q.emitPi - q.emitCi < ringSize s n

/-- HOLD of the queue pair's status, and the backpressure episode (R324). -/
def noteHold (s : State) (n : Nat) : State :=
  let q := qpOf s n
  let s := wr s F.STRM_QP_STATUS_HOLD n q.hold.length
  let over' := min 0x2000 (rd s F.STRM_SEAT_THR_HOLD_PAUSE 0) < q.hold.length
  if over' && !q.stalled then raiseEngine (setQp s n { q with stalled := true }) .report evEmitBackpressure n 0
  else if !over' && q.stalled then setQp s n { q with stalled := false } else s

/-- The engine may write the ring: its index block is read, it has room, and the Keep does not restart (R324, R350). -/
def ringOpen (s : State) (n : Nat) : Bool := (qpOf s n).indexed && ringFree s n && bootPhase s ≠ phKeepRestart

/-- An entry goes to the ring, or in order to the hold and then to the overflow (R324). -/
def emitEntry (s : State) (n : Nat) (b : List Byte) (irq : Bool) : State :=
  let q := qpOf s n
  if q.hold = [] ∧ ringOpen s n then ringWrite s n b irq
  else if q.hold.length < 8192 ∧ q.overflow = [] then noteHold (setQp s n { q with hold := q.hold ++ [(b, irq)] }) n
  else setQp s n { q with overflow := q.overflow ++ [(b, irq)] }

/-- Held entries move to the ring while it has room; fuel bounds the number moved (R324). -/
def drainHold : Nat → State → Nat → State
  | 0, s, _ => s
  | k + 1, s, n =>
    let q := qpOf s n
    match q.hold with
    | [] => s
    | (b, irq) :: rest =>
      if ringOpen s n then
        let s := setQp s n { q with hold := rest ++ q.overflow.take 1, overflow := q.overflow.drop 1 }
        drainHold k (noteHold (ringWrite s n b irq) n) n
      else s

/-- A ledger command is finished: it is no longer outstanding (R323). -/
def finishCmd (s : State) (id qp : Nat) : State :=
  let s := { s with strm := { s.strm with cmds := s.strm.cmds.filter fun c => c.id ≠ id } }
  wrAll (wr s F.STRM_STATUS_OUTSTANDING 0 (rd s F.STRM_STATUS_OUTSTANDING 0 - 1)) qp
    [(F.STRM_QP_STATUS_OUTSTANDING, rd s F.STRM_QP_STATUS_OUTSTANDING qp - 1)]

/-- Position p of a stream is withheld (R335). -/
def withheld (x : Stream) (p : Nat) : Bool :=
  match x.withhold with
  | some n => decide (n ≤ p)
  | none => false

/-- One committed entry is written (R348, R363): a token entry takes the hall time of its commit, or is dropped when its position is
withheld (R335); a completion ends its command. -/
def releaseEmit (s : State) (e : Emit) : State :=
  match e.pos with
  | some p =>
    if withheld (streamAt s (slotOf e.handle)) p then s
    else if (qpOf s e.qp).bound then
      emitEntry s e.qp (e.bytes.take 24 ++ bytesOf 8 (hallNs s)) e.irq
    else s
  | none =>
    let s := match e.cmd with | some id => finishCmd s id e.qp | none => s
    if (qpOf s e.qp).bound then emitEntry s e.qp e.bytes e.irq else s

/-- The mirror of a handle's stream is still being copied: its entries are released under the unpaired rule (R359). -/
def unsynced (s : State) (handle : Nat) : Bool := s.twin.resync.any fun e => e.1 = handle

/-- The entries that may be written, and those that wait; no entry passes one of the same queue pair (R359, R363). held: queue pairs with an entry that
waits. -/
def splitEmits (s : State) : List Emit → List Nat → List Emit × List Emit
  | [], _ => ([], [])
  | e :: es, held =>
    if held.contains e.qp = false ∧ (e.jsn ≤ committedJsn s ∨ unsynced s e.handle) then
      let (done, rest) := splitEmits s es held
      (e :: done, rest)
    else
      let (done, rest) := splitEmits s es (e.qp :: held)
      (done, e :: rest)

/-- Every waiting entry whose record is committed is written, in JSN order (R348, R363). -/
def releaseCommitted (s : State) : State :=
  let (done, rest) := splitEmits s s.strm.emits []
  let s := { s with strm := { s.strm with emits := rest } }
  let s := done.foldl releaseEmit s
  let j := s.strm.journal
  { s with strm := { s.strm with journal := { j with through := max j.through (match rest with | e :: _ => e.jsn - 1 | [] => j.next - 1) } } }

/-! ## Completions (R345, R346) -/

/-- The token index that a stream's next position would take (R325). -/
def nextIndex (x : Stream) : Nat := x.epoch * 2 ^ 32 + x.log.length

/-- The bytes of a completion entry. -/
def completionBytes (handle status detail : Nat) (tag : List Byte) (next aux : Nat) : List Byte :=
  bytesOf 4 handle ++ bytesOf 1 2 ++ bytesOf 1 status ++ bytesOf 1 detail ++ bytesOf 1 0 ++ tag.take 8 ++ bytesOf 8 next ++ bytesOf 8 aux

/-- The version in a record's header: the pin of the stream that a handle names (R361), and 0 where it names none. -/
def versionOf (s : State) (handle : Nat) : Nat :=
  let x := streamAt s (slotOf handle)
  if x.state ≠ .closed ∧ genOf handle = x.gen then x.version else 0

/-- A command completes: its completion is journaled and waits for its commit, or is discarded with its queue pair's entries (R317). -/
def complete (s : State) (c : LCmd) (handle status detail next aux : Nat) : State :=
  let s := if 0x10 ≤ status then bump s F.STRM_CNT_FAILED 0 1 else s
  if c.discard then finishCmd s c.id c.qp
  else
    let b := completionBytes handle status detail c.tag next aux
    let (jsn, s) := addRecord s 4 handle c.qp (versionOf s handle) false b
    let e : Emit := ⟨jsn, c.qp, b, c.flags.testBit 0, handle, none, some c.id⟩
    let cmds := s.strm.cmds.map fun d => if d.id = c.id then { d with phase := .done } else d
    releaseCommitted { s with strm := { s.strm with emits := s.strm.emits ++ [e], cmds := cmds } }

/-- A completion without more to say than its status. -/
def completePlain (s : State) (c : LCmd) (status detail : Nat) : State :=
  complete s c c.handle status detail (nextIndex (streamAt s (slotOf c.handle))) 0

/-- The ACCEPTED entry of FLAGS.ACK (R328, R346). -/
def sendAccepted (s : State) (c : LCmd) (next : Nat) : State :=
  if c.flags.testBit 1 then
    let b := completionBytes c.handle stAccepted 0 c.tag next 0
    let (jsn, s) := addRecord s 4 c.handle c.qp (versionOf s c.handle) false b
    releaseCommitted { s with strm := { s.strm with emits := s.strm.emits ++ [⟨jsn, c.qp, b, false, c.handle, none, none⟩] } }
  else s

/-- A HANDOFF record: direction 1 COVER, 2 HANDBACK, 3 SHED. -/
def handoff (s : State) (slot dir : Nat) : State :=
  let x := streamAt s slot
  (addRecord s 8 (handleOf slot x.gen) 0xFF x.version false (bytesOf 8 (nextIndex x) ++ bytesOf 24 dir)).2

/-- OWNED, MIRRORED and SEATED of STRM_STATUS (R354). -/
def countStreams (s : State) : State :=
  let xs := s.strm.slots.map (·.2)
  let live := xs.filter fun x => x.state ≠ .closed
  wrAll s 0 [(F.STRM_STATUS_OWNED, (live.filter fun x => !x.mirror).length), (F.STRM_STATUS_MIRRORED, (live.filter (·.mirror)).length),
    (F.STRM_STATUS_SEATED, (live.filter fun x => x.seat.isSome).length)]

/-- Slots a tenant owns (R281). -/
def slotUse (s : State) (t : Nat) : Nat :=
  (s.strm.slots.filter fun e => e.2.state ≠ .closed && !e.2.mirror && e.2.tenant = t).length

/-- Pages a tenant holds in the cellar (R251, R281). -/
def pageUse (s : State) (t : Nat) : Nat := (s.strm.pages.filter fun e => e.2.tenant = t && !e.2.hall).length

/-- The tenant's use registers and the pager's page counts (R255, R287). -/
def countPages (s : State) (t : Nat) : State :=
  wrAll (wrAll s t [(F.REG_TENANT_USE_A_SLOTS, slotUse s t), (F.REG_TENANT_USE_B_PAGES, pageUse s t)]) 0
    [(F.STRM_PAGER_STATUS_CELLAR_PAGES, (s.strm.pages.filter fun e => !e.2.hall).length),
     (F.STRM_PAGER_STATUS_HALL_PAGES, (s.strm.pages.filter fun e => e.2.hall).length)]

end Sys2Proof.Machine
end

