-- ==== Sys2Proof/Machine/Kv.lean ====
section
/-! DEFINITION. Pages, frames, tail slots and KV tables (R227, R231, R238–R246): where a stream's keys and values lie in the members' rows, the
words that the pagers deliver there, and the sealing of a block. The words that a pager delivers are applied at once, and a seal at the end of its
step: the plan's own code, which applies them tick by tick, writes the same rows (assumption 41). -/

namespace Sys2Proof.Machine

/-! ## The layout of a plan set -/

/-- The plan set in force. -/
def planSetNow (s : State) : Nat := rd s F.REG_STATUS_PLAN_SET 0

def kvNow (s : State) : Config.KvLayout := Config.kvLayout (planSetNow s)

/-- The span group of a pipeline position. -/
def groupNow (s : State) (pos : Nat) : Nat := Config.groupOf (planSetNow s) pos

/-- b, the consecutive pages of a member of a group (R227). -/
def spanPages (k : Config.KvLayout) (g : Nat) : Nat := 2 ^ (k.shift g % 5)

/-- The positions that a stream seated in a group may hold (R227). -/
def groupSpan (k : Config.KvLayout) (g : Nat) : Nat := 64 * k.members g * spanPages k g

/-- The rows of a frame (R238). -/
def frameRows (k : Config.KvLayout) : Nat := 32 * ((9 * k.heads * (64 * k.dim) + 255) / 256)

/-- B, the rows of a tail buffer (R240). -/
def bufferRows (k : Config.KvLayout) : Nat := 32 * ((k.heads * (64 * k.dim) / 2 + 31) / 32)

/-- The K rows of a tail record, which come first, and all its rows (R240). -/
def tailKRows (k : Config.KvLayout) : Nat := 9 * k.dim * k.heads
def tailRows (k : Config.KvLayout) : Nat := tailKRows k + 16 * k.dim * k.heads

/-- The place in its buffer of row i of a tail record (R240): K in bank half 0, V in bank half 1. -/
def tailPlace (k : Config.KvLayout) (i : Nat) : Nat :=
  if i < tailKRows k then streamRow 0 i else streamRow 16 (i - tailKRows k)

/-! ## Rows of pages and tails -/

/-- Bits [off + w - 1:off] of a row set to v. -/
def rowBits (r : RowData) (off w v : Nat) : RowData :=
  (r &&& ~~~(BitVec.ofNat 512 (2 ^ w - 1) <<< off)) ||| (BitVec.ofNat 512 (v % 2 ^ w) <<< off)

/-- A row with only the bytes b that keep admits; the others are zero. -/
def keepBytes (r : RowData) (keep : Nat → Bool) : RowData :=
  (List.range 64).foldl (fun a b => if keep b then a else rowBits a (8 * b) 8 0) r

def setRows (img : List RowData) (ws : List (Nat × RowData)) : List RowData := ws.foldl (fun l w => l.set w.1 w.2) img

/-- The value at position n and dimension 16 * u + lane of head h in a tail record, an E4M3 code (R240). -/
def tailValue (k : Config.KvLayout) (tail : List RowData) (h u lane n : Nat) : Val :=
  let r := tail.getD (tailKRows k + 16 * k.dim * h + 4 * u + n / 4) 0
  valOf e4m3 (r.toNat / 2 ^ (8 * (4 * lane + n % 4)) % 256)

/-- A block of 16 positions of one dimension requantised to D4F under the plan's value multiplier (R71–R73, R231): its codes and its scale. -/
def sealValues (k : Config.KvLayout) (mult : Nat) (tail : List RowData) (h u lane : Nat) : List Nat × Nat :=
  let us := (List.range 16).map fun n => (quantElem (tailValue k tail h u lane n) (valOf fp32 mult)).1
  let (codes, scale, _) := quantBlock .d4f us fun _ => none
  (codes, scale)

/-- The rows of a page that hold block t, as the seal of a tail record leaves them (R231, R238), with their places in the frame. img: the frame
before, whose value scales of the other blocks stay. -/
def blockRows (k : Config.KvLayout) (mult t : Nat) (tail img : List RowData) : List (Nat × RowData) :=
  (List.range k.heads).flatMap fun h =>
    let keys := (List.range (9 * k.dim)).map fun m => (streamRow 0 (36 * k.dim * h + 9 * k.dim * t + m), tail.getD (9 * k.dim * h + m) 0)
    let vals := (List.range (4 * k.dim)).flatMap fun u =>
      let at' := 36 * k.dim * h + 9 * u
      let qs := (List.range 16).map fun lane => sealValues k mult tail h u lane
      let scales := qs.zipIdx.foldl (fun r q => rowBits r (8 * (16 * t + q.2)) 8 q.1.2) (img.getD (streamRow 16 at') 0)
      let word (half : Nat) : RowData := ((qs.drop (8 * half)).take 8).zipIdx.foldl (fun r q =>
        rowBits r (64 * q.2) 64 (q.1.1.zipIdx.foldl (fun n c => n + c.1 * 16 ^ c.2) 0)) 0
      [(streamRow 16 at', scales), (streamRow 16 (at' + 1 + 2 * t), word 0), (streamRow 16 (at' + 2 + 2 * t), word 1)]
    keys ++ vals

/-- A block that is not sealed holds codes 0 and scales 0x00 (R239). -/
def clearBlock (k : Config.KvLayout) (t : Nat) (img : List RowData) : List RowData := setRows img (blockRows k 0 t [] img)

/-- A frame's rows with its blocks from n on not sealed. -/
def cutImage (k : Config.KvLayout) (n : Nat) (img : List RowData) : List RowData :=
  ((List.range 4).filter (n ≤ ·)).foldl (fun l t => clearBlock k t l) img

/-- The position of the open block to which byte b of row i of a tail record belongs (R240). -/
def tailPos (k : Config.KvLayout) (i b : Nat) : Nat :=
  if i < tailKRows k then
    let r := i % 9
    if r = 0 then b % 16 else if r % 2 = 1 then b / 8 else 8 + b / 8
  else 4 * ((i - tailKRows k) % 4) + b % 4

/-- A tail record with positions n and above zero (R241). -/
def cutTail (k : Config.KvLayout) (n : Nat) (tail : List RowData) : List RowData := tail.mapIdx fun i r => keepBytes r fun b => tailPos k i b < n

/-- The rows of a page's frame in a layer, as the cellar holds them. -/
def pageImage (k : Config.KvLayout) (p : Page) (layer : Nat) : List RowData :=
  match tget? p.cells layer with
  | some l => l
  | none => List.replicate (frameRows k) 0

/-- A tail record of a layer; one not listed holds zeros. -/
def tailOf (k : Config.KvLayout) (t : Table (List RowData)) (layer : Nat) : List RowData :=
  match tget? t layer with
  | some l => l
  | none => List.replicate (tailRows k) 0

/-- The rows of a tail buffer that holds a tail record (R240). -/
def bufferOf (k : Config.KvLayout) (tail : List RowData) : List RowData :=
  setRows (List.replicate (bufferRows k) 0) (tail.mapIdx fun i r => (tailPlace k i, r))

/-! ## Words of the pagers (R244) -/

/-- The header of a page move: KIND, ROW, N, IDX, SEQ and HANDLE, with the entry of an ENTRY word above it. -/
def moveWord (kind row n idx seq handle entry : Nat) : NetWord :=
  BitVec.ofNat 1024 (kind + row % 2 ^ 17 * 2 ^ 4 + n % 2 ^ 10 * 2 ^ 21 + idx % 2 ^ 8 * 2 ^ 31 + seq % 2 ^ 16 * 2 ^ 48 + handle % 2 ^ 32 * 2 ^ 64 +
    entry % 2 ^ 128 * 2 ^ 128)

/-- A header and the raw words that follow it are delivered to a core. -/
def pagerSend (s : State) (core handle kind row n idx entry : Nat) (raw : List NetWord) : State :=
  let seq := tget s.strm.seqs core 0
  let ws := moveWord kind row n idx seq handle entry :: raw
  { s with strm := { s.strm with seqs := tset s.strm.seqs core ((seq + 1) % 2 ^ 16), pagerWords := (ws.map fun w => (core, w)).reverse ++ s.strm.pagerWords } }

/-- Rows in pairs as raw words, exactly as stored. -/
def rawWords : List RowData → List NetWord
  | lo :: hi :: rest => (hi ++ lo) :: rawWords rest
  | [lo] => [(0#512 ++ lo)]
  | [] => []

def putRows (s : State) (core row : Nat) (rows : List RowData) : State :=
  modCore s core fun co => rows.zipIdx.foldl (fun co r => putRow co (row + r.2) r.1) co

/-- Rows filled from row on by DATA, at most 576 words a header, or by ZERO where all are zero. -/
def pagerFill : Nat → State → Nat → Nat → Nat → List RowData → State
  | 0, s, _, _, _, _ => s
  | fuel + 1, s, core, handle, row, rows =>
    if rows = [] then s
    else
      let part := rows.take 1152
      let n := (part.length + 1) / 2
      let s := if part.all (· = 0) then pagerSend s core handle 2 row n 0 0 [] else pagerSend s core handle 1 row n 0 0 (rawWords part)
      pagerFill fuel (putRows s core row part) core handle (row + 1152) (rows.drop 1152)

def fillRows (s : State) (core handle row : Nat) (rows : List RowData) : State := pagerFill (rows.length + 1) s core handle row rows

/-- An entry of a member's KV table (R242): four to a row from row table on. -/
def pagerEntry (s : State) (core handle table idx entry : Nat) : State :=
  let s := pagerSend s core handle 3 0 0 idx entry []
  let row := table + idx % 256 / 4
  modCore s core fun co => putRow co row (rowBits (rowAt co row).data (128 * (idx % 4)) 128 entry)

/-- Rows row to row + n - 1 leave through the egress ring. -/
def pagerExport (s : State) (core handle row n : Nat) : List RowData × State :=
  let rows := (List.range n).map fun i => (rowAt (coreOf s core) (row + i)).data
  (rows, (List.range ((n + 1151) / 1152)).foldl (fun s i =>
    pagerSend s core handle 4 (row + 1152 * i) ((min 1152 (n - 1152 * i) + 1) / 2) 0 0 []) s)

/-! ## Pages -/

def blankPage : Page := ⟨0, 0, false, 0, [], none, false⟩
def pageOf (s : State) (p : Nat) : Page := tget s.strm.pages p blankPage
def setPage (s : State) (p : Nat) (x : Page) : State := { s with strm := { s.strm with pages := tset s.strm.pages p x } }

/-- Streams that hold a page (R251). -/
def pageHolders (s : State) (p : Nat) : Nat := (s.strm.slots.filter fun e => e.2.pages.contains p).length

/-- Sealed blocks of page j of a stream with n positions formed (R231). -/
def sealedIn (n j : Nat) : Nat := min 4 (n / 16 - min (n / 16) (4 * j))

/-- The hide bits of n positions of a log from position a on (R234). -/
def hideBits (log : List Nat) (a n : Nat) : Nat :=
  ((log.drop a).take n).zipIdx.foldl (fun m w => m + bit (w.1.testBit 18) * 2 ^ w.2) 0

/-! ## Frames and their entries (R242, R243) -/

/-- The member of a group that holds page j of its streams (R227). -/
def memberOf (k : Config.KvLayout) (g j : Nat) : Nat := j / spanPages k g

/-- The entry of a frame for a stream's page j; valid: the frame holds it. -/
def frameEntry (s : State) (f : KvFrame) (slot j : Nat) (valid : Bool) : Nat :=
  if ¬ valid then 0
  else hideBits (streamAt s slot).log (64 * j) 64 * 2 ^ 64 + (pageOf s f.page).sealedBlocks * 2 ^ 19 + bit (decide (1 < f.seats.length)) * 2 ^ 18 + 2 ^ 17 +
    f.base % 2 ^ 17

/-- The entry of one position that names a frame. -/
def writeFrameEntry (s : State) (f : KvFrame) (e : Nat × Nat) (valid : Bool) : State :=
  let k := kvNow s
  let j := (streamAt s e.2).pages.idxOf f.page
  pagerEntry s (k.core f.layer f.group f.member) (handleOf e.2 (streamAt s e.2).gen) (k.table f.layer f.group f.member) (k.frameIdx f.layer e.1 j)
    (frameEntry s f e.2 j valid)

/-- Every entry that names a frame, written anew. -/
def writeFrame (s : State) (f : KvFrame) : State := f.seats.foldl (fun s e => writeFrameEntry s f e true) s

def sameFrame (f g : KvFrame) : Bool := f.layer = g.layer && f.group = g.group && f.page = g.page

/-- A frame changed in its place. -/
def setFrame (s : State) (f : KvFrame) : State :=
  { s with strm := { s.strm with frames := s.strm.frames.map fun g => if sameFrame f g then f else g } }

def findFrame (s : State) (layer g p : Nat) : Option KvFrame :=
  s.strm.frames.find? fun f => f.layer = layer && f.group = g && f.page = p

/-- A page takes a free frame of the member that holds its place j, filled from the cellar (R245, R247); none without one. -/
def takeFrame (s : State) (layer g p j handle : Nat) : Option (KvFrame × State) :=
  let k := kvNow s
  let m := memberOf k g j
  let used (b : Nat) : Bool := s.strm.frames.any fun f => f.layer = layer && f.group = g && f.member = m && f.base = b
  match (k.frames layer g m).find? fun b => !used b with
  | none => none
  | some b =>
    let f : KvFrame := ⟨layer, g, m, b, p, []⟩
    let s := fillRows s (k.core layer g m) handle b (pageImage k (pageOf s p) layer)
    some (f, { s with strm := { s.strm with frames := s.strm.frames ++ [f] } })

/-- One page of a stream is made to lie in its group (R243, R247): the group's copy serves, or a frame is filled; then the entries are written. -/
def seatPage (s : State) (slot pos layer p j : Nat) : Option State :=
  let g := groupNow s pos
  let h := handleOf slot (streamAt s slot).gen
  let got := match findFrame s layer g p with
    | some f => some (f, s)
    | none => takeFrame s layer g p j h
  got.map fun fs =>
    let f := { fs.1 with seats := fs.1.seats ++ [(pos, slot)] }
    writeFrame (setFrame fs.2 f) f

/-- All pages of a stream in all layers; none when some member has no free frame. -/
def seatPages (s : State) (slot pos : Nat) : Option State :=
  (List.range (kvNow s).layers).foldl (fun acc layer =>
    (streamAt s slot).pages.zipIdx.foldl (fun acc e => acc.bind fun s => seatPage s slot pos layer e.1 e.2) acc) (some s)

/-- A parked stream pinned WAFER holds its full pages in every span group (R255). -/
def waferPinned (s : State) (p : Nat) : Bool :=
  s.strm.slots.any fun e => e.2.state = .parked && (pageOf s p).sealedBlocks = 4 && e.2.pages.contains p &&
    (List.range 16).any fun i => rd s F.STRM_PAGE_PIN_PIN i = 2 && rd s F.STRM_PAGE_PIN_HANDLE i = handleOf e.1 e.2.gen

/-- Frames that no entry names are free, but for those of a pinned stream (R248, R255). -/
def freeFrames (s : State) : State :=
  { s with strm := { s.strm with frames := s.strm.frames.filter fun f => f.seats ≠ [] || waferPinned s f.page } }

/-- Every span group takes a copy of the full pages of the streams pinned WAFER, where it has a free frame (R255). -/
def holdPinned (s : State) : State :=
  let groups := ((List.range 1024).map (groupNow s)).eraseDups
  let pinned := s.strm.slots.flatMap fun e => e.2.pages.zipIdx.filter fun p => waferPinned s p.1
  freeFrames (pinned.foldl (fun s p => groups.foldl (fun s g => (List.range (kvNow s).layers).foldl (fun s layer =>
    if (findFrame s layer g p.1).isSome ∨ (kvNow s).members g ≤ memberOf (kvNow s) g p.2 then s
    else match takeFrame s layer g p.1 p.2 0 with
      | some fs => fs.2
      | none => s) s) s) s)

/-- The frames whose members a sweep or a loss empties hold nothing any more. -/
def dropFrames (s : State) (gone : Nat → Bool) : State :=
  let k := kvNow s
  { s with strm := { s.strm with frames := s.strm.frames.filter fun f => !gone (k.core f.layer f.group f.member) } }

/-! ## Tail slots (R240–R242) -/

/-- The core of a position's tail slot in a layer, and the base row of buffer x of it. -/
def tailCore (s : State) (pos layer : Nat) : Nat := (kvNow s).core layer (groupNow s pos) ((kvNow s).tailMember layer pos)
def tailBase (s : State) (pos layer x : Nat) : Nat := (kvNow s).tailSlot layer pos + bufferRows (kvNow s) * (x % 2)

/-- The used rows of a tail buffer. -/
def readTail (s : State) (pos layer x : Nat) : List RowData :=
  (List.range (tailRows (kvNow s))).map fun i => (rowAt (coreOf s (tailCore s pos layer)) (tailBase s pos layer x + tailPlace (kvNow s) i)).data

/-- A stream's tail entry in a layer. -/
def writeTailEntry (s : State) (slot pos layer : Nat) : State :=
  let x := streamAt s slot
  let k := kvNow s
  let g := groupNow s pos
  let m := k.tailMember layer pos
  pagerEntry s (k.core layer g m) (handleOf slot x.gen) (k.table layer g m) (k.tailIdx layer pos)
    (hideBits x.log (16 * (x.built / 16)) 16 * 2 ^ 64 + x.built % 16 * 2 ^ 19 + bit x.prev * 2 ^ 18 + x.cur % 2 * 2 ^ 17 + k.tailSlot layer pos % 2 ^ 17)

/-- The tail entries of a seated stream in every layer. -/
def writeTailEntries (s : State) (slot : Nat) : State :=
  match (streamAt s slot).seat with
  | none => s
  | some pos => (List.range (kvNow s).layers).foldl (fun s layer => writeTailEntry s slot pos layer) s

/-- A tail buffer filled in full from a tail record. -/
def fillTail (s : State) (slot pos layer x : Nat) (tail : List RowData) : State :=
  fillRows s (tailCore s pos layer) (handleOf slot (streamAt s slot).gen) (tailBase s pos layer x) (bufferOf (kvNow s) tail)

/-- The current buffer from the tail record, the previous one from its rows, then the tail entry (R247). -/
def seatTail (s : State) (slot pos : Nat) : State :=
  (List.range (kvNow s).layers).foldl (fun s layer =>
    let x := streamAt s slot
    let s := fillTail s slot pos layer x.cur (tailOf (kvNow s) x.tail layer)
    let s := fillTail s slot pos layer (x.cur + 1) (tailOf (kvNow s) x.prevTail layer)
    writeTailEntry s slot pos layer) s

/-- The exported tails of a stream (R248): the current buffer's rows, by layer, of buffer x of its slot. -/
def exportTail (s : State) (slot pos x : Nat) : Table (List RowData) × State :=
  (List.range (kvNow s).layers).foldl (fun (acc : Table (List RowData) × State) layer =>
    let s := acc.2
    let tail := readTail s pos layer x
    let (_, s) := pagerExport s (tailCore s pos layer) (handleOf slot (streamAt s slot).gen) (tailBase s pos layer x) (bufferRows (kvNow s))
    (tset acc.1 layer tail, s)) ([], s)

/-! ## Sealing (R231) -/

/-- One layer of a block seals: its member requantises the tail's values, the page's member takes the rows, and they are exported. -/
def sealLayer (s : State) (slot pos block layer : Nat) : State :=
  let k := kvNow s
  let x := streamAt s slot
  let p := x.pages.getD (block / 4) 0
  match findFrame s layer (groupNow s pos) p with
  | none => s
  | some f =>
    let c := k.core layer f.group f.member
    let img := (List.range (frameRows k)).map fun i => (rowAt (coreOf s c) (f.base + i)).data
    let ws := blockRows k (k.valueMult layer) (block % 4) (readTail s pos layer x.cur) img
    let s := modCore s c fun co => ws.foldl (fun co w => putRow co (f.base + w.1) w.2) co
    { s with strm := { s.strm with exports := s.strm.exports ++ [⟨slot, layer, block, ws⟩] } }

/-- Block `block` of a seated stream seals in every layer; the other buffer becomes current and holds the new open block, still empty. -/
def sealBlock (s : State) (slot pos block : Nat) : State :=
  let layers := List.range (kvNow s).layers
  let s := layers.foldl (fun s layer => sealLayer s slot pos block layer) s
  let p := (streamAt s slot).pages.getD (block / 4) 0
  let s := setPage s p { pageOf s p with sealedBlocks := block % 4 + 1 }
  let s := modStream s slot fun x => { x with cur := (x.cur + 1) % 2, prev := true, built := 16 * (block + 1) }
  layers.foldl (fun s layer =>
    let s := fillTail s slot pos layer (streamAt s slot).cur []
    match findFrame s layer (groupNow s pos) p with
    | some f => writeFrame s f
    | none => s) s

/-- The keys and values of a seated stream's positions below n have passed every layer: the blocks they fill seal. -/
def buildGo : Nat → State → Nat → Nat → Nat → State
  | 0, s, _, _, _ => s
  | fuel + 1, s, slot, pos, n =>
    let x := streamAt s slot
    let block := x.built / 16
    if n < 16 * (block + 1) then modStream s slot fun x => { x with built := max x.built n } else buildGo fuel (sealBlock s slot pos block) slot pos n

def buildTo (s : State) (slot n : Nat) : State :=
  match (streamAt s slot).seat with
  | none => s
  | some pos => writeTailEntries (buildGo (n / 16 + 1) s slot pos n) slot

/-! ## The cellar's copies (R246) -/

/-- The exported rows of a sealed block in the cellar copy of its page. -/
def landRows (s : State) (e : SealExport) : State :=
  let p := (streamAt s e.slot).pages.getD (e.block / 4) 0
  let x := pageOf s p
  setPage s p { x with cells := tset x.cells e.layer (setRows (pageImage (kvNow s) x e.layer) e.rows) }

/-- The frame in which a row lies. -/
def frameAt (s : State) (c a : Nat) : Option KvFrame :=
  let k := kvNow s
  s.strm.frames.find? fun f => k.core f.layer f.group f.member = c && f.base ≤ a && a < f.base + frameRows k

/-- The cellar copy of a row that lies in a frame (R93, R254). -/
def frameCopy (s : State) (c a : Nat) : Option RowData :=
  (frameAt s c a).map fun f => (pageImage (kvNow s) (pageOf s f.page) f.layer).getD (a - f.base) 0

end Sys2Proof.Machine
end

