-- ==== Sys2Proof/Machine/Tree.lean ====
section
/-! DEFINITION. The descriptor tree (R256–R261): children, plan regions, core sets, composite units and fate groups; staging of
commit-staged registers (R20). -/

namespace Sys2Proof.Machine

/-! ## States and kinds -/

def rsFree : Nat := 0
def rsDefined : Nat := 1
def rsHeld : Nat := 2
def rsBinding : Nat := 3
def rsBound : Nat := 4
def rsRunning : Nat := 5
def rsStopping : Nat := 6
def rsFaulted : Nat := 7
def rsSweeping : Nat := 8
def rsLost : Nat := 9

def descKind (s : State) (r : Nat) : Nat := rd s F.REG_DESC0_KIND r
def regionState (s : State) (r : Nat) : Nat := rd s F.REG_UNIT_STATUS_STATE r
def setRegionState (s : State) (r st : Nat) : State := wr s F.REG_UNIT_STATUS_STATE r st

def blankRegion : Region where
  cmd := none
  phase := .none
  inq := []
  outq := []
  delivered := []
  again := []
  outWait := []
  closedTick := 0
  ended := []
  seqs := []
  tries := []
  missing := []
  stopAt := false
  faults := []
  await := .none
  lastReplay := none
  runAt := false
  rp := []
  heldSince := 0
  released := false
  dead := []
  swept := []
  covered := false
  stopIn := 0
  parts := []
  result := 0
  fullSweep := true
  loadStart := 0
  replayed := false
  restart := 0
  deciding := none
  wasLost := false
  heldWin := []

def unitOf (s : State) (r : Nat) : Region := tget s.units r blankRegion
def setUnit (s : State) (r : Nat) (x : Region) : State := { s with units := tset s.units r x }
def modUnit (s : State) (r : Nat) (f : Region → Region) : State := setUnit s r (f (unitOf s r))

/-! ## The tree -/

def parentOf (s : State) (r : Nat) : Nat := rd s F.REG_DESC0_PARENT r

/-- r lies at or beneath a; fuel bounds the depth by the table's size. -/
def beneathGo (s : State) (a : Nat) : Nat → Nat → Bool
  | 0, _ => false
  | n + 1, r => r = a || (r ≠ 0 && beneathGo s a n (parentOf s r))

def beneath (s : State) (r a : Nat) : Bool := beneathGo s a 4096 r

/-- Descriptors that are not FREE, the root included: those that a register names and the root. -/
def allDescs (s : State) : List Nat :=
  0 :: (s.regs.filterMap fun e =>
    if 0x10510000 ≤ e.1 ∧ e.1 < 0x10550000 ∧ (e.1 - 0x10510000) % 0x40 = 0 ∧ e.1 ≠ 0x10510000 ∧ (e.2.toNat >>> 62) % 4 ≠ 0 then
      some ((e.1 - 0x10510000) / 0x40) else none)

/-- Descriptors at or beneath a. -/
def subtree (s : State) (a : Nat) : List Nat := (allDescs s).filter fun r => beneath s r a

/-- The rectangle of a leaf. -/
def leafRect (s : State) (r : Nat) : List Nat :=
  rectCores (rd s F.REG_DESC1_X0 r) (rd s F.REG_DESC1_W r) (rd s F.REG_DESC1_Y0 r) (rd s F.REG_DESC1_H r)

/-- The cores of every leaf at or beneath a descriptor (R258). -/
def regionCores (s : State) (r : Nat) : List Nat :=
  (subtree s r).flatMap fun d => if descKind s d = 1 then leafRect s d else []

/-- A descriptor with a plan bound to it (R258). -/
def hasPlan (s : State) (r : Nat) : Bool := rd s F.REG_PLAN_PLAN_ID r ≠ 0

/-- A plan region (R258). One that is HELD, or whose rebind is sweeping it, is still one, as the HELD row of R260 takes it: a region whose stored state
is neither FREE nor DEFINED (assumption 91). -/
def isPlanRegion (s : State) (r : Nat) : Bool := hasPlan s r || rsDefined < regionState s r

/-- Ascending order of region IDs. -/
def ascending (l : List Nat) : List Nat := l.mergeSort fun a b => a ≤ b

/-- The plan regions at or beneath a descriptor, in ascending region ID. -/
def planRegions (s : State) (a : Nat) : List Nat := ascending ((subtree s a).filter (isPlanRegion s))

/-- A composite unit: an unbound GROUP with a plan region beneath it (R258). -/
def isComposite (s : State) (r : Nat) : Bool := descKind s r = 2 && !isPlanRegion s r && (planRegions s r) ≠ []

/-- The STATE of a composite unit (R260). -/
def compositeState (s : State) (r : Nat) : Nat :=
  let st := (planRegions s r).map (regionState s)
  if st.contains rsFaulted then rsFaulted
  else if st.contains rsLost then rsLost
  else if st.contains rsBinding then rsBinding
  else if st.contains rsStopping then rsStopping
  else if st.contains rsSweeping then rsSweeping
  else if st.all (· = rsRunning) then rsRunning
  else if st.all (· = rsHeld) then rsHeld
  else rsBound

/-- The state a unit reports (R260, R267). -/
def unitState (s : State) (r : Nat) : Nat := if isComposite s r then compositeState s r else regionState s r

/-- The plan regions a unit command acts on (R259). -/
def partsOf (s : State) (r : Nat) : List Nat := if isComposite s r then planRegions s r else [r]

/-- The outermost ancestor, the descriptor itself included, with FATE = 1 (R261); fuel bounds the depth. -/
def fateRoot (s : State) : Nat → Nat → Option Nat → Option Nat
  | 0, _, best => best
  | n + 1, r, best =>
    let best := if rdB s F.REG_DESC0_FATE r then some r else best
    if r = 0 then best else fateRoot s n (parentOf s r) best

/-- The fate group of a plan region (R261). -/
def fateGroup (s : State) (r : Nat) : List Nat :=
  match fateRoot s 4096 r none with
  | some a => planRegions s a
  | none => [r]

/-- A descriptor beneath a plan region has no unit interface (R258). -/
def underPlan (s : State) (r : Nat) : Bool := (allDescs s).any fun q => q ≠ r && isPlanRegion s q && beneath s r q

/-- The leaf that holds a core (R256). -/
def leafOf (s : State) (c : Nat) : Option Nat :=
  (allDescs s).find? fun d => descKind s d = 1 && rd s F.REG_DESC1_X0 d ≤ coreX c && coreX c < rd s F.REG_DESC1_X0 d + rd s F.REG_DESC1_W d &&
    rd s F.REG_DESC1_Y0 d ≤ coreY c && coreY c < rd s F.REG_DESC1_Y0 d + rd s F.REG_DESC1_H d

/-- The plan region at or above a descriptor; fuel bounds the depth. -/
def planAbove (s : State) : Nat → Nat → Option Nat
  | 0, _ => none
  | n + 1, r => if isPlanRegion s r then some r else if r = 0 then none else planAbove s n (parentOf s r)

/-- The region that owns a core, bound or not (R258, R280): the plan region at or above its leaf, else the leaf; 0 for a core of no leaf. -/
def ownerOf (s : State) (c : Nat) : Nat :=
  match leafOf s c with
  | some d => (planAbove s 4096 d).getD d
  | none => 0

/-- The bound plan's image. -/
def boundPlan (s : State) (r : Nat) : List Byte := tget s.store.plans (rd s F.REG_PLAN_PLAN_ID r) []

/-- The regions with a plan bound. -/
def boundRegions (s : State) : List Nat := (allDescs s).filter (hasPlan s)

/-- Some region of the engine is running (R179). -/
def anyRunning (s : State) : Bool := (boundRegions s).any fun r => regionState s r = rsRunning || regionState s r = rsStopping

/-! ## Core states (R115) -/

def csOff : Nat := 0
def csIdle : Nat := 1
def csBound : Nat := 2
def csRunning : Nat := 3
def csFaulted : Nat := 4
def csSweeping : Nat := 5
def csDead : Nat := 6

def coreState (s : State) (c : Nat) : Nat := rd s F.CORE_STATUS_STATE c
def setCoreState (s : State) (c st : Nat) : State := wr s F.CORE_STATUS_STATE c st
def regionOfCore (s : State) (c : Nat) : Nat := rd s F.CORE_STATUS_REGION c

/-- The cores of a region that are not dead. -/
def liveCores (s : State) (r : Nat) : List Nat := (regionCores s r).filter fun c => coreState s c ≠ csDead

/-! ## Staging (R20) -/

/-- The staged word of a register: its shadow, or its live value when nothing is staged. -/
def shadowWord (s : State) (f : Field) (i : Nat) : Word := tget s.shadow (fkey f i) (regWord s f i)

/-- A field staged in the shadow copy. -/
def stage (s : State) (f : Field) (i v : Nat) : State :=
  { s with shadow := tset s.shadow (fkey f i) (putF f (shadowWord s f i) v) }

/-- A register's staged word is captured for the next boundary (R20). -/
def capture1 (s : State) (f : Field) (i : Nat) : State :=
  { s with captured := tset s.captured (fkey f i) (shadowWord s f i) }

/-- The name of a serving region for a stream command: its tenant, and whether it runs now. -/
def coveredRegion (s : State) (r : Nat) : Bool := (partsOf s r).all fun p => (unitOf s p).covered

end Sys2Proof.Machine
end

