-- ==== Sys2Proof/Machine/Racks.lean ====
section
/-! DEFINITION. Cask versions in force and racks (R306–R310): the version that new seats take, the streams pinned to an old version, and the
retirement of a version. -/

namespace Sys2Proof.Machine

/-- A cask table entry's key is retired (R310). -/
def entryRetired (s : State) (e : CaskEntry) : Bool :=
  s.store.masters.any fun m => m.retired && m.plan = e.plan && m.target = e.target && m.version = e.version

/-- A core entry of the version that a FLIP put in force, and else the first core entry of a plan whose bank is filled and not retired: its bank is the
live one. -/
def liveEntry (s : State) (plan : Nat) : Option CaskEntry :=
  let es := (caskEntries (tget s.store.plans plan [])).filter fun e => e.version ≠ 0 && e.core.isSome && !entryRetired s e
  (es.find? fun e => e.version = tget s.store.live plan 0).orElse fun _ => es.head?

def liveBankOf (s : State) (plan : Nat) : Nat :=
  match liveEntry s plan with
  | some e => e.bank
  | none => 0

def planVersion (s : State) (plan : Nat) : Nat :=
  match liveEntry s plan with
  | some e => e.version
  | none => 0

/-- The version of the bank that a rack fills. -/
def rackNewVersion (s : State) (k : Rack) : Nat :=
  match (caskEntries (tget s.store.plans k.successor [])).find? fun e =>
      e.version ≠ 0 && e.core.isSome && e.bank ≠ liveBankOf s k.oldPlan with
  | some e => e.version
  | none => 0

def rackOldVersion (s : State) (k : Rack) : Nat := planVersion s k.oldPlan

/-- The rack has flipped for a region. -/
def rackOf (s : State) (r : Nat) : Option Rack :=
  match s.store.rack with
  | some k => if beneath s r k.region && k.flip then some k else none
  | none => none

/-- The rack that loads region r: its successor's image. -/
def rackLoading (s : State) (r : Nat) : Option Rack :=
  match s.store.rack with
  | some k => if rd s F.CASK_RACK_STATUS_PHASE 0 = 1 ∧ rd s F.REG_PLAN_PLAN_ID r = k.oldPlan ∧ beneath s r k.region then some k else none
  | none => none

/-- The plan that serves a region's streams. -/
def servingPlan (s : State) (r : Nat) : Nat :=
  match (partsOf s r).head? with
  | some p => rd s F.REG_PLAN_PLAN_ID p
  | none => 0

/-- The cask bank of a version in the plan that serves a region (R308, R341). -/
def versionBank (s : State) (r v : Nat) : Nat :=
  match (caskEntries (tget s.store.plans (servingPlan s r) [])).find? fun e => e.version = v && e.core.isSome with
  | some e => e.bank
  | none => 0

/-- The version that new seats of a region take (R308). -/
def liveVersion (s : State) (r : Nat) : Nat :=
  match rackOf s r with
  | some k => rackNewVersion s k
  | none => match (partsOf s r).head? with
    | some p => planVersion s (rd s F.REG_PLAN_PLAN_ID p)
    | none => 0

/-- A version is retired for a region (R310). -/
def versionRetired (s : State) (r v : Nat) : Bool :=
  (partsOf s r).any fun p => (caskEntries (boundPlan s p)).any fun e =>
    s.store.masters.any fun m => m.retired && m.version = v && m.plan = e.plan

/-- The open streams pinned to the old version of a rack (R309). -/
def oldStreams (s : State) (k : Rack) : List Nat :=
  (s.strm.slots.filter fun e =>
    e.2.state ≠ .closed && !e.2.mirror && beneath s e.2.region k.region && e.2.version = rackOldVersion s k).map (·.1)

/-- The old bank of a rack leaves the resident map and its keys are retired (R310). -/
def retire (s : State) (k : Rack) : State :=
  let b := liveBankOf s k.oldPlan
  let old := (caskEntries (tget s.store.plans k.oldPlan [])).filter fun e => e.version ≠ 0 && e.bank = b
  let hit (plan target version : Nat) : Bool := old.any fun e => e.plan = plan && e.target = target && e.version = version
  let cores := regionCores s k.region
  let st := { s.store with
    rack := none
    residents := s.store.residents.filter fun x => !(cores.contains x.core && hit x.plan x.target x.version)
    masters := s.store.masters.map fun m => if hit m.plan m.target m.version then { m with retired := true } else m }
  raiseRegion (wrAll { s with store := st } 0 [(F.CASK_RACK_STATUS_PHASE, 0), (F.CASK_RACK_STATUS_OLD_STREAMS, 0), (F.CASK_RACK_STATUS_DRAIN_LEFT, 0)])
    .report evRack k.region 0 0

/-- OLD_STREAMS is counted; at 0 the old version is retired (R310). -/
def retireCheck (s : State) : State :=
  match s.store.rack with
  | some k =>
    if k.flip then
      let n := (oldStreams s k).length
      if n = 0 then retire s k else wr s F.CASK_RACK_STATUS_OLD_STREAMS 0 n
    else s
  | none => s

/-- A rack ends early (R313, R380): the new bank's copies of a rack that has not flipped leave the resident map. -/
def endRack (s : State) (status : Nat) : State :=
  match s.store.rack with
  | some k =>
    let new := rackNewVersion s k
    let cores := regionCores s k.region
    let res := if k.flip then s.store.residents else s.store.residents.filter fun x => !(cores.contains x.core && x.version = new)
    wrAll { s with store := { s.store with rack := none, residents := res } } 0
      [(F.CASK_RACK_STATUS_PHASE, 0), (F.CASK_RACK_STATUS_CMD_STATUS, status), (F.CASK_RACK_STATUS_DRAIN_LEFT, 0)]
  | none => s

def setPhase (s : State) (r : Nat) (p : RPhase) : State := modUnit s r fun u => { u with phase := p }

/-- One part of a command is done. -/
def finishPart (s : State) (r st : Nat) : State := modUnit s r fun u => { u with phase := .none, result := st }

/-- The word that a plan's load sequence stages for a register of the core's block: dest is DEST of its REG header (R264). -/
def stagedReg (b : List Byte) (c dest : Nat) : Option Word :=
  (coreLoads b c).foldl (init := (none : Option Word)) fun acc (h, w, _) =>
    if h.kind = 4 ∧ h.dest.toNat = dest then some ((w >>> 128).setWidth 64) else acc

/-- The window that the plan stages: base and length (R293). -/
def stagedWin (b : List Byte) (c : Nat) : Nat × Nat :=
  let w := (stagedReg b c 0x100).getD 0
  (getF F.CORE_SPAD_WIN_BASE w, getF F.CORE_SPAD_WIN_LEN w)

/-- A region whose rack ends in its load keeps the old version: its full windows again, and it runs once it is stopped. -/
def restoreRack (s : State) (p : Nat) : State :=
  let full (s : State) (c : Nat) : State :=
    let (base, len) := stagedWin (boundPlan s p) c
    wrAll s c [(F.CORE_SPAD_WIN_BASE, base), (F.CORE_SPAD_WIN_LEN, len)]
  match (unitOf s p).phase with
  | .none => s
  | .fetch => finishPart s p stOk
  | _ =>
    let s := if regionState s p = rsBinding then setRegionState ((liveCores s p).foldl full s) p rsBound else s
    if regionState s p = rsLost then finishPart s p stOk else setPhase s p .autorun

/-- A rack ends early, by the loss of a field (R313) or of the partner before FLIP (R380). -/
def abandonRack (s : State) (st : Nat) : State :=
  match s.store.rack with
  | some k => ((partsOf s k.region).filter fun p => (rackLoading s p).isSome).foldl restoreRack (endRack s st)
  | none => s

/-- The partner is lost during a rack (R313, R380): after FLIP each stream keeps its pinned version, and both banks stay until OLD_STREAMS is 0. -/
def survivorRack (s : State) : State :=
  match s.store.rack with
  | some k =>
    if k.flip then wrAll s 0 [(F.CASK_RACK_STATUS_CMD_STATUS, stDegraded), (F.CASK_RACK_STATUS_DRAIN_LEFT, 0)] else abandonRack s stDegraded
  | none => s

end Sys2Proof.Machine
end

