-- ==== Sys2Proof/Machine/Seats.lean ====
section
/-! DEFINITION. Seats and pages (R227, R246–R254, R340): what the pagers and the rim's host block do to a stream. -/

namespace Sys2Proof.Machine

/-! ## The cellar's pages -/

/-- A new page for a tenant. -/
def newPage (s : State) (tenant : Nat) : Nat × State :=
  let id := s.strm.nextPage
  (id, { s with strm := { s.strm with nextPage := id + 1, pages := tset s.strm.pages id { blankPage with tenant := tenant } } })

/-- Pages that no stream holds are freed, in the cellar and in hall memory (R251). -/
def freePages (s : State) : State :=
  { s with strm := { s.strm with pages := s.strm.pages.filter fun e => s.strm.slots.any fun x => x.2.pages.contains e.1 } }

/-- Pages needed for n positions. -/
def pagesFor (n : Nat) : Nat := (n + 63) / 64

/-- Pages a stream must still allocate to hold n positions. -/
def pagesShort (x : Stream) (n : Nat) : Nat := pagesFor n - x.pages.length

/-- The tenant's PAGES quota admits n more pages (R282); the operator has none. -/
def pageQuotaOk (s : State) (t n : Nat) : Bool := t = 0 || n = 0 || pageUse s t + n ≤ rd s F.REG_TENANT_LIM_B_PAGES t

/-- The pages that fetching a stream from hall memory brings back to the cellar. -/
def hallPages (s : State) (x : Stream) : Nat := (x.pages.filter fun p => (pageOf s p).hall).length

/-! ## Sealed rows on their way to the cellar (R246, R361) -/

/-- Where the mirror store lies among the exported windows (R395). -/
def mirrorBase : Nat := 0x010000000000

/-- A mirror write: a WRITE into the twin's mirror store, of class 1 for a sealed block and 0 in a resynchronisation (R359, R395, R399). -/
def mirrorWrite (s : State) (tc place : Nat) (data : List Byte) (user : GUser) : State :=
  (sendMessage s (twinNode s) 2 tc 0 (mirrorBase + place) data data.length user).2

/-- The rows of a sealed block reach the cellar copy of its page; when paired, the twin's copy too, by a mirror write into its mirror store (R359,
R395); the SEAL record follows its acknowledgement (R361). -/
def landExport (s : State) (e : SealExport) : State :=
  let s := landRows { s with strm := { s.strm with exports := s.strm.exports.filter fun d => d ≠ e } } e
  let h := handleOf e.slot (streamAt s e.slot).gen
  if journaled s then mirrorWrite s 1 (Config.mirrorPlace h e.layer e.block) (e.rows.flatMap fun r => bytesOf 64 r.2.toNat) (.mirror h (16 * (e.block + 1)))
  else s

/-- The pending exports of the page in whose frame a row lies land: its cellar copy is current (R246, R254). -/
def landFrame (s : State) (c a : Nat) : State :=
  match frameAt s c a with
  | some f => (s.strm.exports.filter fun e => e.layer = f.layer && (streamAt s e.slot).pages.getD (e.block / 4) 0 = f.page).foldl landExport s
  | none => s

/-- Every pending export of a stream lands. -/
def landExports (s : State) (slot : Nat) : State := (s.strm.exports.filter fun e => e.slot = slot).foldl landExport s

/-! ## Seats (R340) -/

/-- Pipeline positions taken. -/
def takenSeats (s : State) : List Nat := s.strm.slots.filterMap fun e => if e.2.state = .closed then none else e.2.seat

/-- A pipeline position's span group can hold n positions (R227). -/
def seatHolds (s : State) (pos n : Nat) : Bool := n ≤ groupSpan (kvNow s) (groupNow s pos)

/-- The largest span a stream may reach (R227, R332). -/
def largestSpan (s : State) : Nat := (List.range 1024).foldl (fun m p => max m (groupSpan (kvNow s) (groupNow s p))) 0

/-- A free position in a group that can hold n positions. -/
def freeSeat (s : State) (n : Nat) : Option Nat :=
  (List.range 1024).find? fun p => !(takenSeats s).contains p && seatHolds s p n

/-- The seated READY stream idle for longest, at least SEAT_HOLD ticks, whose position holds n positions. -/
def idleSeat (s : State) (n : Nat) : Option Nat :=
  let now := tickCount s
  let ok (x : Stream) : Bool := x.state = .ready && rd s F.STRM_SEAT_THR_SEAT_HOLD 0 ≤ now - x.idleTick &&
    (match x.seat with | some p => seatHolds s p n | none => false)
  (s.strm.slots.filter fun e => ok e.2).foldl (fun b e => match b with
    | none => some e.1
    | some m => if e.2.idleTick < (streamAt s m).idleTick then some e.1 else some m) none

/-- A step word to the serving plan (R341): kind, position, positions of the step and the first of them, and the tokens presented. -/
def sendStep (s : State) (kind pos slot count first : Nat) (tokens : List Nat) : State :=
  let x := streamAt s slot
  let at' := (List.range count).map (first + ·)
  let rows := at'.flatMap fun i => tget x.embeds i []
  let w : StepWord := ⟨kind, pos, versionBank s x.region x.version, rows ≠ [], count - 1, first, handleOf slot x.gen, tokens, rows⟩
  { s with strm := { s.strm with stepWords := w :: s.strm.stepWords } }

/-- SEAT (1) and UNSEAT (4) words present no position. -/
def seatWord (s : State) (kind pos slot : Nat) : State := sendStep s kind pos slot 0 0 []

/-- The words of a log's positions, in the layout of an inline token word. -/
def logTokens (x : Stream) (first count : Nat) : List Nat := ((x.log.drop first).take count).map (· % 2 ^ 19)

/-- The bits of a step word that R341 lays out, with its tokens from byte 16 on. -/
def StepWord.bytes (w : StepWord) : List Byte :=
  bytesOf 4 (w.kind + w.pos % 2 ^ 10 * 2 ^ 4 + w.bank % 2 * 2 ^ 14 + bit w.embed * 2 ^ 15 + w.count % 16 * 2 ^ 16) ++ bytesOf 4 w.first ++ bytesOf 4 w.handle ++
    bytesOf 4 0 ++ (List.range 16).flatMap fun i => bytesOf 4 (w.tokens.getD i 0)

/-- A stream's position no longer names its frames: VALID = 0 in its entries, and frames that no other entry names are free (R248). from: the first
page concerned. -/
def releaseFrames (s : State) (pos slot first : Nat) : State :=
  let mine := s.strm.frames.filter fun f => f.seats.contains (pos, slot) && first ≤ (streamAt s slot).pages.idxOf f.page
  freeFrames (mine.foldl (fun s f =>
    let s := writeFrameEntry s f (pos, slot) false
    let f := { f with seats := f.seats.filter (· ≠ (pos, slot)) }
    writeFrame (setFrame s f) f) s)

/-- A stream loses its seat (R248): its pending exports land, its tail is exported, its entries become invalid, and its frames are freed. -/
def unseat (s : State) (slot : Nat) : State :=
  match (streamAt s slot).seat with
  | none => s
  | some p =>
    let s := landExports s slot
    let x := streamAt s slot
    let keep := x.prev && rdB s F.STRM_PAGER_CTL_PREV_PARK 0
    let (tail, s) := exportTail s slot p x.cur
    let (prevTail, s) := if keep then exportTail s slot p (x.cur + 1) else ([], s)
    let s := releaseFrames s p slot 0
    let s := modStream s slot fun x => { x with seat := none, tail := tail, prevTail := prevTail, prev := keep, cur := 0, waiting := false }
    countStreams (seatWord s 4 p slot)

/-- A stream's seat is dropped and nothing of it is exported. -/
def dropSeat (s : State) (slot : Nat) : State :=
  match (streamAt s slot).seat with
  | none => s
  | some p =>
    let s := modStream (releaseFrames s p slot 0) slot fun x => { x with seat := none, tail := [], prevTail := [], prev := false, cur := 0, waiting := false }
    countStreams (seatWord s 4 p slot)

/-- A stream's tail record as it stands: in its slot while it is seated, in the cellar otherwise. -/
def tailRecord (s : State) (slot : Nat) : Table (List RowData) :=
  let x := streamAt s slot
  match x.seat with
  | some p => (List.range (kvNow s).layers).map fun layer => (layer, readTail s p layer x.cur)
  | none => x.tail

/-- A position for a stream of n positions (R340): a free one, or that of the longest idle READY stream, which is unseated. -/
def findSeat (s : State) (n : Nat) : Option (Nat × State) :=
  match freeSeat s n with
  | some p => some (p, s)
  | none =>
    match idleSeat s n with
    | some v => (streamAt s v).seat.map fun p => (p, unseat s v)
    | none => none

/-! ## Rebuilds (R249, R250) -/

/-- The context of a stream is to be rebuilt from its input log (R250): its pages and tail are dropped, and REPREFILL presents its positions anew. -/
def rebuild (s : State) (slot : Nat) : State :=
  let x := streamAt s slot
  let s := match x.seat with | some p => releaseFrames s p slot 0 | none => s
  let s := { s with strm := { s.strm with exports := s.strm.exports.filter fun e => e.slot ≠ slot } }
  let s := freePages (modStream s slot fun x =>
    { x with pages := [], tail := [], prevTail := [], prev := false, cur := 0, built := 0, redo := decide (x.log ≠ []), gap := none })
  let s := match x.seat with | some p => seatTail s slot p | none => s
  countPages (bump s F.STRM_PAGER_CNT_REPREFILL 0 1) x.tenant

/-- The 64-bit check kept with a spilled page (R249): the first 8 bytes of SHAKE128 over its rows, layer by layer. -/
def pageBytes (s : State) (p : Page) : List Byte :=
  (List.range (kvNow s).layers).flatMap fun l => (pageImage (kvNow s) p l).flatMap fun r => bytesOf 64 r.toNat
def pageCheck (s : State) (p : Page) : Nat := natOfBytes (shake128 (pageBytes s p) 8)

/-- A spilled page cannot be had back (R249): EV_KV_PAGE_CHECK, and its stream's context is rebuilt. -/
def pageFailed (s : State) (slot : Nat) : State :=
  rebuild (raiseRegion s .report evKvPageCheck (streamAt s slot).region 0 0) slot

/-- The READ of a spilled page from its place in the hall pool (R249); without a route the fetch fails. -/
def fetchPage (s : State) (slot p tries : Nat) : State :=
  let x := pageOf s p
  match x.place with
  | none => pageFailed s slot
  | some (e, off) =>
    let (ok, s) := sendMessage s (rd s F.NET_POOL_A_NODE e) 3 1 x.tenant (rd s F.NET_POOL_A_OFFSET e + off) [] (pageBytes s x).length (.fetch slot p tries)
    if ok then setPage s p { x with fetching := true } else pageFailed (setPage s p { x with hall := false, place := none }) slot

/-- A stream's pages in hall memory are fetched (R247). -/
def fetchPages (s : State) (slot : Nat) : State :=
  (streamAt s slot).pages.foldl (fun s p => if (pageOf s p).hall ∧ (pageOf s p).fetching = false then fetchPage s slot p 0 else s) s

/-! ## Seating (R247) -/

/-- The cooling controls demand shedding (R447, R451, R455): by the flow, by want of a flow value, by a leak, or by a step below 800 MHz. -/
def sheddingDemanded (s : State) : Bool := s.thm.shedFlow || s.thm.noFlow || s.thm.leakShed || s.thm.dewShed || 0 < s.pwr.sel

/-- New seats go to the twin (R373). -/
def shedding (s : State) : Bool := twState s = twPaired && rdB s F.TWIN_CTL_SHED 0 && sheddingDemanded s

/-- A newly seated stream is handed to the twin while shedding is demanded (R373). -/
def shed (s : State) (slot : Nat) : State :=
  if shedding s then bump (modStream (handoff s slot 3) slot fun x => { x with covered := true }) F.TWIN_CNT_COVERS 0 1 else s

/-- A seat waits for a free frame, with one EV_KV_FRAME_WAIT per wait (R247). -/
def frameWait (s : State) (slot : Nat) : State :=
  let x := streamAt s slot
  if x.waiting then s
  else raiseRegion (bump (setStream s slot { x with waiting := true }) F.STRM_PAGER_CNT_FRAME_WAIT 0 1) .report evKvFrameWait x.region 0 0

/-- The stream is seated (R247, R340) where n positions fit, once its region runs: pages of the HALL tier are fetched first; then every frame and the
tail slot are filled and the entries written. Without a position it waits, and without a frame too, holding none of those filled. -/
def seatFor (s : State) (slot n : Nat) : State :=
  let x := streamAt s slot
  if x.state = .closed ∨ x.seat.isSome ∨ unitState s x.region ≠ rsRunning then s
  else
    let s := fetchPages s slot
    if hallPages s (streamAt s slot) ≠ 0 then s
    else match findSeat s (max 1 n) with
      | none => modStream s slot fun x => { x with wants := true }
      | some (p, s) =>
        match seatPages s slot p with
        | none => frameWait s slot
        | some s =>
          let s := modStream s slot fun x =>
            { x with seat := some p, waiting := false, wants := false, idleTick := tickCount s,
                     state := if x.state = .parked then (if x.log = [] then .opened else .ready) else x.state }
          shed (countStreams (seatWord (countPages (seatTail s slot p) x.tenant) 1 p slot)) slot

def seat (s : State) (slot : Nat) : State := seatFor s slot (streamAt s slot).log.length

/-- One more page, which a seated stream's frames hold at once; without a free frame it leaves its seat and waits for one. -/
def growPage (s : State) (slot : Nat) : State :=
  let x := streamAt s slot
  let (p, s) := newPage s x.tenant
  let s := modStream s slot fun x => { x with pages := x.pages ++ [p] }
  match x.seat with
  | none => s
  | some pos =>
    match (List.range (kvNow s).layers).foldl (fun acc layer => acc.bind fun s => seatPage s slot pos layer p x.pages.length) (some s) with
    | some s => s
    | none => frameWait (unseat s slot) slot

/-- Pages are allocated until the stream's positions below n have room. -/
def growPages (s : State) (slot n : Nat) : State :=
  (List.range (pagesShort (streamAt s slot) n)).foldl (fun s _ => growPage s slot) s

/-- The seated streams that region r serves, alone or as a part of a composite unit. -/
def seatedOf (s : State) (r : Nat) : List Nat :=
  (s.strm.slots.filter fun e => e.2.state ≠ .closed && e.2.seat.isSome && beneath s r e.2.region).map (·.1)

/-- Every stream of a region is unseated (R274, R278). -/
def unseatRegion (s : State) (r : Nat) : State :=
  (seatedOf s r).foldl (fun s k => modStream (unseat s k) k fun x => { x with run := x.run.map fun r => { r with inFlight := false } }) s

/-- The stream's context on the wafer is gone: what the cellar holds stands, and the positions after its last sealed block are re-prefilled (R370,
R538). -/
def loseContext (x : Stream) : Stream :=
  { x with seat := none, tail := [], prevTail := [], prev := false, cur := 0, built := 16 * (x.built / 16), waiting := false,
           wants := true, redo := x.redo || decide (16 * (x.built / 16) < x.built), run := x.run.map fun r => { r with inFlight := false } }

/-- The region's seated streams are discarded from the wafer without export (R538); each sealed block has its copy in the cellar. -/
def discardSeats (s : State) (r : Nat) : State :=
  let s := (seatedOf s r).foldl (fun s k =>
    let s := landExports s k
    let x := streamAt s k
    let s := if x.built % 16 = 0 then s else bump s F.STRM_PAGER_CNT_REPREFILL 0 1
    { s with strm := { s.strm with
      slots := tset s.strm.slots k (loseContext x)
      frames := s.strm.frames.map fun f => { f with seats := f.seats.filter fun e => e.2 ≠ k } } }) s
  countStreams (dropFrames (freeFrames s) fun c => (regionCores s r).contains c)

/-! ## Removal of positions (R253) -/

/-- A cut to n needs a re-prefill (R253 case 5): n lies in a block older than the open one and the previous one, with kept positions. -/
def cutNeedsPrefill (x : Stream) (n : Nat) : Bool :=
  n / 16 < x.built / 16 && !(n / 16 + 1 = x.built / 16 && x.prev) && n % 16 ≠ 0

/-- A cut to n copies a page that other streams hold too (R253 case 2). -/
def cutCopies (s : State) (x : Stream) (n : Nat) : Bool :=
  n % 64 ≠ 0 && n < x.built && decide (1 < pageHolders s (x.pages.getD (n / 64) 0))

/-- Pages beyond n lose the stream's reference, and the page that holds n keeps its blocks below n, in a copy where other streams hold it too. -/
def cutPages (s : State) (slot n : Nat) : State :=
  let x := streamAt s slot
  let p := x.pages.getD (n / 64) 0
  let cut := n % 64 ≠ 0 && decide (n % 64 / 16 < (pageOf s p).sealedBlocks)
  let s := match x.seat with
    | some pos => releaseFrames s pos slot (if cut then n / 64 else pagesFor n)
    | none => s
  let s := modStream s slot fun x => { x with pages := x.pages.take (pagesFor n) }
  if ¬ cut then s
  else
    let k := kvNow s
    let less (y : Page) : Page := { y with sealedBlocks := n % 64 / 16, cells := y.cells.map fun c => (c.1, cutImage k (n % 64 / 16) c.2) }
    let (q, s) := if cutCopies s x n then
        let (q, s) := newPage s x.tenant
        (q, modStream (setPage s q { less (pageOf s p) with tenant := x.tenant }) slot fun y => { y with pages := y.pages.take (n / 64) ++ [q] })
      else (p, setPage s p (less (pageOf s p)))
    match x.seat with
    | some pos =>
      match (List.range k.layers).foldl (fun acc layer => acc.bind fun s => seatPage s slot pos layer q (n / 64)) (some s) with
      | some s => s
      | none => frameWait (unseat s slot) slot
    | none => s

/-- The open block after a cut to n (R253 cases 3 to 5): its positions below n stay in the buffer that holds them, or it starts afresh. -/
def cutTails (s : State) (slot n : Nat) : State :=
  let x := streamAt s slot
  let k := kvNow s
  let back := n / 16 < x.built / 16
  let swap := back && n / 16 + 1 = x.built / 16 && x.prev
  let keep (l : List RowData) : List RowData := if back && !swap then [] else cutTail k (n % 16) l
  let src := if swap then x.cur + 1 else x.cur
  let x' := { x with built := if back && !swap then 16 * (n / 16) else n, prev := x.prev && !back, cur := src % 2,
                     redo := cutNeedsPrefill x n }
  match x.seat with
  | none => setStream s slot { x' with cur := 0, tail := (if swap then x.prevTail else x.tail).map fun e => (e.1, keep e.2),
                                       prevTail := if back then [] else x.prevTail }
  | some pos =>
    let s := setStream s slot x'
    writeTailEntries ((List.range k.layers).foldl (fun s layer =>
      fillTail s slot pos layer (if back && !swap then x.cur else src) (keep (readTail s pos layer src))) s) slot

/-- Positions from n on are removed (R253). -/
def cutStream (s : State) (slot n : Nat) : State :=
  let s := landExports s slot
  let x := streamAt s slot
  let s := cutPages s slot n
  let s := if n < (streamAt s slot).built then cutTails s slot n else s
  let s := modStream s slot fun x => { x with log := x.log.take n, embeds := x.embeds.filter fun e => e.1 < n, mirrored := min x.mirrored n,
                                               redo := x.redo && decide (x.built < min n x.log.length) }
  countPages (freePages s) x.tenant

/-! ## Spill (R249) -/

/-- A handle pinned by STRM_PAGE_PIN is never spilled. -/
def pinned (s : State) (handle : Nat) : Bool :=
  (List.range 16).any fun i => rd s F.STRM_PAGE_PIN_PIN i ≠ 0 && rd s F.STRM_PAGE_PIN_HANDLE i = handle

/-- The first free byte of an extent of the hall pool: the pager allocates its pages in rising order (R396). -/
def extentEnd (s : State) (e : Nat) : Nat :=
  s.strm.pages.foldl (fun m x => match x.2.place with
    | some (d, off) => if d = e then max m (off + (pageBytes s x.2).length) else m
    | none => m) 0

/-- One page moves to hall memory by WRITE; without free extent space it stays, and POOL_FULL counts, and an extent that no route reaches takes no new
spill (R396, R402). The flag says whether it went. -/
def spillPage (s : State) (p : Nat) : Bool × State :=
  let x := pageOf s p
  let data := pageBytes s x
  match (poolExtents s).find? fun e => extentEnd s e + data.length ≤ rd s F.NET_POOL_B_LEN e with
  | none => (false, bump s F.NET_FAB_CNT_POOL_FULL 0 1)
  | some e =>
    let off := extentEnd s e
    let (ok, s) := sendMessage s (rd s F.NET_POOL_A_NODE e) 2 1 x.tenant (rd s F.NET_POOL_A_OFFSET e + off) data data.length (.spill e p)
    if ok then (true, setPage s p { x with hall := true, fetching := false, check := pageCheck s x, place := some (e, off) })
    else (false, if mayOriginate s then modFab s fun f => { f with shut := e :: f.shut.filter (· ≠ e) } else s)

/-- The unshared pages of a parked, unpinned stream move to hall memory. -/
def spillStream (s : State) (slot : Nat) : State :=
  let x := streamAt s slot
  if x.state ≠ .parked ∨ pinned s (handleOf slot x.gen) then s
  else
    let mine := x.pages.filter fun p => pageHolders s p ≤ 1 && !(pageOf s p).hall
    let (n, s) := mine.foldl (fun (acc : Nat × State) p =>
      let (ok, s) := spillPage acc.2 p
      (acc.1 + bit ok, s)) (0, s)
    countPages (bump s F.STRM_PAGER_CNT_SPILL 0 n) x.tenant

end Sys2Proof.Machine
end

