-- ==== Sys2Proof/Machine/Ledger.lean ====
section
/-! DEFINITION. The ledger (R320–R324, R328–R330, R334, R335): the checks of an entry, its fetch, its acceptance, and the binding of queue
pairs. -/

namespace Sys2Proof.Machine

/-! ## Check 1 (R329, R330) -/

/-- A byte range of an entry is zero. -/
def zb (e : List Byte) (i j : Nat) : Bool := numAt e i (j - i) = 0

/-- An FP32 code is finite. -/
def finiteCode32 (x : Nat) : Bool := (x / 2 ^ 23) % 256 ≠ 255

/-- The fields of a GENERATE (R329, R330). -/
def generateOk (e : List Byte) : Bool :=
  let count := numAt e 16 4
  let temp := numAt e 20 4
  let topP := numAt e 24 4
  let pen := numAt e 32 4
  let draft := numAt e 36 1
  let src := draft % 4
  let depth := draft / 4 % 16
  let ng := draft / 64
  1 ≤ count && count ≤ 16777215 && finiteCode32 temp && (temp < 2 ^ 31 || temp = 2 ^ 31) && finiteCode32 topP && 0 < topP && topP ≤ 0x3F800000 &&
    numAt e 28 2 ≤ 1024 && numAt e 30 2 ≤ 1024 && finiteCode32 pen && 0x3F800000 ≤ pen && pen < 2 ^ 31 && src ≠ 3 &&
    (if src = 0 then depth = 0 && ng = 0 else 1 ≤ depth && depth ≤ 8 && ng ≤ 2 && (src = 1 || ng = 0)) && zb e 37 38 &&
    ([0, 1, 2, 3].all fun i => numAt e (48 + 4 * i) 4 / 2 ^ 18 % 2 ^ 13 = 0)

/-- The fields of an APPEND (R329, R330). -/
def appendOk (e : List Byte) : Bool :=
  let count := numAt e 16 4
  let kind := numAt e 20 1
  numAt e 21 1 ≤ 1 && zb e 22 24 &&
    (if kind = 0 then 1 ≤ count && count ≤ 8 && zb e 24 32 && zb e (32 + 4 * count) 64 &&
        ((List.range 8).all fun i => numAt e (32 + 4 * i) 4 < 2 ^ 19)
     else (kind = 1 || kind = 2) && 1 ≤ count && count ≤ 65536 && !zb e 24 32)

/-- Check 1 of R330: none when it passes, else the DETAIL. -/
def check1 (e data : List Byte) : Option Nat :=
  let op := numAt e 0 1
  if 9 < op then some 1
  else
    let common := numAt e 1 1 < 8 && zb e 2 4
    let body := match op with
      | 0 => zb e 16 64
      | 1 => zb e 4 8 && zb e 28 64
      | 2 => appendOk e && (numAt e 20 1 ≠ 1 || (List.range (numAt e 16 4)).all fun i => numAt data (4 * i) 4 < 2 ^ 19)
      | 3 => generateOk e
      | 4 => zb e 24 64
      | 5 => zb e 24 64
      | _ => zb e 16 64
    if common && body then none else some 2

/-- A stream of the partner that this engine serves under cover or shedding (R372, R373). -/
def partnerServed (s : State) (slot : Nat) : Bool := (streamAt s slot).covered && slot / 65536 ≠ rd s F.TWIN_STATUS_ROLE 0

/-- Checks 2 and 3 of R330 for a command that names a stream; a slot of the other role that carries no stream is a mirror slot (R326). -/
def check23 (s : State) (tenant handle : Nat) : Option (Nat × Nat) :=
  let slot := slotOf handle
  let x := streamAt s slot
  let partnerSlot := x.state = .closed && slot / 65536 ≠ rd s F.TWIN_STATUS_ROLE 0
  if x.mirror ∨ partnerSlot ∨ partnerServed s slot then some (stBadHandle, 2)
  else if x.state = .closed ∧ genOf handle = x.gen then some (stBadHandle, 1)
  else if x.tenant ≠ tenant ∨ (tget? s.strm.slots slot).isNone then some (stBadHandle, 1)
  else if genOf handle ≠ x.gen then some (stStaleGen, 0)
  else none

/-- Checks 1 to 3, made at fetch. -/
def fetchCheck (s : State) (qp : Nat) (e data : List Byte) : Option (Nat × Nat) :=
  match check1 e data with
  | some d => some (stInternal, d)
  | none => if numAt e 0 1 < 2 then none else check23 s (rd s F.STRM_QP_CFG_TENANT qp) (numAt e 4 4)

/-! ## Fetch (R321–R323, R334, R335) -/

/-- A later command other than QUERY interrupts the stream's GENERATE (R334). -/
def interruptBy (s : State) (op handle : Nat) : State :=
  if op < 2 ∨ op = 9 then s
  else modStream s (slotOf handle) fun x => { x with run := x.run.map fun r => { r with interrupted := true } }

/-- A TRUNCATE with the stream's epoch withholds its tokens from the moment of its fetch (R335). -/
def withholdBy (s : State) (op handle : Nat) (e : List Byte) : State :=
  let x := streamAt s (slotOf handle)
  let n := numAt e 16 4
  if op = 4 ∧ numAt e 20 4 = x.epoch then
    setStream s (slotOf handle) { x with withhold := some (match x.withhold with | some m => min m n | none => n) }
  else s

/-- A TRUNCATE whose INDEX names another epoch interrupts nothing (R335). -/
def staleTruncate (s : State) (op handle : Nat) (e : List Byte) : Bool :=
  op = 4 && numAt e 20 4 ≠ (streamAt s (slotOf handle)).epoch

/-- An entry fetched anew from an adopted queue pair settles which of the partner's commands it had accepted (R370): those before the same entry are,
and that entry and the ones after it are not and come again from the ledger. -/
def settleMirrored (s : State) (qp : Nat) (e : Option (List Byte)) : State :=
  let held := s.strm.cmds.filter fun c => c.qp = qp && c.phase = .mirrored
  let kept := (held.takeWhile fun c => some c.entry ≠ e).map (·.id)
  let cmds := s.strm.cmds.filterMap fun c =>
    if c.qp = qp && c.phase = .mirrored then (if kept.contains c.id then some { c with phase := .accepted } else none) else some c
  { s with strm := { s.strm with cmds := cmds } }

/-- The pieces of a command's host data, each of at most 65,535 units of 32 bytes (R361). -/
def dataPieces (data : List Byte) : List (List Byte) :=
  let n := 65535 * 32
  (List.range ((data.length + n - 1) / n)).map fun i => (data.drop (n * i)).take n

/-- The DATA records of a command; the last carries LAST (R361). The answer: its last JSN. -/
def addData (s : State) (handle qp version jsn : Nat) (data : List Byte) : Nat × State :=
  let ps := dataPieces data
  ps.zipIdx.foldl (fun (acc : Nat × State) e => addRecord acc.2 2 handle qp version (e.2 + 1 = ps.length) e.1) (jsn, s)

/-- The entry at the fetch position is fetched with its data (R321): it is checked, journaled, and its effects at fetch happen. -/
def fetchEntry (s : State) (qp : Nat) (e data : List Byte) (fail : Option (Nat × Nat)) : State :=
  let op := numAt e 0 1
  let h := numAt e 4 4
  let bad := fail.orElse fun _ => fetchCheck s qp e data
  let s := if bad = none then settleMirrored s qp (some e) else s
  let (jsn, s) := match bad with
    | some _ => (0, s)
    | none =>
      let v := versionOf s h
      let (j, s) := addRecord s 1 h qp v (data = []) e
      addData s h qp v j data
  let s := if bad = none ∧ staleTruncate s op h e = false then withholdBy (interruptBy s op h) op h e else s
  let id := s.strm.nextCmd
  let c : LCmd := ⟨id, qp, op, numAt e 1 1, h, (e.drop 8).take 8, e, data, jsn, bad, .fetched, false, 0, none⟩
  let s := { s with strm := { s.strm with cmds := s.strm.cmds ++ [c], nextCmd := id + 1 } }
  let s := setQp s qp { qpOf s qp with fetchPos := (qpOf s qp).fetchPos + 1, fails := 0 }
  wr (wr s F.STRM_STATUS_OUTSTANDING 0 (rd s F.STRM_STATUS_OUTSTANDING 0 + 1)) F.STRM_QP_STATUS_OUTSTANDING qp
    (rd s F.STRM_QP_STATUS_OUTSTANDING qp + 1)

/-- OUT_MAX in force: 0 acts as 16,384 (R354). -/
def outMax (s : State) (qp : Nat) : Nat :=
  let m := rd s F.STRM_QP_CFG_OUT_MAX qp
  if m = 0 then 16384 else min 16384 m

/-- Room for a further command (R323), and for its entries in the hold (R324). -/
def mayFetch (s : State) (qp : Nat) : Bool :=
  rd s F.STRM_STATUS_OUTSTANDING 0 < 16384 && rd s F.STRM_QP_STATUS_OUTSTANDING qp < outMax s qp && (qpOf s qp).overflow = [] &&
    (qpOf s qp).hold.length < 8192

/-- A failed DMA read keeps its place; after 16 in a row the entry is accepted and completed with INTERNAL, DETAIL DMA (R322). Of an entry that was
never read the TAG is not known. -/
def failFetch (s : State) (qp : Nat) (entry : Option (List Byte)) : State :=
  let s := wr s F.STRM_QP_STATUS_FAULT qp 1
  let q := qpOf s qp
  if 15 ≤ q.fails then
    match entry with
    | some e => fetchEntry s qp e [] (some (stInternal, 4))
    | none =>
      let (n, s) := draw s (2 ^ 64)
      fetchEntry s qp (List.replicate 8 0 ++ bytesOf 8 n ++ List.replicate 48 0) [] (some (stInternal, 4))
  else setQp s qp { q with fails := q.fails + 1 }

/-- Entries fetched in order until one fails or no room is left (R321–R323). -/
def fetchAll (qp pi : Nat) : List (Option LedgerFetch) → State → State
  | [], s => s
  | e :: rest, s =>
    if pi ≤ (qpOf s qp).fetchPos ∨ mayFetch s qp = false then s
    else match e with
      | some ⟨e, some data⟩ => fetchAll qp pi rest (fetchEntry s qp e data none)
      | some ⟨e, none⟩ => failFetch s qp (some e)
      | none => failFetch s qp none

/-- Two emission entries say the same: PHASE, and the time of a token entry, apart. -/
def sameEntry (a b : List Byte) : Bool := a.take 7 = b.take 7 && (a.drop 8).take 16 = (b.drop 8).take 16

/-- A partner's entries that wait to be written, without those that it had written: the last of them found in its ring and all before it (R349). -/
def omitWritten (written : List (List Byte)) (hold : List (List Byte × Bool)) : List (List Byte × Bool) :=
  let rest := (hold.reverse.takeWhile fun e => !(written.any (sameEntry e.1))).reverse
  rest

/-- One queue pair's DMA reads of a boundary (R320–R322). -/
def readQp (s : State) (r : QpRead) : State :=
  let q := qpOf s r.qp
  if ¬ q.bound then s
  else match r.idx with
    | none => wr (wr s F.STRM_QP_STATUS_FAULT r.qp 1) F.STRM_QP_STATUS_ACTIVE r.qp 0
    | some (pi, ci, epi, eci) =>
      let q := if q.indexed then { q with emitCi := eci }
        else { q with indexed := true, fetchPos := ci, ci := ci, emitPi := epi, emitCi := eci, hold := omitWritten r.written q.hold }
      let s := wr (setQp s r.qp q) F.STRM_QP_STATUS_ACTIVE r.qp 1
      let s := fetchAll r.qp pi r.entries (drainHold (q.hold.length + q.overflow.length) s r.qp)
      if pi ≤ (qpOf s r.qp).fetchPos then settleMirrored s r.qp none else s

/-! ## Acceptance (R321) -/

/-- The token index after a stream's last position, where a command's handle names a stream of its tenant (R345), and 0 elsewhere. -/
def nextOf (s : State) (c : LCmd) : Nat :=
  if check23 s (rd s F.STRM_QP_CFG_TENANT c.qp) c.handle = none then nextIndex (streamAt s (slotOf c.handle)) else 0

/-- An earlier command of the same stream, QUERY and NOP apart, is unfinished (R339, R347). -/
def earlierOpen (s : State) (c : LCmd) : Bool :=
  c.handle ≠ 0 && (s.strm.cmds.takeWhile fun d => d.id ≠ c.id).any fun d => d.handle = c.handle && d.op ≠ 9 && d.op ≠ 0 && d.phase ≠ .done

/-- A fetched command is accepted: LEDGER_CI passes it, and the ACCEPTED entry of FLAGS.ACK is formed. -/
def accept (s : State) (c : LCmd) : State :=
  let q := qpOf s c.qp
  let cmds := s.strm.cmds.map fun d => if d.id = c.id then { d with phase := .accepted } else d
  sendAccepted (setQp { s with strm := { s.strm with cmds := cmds } } c.qp { q with ci := q.ci + 1 }) c (nextOf s c)

/-- An accepted command that failed at its fetch completes in its turn among those of its stream (R330, R347). -/
def settleFailed (s : State) (id : Nat) : State :=
  match s.strm.cmds.find? fun c => c.id = id with
  | none => s
  | some c =>
    match c.fail with
    | some (st, d) =>
      if c.phase = .accepted ∧ (earlierOpen s c = false ∨ c.op = 9 ∨ st = stBadHandle ∨ st = stStaleGen) then
        complete s c c.handle st d (nextOf s c) 0
      else s
    | none => s

/-- The fetched commands of a queue pair whose records are committed, up to the first that is not. -/
def acceptable (s : State) (qp : Nat) : List LCmd :=
  (s.strm.cmds.filter fun c => c.qp = qp && c.phase = .fetched).takeWhile fun c => c.jsn ≤ committedJsn s

def acceptQp (s : State) (qp : Nat) : State :=
  let s := (acceptable s qp).foldl accept s
  (s.strm.cmds.map (·.id)).foldl settleFailed s

/-! ## The end of a GENERATE (R333) -/

/-- The GENERATE of a stream ends: the completion reports the tokens emitted. -/
def endRun (s : State) (slot status detail : Nat) : State :=
  let x := streamAt s slot
  match x.run with
  | none => s
  | some r =>
    let s := setStream s slot { x with run := none, state := .ready, idleTick := tickCount s }
    match s.strm.cmds.find? fun c => c.id = r.cmd with
    | some c =>
      let c := { c with discard := c.discard || r.discard }
      complete s c c.handle status detail (nextIndex (streamAt s slot)) r.emitted
    | none => s

/-- The queue pair's unwritten entries are discarded, its running and accepted commands complete without an entry, and its GENERATEs end
with HOST_RESET (R317, R320). Tokens sampled before are still recorded, and have no entry. -/
def resetQp (s : State) (qp : Nat) : State :=
  let s := setQp s qp { qpOf s qp with hold := [], overflow := [], bound := false, indexed := false, stalled := false }
  let dropped := (s.strm.cmds.filter fun c => c.qp = qp && c.phase = .fetched).length
  let cmds := (s.strm.cmds.filter fun c => !(c.qp = qp && c.phase = .fetched)).map fun c => if c.qp = qp then { c with discard := true } else c
  let gone := (s.strm.emits.filter fun e => e.qp = qp).filterMap (·.cmd)
  let s := { s with strm := { s.strm with cmds := cmds, emits := s.strm.emits.filter fun e => e.qp ≠ qp } }
  let s := gone.foldl (fun s id => finishCmd s id qp) s
  let s := wr (wr s F.STRM_STATUS_OUTSTANDING 0 (rd s F.STRM_STATUS_OUTSTANDING 0 - dropped)) F.STRM_QP_STATUS_OUTSTANDING qp
    (rd s F.STRM_QP_STATUS_OUTSTANDING qp - dropped)
  let mine := (s.strm.slots.filter fun e => e.2.run.isSome && e.2.qp = qp).map (·.1)
  let s := mine.foldl (fun s k => endRun (modStream s k fun x => { x with sampled := x.sampled.map fun e => { e with qp := 0xFF } }) k stOk 5) s
  wrAll s qp [(F.STRM_QP_STATUS_HOLD, 0), (F.STRM_QP_STATUS_ACTIVE, 0)]

/-- The QP record of a queue pair's STRM_QP_ fields (R361). -/
def noteQp (s : State) (qp : Nat) : State :=
  let words := ([F.STRM_QP_CFG_EN, F.STRM_QP_LEDGER_ADDR, F.STRM_QP_EMIT_ADDR, F.STRM_QP_IDX_ADDR].map fun f => regWord s f qp) ++
    [regWord s F.STRM_QP_STATUS_TAKEN_OVER (qp % 64)]
  (addRecord s 7 0 qp 0 false (words.flatMap fun w => bytesOf 8 w.toNat)).2

/-- A queue pair's commit applies with EN = 1: it is bound, and journaled as a QP record (R320, R361). -/
def bindQp (s : State) (qp : Nat) : State :=
  noteQp (wr (setQp s qp { blankQp with bound := true }) F.STRM_QP_CFG_SOURCE qp (960 + qp)) qp

/-- A queue pair's commit applies with EN = 0 (R320). -/
def unbindQp (s : State) (qp : Nat) : State := noteQp (resetQp (acceptQp s qp) qp) qp

end Sys2Proof.Machine
end

