-- ==== Sys2Proof/Machine/Sampler.lean ====
section
/-! DEFINITION. The sampler (R342–R344): the choice of a token from its logits, with its LOGPROB. -/

namespace Sys2Proof.Machine

/-- The FP32 code of minus infinity. -/
def negInf : Nat := 0xFF800000

/-- Logits after the mask: bit t mod 8 of byte t div 8 permits token t. -/
def maskLogits (mask : Option (List Byte)) (z : List Nat) : List Nat :=
  match mask with
  | none => z
  | some m => z.zipIdx.map fun (x, t) => if (m.getD (t / 8) 0).getLsbD (t % 8) then x else negInf

/-- The repetition penalty on the tokens of the window (R342). -/
def penalise (recent : List Nat) (rho : Nat) (z : List Nat) : List Nat :=
  z.zipIdx.map fun (x, t) =>
    if recent.contains t then (if fLt fp32 false 0 x then fGuardDiv fp32 x rho else fMul fp32 x rho) else x

/-- Place of a candidate among candidates: y descending, ID ascending. -/
def insertCand (y t : Nat) : List (Nat × Nat) → List (Nat × Nat)
  | [] => [(y, t)]
  | (y', t') :: rest => if fLt fp32 false y' y then (y, t) :: (y', t') :: rest else (y', t') :: insertCand y t rest

/-- The k candidates of largest y, finite y only. -/
def candidatesOf (k : Nat) (ys : List Nat) : List (Nat × Nat) :=
  (ys.zipIdx.foldl (fun acc (y, t) => if finiteCode32 y then (insertCand y t acc).take k else acc) [])

/-- Running FP32 sums of a list. -/
def runSums : List Nat → Nat → List Nat
  | [], _ => []
  | e :: rest, acc => let s := fAdd fp32 acc e; s :: runSums rest s

/-- The sums s[i]: s[0] is e[0]. -/
def sumsOf (es : List Nat) : List Nat :=
  match es with
  | [] => []
  | e :: rest => e :: runSums rest e

/-- ln of the quotient of two positive FP32 codes, rounded once to FP32 (R342). -/
def lnRatio (a b : Nat) : Nat :=
  if a = b then 0
  else match valOf fp32 a, valOf fp32 b with
    | .fin _ m e, .fin _ n k =>
      if m = 0 then negInf
      else if n = 0 then 0
      else settle fp32 (fun p =>
        let (l1, h1) := lnI p m e
        let (l2, h2) := lnI p n k
        ((l1 - h2, 2 ^ p), (h1 - l2, 2 ^ p))) precisions
    | _, _ => 0

/-- The least j with s[j] at least p times the last sum. -/
def cutIndex (ss : List Nat) (p : Nat) : Nat :=
  let goal := fMul fp32 p (ss.getLast?.getD 0)
  (ss.findIdx? fun x => !fLt fp32 false x goal).getD (ss.length - 1)

/-- The exact comparison s[i] * 2^64 > u * s[j] (R342). -/
def exceeds (si sj u : Nat) : Bool :=
  dyLt (dyMul (valOf fp32 sj).dyadic ((u : Int), 0)) (dyMul (valOf fp32 si).dyadic ((2 ^ 64 : Nat), 0))

/-- The draw u of a token index (R342). -/
def drawOf (seed index : Nat) : Nat := natOfBytes (shake128 (bytesOf 8 seed ++ bytesOf 8 index ++ [0]) 8)

/-- What a GENERATE asks of the sampler. -/
structure SampleCfg where
  temp : Nat
  topP : Nat
  topK : Nat
  repWin : Nat
  repPen : Nat
  mask : Option (List Byte)

def sampleCfg (c : LCmd) : SampleCfg :=
  let k := numAt c.entry 28 2
  ⟨numAt c.entry 20 4, numAt c.entry 24 4, if k = 0 then 1024 else k, numAt c.entry 30 2, numAt c.entry 32 4,
    if numAt c.entry 40 8 = 0 then none else some c.data⟩

/-- Tokens at the last w positions of a log. -/
def recentTokens (log : List Nat) (w : Nat) : List Nat := ((log.drop (log.length - w)).filter fun x => !x.testBit 19).map (· % 2 ^ 18)

/-- The token of the next position of a stream and its LOGPROB (R342), none when no token is permitted. -/
def sampleOne (g : SampleCfg) (seed index : Nat) (log : List Nat) (logits : List Nat) : Option (Nat × Nat) :=
  let z := penalise (recentTokens log g.repWin) g.repPen (maskLogits g.mask logits)
  if z.all fun x => !finiteCode32 x then none
  else
    let greedy := g.temp = 0 ∨ g.temp = 2 ^ 31
    let y := if greedy then z else z.map fun x => fGuardDiv fp32 x g.temp
    let c := candidatesOf (min 1024 g.topK) y
    let top := (c.head?.getD (0, 0)).1
    let es := c.map fun yt => vsmxLane fp32 yt.1 top
    let ss := sumsOf es
    let j := cutIndex ss g.topP
    let sj := ss.getD j 0
    let u := drawOf seed index
    let i := if greedy then 0 else min j ((ss.findIdx? fun x => exceeds x sj u).getD j)
    match (c.drop i).head? with
    | some (_, t) => some (t, lnRatio (es.getD i 0) sj)
    | none => none

end Sys2Proof.Machine
end

