-- ==== Sys2Proof/Machine/Streams.lean ====
section
/-! DEFINITION. The stream commands (R328–R344), the pager's work (R246–R250, R283) and the binding of queue pairs (R320). -/

namespace Sys2Proof.Machine

/-! ## Execution in ledger order (R339) -/

/-- The accepted command id with an opcode, when no earlier command of its stream is unfinished and the twin does not compute its stream (R372); QUERY
does not wait. -/
def readyCmd (s : State) (id op : Nat) : Option LCmd :=
  match s.strm.cmds.find? fun c => c.id = id with
  | none => none
  | some c =>
    let away := (streamAt s (slotOf c.handle)).covered && !partnerServed s (slotOf c.handle)
    if c.op = op ∧ c.phase = .accepted ∧ c.fail = none ∧ (op < 2 ∨ op = 9 ∨ (earlierOpen s c = false ∧ away = false)) then some c else none

/-- The region is LOST or FAULTED and no twin covers it (check 8 of R330). -/
def regionDegraded (s : State) (r : Nat) : Bool := (unitState s r = rsLost || unitState s r = rsFaulted) && !coveredRegion s r

/-- Why a command on a stream has no effect when its turn comes: its stream was closed since its fetch; its stream is lost, where it is no CLOSE
(R378); or check 8 of R330, where it moves or cuts the stream. APPEND, GENERATE and FORK make check 8 after check 6. -/
def runCheck (s : State) (c : LCmd) : Option Nat :=
  let x := streamAt s (slotOf c.handle)
  if c.op < 2 then none
  else if x.state = .closed ∨ genOf c.handle ≠ x.gen then some stStaleGen
  else if (x.lost ∧ c.op ≠ 8) ∨ ([4, 6, 7].contains c.op ∧ regionDegraded s x.region) then some stDegraded
  else none

/-- A command of the ledger executes when it is its turn; otherwise it waits. -/
def runCmd (s : State) (id op : Nat) (k : State → LCmd → State) : State :=
  match readyCmd s id op with
  | some c =>
    match runCheck s c with
    | some st =>
      let s := if op = 4 ∧ st = stDegraded then modStream s (slotOf c.handle) fun x => { x with withhold := none } else s
      complete s c c.handle st 0 (nextOf s c) 0
    | none => k s c
  | none => s

/-- The serving region is stopped for a replay, a load or a repair: the command waits (R353). -/
def regionWaits (s : State) (r : Nat) : Bool :=
  let st := unitState s r
  st = rsBinding || st = rsBound || st = rsStopping || st = rsSweeping

/-- Checks 6 and 8 of R330 on a serving region: none when they pass. tenant: the command's tenant. -/
def regionCheck (s : State) (r tenant : Nat) : Option (Nat × Nat) :=
  let st := unitState s r
  if descKind s r = 0 ∨ r = 0 ∨ regionTenant s r ≠ tenant then some (stBadHandle, 3)
  else if st = rsHeld ∨ st = rsDefined then some (stFrozen, 0)
  else if regionDegraded s r then some (stDegraded, 0)
  else none

/-- A free owned slot (R326, R331), any of them: a free value chooses. -/
def takeSlot (s : State) : Option (Nat × State) :=
  let role := rd s F.TWIN_STATUS_ROLE 0
  let free := ((List.range 65536).map fun i => 65536 * role + i).filter fun k => (streamAt s k).state = .closed && !(streamAt s k).mirror
  if free = [] then none
  else let (n, s) := draw s free.length; some (free.getD n 0, s)

/-- The tenant's SLOTS quota admits one more stream (R282). -/
def slotQuotaOk (s : State) (t : Nat) : Bool := t = 0 || slotUse s t + 1 ≤ rd s F.REG_TENANT_LIM_A_SLOTS t

/-- An earlier accepted command waits for a position: seats go in order of acceptance (R340). -/
def earlierWants (s : State) (c : LCmd) : Bool :=
  (s.strm.cmds.takeWhile fun d => d.id ≠ c.id).any fun d =>
    d.phase = .accepted && d.handle ≠ c.handle && d.handle ≠ 0 && (streamAt s (slotOf d.handle)).wants

/-- A parked or seatless stream takes a seat where n positions fit before it works (R327, R332, R340), in a region that runs. The flag says whether it
has one. -/
def ensureSeat (s : State) (c : LCmd) (n : Nat) : Bool × State :=
  let slot := slotOf c.handle
  let holds : Bool := match (streamAt s slot).seat with | some p => seatHolds s p n | none => false
  if holds then (true, s)
  else if earlierWants s c ∨ unitState s (streamAt s slot).region ≠ rsRunning then (false, s)
  else
    let t := seatFor (unseat s slot) slot n
    ((streamAt t slot).seat.isSome, t)

/-- A command on a PARKED stream resumes it first (R327). -/
def implicitResume (s : State) (c : LCmd) : Bool × State :=
  let x := streamAt s (slotOf c.handle)
  if x.state = .parked then ensureSeat s c x.log.length else (true, s)

/-- The pages that come back from hall memory have room in the tenant's PAGES quota (R251, R282). -/
def fetchQuotaOk (s : State) (x : Stream) (more : Nat) : Bool := pageQuotaOk s x.tenant (more + if x.seat.isSome then 0 else hallPages s x)

/-! ## The commands -/

/-- R328: NOP completes with OK. -/
def execLedgerNop (id : Nat) (s : State) : Host.Outcome State Fault Refusal :=
  .next (runCmd s id 0 fun s c => complete s c c.handle stOk 0 0 0)

/-- R331: OPEN takes a slot and pins the version; checks 4 to 8 of R330 come first, and it waits while its region is swept or loaded. -/
def openStream (s : State) (c : LCmd) : State :=
  let t := rd s F.STRM_QP_CFG_TENANT c.qp
  let r := numAt c.entry 24 2
  let v := numAt c.entry 26 2
  let v := if v = 0 then liveVersion s r else v
  if ¬ slotQuotaOk s t then complete s c 0 stQuota 0 0 0
  else match takeSlot s with
    | none => complete s c 0 stNoSlot 0 0 0
    | some (slot, s') =>
      match regionCheck s r t with
      | some (st, d) =>
        if st = stDegraded ∧ versionRetired s r v then complete s c 0 stRetired 0 0 0 else complete s c 0 st d 0 0
      | none =>
        if unitState s r = rsBinding ∨ unitState s r = rsSweeping then s
        else if versionRetired s r v then complete s c 0 stRetired 0 0 0
        else
          let g := (streamAt s' slot).gen
          let x := { blankStream with gen := g, tenant := t, qp := c.qp, region := r, version := v, seed := numAt c.entry 16 8, state := .opened,
                                      idleTick := tickCount s' }
          let s := addStateRecord (countPages (countStreams (setStream s' slot x)) t) slot
          complete s c (handleOf slot g) stOk 0 0 0

def execOpenStream (id : Nat) (s : State) : Host.Outcome State Fault Refusal := .next (runCmd s id 1 openStream)

/-- The log words that an APPEND adds (R250, R329): token and hide bit, or the embedding flag. -/
def appendWords (c : LCmd) : List Nat :=
  let n := numAt c.entry 16 4
  let hide := numAt c.entry 21 1 * 2 ^ 18
  match numAt c.entry 20 1 with
  | 0 => (List.range n).map fun i => numAt c.entry (32 + 4 * i) 4 ||| hide
  | 1 => (List.range n).map fun i => numAt c.data (4 * i) 4 ||| hide
  | _ => List.replicate n (2 ^ 19 ||| hide)

/-- A hide bit set by the plan's hidden-token set (R233). -/
def hideByToken (plan w : Nat) : Nat :=
  if w.testBit 19 = false ∧ Config.hiddenToken plan (w % 2 ^ 18) then w ||| 2 ^ 18 else w

/-- No stream driven from queue pair n starts a new step: a ring of the journal has no room (R364), or more than HOLD_PAUSE entries are held
(R324). -/
def stepsHeld (s : State) (n : Nat) : Bool := s.strm.journal.full || (qpOf s n).stalled

/-- The checks of an APPEND when it executes (R227, R251, R330). -/
def appendCheck (s : State) (c : LCmd) (x : Stream) : Option (Nat × Nat) :=
  let ws := appendWords c
  match regionCheck s x.region x.tenant with
  | some e => some e
  | none =>
    if x.state = .prefill then none
    else if numAt c.entry 20 1 ≠ 2 ∧ ws.any (fun w => Config.vocab (servingPlan s x.region) ≤ w % 2 ^ 18) then some (stInternal, 3)
    else if largestSpan s < x.log.length + ws.length then some (stNoSlot, 0)
    else if ¬ fetchQuotaOk s x (pagesShort x (x.log.length + ws.length)) then some (stQuota, 0)
    else none

/-- One prefill step of an APPEND (R230): from the first position not yet formed to the end of its block, or to the command's last position. -/
def appendStep (s : State) (c : LCmd) : State :=
  let slot := slotOf c.handle
  let x := streamAt s slot
  let ws := appendWords c
  let upto := min (16 * (x.built / 16 + 1)) (x.log.length + (ws.length - x.appended))
  let s := growPages s slot upto
  match (streamAt s slot).seat with
  | none => s
  | some p =>
    let plan := servingPlan s x.region
    let w := 2 * Config.embedWidth plan
    let new := ((ws.drop x.appended).take (upto - x.log.length)).map (hideByToken plan)
    let emb := if numAt c.entry 20 1 = 2 then
        (List.range new.length).map fun i => (x.log.length + i, (c.data.drop (w * (x.appended + i))).take w) else []
    let s := modStream s slot fun x =>
      { x with log := x.log ++ new, embeds := x.embeds ++ emb, state := .prefill, qp := c.qp, appended := x.appended + new.length }
    let s := sendStep s 2 p slot (upto - x.built) x.built (logTokens (streamAt s slot) x.built (upto - x.built))
    let s := countPages (buildTo s slot upto) x.tenant
    if (streamAt s slot).appended < ws.length then s
    else completePlain (modStream s slot fun x => { x with state := .ready, appended := 0, idleTick := tickCount s }) c stOk 0

/-- R332: APPEND seats the stream and runs its positions as prefill steps, one each time it executes; the stream is PREFILL until the last. -/
def appendStream (s : State) (c : LCmd) : State :=
  let x := streamAt s (slotOf c.handle)
  if regionWaits s x.region ∨ stepsHeld s c.qp ∨ x.redo then s
  else match appendCheck s c x with
    | some (st, d) => completePlain s c st d
    | none =>
      let (ok, s) := ensureSeat s c (x.log.length + ((appendWords c).length - x.appended))
      if ok ∧ (streamAt s (slotOf c.handle)).redo = false then appendStep s c else s

def execAppend (id : Nat) (s : State) : Host.Outcome State Fault Refusal := .next (runCmd s id 2 appendStream)

/-- STOP words with their valid bit (R329). -/
def stopTokens (c : LCmd) : List Nat :=
  [0, 1, 2, 3].filterMap fun i =>
    let w := numAt c.entry (48 + 4 * i) 4
    if w.testBit 31 then some (w % 2 ^ 18) else none

/-- The largest number of drafts of a verification pass (R232, R343). -/
def draftCap (s : State) (x : Stream) (c : LCmd) : Nat :=
  if numAt c.entry 36 1 % 4 = 0 ∨ rdB s F.STRM_CTL_SPEC_EN 0 = false then 0
  else min (numAt c.entry 36 1 / 4 % 16) (min 8 (15 - (x.log.length - 1) % 16))

/-- The tokens that follow the most recent earlier occurrence of the last n tokens of a log (R343). An embedding's position holds no token. -/
def ngramDrafts (log : List Nat) (n most : Nat) : List Nat :=
  let ts := log.map fun w => if w.testBit 19 then none else some (w % 2 ^ 18)
  let key := ts.drop (ts.length - n)
  let starts := (List.range (ts.length - n)).filter fun i => !key.contains none && (ts.drop i).take n = key
  match starts.getLast? with
  | some i => (((ts.drop (i + n)).take most).takeWhile (·.isSome)).filterMap id
  | none => []

/-- The drafts of a pass: the engine's own for n-gram lookahead, those of the draft region when it shares the serving region's fate group
(R343). -/
def draftsFor (s : State) (x : Stream) (c : LCmd) (given : List Nat) : List Nat :=
  let b := numAt c.entry 36 1
  let n := draftCap s x c
  if b % 4 = 1 then ngramDrafts x.log (b / 64 + 2) n
  else if b % 4 = 2 ∧ (partsOf s x.region).any (fun p => (fateGroup s p).contains (numAt c.entry 38 2)) then given.take n
  else []

/-- The next step of a GENERATE (R232, R341): the input position alone, or with drafts as a verification pass. given: the draft region's tokens. -/
def presentStep (s : State) (slot : Nat) (given : List Nat) : State :=
  let x := streamAt s slot
  match x.run, x.seat with
  | some r, some p =>
    match s.strm.cmds.find? fun c => c.id = r.cmd with
    | some c =>
      let ds := draftsFor s x c given
      let first := x.log.length - 1
      sendStep (setStream s slot { x with run := some { r with inFlight := true, drafts := ds } }) (if ds = [] then 2 else 3) p slot (ds.length + 1) first
        (logTokens x first 1 ++ ds)
    | none => s
  | _, _ => s

/-- R333: GENERATE begins; its tokens come from SAMPLE_TOKEN. At the span limit it ends at once with LIMIT. One taken over goes on after its last
committed token (R370). -/
def generateStream (s : State) (c : LCmd) : State :=
  let slot := slotOf c.handle
  let x := streamAt s slot
  if regionWaits s x.region ∨ stepsHeld s c.qp ∨ x.run.isSome ∨ x.redo then s
  else match regionCheck s x.region x.tenant with
    | some (st, d) => completePlain s c st d
    | none =>
      if (stopTokens c).any (Config.vocab (servingPlan s x.region) ≤ ·) then completePlain s c stInternal 3
      else if ¬ fetchQuotaOk s x 0 then completePlain s c stQuota 0
      else
        let (ok, s) := ensureSeat s c x.log.length
        if ¬ ok ∨ (streamAt s slot).redo then s
        else if c.emitted = 0 ∧ (streamAt s slot).seat.any (fun p => !seatHolds s p (x.log.length + 1)) then completePlain s c stOk 2
        else
          let s := modStream s slot fun x => { x with state := .generating, qp := c.qp, run := some ⟨c.id, c.emitted, false, c.ended = none, [], false, c.ended⟩ }
          if c.ended = none then presentStep s slot [] else s

def execGenerate (id : Nat) (s : State) : Host.Outcome State Fault Refusal := .next (runCmd s id 3 generateStream)

/-- Tokens of a stream whose positions are n or higher are discarded before their release (R335, R338). -/
def discardTokens (s : State) (slot n : Nat) : State :=
  let h := handleOf slot (streamAt s slot).gen
  { s with strm := { s.strm with emits := s.strm.emits.filter fun e =>
      !(e.handle = h && (match e.pos with | some p => decide (n ≤ p) | none => false)) } }

/-- R335, R253: TRUNCATE to a position. -/
def truncateStream (s : State) (c : LCmd) : State :=
  let slot := slotOf c.handle
  let x := streamAt s slot
  let n := numAt c.entry 16 4
  if regionWaits s x.region ∨ s.strm.journal.full then s
  else if numAt c.entry 20 4 ≠ x.epoch then completePlain s c stStaleGen 0
  else if x.epoch = 2 ^ 32 - 1 then completePlain (setStream s slot { x with withhold := none }) c stInternal 2
  else
    if ¬ fetchQuotaOk s x (bit (cutCopies s x n)) then completePlain (setStream s slot { x with withhold := none }) c stQuota 0
    else
      let (ok, s) := implicitResume s c
      if ¬ ok then s
      else
        let x := streamAt s slot
        let s := discardTokens s slot n
        let s := if cutNeedsPrefill x n then bump s F.STRM_PAGER_CNT_REPREFILL 0 1 else s
        let s := if n < x.log.length then cutStream s slot n else s
        let s := modStream s slot fun x =>
          { x with epoch := x.epoch + 1, withhold := none, qp := c.qp,
                   state := if x.state ≠ .ready then x.state else if x.log = [] then .opened else if x.redo then .prefill else .ready }
        completePlain (addStateRecord (bump s F.STRM_CNT_TRUNCATES 0 1) slot) c stOk 0

def execTruncate (id : Nat) (s : State) : Host.Outcome State Fault Refusal := .next (runCmd s id 4 truncateStream)

/-- A page that a child shares (R251): all four blocks sealed, and not held by 65,535 streams. -/
def shareable (s : State) (p : Nat) : Bool := (pageOf s p).sealedBlocks = 4 && pageHolders s p < 65535

/-- The child's pages (R251, R252): references to full pages, and copies in the cellar of the others. -/
def forkPages (s : State) : List Nat → List Nat × State
  | [] => ([], s)
  | p :: rest =>
    if shareable s p then
      let (l, s) := forkPages s rest
      (p :: l, s)
    else
      let (q, s) := newPage s (pageOf s p).tenant
      let (l, s) := forkPages (setPage s q { pageOf s p with hall := false, place := none, fetching := false }) rest
      (q :: l, s)

/-- The child of a stream in a slot of generation gen (R252, R336). -/
def childOf (s : State) (x : Stream) (gen seed qp : Nat) (pages : List Nat) (tail : Table (List RowData)) : Stream :=
  { x with gen := gen, seed := if seed = 0 then x.seed else seed, pages := pages, tail := tail, prevTail := [], prev := false, cur := 0, appended := 0,
           seat := none, run := none, sampled := [], withhold := none, qp := qp, waiting := false, wants := false, mirrored := 0, gap := some 0,
           idleTick := tickCount s, state := if x.log = [] then .opened else .ready }

/-- R336, R252: FORK creates a child stream. -/
def forkStream (s : State) (c : LCmd) : State :=
  let x := streamAt s (slotOf c.handle)
  let copies := (x.pages.filter fun p => !shareable s p).length
  if regionWaits s x.region ∨ s.strm.journal.full ∨ x.redo then s
  else if ¬ slotQuotaOk s x.tenant then completePlain s c stQuota 0
  else match takeSlot s with
    | none => completePlain s c stNoSlot 0
    | some (slot, s') =>
      match regionCheck s x.region x.tenant with
      | some (st, d) => completePlain s c (if st = stDegraded ∧ versionRetired s x.region x.version then stRetired else st) d
      | none =>
        if versionRetired s x.region x.version then completePlain s c stRetired 0
        else if ¬ fetchQuotaOk s x copies then completePlain s c stQuota 0
        else
          let (ok, s) := implicitResume s' c
          let x := streamAt s (slotOf c.handle)
          if ¬ ok ∨ x.redo then s
          else
            let s := landExports s (slotOf c.handle)
            let tail := tailRecord s (slotOf c.handle)
            let (pages, s) := forkPages s x.pages
            let child := childOf s x (streamAt s slot).gen (numAt c.entry 16 8) c.qp pages tail
            let s := addStateRecord (countPages (countStreams (setStream s slot child)) x.tenant) slot
            complete s c c.handle stOk 0 (nextIndex x) (handleOf slot child.gen)

def execFork (id : Nat) (s : State) : Host.Outcome State Fault Refusal := .next (runCmd s id 5 forkStream)

/-- A stream is parked (R248, R327). -/
def parkSlot (s : State) (slot : Nat) : State :=
  let s := unseat s slot
  holdPinned (modStream s slot fun x => { x with state := .parked, parkedAt := hallNs s })

/-- R337: PARK unseats the stream. -/
def parkStream (s : State) (c : LCmd) : State :=
  let slot := slotOf c.handle
  let x := streamAt s slot
  if x.state = .parked then completePlain s c stOk 0
  else if regionWaits s x.region ∨ s.strm.journal.full then s
  else completePlain (addStateRecord (parkSlot s slot) slot) c stOk 0

def execPark (id : Nat) (s : State) : Host.Outcome State Fault Refusal := .next (runCmd s id 6 parkStream)

/-- R337: RESUME seats the stream and completes when it is seated. -/
def resumeStream (s : State) (c : LCmd) : State :=
  let slot := slotOf c.handle
  let x := streamAt s slot
  if x.state ≠ .parked then completePlain s c stOk 0
  else if regionWaits s x.region ∨ s.strm.journal.full then s
  else if ¬ fetchQuotaOk s x 0 then completePlain s c stQuota 0
  else
    let (ok, s) := ensureSeat s c x.log.length
    if ok then completePlain (addStateRecord s slot) c stOk 0 else s

def execResume (id : Nat) (s : State) : Host.Outcome State Fault Refusal := .next (runCmd s id 7 resumeStream)

/-- The next generation of a slot (R325). -/
def nextGen (g : Nat) : Nat := if g = 32767 then 1 else g + 1

/-- A slot is freed: its tokens are discarded, its pages dropped, its generation advanced (R338). -/
def freeSlot (s : State) (slot : Nat) : State :=
  let x := streamAt s slot
  let s := dropSeat (discardTokens s slot 0) slot
  let s := setStream s slot { blankStream with gen := nextGen x.gen, tenant := x.tenant }
  retireCheck (countPages (countStreams (freePages s)) x.tenant)

/-- The region is stopped for a replay, a load, a sweep or a repair, and not by a STOP alone (R353). -/
def regionPaused (s : State) (r : Nat) : Bool :=
  regionWaits s r && (unitState s r ≠ rsBound || (partsOf s r).any fun p => (unitOf s p).await ≠ .none)

/-- R338: CLOSE frees the slot; its completion is the last entry with the old handle. -/
def closeStream (s : State) (c : LCmd) : State :=
  let slot := slotOf c.handle
  let x := streamAt s slot
  if regionPaused s x.region then s
  else
    let s := setStream s slot { x with state := .closed }
    complete (freeSlot (addStateRecord s slot) slot) c c.handle stOk 0 (nextIndex x) 0

def execCloseStream (id : Nat) (s : State) : Host.Outcome State Fault Refusal := .next (runCmd s id 8 closeStream)

def stateCode (x : SState) : Nat :=
  match x with
  | .opened => 0 | .prefill => 1 | .ready => 2 | .generating => 3 | .parked => 4 | .closed => 5

/-- The tier of a stream's oldest page (R345). -/
def oldestTier (s : State) (x : Stream) : Nat :=
  match x.pages.head? with
  | none => 3
  | some p => if (pageOf s p).hall then 2 else if x.seat.isSome then 0 else 1

/-- R339, R345: QUERY reports state, version, tier and length. -/
def queryStream (s : State) (c : LCmd) : State :=
  let x := streamAt s (slotOf c.handle)
  complete s c c.handle stOk 0 (nextIndex x)
    (stateCode x.state + x.version * 2 ^ 4 + oldestTier s x * 2 ^ 20 + x.log.length * 2 ^ 32)

def execQuery (id : Nat) (s : State) : Host.Outcome State Fault Refusal := .next (runCmd s id 9 queryStream)

/-! ## Sampling (R342–R344) -/

/-- The bytes of a token entry (R345). -/
def tokenEntry (handle flags index token logprob : Nat) : List Byte :=
  bytesOf 4 handle ++ bytesOf 1 1 ++ bytesOf 1 flags ++ bytesOf 2 0 ++ bytesOf 8 index ++ bytesOf 4 token ++ bytesOf 4 logprob ++ bytesOf 8 0

/-- The GENERATE of a stream will end once its tokens are recorded: its status and DETAIL, or none while it goes on. -/
def endsBy (s : State) (slot : Nat) (c : LCmd) (emitted : Nat) (stop : Bool) : Option (Nat × Nat) :=
  let x := streamAt s slot
  if stop then some (stOk, 1)
  else if numAt c.entry 16 4 ≤ emitted then some (stOk, 0)
  else if x.seat.any (fun p => !seatHolds s p (x.log.length + 1)) then some (stOk, 2)
  else none

/-- One sampled token becomes a position of the stream and waits for its tick's clean close. The answer: whether the GENERATE ended; where the token
needs a page above the tenant's quota it is discarded and ends the GENERATE with QUOTA_OVER (R282). -/
def pushToken (s : State) (slot : Nat) (c : LCmd) (t logprob : Nat) (draft : Bool) (drafts : List Nat) : State × Option (Nat × Nat) :=
  let x := streamAt s slot
  if ¬ pageQuotaOk s x.tenant (pagesShort x (x.log.length + 1)) then (s, some (stQuota, 0))
  else
    let stop := (stopTokens c).contains t
    let emitted := (match x.run with | some r => r.emitted | none => 0) + 1
    let s' := modStream s slot fun x => { x with log := x.log ++ [hideByToken (servingPlan s x.region) t] }
    let d := endsBy s' slot c emitted stop
    let flags := bit stop + 2 * bit draft + 4 * bit d.isSome
    let e := tokenEntry c.handle flags (nextIndex x) t logprob
    let s' := modStream s' slot fun x =>
      { x with sampled := x.sampled ++ [⟨tickCount s, e, c.qp, c.flags.testBit 2, drafts⟩], run := x.run.map fun r => { r with emitted := emitted } }
    (countPages (growPages s' slot (x.log.length + 1)) x.tenant, d)

/-- Verified positions in order (R232, R343): the token of each is emitted; the pass goes on while it equals its draft, whose keys and values then
stand. -/
def verify (slot : Nat) (c : LCmd) (all : List Nat) : List (List Nat) → List Nat → State → State × Option (Nat × Nat)
  | [], _, s => (s, none)
  | z :: zs, ds, s =>
    let x := streamAt s slot
    match sampleOne (sampleCfg c) x.seed (nextIndex x) x.log z with
    | none => (s, some (stOk, 4))
    | some (t, lp) =>
      let hit := ds.head? = some t
      let (s, d) := pushToken s slot c t lp hit all
      match d with
      | some d => (s, some d)
      | none => if hit then verify slot c all zs (ds.drop 1) (buildTo s slot (x.log.length + 1)) else (s, none)

/-- Rejected positions leave the open block (R232, R241). -/
def dropRejected (s : State) (slot : Nat) : State :=
  let x := streamAt s slot
  match x.seat with
  | none => s
  | some p => (List.range (kvNow s).layers).foldl (fun s layer =>
      fillTail s slot p layer x.cur (cutTail (kvNow s) (x.built % 16) (readTail s p layer x.cur))) s

/-- R342: the logits of a stream's next positions reach their samplers, one list for the next position and one more for each draft that the step
presented; the step's positions have passed every layer. drafts: the draft region's tokens for the step after it. An interrupted GENERATE discards the
token of its step in flight (R334). -/
def sampleToken (s : State) (h : Nat) (logits : List (List Nat)) (drafts : List Nat) : State :=
  let slot := slotOf h
  let x := streamAt s slot
  match x.run with
  | none => s
  | some r =>
    match s.strm.cmds.find? fun c => c.id = r.cmd with
    | none => s
    | some c =>
      if genOf h ≠ x.gen ∨ r.inFlight = false then s
      else
        let s := buildTo s slot x.log.length
        let s := modStream s slot fun x => { x with run := x.run.map fun r => { r with inFlight := false } }
        if r.interrupted then (if r.drafts = [] then s else dropRejected s slot)
        else
          let (s, d) := verify slot c r.drafts (logits.take (r.drafts.length + 1)) r.drafts s
          let s := if r.drafts = [] then s else dropRejected s slot
          match d with
          | some d => modStream s slot fun x => { x with run := x.run.map fun r => { r with ended := some d } }
          | none => if stepsHeld s c.qp then s else presentStep s slot drafts

def execSampleToken (h : BitVec 32) (logits : List (List (BitVec 32))) (drafts : List Nat) (s : State) : Host.Outcome State Fault Refusal :=
  .next (sampleToken s h.toNat (logits.map fun z => z.map (·.toNat)) drafts)

/-! ## The close of a tick for streams (R112, R334, R361) -/

/-- Tokens of a stream sampled before tick t are recorded (R361); a GENERATE that has ended completes after its last token, and an
interrupted one once no step of it is in flight. -/
def flushStream (t : Nat) (s : State) (slot : Nat) : State :=
  let x := streamAt s slot
  let old := x.sampled.filter fun e => e.tick < t
  let s := setStream s slot { x with sampled := x.sampled.filter fun e => t ≤ e.tick }
  let s := old.foldl (fun s e =>
    let h := handleOf slot x.gen
    let (jsn, s) := addRecord s 3 h e.qp x.version false e.entry
    { s with strm := { s.strm with emits := s.strm.emits ++ [⟨jsn, e.qp, e.entry, e.irq, h, some (numAt e.entry 8 4), none⟩] } }) s
  let x := streamAt s slot
  match x.run with
  | none => s
  | some r =>
    if x.sampled ≠ [] then s
    else match r.ended with
      | some (st, d) => endRun s slot st d
      | none => if r.interrupted ∧ r.inFlight = false then endRun s slot stOk 3 else s

/-- A ring has no room (R364): this engine's own, or the twin's partner ring as its last heartbeat reports. -/
def ringHeld (s : State) : Bool :=
  journaled s && (2 ^ 30 ≤ ringBytes s.strm.journal.ring || match s.twin.lastHb with | some h => h.ringFull | none => false)

/-- A GENERATE that was held, or whose stream lost its seat, starts its next step once its region runs and the stream is seated. -/
def resumeRun (s : State) (slot : Nat) : State :=
  let x := streamAt s slot
  match x.run with
  | some r =>
    if (x.covered ∧ partnerServed s slot = false) ∨ r.inFlight ∨ r.interrupted ∨ r.ended ≠ none ∨ stepsHeld s x.qp ∨ x.redo ∨ unitState s x.region ≠ rsRunning then s
    else
      let s := if x.seat.isNone then seat s slot else s
      if (streamAt s slot).redo then s else presentStep s slot []
  | none => s

/-- R364 at a boundary: an episode without room raises EV_JOURNAL_FULL once and holds new steps; steps no longer held go on. -/
def journalRoom (s : State) : State :=
  let was := s.strm.journal.full
  let now := ringHeld s
  let s := { s with strm := { s.strm with journal := { s.strm.journal with full := now } } }
  if now ∧ ¬ was then raiseEngine s .report evJournalFull 0 0
  else (s.strm.slots.map (·.1)).foldl resumeRun s

/-- The streams served by a region. -/
def streamsOf (s : State) (r : Nat) : List Nat :=
  (s.strm.slots.filter fun e => e.2.state ≠ .closed && beneath s r e.2.region).map (·.1)

/-- Tokens sampled from tick t on are withdrawn: the replay samples them again (R113). -/
def rollbackStream (t : Nat) (s : State) (slot : Nat) : State :=
  modStream s slot fun x =>
    let gone := x.sampled.filter fun e => t ≤ e.tick
    let again (r : Run) : Run := match gone with
      | [] => { r with inFlight := true }
      | e :: _ => { r with emitted := r.emitted - gone.length, inFlight := true, drafts := e.drafts, ended := none }
    { x with sampled := x.sampled.filter fun e => e.tick < t, log := x.log.take (x.log.length - gone.length), run := x.run.map again }

/-! ## The pager (R246–R250) -/

/-- The stream of a handle whose generation is current. -/
def liveSlot (s : State) (h : BitVec 32) : Option Nat :=
  let x := streamAt s (slotOf h.toNat)
  if x.state ≠ .closed ∧ genOf h.toNat = x.gen then some (slotOf h.toNat) else none

/-- R247: the pager fills a stream's pages and tail and the stream becomes seated. -/
def execSeating (h : BitVec 32) (s : State) : Host.Outcome State Fault Refusal :=
  .next (match liveSlot s h with
    | some k => seat s k
    | none => s)

/-- R248: the pager exports the tail, invalidates the entries and frees frames. A stream at work keeps its seat (R340). -/
def execUnseat (h : BitVec 32) (s : State) : Host.Outcome State Fault Refusal :=
  .next (match liveSlot s h with
    | some k => if (streamAt s k).state = .generating ∨ (streamAt s k).state = .prefill then s else unseat s k
    | none => s)

/-- R246: the exported rows of a sealed block reach the cellar, and the twin's when paired. -/
def execSealCellarWrite (h : BitVec 32) (layer block : Nat) (s : State) : Host.Outcome State Fault Refusal :=
  .next (match liveSlot s h with
    | some k =>
      match s.strm.exports.find? fun e => e.slot = k && e.layer = layer && e.block = block with
      | some e => landExport s e
      | none => s
    | none => s)

/-- One re-prefill step of a stream (R230, R250, R253): from the first position not formed to the end of its block. The last ends the rebuild. -/
def reprefillStep (s : State) (slot : Nat) : State :=
  let x := streamAt s slot
  let upto := min (16 * (x.built / 16 + 1)) x.log.length
  if ¬ pageQuotaOk s x.tenant (pagesShort x upto) then s
  else
    let s := growPages s slot upto
    match (streamAt s slot).seat with
    | none => s
    | some p =>
      let s := sendStep s 2 p slot (upto - x.built) x.built (logTokens x x.built (upto - x.built))
      let s := countPages (buildTo s slot upto) x.tenant
      if upto < x.log.length then s
      else raiseRegion (modStream s slot fun x => { x with redo := false, state := if x.state = .prefill ∧ x.appended = 0 then .ready else x.state }) .report evKvReprefill
        x.region 0 0

/-- R250: a stream's context is rebuilt from its input log, one step each time; the stream is seated first. -/
def execReprefill (h : BitVec 32) (s : State) : Host.Outcome State Fault Refusal :=
  .next (match liveSlot s h with
    | some k =>
      let x := streamAt s k
      if x.redo = false ∨ x.mirror ∨ unitState s x.region ≠ rsRunning ∨ s.strm.journal.full then s
      else
        let s := seat s k
        if (streamAt s k).seat.isSome then reprefillStep s k else s
    | none => s)

/-- Slots by their last activity, the least recent first (R249, R283). -/
def byActivity (s : State) (l : List (Nat × Stream)) : List Nat :=
  let before (x : Stream) (k : Nat) : Bool := (streamAt s k).idleTick ≤ x.idleTick
  l.foldl (fun acc e => acc.takeWhile (before e.2) ++ [e.1] ++ acc.dropWhile (before e.2)) []

/-- A tenant's streams in a state, least recently active first (R283). -/
def oldestOf (s : State) (t : Nat) (st : SState) : List Nat :=
  byActivity s (s.strm.slots.filter fun e => e.2.tenant = t && e.2.state = st && !e.2.mirror && !pinned s (handleOf e.1 e.2.gen))

/-- Streams are spilled until the tenant's PAGES use meets its quota (R283). -/
def reclaimGo (t : Nat) (park : Bool) : List Nat → State → State
  | [], s => s
  | k :: rest, s =>
    if pageUse s t ≤ rd s F.REG_TENANT_LIM_B_PAGES t then s
    else reclaimGo t park rest (spillStream (if park then parkSlot s k else s) k)

/-- R283: RECLAIM, by an operator session. -/
def execReclaim (a : Agent) (t : Nat) (s : State) : Host.Outcome State Fault Refusal :=
  .next (if ¬ isOperator s a then noteRefused s F.REG_COMMIT_WRITE_STATUS 0 stBadHandle
    else if t = 0 ∨ 256 ≤ t ∨ rdB s F.REG_TENANT_CTL_RECLAIM_BUSY t then s
    else
      let s := reclaimGo t false (oldestOf s t .parked) s
      let s := reclaimGo t true ((oldestOf s t .ready).filter fun k => (streamAt s k).seat.isSome) s
      let ok := pageUse s t ≤ rd s F.REG_TENANT_LIM_B_PAGES t
      wr (countPages s t) F.REG_TENANT_CTL_RECLAIM_STATUS t (if ok then stOk else stQuota))

/-! ## Queue pairs (R320) -/

/-- A session may bind a queue pair for itself; once bound, its tenant or the operator may unbind it. -/
def mayBindQp (s : State) (a : Agent) (qp : Nat) : Bool :=
  qp < 64 && (rightsOf s a).isSome && (!rdB s F.STRM_QP_CFG_EN qp || ownsOrOperator s a (rd s F.STRM_QP_CFG_TENANT qp))

/-- R320: EN is set and committed; the binding carries the session's tenant. -/
def execQpEnable (a : Agent) (qp : Nat) (s : State) : Host.Outcome State Fault Refusal :=
  .next (if mayBindQp s a qp ∧ rdB s F.STRM_QP_CFG_EN qp = false then
      let s := wr s F.STRM_QP_CFG_TENANT qp ((rightsOf s a).getD 0)
      let s := stage s F.STRM_QP_CFG_EN qp 1
      let s := capture1 (capture1 s F.STRM_QP_CFG_EN qp) F.STRM_QP_LEDGER_ADDR qp
      capture1 (capture1 s F.STRM_QP_EMIT_ADDR qp) F.STRM_QP_IDX_ADDR qp
    else s)

/-- R320: EN is cleared and committed. -/
def execQpDisable (a : Agent) (qp : Nat) (s : State) : Host.Outcome State Fault Refusal :=
  .next (if mayBindQp s a qp ∧ rdB s F.STRM_QP_CFG_EN qp then capture1 (stage s F.STRM_QP_CFG_EN qp 0) F.STRM_QP_CFG_EN qp else s)

end Sys2Proof.Machine
end

