-- ==== Sys2Proof/Machine/Twin.lean ====
section
/-! DEFINITION. Twin pairing and continuity (R355–R379): pairing, journal exchange, loss, fencing, takeover, cover, handback and planned
handover. -/

namespace Sys2Proof.Machine

def modTwin (s : State) (f : TwinSt → TwinSt) : State := { s with twin := f s.twin }
def sendTwin (s : State) (m : TwinOut) : State := modTwin s fun t => { t with sent := m :: t.sent }

/-- A change of TWIN_STATUS.STATE, recorded at the head of the journal ring (R379). -/
def setTwin (s : State) (st : Nat) : State := modTwin (wr s F.TWIN_STATUS_STATE 0 st) fun t => { t with recorded := st }

/-- The twin ports that are up. -/
def twinPortsUp (s : State) : Nat := rd s F.TWIN_STATUS_PORTS_UP 0 &&& rd s F.TWIN_CTL_PORTS 0

/-- The engine owns open streams (R357, R358). -/
def ownsStreams (s : State) : Bool := s.strm.slots.any fun e => e.2.state ≠ .closed && !e.2.mirror

/-- JSN_SENT and JSN_ACKED (R381). -/
def noteJsn (s : State) : State :=
  wrAll s 0 [(F.TWIN_JSN_SENT_JSN, s.strm.journal.next - 1), (F.TWIN_JSN_ACKED_JSN, committedJsn s)]

/-! ## Pairing (R357, R358) -/

/-- OFFERING begins when PAIR_EN is set and a twin port is up; without a port CAUSE is NO_PORT (R355, R381). -/
def startOffering (s : State) : State :=
  if rdB s F.TWIN_CTL_PAIR_EN 0 ∧ twState s = twUnpaired then
    let s := wr s F.TWIN_FAMILY_DIGEST 0 (natOfBytes ((Config.familyDigest (planSetNow s)).take 8))
    setTwin (wr s F.TWIN_STATUS_CAUSE 0 (if twinPortsUp s = 0 then 6 else 0)) twOffering
  else s

def execPairEnSet (s : State) : Host.Outcome State Fault Refusal := .next (startOffering s)

/-- The open streams that this engine owns (R357). -/
def ownedStreams (s : State) : Nat := (s.strm.slots.filter fun e => e.2.state ≠ .closed && !e.2.mirror).length

/-- This engine's offer with its nonce (R357), signed over its fields in that order. -/
def ownOffer (s : State) : OfferOut :=
  let family := Config.familyDigest (planSetNow s)
  let o : OfferOut := ⟨ownNode s, identityPub, rd s F.KEEP_ID_ORDER 0, bootCount s, family, ownedStreams s, rd s F.TWIN_STATUS_ROLE 0, s.twin.nonce, s.twin.peerNonce, []⟩
  { o with sig := identitySign (bytesOf 2 o.node ++ o.pubKey ++ bytesOf 1 o.order ++ bytesOf 8 o.boot ++ o.family ++ bytesOf 4 o.owned ++ bytesOf 1 o.role ++
      bytesOf 8 o.nonce ++ bytesOf 8 o.answered) }

/-- R357: an offer is sent on every twin port that is up, by an engine that offers, or that carries its partner's streams (R374). -/
def execOfferTimer (s : State) : Host.Outcome State Fault Refusal :=
  .next (if (twState s = twOffering ∨ twState s = twCarrying) ∧ twinPortsUp s ≠ 0 then
      let (n, s) := draw s (2 ^ 64)
      let s := modTwin s fun t => { t with nonce := n }
      sendTwin s (.offer (ownOffer s))
    else s)

/-- Cellar bytes by ordering code (R3): 0x1 QB48-F64, 0x2 QB48-F48. -/
def cellarBytes (order : Nat) : Nat := if order = 1 then 48 * 64 * 2 ^ 30 else 48 * 48 * 2 ^ 30

/-- Cellar bytes that the plans and masters of this engine take. -/
def storeBytes (s : State) : Nat :=
  (s.store.plans.foldl (fun n e => n + e.2.length) 0) + (s.store.masters.foldl (fun n m => n + m.image.length) 0)

/-- The master of a key (R290, R294). -/
def masterAt (s : State) (plan target version : Nat) : Option Master :=
  s.store.masters.find? fun m => m.plan = plan && m.target = target && m.version = version

/-- The cellar footprint of a plan: its image and the masters that its cask table names (R3). -/
def planFootprintBytes (s : State) (b : List Byte) : Nat :=
  ((caskEntries b).map fun e => (e.plan, e.target, e.version)).eraseDups.foldl
    (fun n k => n + (match masterAt s k.1 k.2.1 k.2.2 with | some m => m.image.length | none => 0)) b.length

/-- The footprint of the largest plan that is bound (R357). -/
def boundPlanBytes (s : State) : Nat :=
  ((boundRegions s).map fun r => planFootprintBytes s (boundPlan s r)).foldl max 0

/-- The peer key fingerprint that the operator wrote. -/
def peerKeyRegs (s : State) : List Byte := (List.range 4).flatMap fun i => bytesOf 8 (rd s F.TWIN_PEER_KEY_KEY i)

/-- The pairing checks in order: the CAUSE of the first that fails, 0 when all pass. -/
def pairingCause (s : State) (m : OfferMsg) : Nat :=
  if ¬ (m.sigOk ∧ shake256 m.pubKey 32 = peerKeyRegs s) then 1
  else if m.family ≠ Config.familyDigest (planSetNow s) then 2
  else if min (cellarBytes m.order) (cellarBytes (rd s F.KEEP_ID_ORDER 0)) < max m.planBytes (boundPlanBytes s) then 3
  else if 0 < m.owned ∧ ownsStreams s then 4
  else if (match s.twin.fencedBoot with | some b => decide (m.boot ≤ b) | none => false) then 5
  else 0

/-- The role of this engine under R358. -/
def settleRole (s : State) (m : OfferMsg) : Nat :=
  if ownsStreams s ∨ s.twin.carrying then rd s F.TWIN_STATUS_ROLE 0
  else if 0 < m.owned ∨ m.carrying then 1 - m.role.toNat
  else if rd s F.NET_FAB_CTL_NODE 0 < m.node.toNat then 0 else 1

/-- R357: a received offer is checked and settles the roles; a passed check leads to the key exchange (R391). -/
def execOffer (m : OfferMsg) (s : State) : Host.Outcome State Fault Refusal :=
  .next (if ¬ (twState s = twOffering ∨ twState s = twCarrying) then s
    else
      let s := modTwin s fun t => { t with peerNonce := m.nonce, peerBoot := m.boot, peerCellar := cellarBytes m.order }
      let s := wrAll s 0 [(F.TWIN_PEER_PEER_NODE, m.node.toNat), (F.TWIN_PEER_FAMILY_DIGEST, natOfBytes (m.family.take 8))]
      let c := pairingCause s m
      if c ≠ 0 then
        let seen := s.twin.causes.contains c
        let s := modTwin (wr s F.TWIN_STATUS_CAUSE 0 c) fun t => { t with slow := true, checked := false, causes := c :: t.causes.filter (· ≠ c) }
        if seen then s else raiseEngine s .report evTwinPairFail 0 0
      else if s.twin.checked then s
      else
        let role := settleRole s m
        let s := wrAll s 0 [(F.TWIN_STATUS_CAUSE, 0), (F.TWIN_STATUS_ROLE, role), (F.TWIN_PEER_PEER_ROLE, 1 - role)]
        sendTwin (modTwin s fun t => { t with slow := false, checked := true, peerCarrying := m.carrying }) .keyx)

/-- The pair key (R391): the first 32 bytes of SHAKE256 over the shared secret and both offer nonces, that of the engine of role 0 first. -/
def pairKeyOf (s : State) (shared : List Byte) : List Byte :=
  let own := bytesOf 8 s.twin.nonce
  let peer := bytesOf 8 s.twin.peerNonce
  shake256 (shared ++ (if rd s F.TWIN_STATUS_ROLE 0 = 0 then own ++ peer else peer ++ own)) 32

/-! ## Resynchronisation (R359) -/

/-- The mirror writes of one page of a stream: the rows of its sealed blocks, layer by layer, as they are exported (R246). A page in hall memory only,
or one that a stream in a lower slot copies, has none, and the stream's SEAL records end before it. -/
def copyPage (slot : Nat) (s : State) (e : Nat × Nat) : State :=
  let k := kvNow s
  let p := pageOf s e.1
  let h := handleOf slot (streamAt s slot).gen
  let shared := s.strm.slots.any fun x => x.1 < slot && x.2.state ≠ .closed && !x.2.mirror && x.2.pages.contains e.1
  if p.hall ∨ shared then modStream s slot fun x => { x with gap := some (min (x.gap.getD (64 * e.2)) (64 * e.2)) }
  else
    (List.range p.sealedBlocks).foldl (fun s b => (List.range k.layers).foldl (fun s layer =>
      let rows := (blockRows k 0 b [] []).map fun r => (pageImage k p layer).getD r.1 0
      mirrorWrite s 0 (Config.mirrorPlace h layer (4 * e.2 + b)) (rows.flatMap fun r => bytesOf 64 r.toNat) (.mirror h (64 * e.2 + 16 * (b + 1)))) s) s

/-- The mirror of an owned stream is copied into the twin's cellar (R359): its STATE record, its input log with its embeddings, its tail record and its
pages. -/
def copyStream (s : State) (slot : Nat) : State :=
  let s := modStream (landExports s slot) slot fun x => { x with mirrored := 0, gap := none }
  let x := streamAt s slot
  let h := handleOf slot x.gen
  let put (s : State) (place : Nat) (data : List Byte) : State := if data = [] then s else mirrorWrite s 0 place data (.mirrorLog h)
  let s := put (addStateRecord s slot) (Config.mirrorLog h) (x.log.flatMap (bytesOf 4))
  let s := x.embeds.foldl (fun s e => put s (Config.mirrorEmbed h e.1) e.2) s
  let s := (tailRecord s slot).foldl (fun s e => put s (Config.mirrorTail h e.1) (e.2.flatMap fun r => bytesOf 64 r.toNat)) s
  x.pages.zipIdx.foldl (copyPage slot) s

/-- Resynchronisation begins (R359): every owned open stream is copied, and the twin learns the queue pairs that this engine has bound. -/
def startResync (s : State) : State :=
  let own := (s.strm.slots.filter fun e => e.2.state ≠ .closed && !e.2.mirror).map (·.1)
  let qps := (s.strm.qps.filter fun e => e.2.bound && !s.twin.adopted.contains e.1).map (·.1)
  let s := modTwin s fun t => { t with resync := own.map fun k => (handleOf k (streamAt s k).gen, none), resyncAll := own.length }
  own.foldl copyStream (qps.foldl noteQp s)

/-- A stream's mirror is complete when its copy has landed and every record up to that point is acknowledged (R359); SYNC shows the completed share. -/
def syncStep (s : State) : State :=
  if s.twin.resync = [] then s
  else
    let waits (h : Nat) : Bool := s.fab.msgs.any fun m => match m.user with
      | .mirror g _ => g = h
      | .mirrorLog g => g = h
      | _ => false
    let open' (h : Nat) : Bool := (streamAt s (slotOf h)).state ≠ .closed && genOf h = (streamAt s (slotOf h)).gen
    let seen := s.twin.resync.map fun e => if e.2 = none ∧ waits e.1 = false then (e.1, some (s.strm.journal.next - 1)) else e
    let left := seen.filter fun e => open' e.1 && (match e.2 with | some j => decide (s.strm.journal.acked < j) | none => true)
    wr (modTwin s fun t => { t with resync := left }) F.TWIN_STATUS_SYNC 0 (100 * (s.twin.resyncAll - left.length) / max 1 s.twin.resyncAll)

/-- R391: a signed key-exchange message forms the pair key, and resynchronisation begins (R359). The JSN starts at 1 (R360). -/
def execKeyx (m : KeyxMsg) (s : State) : Host.Outcome State Fault Refusal :=
  .next (if m.sigOk ∧ s.twin.checked ∧ (twState s = twOffering ∨ twState s = twCarrying) then
      let s := releaseCommitted s
      let s := modTwin s fun t => { t with pairKey := some (pairKeyOf s m.shared), misses := 0, lastHb := none, hbWait := false }
      let cmds := s.strm.cmds.map fun (c : LCmd) => { c with jsn := 0 }
      let s := { s with strm := { s.strm with journal := ⟨1, 0, [], [], 1, 0, false, false⟩, cmds := cmds }, fab := { s.fab with journalled := 0 } }
      noteJsn (startResync (setTwin (wr s F.TWIN_STATUS_SYNC 0 0) twSyncing))
    else s)

/-! ## Mirrors (R359, R370): a stream's context from the mirror store -/

/-- The rows of a sealed block as the mirror store holds them, in the order of their mirror write (R359, R361). -/
def mirrorRows (s : State) (h layer block : Nat) : List (Nat × RowData) :=
  let at' := mirrorBase + Config.mirrorPlace h layer block
  (blockRows (kvNow s) 0 (block % 4) [] []).mapIdx fun i r => (r.1, BitVec.ofNat 512 (natOfBytes (exportBytes s (at' + 64 * i) 64)))

/-- Page j of a mirrored stream whose positions below n its mirror holds. -/
def mirrorPage (s : State) (slot n j : Nat) (p : Page) : Page :=
  let k := kvNow s
  let h := handleOf slot (streamAt s slot).gen
  let cells := (List.range k.layers).map fun layer => (layer, (List.range (sealedIn n j)).foldl (fun img b =>
    setRows img (mirrorRows s h layer (4 * j + b))) (List.replicate (frameRows k) 0))
  { p with sealedBlocks := sealedIn n j, cells := cells }

/-- The log of a mirror with the words that resynchronisation copied, and their embeddings (R250, R359). -/
def mirrorLogOf (s : State) (x : Stream) : List Nat × Table (List Byte) :=
  let n := 2 * Config.embedWidth (servingPlan s x.region)
  let ws := (List.range (min x.bulk x.log.length)).map fun i => natOfBytes (exportBytes s (mirrorBase + Config.mirrorLog x.bulkOf + 4 * i) 4)
  let emb := (ws.zipIdx.filter fun e => e.1.testBit 19).map fun e => (e.2, exportBytes s (mirrorBase + Config.mirrorEmbed x.bulkOf e.2) n)
  (ws ++ x.log.drop x.bulk, emb ++ x.embeds)

/-- A mirrored stream is served here (R370 step 3): its log is whole again, its sealed blocks come from the mirror store, and the positions from the
last one that a SEAL record names are re-prefilled. -/
def restoreMirror (s : State) (slot : Nat) : State :=
  let x := streamAt s slot
  let n := 16 * (min x.mirrored x.log.length / 16)
  let (log, embeds) := mirrorLogOf s x
  let s := modStream s slot fun x =>
    { x with mirror := false, log := log, embeds := embeds, bulk := 0, gap := none, pages := [], tail := [], prevTail := [], prev := false, cur := 0, built := n, redo := decide (n < x.log.length),
             appended := 0, seat := none, run := none, sampled := [], wants := false, waiting := false,
             state := if x.state = .generating ∨ x.state = .prefill then .ready else x.state }
  countPages ((List.range (pagesFor n)).foldl (fun s j =>
    let (p, s) := newPage s x.tenant
    let s := setPage s p (mirrorPage s slot n j (pageOf s p))
    modStream s slot fun x => { x with pages := x.pages ++ [p] }) s) x.tenant

/-- The mirror of a stream that is served elsewhere again: nothing of it stays on the wafer. -/
def becomeMirror (s : State) (slot : Nat) : State :=
  let s := dropSeat (landExports s slot) slot
  countStreams (freePages (modStream s slot fun x =>
    { x with mirror := true, covered := false, run := none, sampled := [], pages := [], tail := [], prevTail := [], built := 0, redo := false }))

/-- The queue pair number under which a partner's queue pair n is adopted here (R349). -/
def adoptedQp (s : State) (n : Nat) : Nat := if (qpOf s n).bound && !s.twin.adopted.contains n then n + 64 else n

/-- A partner's commands in the ledger order, under queue pair numbers that place gives them; they wait in phase ph. -/
def addMirrored (s : State) (cmds : List LCmd) (ph : CPhase) (place : Nat → Nat) : State :=
  let base := s.strm.nextCmd
  let cmds := cmds.mapIdx fun i (c : LCmd) =>
    ({ c with id := base + i, jsn := 0, qp := place c.qp, phase := if c.phase = .accepted then .accepted else ph } : LCmd)
  let s := { s with strm := { s.strm with cmds := s.strm.cmds ++ cmds, nextCmd := base + cmds.length } }
  wr s F.STRM_STATUS_OUTSTANDING 0 (rd s F.STRM_STATUS_OUTSTANDING 0 + cmds.length)

/-- A mirrored stream that the twin hands over under cover or shedding is computed here from its last committed token (R372); its accepted commands go
on, and the records of their entries go to the owner. -/
def serveMirror (s : State) (slot : Nat) : State :=
  let h := handleOf slot (streamAt s slot).gen
  let mine := s.twin.mcmds.filter fun c => c.handle = h && c.phase ≠ .fetched
  let s := modStream (restoreMirror s slot) slot fun x => { x with covered := true }
  countStreams (modTwin (addMirrored s mine .accepted (· + 128)) fun t => { t with mcmds := t.mcmds.filter fun c => !mine.contains c })

/-- The owner takes a served stream back (R372): its unfinished commands are mirrored ones again. -/
def returnMirror (s : State) (slot : Nat) : State :=
  let x := streamAt s slot
  let h := handleOf slot x.gen
  let mine := (s.strm.cmds.filter fun c => c.handle = h && 128 ≤ c.qp && c.phase ≠ .done).map fun c =>
    let n := match x.run with | some r => if r.cmd = c.id then r.emitted else c.emitted | none => c.emitted
    { c with qp := c.qp % 64, phase := CPhase.accepted, emitted := n }
  let s := { s with strm := { s.strm with cmds := s.strm.cmds.filter fun c => !(c.handle = h && 128 ≤ c.qp) } }
  becomeMirror (modTwin s fun t => { t with mcmds := mine ++ t.mcmds }) slot

/-! ## Handoffs (R361, R372, R374) -/

/-- Streams to hand back to the rejoined partner: those whose slot bit 16 is its role (R374). -/
def handbackSlots (s : State) : List Nat :=
  let peer := rd s F.TWIN_PEER_PEER_ROLE 0
  (s.strm.slots.filter fun e => e.2.state ≠ .closed && !e.2.mirror && e.1 / 65536 = peer).map (·.1)

/-- One stream goes back: it becomes a mirror again. -/
def handbackOne (s : State) (slot : Nat) : State :=
  let h := handleOf slot (streamAt s slot).gen
  let s := handoff s slot 2
  let mine := (s.strm.cmds.filter fun c => c.handle = h && c.phase ≠ .done).map fun c => { c with qp := c.qp % 64 }
  let s := { s with strm := { s.strm with cmds := s.strm.cmds.filter fun c => !(c.handle = h && c.phase ≠ .done) } }
  becomeMirror (modTwin s fun t => { t with mcmds := t.mcmds ++ mine }) slot

/-- Nothing of an adopted queue pair waits here: no entry, and no command that this engine has accepted. -/
def qpQuiet (s : State) (n : Nat) : Bool :=
  (qpOf s n).hold = [] && (qpOf s n).overflow = [] && s.strm.emits.all (fun e => e.qp ≠ n) && s.strm.cmds.all fun c => c.qp ≠ n || c.phase = .fetched

/-- An adopted queue pair goes back by a QP record that shows TAKEN_OVER (R374); what was fetched and not accepted is fetched again by its owner. -/
def handbackQp (s : State) (n : Nat) : State :=
  let s := resetQp (noteQp s n) n
  modTwin (wr (wr s F.STRM_QP_CFG_EN n 0) F.STRM_QP_STATUS_TAKEN_OVER (n % 64) 0) fun t => { t with adopted := t.adopted.filter (· ≠ n) }

/-- Handback at a tick boundary (R374): quiet streams go at once, streams at work when no step of theirs is in flight, and adopted queue pairs once
nothing of them waits here. When the last handback has committed the engine is PAIRED again. -/
def handbackStep (s : State) : State :=
  if twState s ≠ twHandback ∨ s.twin.carrying = false then s
  else
    let quiet := (handbackSlots s).filter fun k => match (streamAt s k).run with | some r => !r.inFlight | none => true
    let s := quiet.foldl handbackOne s
    let s := (s.twin.adopted.filter (qpQuiet s)).foldl handbackQp s
    if handbackSlots s = [] ∧ s.twin.adopted = [] ∧ s.strm.journal.next ≤ s.strm.journal.acked + 1 then
      raiseEngine (setTwin (modTwin s fun t => { t with carrying := false }) twPaired) .report evTwinRejoin 0 0
    else s

/-- R359: every mirror has landed: both engines enter PAIRED, or HANDBACK when one carries the other's streams (R374). This engine's own mirrors are
complete first. -/
def execSyncComplete (s : State) : Host.Outcome State Fault Refusal :=
  .next (if twState s ≠ twSyncing ∨ s.twin.resync ≠ [] then s
    else
      let s := modTwin (wr s F.TWIN_STATUS_SYNC 0 100) fun t => { t with causes := [], checked := false }
      if s.twin.carrying ∨ s.twin.peerCarrying then setTwin s twHandback
      else raiseEngine (setTwin s twPaired) .report evTwinPaired 0 0)

/-! ## Heartbeats (R366, R367) -/

/-- Duration of the current tick in ns. -/
def tickNs (s : State) : Nat := (2 ^ tickK s + stretchOf s) * period (rd s F.TICK_CLK_STATUS_STEP 0) / 84

/-- The heartbeat of this engine. -/
def ownHb (s : State) (handover : Bool) : TwinHb where
  role := BitVec.ofNat 1 (rd s F.TWIN_STATUS_ROLE 0)
  state := BitVec.ofNat 4 (twState s)
  ackedJsn := s.strm.journal.partnerNext - 1
  writtenJsn := s.strm.journal.through
  tick := BitVec.ofNat 32 (tickCount s)
  intervalNs := min (tickNs s) 80000
  keepOk := rdB s F.KEEP_STATUS_OK 0
  handover := handover
  plannedRestart := rdB s F.KEEP_STATUS_PLANNED_RESTART 0
  ringFull := s.strm.journal.partnerFull

/-- The heartbeat goes out on every twin port that is up, while the engines are joined; after SPIRE_FAULT_N the controller is silent (R432). -/
def sendHb (s : State) : State :=
  if journaled s ∧ twinPortsUp s ≠ 0 ∧ ¬ rdB s F.PWR_STATUS_SPIRE_FAULT 0 then modTwin s fun t => { t with hbSent := ownHb s false :: t.hbSent } else s

def execTwinHeartbeatTimer (s : State) : Host.Outcome State Fault Refusal := .next (sendHb s)

/-- A stream whose copies are lost (R378). -/
def loseStream (s : State) (slot : Nat) : State :=
  let x := streamAt s slot
  raiseRegion (setStream s slot { x with lost := true }) .alarm evStreamLost x.region 0 0

/-- The copy of a mirror's log has landed in this engine's mirror store, byte by byte. -/
def logLanded (s : State) (x : Stream) : Bool :=
  (List.range (4 * x.bulk)).all fun i => (tget? s.fab.window (mirrorBase + Config.mirrorLog x.bulkOf + i)).isSome

/-- The twin is declared lost (R366, R368): the fence is requested; this engine's own streams go on. A SYNCING engine loses the partner's
streams whose mirror is not complete (R378). -/
def declareLoss (s : State) : State :=
  let lost := if twState s = twSyncing then
      (s.strm.slots.filter fun e => e.2.mirror && e.2.state ≠ .closed && !logLanded s e.2).map (·.1) else []
  let s := modTwin s fun t => { t with resync := [] }
  let s := raiseEngine s .alarm evTwinLost 0 0
  let s := setTwin (modTwin s fun t => { t with misses := 0, fenceNum := t.fenceNum + 1, hbWait := false }) twFencing
  let s := wrAll s 0 [(F.TWIN_FENCE_REQ, 1), (F.TWIN_FENCE_ACKED, 0), (F.TWIN_STATUS_PEER_KEEP, 0)]
  let s := raiseSource (sendTwin s (.fence s.twin.fenceNum)) 23
  noteJsn (releaseCommitted (survivorRack (lost.foldl loseStream s)))

/-- One missed heartbeat; three in a row declare the twin lost (R366). -/
def hbMiss (s : State) : State :=
  if ¬ journaled s then s
  else
    let s := raiseSource (bump (modTwin s fun t => { t with misses := t.misses + 1 }) F.TWIN_CNT_HB_MISS 0 1) 24
    if 3 ≤ s.twin.misses then declareLoss s else s

def execTwinHeartbeatMiss (s : State) : Host.Outcome State Fault Refusal := .next (hbMiss s)

/-- Records both applied and written through leave the rings (R364). -/
def trimRings (s : State) (partnerThrough : Nat) : State :=
  let j := s.strm.journal
  let keep := min (committedJsn s) j.through
  { s with strm := { s.strm with journal := { j with
      ring := j.ring.filter fun r => keep < r.jsn, partner := j.partner.filter fun r => partnerThrough < r.jsn } },
           twin := { s.twin with owed := s.twin.owed.filter fun e => partnerThrough < e.jsn } }

/-- The twin acknowledges every record up to a JSN (R362). -/
def journalAck (s : State) (jsn : Nat) : State :=
  let j := s.strm.journal
  if journaled s ∧ j.acked < jsn ∧ jsn < j.next then
    let s := raiseSource { s with strm := { s.strm with journal := { j with acked := jsn } } } 25
    noteJsn (releaseCommitted (syncStep s))
  else s

/-- The partner has taken back its streams and is PAIRED: so is this engine (R374). -/
def endRejoin (s : State) (m : TwinHb) : State :=
  if twState s = twHandback ∧ s.twin.carrying = false ∧ m.state.toNat = twPaired then
    raiseEngine (setTwin (modTwin s fun t => { t with peerCarrying := false }) twPaired) .report evTwinRejoin 0 0
  else s

/-- R366: a heartbeat arrives; one without KEEP_OK counts as missed unless its restart is planned (R367); after loss it is ignored (R380). -/
def execTwinHeartbeat (m : TwinHb) (s : State) : Host.Outcome State Fault Refusal :=
  .next (if ¬ journaled s then s
    else
      let s := wr (modTwin s fun t => { t with lastHb := some m, hbWait := m.plannedRestart && !m.keepOk }) F.TWIN_STATUS_PEER_KEEP 0 (bit m.keepOk)
      let s := endRejoin (trimRings (journalAck s m.ackedJsn) m.writtenJsn) m
      if ¬ m.keepOk ∧ ¬ m.plannedRestart then hbMiss s else modTwin s fun t => { t with misses := 0 })

/-- R367: a planned Keep-only restart of the twin has not brought KEEP_OK back within 2 s. -/
def execKeepOkWaitExpiry (s : State) : Host.Outcome State Fault Refusal :=
  .next (if journaled s ∧ s.twin.hbWait then declareLoss s else s)

/-! ## The mirror (R362) -/

/-- A partner's CMD record (R361, R370): whole once its last DATA record has come. It interrupts and withholds as at the partner's own fetch (R334,
R335), and one for a stream that this engine serves joins its commands. -/
def applyCmd (s : State) (r : JRec) : State :=
  let e := r.body
  let op := numAt e 0 1
  let h := numAt e 4 4
  let c : LCmd := ⟨0, r.qp, op, numAt e 1 1, h, (e.drop 8).take 8, e, [], r.jsn, none, if r.last then .mirrored else .fetched, false, 0, none⟩
  let s := if staleTruncate s op h e then s else withholdBy (interruptBy s op h) op h e
  if partnerServed s (slotOf h) ∧ 2 ≤ op ∧ r.last then addMirrored s [c] .accepted (· + 128) else modTwin s fun t => { t with mcmds := t.mcmds ++ [c] }

/-- A DATA record completes the CMD before it. -/
def applyData (s : State) (r : JRec) : State :=
  match s.twin.mcmds.getLast? with
  | none => s
  | some c =>
    let c := { c with data := c.data ++ r.body, phase := if r.last then .mirrored else c.phase }
    let rest := s.twin.mcmds.dropLast
    if r.last ∧ partnerServed s (slotOf c.handle) ∧ 2 ≤ c.op then addMirrored (modTwin s fun t => { t with mcmds := rest }) [c] .accepted (· + 128)
    else modTwin s fun t => { t with mcmds := rest ++ [c] }

/-- A token of a partner's GENERATE counts toward its COUNT; the flags of the last say how it ends (R333, R345). -/
def countToken (c : LCmd) (flags : Nat) : LCmd :=
  let n := c.emitted + 1
  let detail := if flags.testBit 0 then 1 else if numAt c.entry 16 4 ≤ n then 0 else 2
  { c with emitted := n, ended := if flags.testBit 2 then some (stOk, detail) else none }

/-- The first element of a list that p holds of, changed. -/
def modFirst (p : LCmd → Bool) (f : LCmd → LCmd) : List LCmd → List LCmd
  | [] => []
  | c :: cs => if p c then f c :: cs else c :: modFirst p f cs

/-- A partner's TOKEN record: a position of its stream, and an entry that is owed until the partner has written it (R364). -/
def applyToken (s : State) (r : JRec) : State :=
  let h := r.handle.toNat
  let slot := slotOf h
  let x := streamAt s slot
  if numAt r.body 8 8 ≠ nextIndex x then s
  else
    let mine (c : LCmd) : Bool := c.handle = h && c.op = 3
    let irq := match s.twin.mcmds.find? mine with | some c => c.flags.testBit 2 | none => false
    let s := setStream s slot { x with log := x.log ++ [hideByToken (servingPlan s x.region) (numAt r.body 16 4)] }
    modTwin s fun t => { t with mcmds := modFirst mine (countToken · (numAt r.body 5 1)) t.mcmds,
                                owed := t.owed ++ [⟨r.jsn, r.qp, r.body, irq, h, some (numAt r.body 8 4), none⟩] }

/-- What a partner's command that completed with OK did to its stream's log: an APPEND's positions, or a FORK's child (R250, R336). -/
def applyDone (s : State) (c : LCmd) (body : List Byte) : State :=
  let x := streamAt s (slotOf c.handle)
  let plan := servingPlan s x.region
  if numAt body 5 1 ≠ 0 then s
  else if c.op = 2 then
    let ws := ((appendWords c).map (hideByToken plan)).drop x.appended
    let w := 2 * Config.embedWidth plan
    let emb := if numAt c.entry 20 1 = 2 then
        (List.range ws.length).map fun i => (x.log.length + i, (c.data.drop (w * (x.appended + i))).take w) else []
    modStream s (slotOf c.handle) fun x => { x with log := x.log ++ ws, embeds := x.embeds ++ emb, appended := 0, state := .ready }
  else if c.op = 5 then
    modStream s (slotOf (numAt body 24 4)) fun y => { y with log := x.log, embeds := x.embeds, tenant := x.tenant, bulk := x.bulk, bulkOf := x.bulkOf }
  else s

/-- A partner's CMPL record: an ACCEPTED notice says that it has accepted the command; any other ends it. -/
def applyCmpl (s : State) (r : JRec) : State :=
  let h := r.handle.toNat
  let tag := (r.body.drop 8).take 8
  let mine (c : LCmd) : Bool := c.tag = tag && c.qp = r.qp && (c.handle = h || c.op = 1)
  let hit := s.twin.mcmds.find? mine
  let irq := match hit with | some c => c.flags.testBit 0 | none => false
  let s := modTwin s fun t => { t with owed := t.owed ++ [⟨r.jsn, r.qp, r.body, irq && numAt r.body 5 1 ≠ stAccepted, h, none, none⟩] }
  if numAt r.body 5 1 = stAccepted then modTwin s fun t => { t with mcmds := modFirst mine (fun c => { c with phase := .accepted }) t.mcmds }
  else
    let s := match hit with | some c => applyDone s c r.body | none => s
    modTwin s fun t => { t with mcmds := match hit with | some c => t.mcmds.erase c | none => t.mcmds }

/-- A partner's STATE record; a cut takes the positions above the length it names (R253). Positions that no record has brought are copied into the mirror
store (R359). -/
def applyState (s : State) (r : JRec) : State :=
  let h := r.handle.toNat
  let st := match numAt r.body 0 4 with
    | 0 => SState.opened | 1 => .prefill | 2 => .ready | 3 => .generating | 4 => .parked | _ => .closed
  let n := numAt r.body 24 8
  modStream s (slotOf h) fun x =>
    let x := if x.gen = genOf h then x else blankStream
    let copied : Bool := x.log.length < n
    { x with gen := genOf h, state := st, epoch := numAt r.body 4 4, seed := numAt r.body 8 8, region := numAt r.body 16 2,
             version := r.version.toNat, mirror := true, tenant := regionTenant s (numAt r.body 16 2), withhold := none,
             log := if copied then List.replicate n 0 else x.log.take n, embeds := if copied then [] else x.embeds.filter fun e => e.1 < n,
             bulk := if copied then n else min x.bulk n, bulkOf := if copied then h else x.bulkOf, mirrored := min x.mirrored n }

/-- A partner's QP record (R361, R374): a binding is kept and one with EN = 0 is forgotten; one that shows TAKEN_OVER hands this engine's queue pair back,
whose ring it writes from the EMIT_PI that the index block gives. -/
def applyQp (s : State) (r : JRec) : State :=
  let w (i : Nat) : Word := BitVec.ofNat 64 (numAt r.body (8 * i) 8)
  if getF F.STRM_QP_CFG_EN (w 0) = 0 then modTwin s fun t => { t with mirrorQps := tdel t.mirrorQps r.qp }
  else if getF F.STRM_QP_STATUS_TAKEN_OVER (w 4) = 1 ∧ s.twin.peerCarrying then
    bindQp { s with regs := tsetAll s.regs [(fkey F.STRM_QP_CFG_EN r.qp, w 0), (fkey F.STRM_QP_LEDGER_ADDR r.qp, w 1),
      (fkey F.STRM_QP_EMIT_ADDR r.qp, w 2), (fkey F.STRM_QP_IDX_ADDR r.qp, w 3)] } r.qp
  else modTwin s fun t => { t with mirrorQps := tset t.mirrorQps r.qp r.body }

/-- A HANDOFF record (R372–R374): a mirrored stream is served here, or owned here again after a rejoin; a served one goes back. -/
def applyHandoff (s : State) (r : JRec) : State :=
  let slot := slotOf r.handle.toNat
  let x := streamAt s slot
  if numAt r.body 8 1 ≠ 2 then (if x.mirror then serveMirror s slot else s)
  else if x.mirror then
    let mine := s.twin.mcmds.filter fun c => c.handle = r.handle.toNat && c.phase ≠ .fetched
    let s := addMirrored (restoreMirror s slot) mine .accepted id
    countStreams (modTwin s fun t => { t with mcmds := t.mcmds.filter fun c => !mine.contains c })
  else if partnerServed s slot then returnMirror s slot
  else s

/-- A partner record applied to the mirror. -/
def applyRecord (s : State) (r : JRec) : State :=
  match r.type.toNat with
  | 1 => applyCmd s r
  | 2 => applyData s r
  | 3 => applyToken s r
  | 4 => applyCmpl s r
  | 5 => applyState s r
  | 6 => modStream s (slotOf r.handle.toNat) fun x => { x with mirrored := max x.mirrored (numAt r.body 0 8) }
  | 7 => applyQp s r
  | 8 => applyHandoff s r
  | _ => s

/-- A committed record of a covered stream that the twin computes (R372): an entry is written once, from its first copy; a completed APPEND extends the
log, and a cut shortens it. -/
def coveredEntry (s : State) (r : JRec) : State :=
  let slot := slotOf r.handle.toNat
  let x := streamAt s slot
  match r.type.toNat with
  | 3 =>
    if numAt r.body 8 8 < nextIndex x then bump s F.TWIN_CNT_DUP_SUPPRESSED 0 1
    else
      let irq := match s.strm.cmds.find? fun c => c.handle = r.handle.toNat && c.op = 3 with | some c => c.flags.testBit 2 | none => false
      emitEntry (setStream s slot { x with log := x.log ++ [hideByToken (servingPlan s x.region) (numAt r.body 16 4)],
                                           run := x.run.map fun r => { r with emitted := r.emitted + 1 } }) x.qp
        (r.body.take 24 ++ bytesOf 8 (hallNs s)) irq
  | 4 =>
    let tag := (r.body.drop 8).take 8
    match s.strm.cmds.find? fun c => c.tag = tag && c.handle = r.handle.toNat with
    | some c =>
      let s := finishCmd (applyDone s c r.body) c.id c.qp
      emitEntry (if c.op = 3 then modStream s slot fun x => { x with run := none, state := .ready } else s) c.qp r.body (c.flags.testBit 0)
    | none => s
  | 5 =>
    let n := numAt r.body 24 8
    modStream s slot fun x => { x with epoch := numAt r.body 4 4, withhold := none, log := x.log.take n, embeds := x.embeds.filter fun e => e.1 < n,
                                       built := min x.built n, mirrored := min x.mirrored n }
  | _ => s

/-- One record from the twin (R361, R362): written to the partner ring in JSN order and applied; one that fails its check is asked for again. -/
def takeRecord (s : State) (r : JRec) : State :=
  let j := s.strm.journal
  if r.jsn < j.partnerNext then s
  else if ¬ r.checkOk ∨ (8 < r.type.toNat ∧ r.type.toNat ≠ 0x0F) ∨ r.type = 0 then
    sendTwin (raiseEngine s .report evJournalCheck 0 0) (.askAgain j.partnerNext)
  else if r.jsn ≠ j.partnerNext then sendTwin s (.askAgain j.partnerNext)
  else if 2 ^ 30 < ringBytes j.partner + recSize r then { s with strm := { s.strm with journal := { j with partnerFull := true } } }
  else
    let s := { s with strm := { s.strm with journal :=
      { j with partner := j.partner ++ [r], partnerNext := j.partnerNext + 1, partnerFull := false } } }
    let x := streamAt s (slotOf r.handle.toNat)
    if !x.mirror && x.covered && !partnerServed s (slotOf r.handle.toNat) && [3, 4, 5].contains r.type.toNat then coveredEntry s r else applyRecord s r

/-- R362: records arrive from the twin; the highest JSN written is acknowledged. -/
def execJournal (recs : List JRec) (s : State) : Host.Outcome State Fault Refusal :=
  .next (if ¬ journaled s then s
    else
      let s := recs.foldl takeRecord s
      sendTwin s (.ack (s.strm.journal.partnerNext - 1)))

/-! ## Fencing and takeover (R368–R370, R349) -/

/-- A partner's queue pair is adopted (R349): its registers from its QP record, and the entries that it owed wait for its index block to be read. -/
def adoptQp (s : State) (e : Nat × List Byte) : State :=
  let n := adoptedQp s e.1
  let w (i : Nat) : Word := BitVec.ofNat 64 (numAt e.2 (8 * i) 8)
  let s := { s with regs := tsetAll s.regs [(fkey F.STRM_QP_CFG_EN n, w 0), (fkey F.STRM_QP_LEDGER_ADDR n, w 1),
    (fkey F.STRM_QP_EMIT_ADDR n, w 2), (fkey F.STRM_QP_IDX_ADDR n, w 3)] }
  let due (d : Emit) : Bool := d.qp = e.1 && (match d.pos with | some p => !withheld (streamAt s (slotOf d.handle)) p | none => true)
  let hold := (s.twin.owed.filter due).map fun d => ((if d.pos.isSome then d.bytes.take 24 ++ bytesOf 8 (hallNs s) else d.bytes), d.irq)
  let s := modTwin s fun t => { t with adopted := t.adopted ++ [n] }
  wr (noteHold (setQp s n { blankQp with bound := true, hold := hold }) n) F.STRM_QP_STATUS_TAKEN_OVER (n % 64) 1

/-- The takeover is complete once every adopted queue pair's index block is read and the entries that it owed are written (R370). -/
def noteTaken (s : State) : State :=
  if s.twin.taking ∧ s.twin.adopted.all (fun n => (qpOf s n).indexed && (qpOf s n).hold = [] && (qpOf s n).overflow = []) then
    raiseEngine (bump (modTwin s fun t => { t with taking := false }) F.TWIN_CNT_TAKEOVERS 0 1) .alarm evTwinTakeover 0 0
  else s

/-- The partner is fenced (R370): its mirror slots are served here from their last committed tokens, its whole commands wait for their queue pair's
index block, and its queue pairs are adopted. -/
def takeOver (s : State) : State :=
  let mine := (s.strm.slots.filter fun e => e.2.mirror && e.2.state ≠ .closed).map (·.1)
  let s := mine.foldl restoreMirror s
  let place (n : Nat) : Nat := adoptedQp s n
  let s := addMirrored s (s.twin.mcmds.filter fun c => c.phase ≠ .fetched) .mirrored place
  let own (c : LCmd) : LCmd := if 128 ≤ c.qp then { c with qp := place (c.qp % 64) } else c
  let slots := s.strm.slots.map fun (e : Nat × Stream) =>
    if partnerServed s e.1 then (e.1, { e.2 with covered := false, qp := place (e.2.qp % 64) }) else e
  let s := { s with strm := { s.strm with cmds := s.strm.cmds.map own, slots := slots } }
  let s := s.twin.mirrorQps.foldl adoptQp s
  let s := modTwin s fun t => { t with mcmds := [], owed := [], mirrorQps := [], resync := [], carrying := true, peerCarrying := false, taking := true,
                                       fencedBoot := some t.peerBoot }
  noteTaken (countStreams (setTwin (wrAll s 0 [(F.TWIN_FENCE_REQ, 0)]) twCarrying))

/-- R368: a FENCE is sent again. -/
def execFenceResend (s : State) : Host.Outcome State Fault Refusal :=
  .next (if twState s = twFencing ∨ twState s = twHolding then sendTwin s (.fence s.twin.fenceNum) else s)

/-- R368: the host confirms in an operator session that the partner is fenced. -/
def execFenceConfirm (a : Agent) (s : State) : Host.Outcome State Fault Refusal :=
  .next (if isOperator s a = false then noteRefused s F.TWIN_COMMIT_WRITE_STATUS 0 stBadHandle
    else if twState s = twFencing ∨ twState s = twHolding then takeOver s else s)

/-- R368: no confirmation within FENCE_WAIT. -/
def execFenceWaitExpiry (s : State) : Host.Outcome State Fault Refusal :=
  .next (if twState s = twFencing then raiseEngine (setTwin s twHolding) .alarm evTwinFenceFail 0 0 else s)

/-- The last heartbeat of the partner announced a handover. -/
def handoverSeen (s : State) : Bool := match s.twin.lastHb with | some h => h.handover | none => false

/-- R368, R369: a FENCE_ACK from the partner, which echoes the FENCE (R389), confirms the fence; one sent unprompted after a heartbeat with
HANDOVER lets the takeover begin at once. -/
def execFenceAck (m : FenceMsg) (s : State) : Host.Outcome State Fault Refusal :=
  .next (if s.twin.pairKey = none then s
    else if ¬ m.tagOk then bump s F.NET_FAB_CNT_AUTH_FAIL 0 1
    else if twState s = twFencing ∨ twState s = twHolding then
      if m.num = s.twin.fenceNum ∧ m.boot = s.twin.peerBoot then takeOver (wr s F.TWIN_FENCE_ACKED 0 1) else s
    else if journaled s ∧ handoverSeen s then
      takeOver (wr s F.TWIN_FENCE_ACKED 0 1)
    else s)

/-- Every region stops at the next boundary. -/
def stopAllRegions (s : State) : State :=
  (boundRegions s).foldl (fun s r => if regionState s r = rsRunning then modUnit s r fun u => { u with stopAt := true } else s) s

/-- The engine stops fetching ledgers and writing entries. -/
def stopQueues (s : State) : State :=
  (List.range 64).foldl (fun s n => if (qpOf s n).bound then
    wr (setQp s n { qpOf s n with bound := false }) F.STRM_QP_STATUS_ACTIVE n 0 else s) s

/-- Journal frames that wait to be sent or acknowledged are discarded (R408). -/
def dropJournal (s : State) : State := (s.fab.msgs.filter fun m => m.user = .journal).foldl (fun s m => dropMsg s m.key) s

/-- The engine is fenced by a FENCE with a number (R369). -/
def becomeFenced (s : State) (num : Nat) : State :=
  let s := modTwin (stopAllRegions (stopQueues (dropJournal s))) fun t => { t with marker := true, lastFence := num }
  sendTwin (raiseEngine (setTwin s twFenced) .alarm evTwinFenced 0 0) (.fenceAck (bootCount s) num)

/-- R369: an authenticated FENCE from the twin; where FENCEs cross, the engine of role 1 yields. It is accepted only with this engine's boot
count and a number above the last accepted (R391); a twin port carries none (R405). -/
def execFence (m : FenceMsg) (s : State) : Host.Outcome State Fault Refusal :=
  .next (if s.twin.pairKey = none ∨ twState s = twFenced ∨ twState s = twUnpaired then s
    else if rd s F.NET_PORT_MODE m.port = pmTwin then bump s F.NET_FAB_CNT_DISCARD 0 1
    else if ¬ m.tagOk then bump s F.NET_FAB_CNT_AUTH_FAIL 0 1
    else if m.boot ≠ bootCount s ∨ m.num ≤ s.twin.lastFence then s
    else if (twState s = twFencing ∨ twState s = twHolding) ∧ rd s F.TWIN_STATUS_ROLE 0 = 0 then s
    else becomeFenced s m.num)

/-! ## The journal on its way (R360, R361) -/

/-- A record in its bytes (R361): header with CRC-32C, and the body in units of 32 bytes. -/
def recBytes (r : JRec) : List Byte :=
  let units := (r.body.length + 31) / 32
  let body := r.body ++ List.replicate (32 * units - r.body.length) 0
  let head := bytesOf 1 r.type.toNat ++ bytesOf 1 (bit r.last) ++ bytesOf 2 units ++ bytesOf 4 r.handle.toNat ++ bytesOf 8 r.jsn ++ bytesOf 8 r.hall ++
    bytesOf 1 r.qp ++ bytesOf 1 0 ++ bytesOf 2 r.version.toNat
  head ++ bytesOf 4 (crc32c (head ++ bytesOf 4 0 ++ body)).toNat ++ body

/-- The records not yet sent to the twin go out as JOURNAL messages of class 2 (R360, R389). -/
def sendJournal (s : State) : State :=
  if ¬ journaled s then s
  else
    let new := s.strm.journal.ring.filter fun r => s.fab.journalled < r.jsn
    if new = [] then s
    else
      let data := new.flatMap recBytes
      let s := modFab s fun f => { f with journalled := s.strm.journal.next - 1 }
      (sendMessage s (twinNode s) 0xA 2 0 0 data data.length .journal).2

/-! ## Planned handover (R375) -/

/-- A stream that the twin serves from now on: positions whose tokens no record carries leave its log, and nothing of it stays on the wafer. -/
def handAway (x : Stream) : Stream :=
  let n := x.log.length - x.sampled.length
  { loseContext { x with log := x.log.take n, built := min x.built n } with mirror := true, run := none, sampled := [], wants := false }

/-- The engine hands all its streams to its twin and stops writing. After it the engine offers pairing again while PAIR_EN is set. -/
def handover (s : State) : State :=
  if twState s ≠ twPaired then s
  else
    let s := releaseCommitted (sendJournal s)
    let s := modTwin s fun t => { t with hbSent := ownHb s true :: t.hbSent, marker := true }
    let s := stopQueues (sendTwin s (.fenceAck (bootCount s) 0))
    let slots := s.strm.slots.map fun e => if e.2.state = .closed then e else (e.1, handAway e.2)
    let s := { s with strm := { s.strm with slots := slots, emits := [], frames := [], exports := [] } }
    countStreams (setTwin s (if rdB s F.TWIN_CTL_PAIR_EN 0 then twOffering else twUnpaired))

def execHandover (s : State) : Host.Outcome State Fault Refusal := .next (handover s)

/-- A committed PAIR_EN of 0: a planned handover from PAIRED, then UNPAIRED (R375, R381). -/
def stopPairing (s : State) : State :=
  if rdB s F.TWIN_CTL_PAIR_EN 0 then s
  else if twState s = twPaired then setTwin (handover s) twUnpaired
  else if twState s = twOffering then setTwin s twUnpaired
  else s

def execPairEnClear (s : State) : Host.Outcome State Fault Refusal := .next (stopPairing s)

/-! ## Cover and shedding (R371–R373) -/

/-- The seated streams of a stopping region are handed to the twin (R371, R372). -/
def coverRegion (s : State) (r : Nat) : State :=
  if twState s = twPaired ∧ rdB s F.TWIN_CTL_COVER_EN 0 then
    let ks := (streamsOf s r).filter fun k => (streamAt s k).seat.isSome && !(streamAt s k).mirror
    if ks = [] then s
    else
      let s := ks.foldl (fun s k => bump (modStream (handoff s k 1) k fun x => { x with covered := true }) F.TWIN_CNT_COVERS 0 1) s
      raiseRegion (modUnit s r fun u => { u with covered := true }) .report evTwinCover r 0 0
  else s

/-- A covered region runs again: each stream is handed back (R372). -/
def uncoverRegion (s : State) (r : Nat) : State :=
  if (unitOf s r).covered then
    let ks := (streamsOf s r).filter fun k => (streamAt s k).covered
    let s := ks.foldl (fun s k => modStream (handoff s k 2) k fun x =>
      { x with covered := false, redo := x.redo || decide (x.built + 1 < x.log.length), run := x.run.map fun r => { r with inFlight := false } }) s
    raiseRegion (modUnit s r fun u => { u with covered := false }) .report evTwinCover r 0 0
  else s

end Sys2Proof.Machine
end

