-- ==== Sys2Proof/Machine/Ports.lean ====
section
/-! DEFINITION. The PCIe ports (R315–R317, R486, R499, R521): resets, link down and link up. -/

namespace Sys2Proof.Machine

/-- The queue pairs that a port carries (R317). -/
def portQps (s : State) (port : Nat) : List Nat :=
  (List.range 128).filter fun n => rdB s F.STRM_QP_CFG_EN n && rd s F.STRM_QP_CFG_PORT n = port

/-- A port is reset (R317, R486): its queue pairs stop, their EN bits clear, and the sources its host target holds are completed. A
function that was reset has Bus Master Enable clear and no message pending (assumption 42). -/
def portReset (s : State) (port : Nat) : State :=
  let s := (portQps s port).foldl (fun s n => wr (resetQp s n) F.STRM_QP_CFG_EN n 0) s
  let s := completeAllOf { s with pcie := tset s.pcie port { pcieOf s port with bme := false, pba := [] } } (8 + port)
  raiseSource s (26 + port)

/-- The port exists (R316). -/
def portExists (s : State) (port : Nat) : Bool := port = 0 || (port = 1 && s.bifurcated)

/-- R317: a Function Level Reset. -/
def execFlr (port : Nat) (s : State) : Host.Outcome State Fault Refusal :=
  .next (if portExists s port then portReset s port else s)

/-- The link of a port goes down (R317). -/
def portDown (s : State) (port : Nat) : State :=
  let s := portReset s port
  { s with pcie := tset s.pcie port { pcieOf s port with up := false } }

/-- R317: link down; ide: it follows a failed IDE integrity check, which raises EV_HOST_LINK (R315). -/
def execPcieLinkDown (port : Nat) (ide : Bool) (s : State) : Host.Outcome State Fault Refusal :=
  .next (if ¬ portExists s port then s
    else
      let s := portDown s port
      if ide then raiseEngine s .alarm evHostLink port 0 else s)

/-- R521: assertion of PERST_N on a port acts as a link down on it; it resets neither the Keep nor any region. -/
def execPerst (port : Nat) (s : State) : Host.Outcome State Fault Refusal :=
  .next (if portExists s port then portDown s port else s)

/-- R499: a port's link trains up, unless the north rim domain is lost (R53). The settings fix bifurcation before the link trains (R316), and the host then configures the function: bme
and masked are what its configuration leaves, and bar2 is the bus address it gives BAR2 where the settings enable it (R319). -/
def execPcieLinkUp (port : Nat) (bifurcated bme : Bool) (masked : List Nat) (bar2 : Option Nat) (s : State) : Host.Outcome State Fault Refusal :=
  let s := if port = 0 then { s with bifurcated := bifurcated } else s
  .next (if portExists s port ∧ s.pwr.lostRims.contains 0 = false then
      { s with pcie := tset s.pcie port { pcieOf s port with up := true, bme := bme, masked := masked, bar2 := bar2 } }
    else s)

end Sys2Proof.Machine
end

