-- ==== Sys2Proof/Machine/Casks.lean ====
section
/-! DEFINITION. The cask store (R262, R294–R296, R302–R305): the directory, arrival checks, store operations, scrub and repair. -/

namespace Sys2Proof.Machine


/-! ## The directory (R294) -/

/-- The directory's counts (R314). -/
def noteStore (s : State) : State :=
  wrAll s 0 [(F.CASK_STATUS_CELLAR_MIB, (storeBytes s + 2 ^ 20 - 1) / 2 ^ 20), (F.CASK_STATUS_MASTERS, s.store.masters.length),
    (F.CASK_STATUS_BAD, (s.store.masters.filter (·.bad)).length)]

/-- A master put in place of the one with its key. -/
def putMaster (s : State) (m : Master) : State :=
  let rest := s.store.masters.filter fun x => !(x.plan = m.plan && x.target = m.target && x.version = m.version)
  noteStore { s with store := { s.store with masters := rest ++ [m] } }

/-- A cask is shared (R295). -/
def isShared (m : Master) : Bool := caskShared m.image && m.tenant = 0

/-- The cask names of a plan. -/
def namesMaster (b : List Byte) (m : Master) : Bool :=
  (caskEntries b).any fun e => e.version ≠ 0 && e.plan = m.plan && e.target = m.target && e.version = m.version

/-- A master is named by a bound plan, held resident, or in a rack (R294, R296, R313). -/
def masterInUse (s : State) (m : Master) : Bool :=
  ((boundRegions s).any fun r => namesMaster (boundPlan s r) m) ||
    (s.store.residents.any fun x => x.plan = m.plan && x.target = m.target && x.version = m.version) ||
    (match s.store.rack with | some k => namesMaster (tget s.store.plans k.successor []) m | none => false)

/-- A plan image is bound in a region or named by a rack (R262). -/
def planInUse (s : State) (plan : Nat) : Bool :=
  ((boundRegions s).any fun r => rd s F.REG_PLAN_PLAN_ID r = plan) ||
    (match s.store.rack with | some k => k.successor = plan | none => false)

/-! ## Arrival (R302) -/

def causeFormat : Nat := 1
def causeDigest : Nat := 2
def causeSignature : Nat := 3
def causeInUse : Nat := 4
def causeKeyConflict : Nat := 5
def causeNoSource : Nat := 6
def causeNoKey : Nat := 7

/-- The signature of a cask image verifies under the key it names, present in the owner key table (R290, R302). -/
def caskSignatureOk (s : State) (b : List Byte) : Bool :=
  match tget? s.keep.owners (caskOwnerKey b) with
  | some key => edVerify key (caskDigest b) (caskSignature b)
  | none => false

/-- The cause of the first arrival check that fails, 0 when all pass. -/
def arrivalCause (s : State) (b : List Byte) (len : Nat) : Nat :=
  if isPlan b then
    if planFormatOk b len = false then causeFormat else if planDigestOk b then 0 else causeDigest
  else if isCask b = false ∨ caskFormatOk b len = false then causeFormat
  else if caskDigestOk b = false then causeDigest
  else if caskSigned b ∧ caskSignatureOk s b = false then causeSignature
  else if caskSigned b = false ∧ rdB s F.CASK_CTL_REQUIRE_SIG 0 then causeSignature
  else 0

/-- What a failed arrival check raises. -/
def noteArrival (s : State) (cause : Nat) : State :=
  if cause = causeDigest then raiseEngine (bump s F.CASK_CNT_DIGEST_FAIL 0 1) .report evCaskDigest 0 0
  else if cause = causeSignature then raiseEngine s .report evCaskSig 0 0
  else s

/-- Cellar bytes that are fitted and not lost: each lost stack takes 1/48 of the cellar (R376). -/
def cellarLeft (s : State) : Nat := cellarBytes (rd s F.KEEP_ID_ORDER 0) / 48 * (48 - s.pwr.lostStacks.length)

/-- The store has room for n bytes more. -/
def storeRoom (s : State) (n : Nat) : Bool := storeBytes s + n ≤ cellarLeft s


/-- A plan fits the fitted cellar; in a pair, the smaller one of the two (R3). -/
def planFits (s : State) (b : List Byte) : Bool :=
  planFootprintBytes s b ≤ (if journaled s then min (cellarLeft s) s.twin.peerCellar else cellarLeft s)

/-- An image that passed its checks enters the store: status, cause and state (R262, R296). -/
def enterImage (s : State) (b : List Byte) (tenant : Nat) (source : Option Nat) : Nat × Nat × State :=
  if isPlan b then
    match tget? s.store.plans (planId b) with
    | some old => if (old.drop 0x80).take 64 = (b.drop 0x80).take 64 then (stOk, 0, s) else (stInternal, causeKeyConflict, s)
    | none =>
      if storeRoom s b.length then
        (stOk, 0, noteStore { s with store := { s.store with plans := tset s.store.plans (planId b) b } })
      else (stNoSlot, 0, s)
  else
    match masterAt s (caskPlan b) (caskTarget b) (caskVersion b) with
    | some m => if caskDigest m.image = caskDigest b then (stOk, 0, s) else (stInternal, causeKeyConflict, s)
    | none =>
      if storeRoom s b.length then
        (stOk, 0, putMaster s ⟨caskPlan b, caskTarget b, caskVersion b, b, tenant, source, false, false, 0⟩)
      else (stNoSlot, 0, s)

/-- An image arrives in staging: the checks, then the entry. -/
def arrive (s : State) (b : List Byte) (len tenant : Nat) (source : Option Nat) : Nat × Nat × State :=
  let c := arrivalCause s b len
  if c ≠ 0 then (stInternal, c, noteArrival s c) else enterImage s b tenant source

/-! ## Repair (R304, R305) -/

/-- HALL_TRIES in force: 0 acts as 1. -/
def hallTries (s : State) : Nat := max 1 (rd s F.CASK_SCRUB_THR_HALL_TRIES 0)

/-- A master that cannot be repaired is lost (R305). -/
def loseMaster (s : State) (m : Master) : State :=
  raiseEngine (bump (putMaster s { m with bad := true }) F.CASK_CNT_LOST 0 1) .alarm evCaskLost 0 0

/-- A fetched image repairs a master: the same key and digest, past the arrival checks. -/
def repairs (s : State) (m : Master) (b : List Byte) : Bool :=
  arrivalCause s b b.length = 0 && !isPlan b && caskPlan b = m.plan && caskTarget b = m.target && caskVersion b = m.version &&
    caskDigest b = caskDigest m.image

/-- An operation ends. -/
def endOp (s : State) (status cause : Nat) : State :=
  wrAll { s with store := { s.store with op := none } } 0 [(F.CASK_OP_STATUS, status), (F.CASK_OP_CAUSE, cause), (F.CASK_OP_BUSY, 0)]

/-! ## Fetches (R293, R304, R503) -/

/-- A key of the store: plan, target and version; a plan image has target 0xFFFF and version 0 (R262). -/
abbrev CaskKey := Nat × Nat × Nat

def keyOfImage (b : List Byte) : CaskKey := if isPlan b then (planId b, 0xFFFF, 0) else (caskPlan b, caskTarget b, caskVersion b)

/-- The READ of an image from a source: the twin's cask store (R395), or a hall address (R397). The flag says whether it left. -/
def readSource (s : State) (k : CaskKey) : Option (Nat × Nat) → Bool × State
  | none =>
    let at' := Config.twinCask k.1 k.2.1 k.2.2
    sendMessage s (twinNode s) 3 0 0 (caskBase + at'.1) [] at'.2 (.cask k.1 k.2.1 k.2.2)
  | some (addr, len) => sendMessage s (addr / 2 ^ 48) 3 0 0 (addr % 2 ^ 48) [] len (.cask k.1 k.2.1 k.2.2)

def fetchOf (s : State) (k : CaskKey) : Option CaskFetch := s.store.fetches.find? fun f => (f.plan, f.target, f.version) = k
def dropFetch (s : State) (k : CaskKey) : State :=
  { s with store := { s.store with fetches := s.store.fetches.filter fun f => (f.plan, f.target, f.version) ≠ k } }

/-- The operation that waits for the repair of a key ends with it (R296). -/
def settleVerify (s : State) (k : CaskKey) : State :=
  match s.store.op with
  | some op =>
    if op.verify = some k then
      if (match masterAt s k.1 k.2.1 k.2.2 with | some m => m.bad | none => true) then endOp s stDegraded causeDigest else endOp s stOk 0
    else s
  | none => s

/-- No source yielded an image: a BAD master is lost (R305), and a bind that waits for an absent one fails (R293). -/
def fetchFailed (s : State) (k : CaskKey) : State :=
  let s := dropFetch s k
  match masterAt s k.1 k.2.1 k.2.2 with
  | some m => settleVerify (if m.bad then loseMaster s m else s) k
  | none => { s with store := { s.store with unfound := k :: s.store.unfound } }

/-- The sources of an image are tried in order until a READ leaves; one that cannot leave counts as a failed fetch. -/
def tryFetch (k : CaskKey) (tenant : Nat) : List (Option (Nat × Nat)) → State → State
  | [], s => fetchFailed s k
  | x :: rest, s =>
    let (ok, s) := readSource s k x
    if ok then
      let s := dropFetch s k
      { s with store := { s.store with fetches := s.store.fetches ++ [⟨k.1, k.2.1, k.2.2, x.map (·.1), rest, tenant⟩] } }
    else
      let s := match masterAt s k.1 k.2.1 k.2.2 with
        | some m => if m.bad then putMaster s { m with tries := m.tries + 1 } else s
        | none => s
      tryFetch k tenant rest s

/-- The sources of a repair (R304): the twin's store when paired, then the master's source address; HALL_TRIES fetches in all. -/
def repairSources (s : State) (m : Master) : List (Option (Nat × Nat)) :=
  ((if journaled s then [none] else []) ++ (match m.source with
    | some a => List.replicate (hallTries s) (some (a, m.image.length))
    | none => [])).take (hallTries s)

/-- The sources of an absent image (R293, R503): the twin's store when paired, then the plan-set index. A pair of the index does not name its key, so each
is tried until one brings it. -/
def absentSources (s : State) : List (Option (Nat × Nat)) :=
  (if journaled s then [none] else []) ++ (if s.keep.boot.startList = [] then [] else Config.planSetIndex.map some)

/-- An image is fetched unless it is on its way. -/
def startFetch (s : State) (k : CaskKey) (tenant : Nat) : State :=
  if (fetchOf s k).isSome then s
  else match masterAt s k.1 k.2.1 k.2.2 with
    | some m => if m.bad ∧ m.tries < hallTries s then tryFetch k tenant (repairSources s m) s else s
    | none => tryFetch k tenant (absentSources s) s

/-- A digest mismatch of a master (R304): EV_CASK_DIGEST, DIGEST_FAIL, BAD, and its fetches begin. -/
def masterBad (s : State) (m : Master) : State :=
  let s := raiseEngine (bump (putMaster s { m with bad := true, tries := 0 }) F.CASK_CNT_DIGEST_FAIL 0 1) .report evCaskDigest 0 0
  startFetch s (m.plan, m.target, m.version) m.tenant

/-- The masters that a region's bind waits for. -/
def dropMissing (s : State) (p t v : Nat) : State :=
  { s with units := s.units.map fun u => (u.1, { u.2 with missing := u.2.missing.filter (· ≠ (p, t, v)) }) }

/-- A BAD master's fetch has brought bytes, or none: they repair it, or the next source is tried (R302, R304). -/
def repairArrived (s : State) (f : CaskFetch) (m : Master) (got : Option (List Byte)) : State :=
  let k := (f.plan, f.target, f.version)
  let s := match got with | some b => noteArrival s (arrivalCause s b b.length) | none => s
  match got.filter (repairs s m) with
  | some b => settleVerify (bump (putMaster (dropFetch s k) { m with image := b, bad := false, tries := 0 }) F.CASK_CNT_REPAIRS 0 1) k
  | none => tryFetch k f.tenant f.left (putMaster s { m with tries := m.tries + 1 })

/-- An absent image's fetch has brought bytes, or none: an image of that key enters the store, or the next source is tried (R293, R302). -/
def absentArrived (s : State) (f : CaskFetch) (got : Option (List Byte)) : State :=
  let k := (f.plan, f.target, f.version)
  match got.filter fun b => decide (keyOfImage b = k) with
  | none => tryFetch k f.tenant f.left s
  | some b =>
    let (st, _, s) := arrive s b b.length f.tenant f.addr
    if st = stOk then dropMissing (dropFetch s k) k.1 k.2.1 k.2.2 else tryFetch k f.tenant f.left s

/-- A READ of an image has ended. -/
def imageRead (s : State) (k : CaskKey) (got : Option (List Byte)) : State :=
  match fetchOf s k with
  | none => s
  | some f => match masterAt s k.1 k.2.1 k.2.2 with
    | some m => if m.bad then repairArrived s f m got else dropFetch s k
    | none => absentArrived s f got

/-- The payload rows of a master written over a resident copy (R291, R299). -/
def reloadCopy (s : State) (x : Resident) (image : List Byte) : State :=
  modCore s x.core fun co => (List.range x.rows).foldl (fun co i => putRow co (x.row + i) (caskPayload image i)) co

/-! ## Store operations (R296) -/

/-- An operation by a session: a busy store answers FROZEN, and an access without a session is discarded. -/
def caskOp (a : Agent) (s : State) (k : State → Nat → State) : State :=
  match rightsOf s a with
  | none => noteRefused s F.CASK_COMMIT_WRITE_STATUS 0 stBadHandle
  | some t => if rdB s F.CASK_OP_BUSY 0 then wr s F.CASK_OP_STATUS 0 stFrozen else k s t

/-- The bytes of an operation have arrived. -/
def opArrived (s : State) (op : CaskOp) (b : List Byte) : State :=
  let (st, c, s) := arrive s b op.len op.tenant (if op.hall then some op.addr else none)
  endOp s st c

/-- The operation that CASK_OP_ADDR and CASK_OP_LEN describe. -/
def newOp (s : State) (hall : Bool) (tenant : Nat) : CaskOp :=
  ⟨hall, rd s F.CASK_OP_ADDR_ADDR 0, rd s F.CASK_OP_LEN_LEN 0, tenant, 1, none⟩

/-- Bytes of the BAR2 staging area per port (R319). -/
def bar2Len (s : State) : Nat := if s.bifurcated then 2 ^ 29 else 2 ^ 30

/-- The place in the staging area of a host bus address that lies in a port's BAR2. -/
def bar2Place (s : State) (addr : Nat) : Option Nat :=
  [0, 1].findSome? fun p => match (pcieOf s p).bar2 with
    | some b => if portExists s p && b ≤ addr && addr < b + bar2Len s then some (p * 2 ^ 29 + (addr - b)) else none
    | none => none

def stagingBytes (s : State) (off n : Nat) : List Byte := (List.range n).map fun i => tget s.store.staging (off + i) 0

/-- R296: STORE_HOST. data: what the DMA read of the image gives; a failed read is tried again at the next boundaries. An address inside BAR2 reads
the staging area instead (R319). -/
def execStoreHost (a : Agent) (data : Option (List Byte)) (s : State) : Host.Outcome State Fault Refusal :=
  .next (caskOp a s fun s t =>
    let op := newOp s false t
    match bar2Place s op.addr with
    | some off => opArrived s op (stagingBytes s off op.len)
    | none => match data with
      | some b => opArrived s op b
      | none => wr { s with store := { s.store with op := some op } } F.CASK_OP_BUSY 0 1)

/-- A failed DMA read is tried again at a boundary, 16 attempts in all (R296). -/
def retryOp (s : State) : State :=
  match s.store.op with
  | some op =>
    if op.hall ∨ op.verify.isSome then s
    else if 16 ≤ op.attempts then endOp s stInternal causeNoSource
    else { s with store := { s.store with op := some { op with attempts := op.attempts + 1 } } }
  | none => s

/-- R296, R397: FETCH_HALL reads the hall address by Gorla READ; without a route it fails. -/
def execFetchHall (a : Agent) (s : State) : Host.Outcome State Fault Refusal :=
  .next (caskOp a s fun s t =>
    let op := newOp s true t
    let (ok, s) := sendMessage s (op.addr / 2 ^ 48) 3 0 t (op.addr % 2 ^ 48) [] op.len .caskOp
    if ok then wr { s with store := { s.store with op := some op } } F.CASK_OP_BUSY 0 1 else endOp s stInternal causeNoSource)

/-- The READ of a FETCH_HALL has ended (R296, R397). -/
def hallRead (s : State) (got : Option (List Byte)) : State :=
  match s.store.op with
  | some op =>
    if op.hall then (match got with | some b => opArrived s op b | none => endOp s stInternal causeNoSource) else s
  | none => s

/-- R302: an image arrives in staging: for the store operation in progress, or for a fetch of its key. -/
def imageArrival (s : State) (b : List Byte) : State :=
  match s.store.op.filter (fun op => op.verify.isNone) with
  | some op => opArrived s op b
  | none => imageRead s (keyOfImage b) (some b)

def execImageArrival (b : List Byte) (s : State) : Host.Outcome State Fault Refusal := .next (imageArrival s b)

/-- The key of DELETE and VERIFY. -/
def opKey (s : State) : Nat × Nat × Nat :=
  (rd s F.CASK_OP_KEY_PLAN_ID 0, rd s F.CASK_OP_KEY_TARGET 0, rd s F.CASK_OP_KEY_VERSION 0)

/-- The key names a plan image (R262). -/
def keyIsPlan (k : Nat × Nat × Nat) : Bool := k.2.1 = 0xFFFF && k.2.2 = 0

/-- R296, R314: DELETE. A tenant deletes only its own casks. -/
def execCaskDelete (a : Agent) (s : State) : Host.Outcome State Fault Refusal :=
  .next (caskOp a s fun s t =>
    let k := opKey s
    if keyIsPlan k then
      if t ≠ 0 then noteRefused s F.CASK_COMMIT_WRITE_STATUS 0 stBadHandle
      else if (tget? s.store.plans k.1).isNone then endOp s stInternal causeNoKey
      else if planInUse s k.1 then endOp s stFrozen causeInUse
      else endOp (noteStore { s with store := { s.store with plans := tdel s.store.plans k.1 } }) stOk 0
    else match masterAt s k.1 k.2.1 k.2.2 with
      | none => endOp s stInternal causeNoKey
      | some m =>
        if t ≠ 0 ∧ m.tenant ≠ t then noteRefused s F.CASK_COMMIT_WRITE_STATUS 0 stBadHandle
        else if masterInUse s m then endOp s stFrozen causeInUse
        else endOp (noteStore { s with store := { s.store with masters := s.store.masters.filter fun x => x ≠ m } }) stOk 0)

/-- R296, R303: VERIFY scrubs one master. mismatch: the bytes read from the cellar do not match the digest. A BAD master is repaired, and the operation
ends when it is or is lost. -/
def execCaskVerify (a : Agent) (mismatch : Bool) (s : State) : Host.Outcome State Fault Refusal :=
  .next (caskOp a s fun s t =>
    let k := opKey s
    if keyIsPlan k then
      match tget? s.store.plans k.1 with
      | none => endOp s stInternal causeNoKey
      | some b => if mismatch ∨ planDigestOk b = false then endOp (noteArrival s causeDigest) stDegraded causeDigest else endOp s stOk 0
    else match masterAt s k.1 k.2.1 k.2.2 with
      | none => endOp s stInternal causeNoKey
      | some m =>
        if ¬ mismatch ∧ m.bad = false then endOp s stOk 0
        else
          let s := wr { s with store := { s.store with op := some { newOp s false t with verify := some k } } } F.CASK_OP_BUSY 0 1
          let s := if m.bad then (if (fetchOf s k).isSome then s else startFetch (putMaster s { m with tries := 0 }) k m.tenant) else masterBad s m
          if (fetchOf s k).isSome then s else settleVerify s k)

/-- One master that the scrub finds wrong. -/
def scrubOne (s : State) (x : ScrubFind) : State :=
  match masterAt s x.plan x.target x.version with
  | some m => if m.bad then s else masterBad s m
  | none => s

/-- A resident copy that the scrub finds wrong (R304): its region is stopped, so it is reloaded from its master at once. -/
def scrubCopy (s : State) (c : Nat) : State :=
  let r := regionOfCore s c
  if regionState s r = rsRunning then s
  else (s.store.residents.filter fun x => x.core = c).foldl (fun s x =>
    let s := raiseEngine (bump s F.CASK_CNT_DIGEST_FAIL 0 1) .report evCaskDigest c 0
    match masterAt s x.plan x.target x.version with
    | some m => if m.bad then s else bump (reloadCopy s x m.image) F.CASK_CNT_REPAIRS 0 1
    | none => s) s

/-- R303, R304: a scrub pass. bad: the masters whose bytes do not match; copies: the cores whose resident copy does not. SCRUB_BW = 0 turns
the scrub off. -/
def execCaskScrub (bad : List ScrubFind) (copies : List Nat) (s : State) : Host.Outcome State Fault Refusal :=
  .next (if rd s F.CASK_SCRUB_THR_SCRUB_BW 0 = 0 then s
    else bump (copies.foldl scrubCopy (bad.foldl scrubOne s)) F.CASK_CNT_SCRUB_PASSES 0 1)

/-! ## The cellar's watermark (R249) -/

/-- The cellar bytes of tail records held by the layers of a stream. -/
def tailBytes (t : Table (List RowData)) : Nat := t.foldl (fun n e => n + 64 * e.2.length) 0

/-- The cellar bytes in use: images, pages that the cellar holds, and the tail records of streams without a seat. -/
def cellarUse (s : State) : Nat :=
  let page := (kvNow s).layers * frameRows (kvNow s) * 64
  storeBytes s + (s.strm.pages.filter fun e => !e.2.hall).length * page + s.strm.slots.foldl (fun n e => n + tailBytes e.2.tail + tailBytes e.2.prevTail) 0

/-- Cellar use is above a percentage of the cellar. -/
def cellarAbove (s : State) (percent : Nat) : Bool := percent * cellarLeft s < 100 * cellarUse s

/-- The MODE has a parked stream's pages move: in SPILL mode after SPILL_AGE, in HALL mode at once. -/
def spillDue (s : State) (x : Stream) : Bool :=
  x.state = .parked &&
    (rd s F.STRM_PAGER_CTL_MODE 0 = 2 ||
      (rd s F.STRM_PAGER_CTL_MODE 0 = 1 && x.parkedAt + rd s F.STRM_PAGER_CTL_SPILL_AGE 0 * 1000000000 < hallNs s))

/-- Streams are spilled in order until cellar use falls to CELLAR_LOW. -/
def spillTo : List Nat → State → State
  | [], s => s
  | k :: rest, s => if cellarAbove s (rd s F.STRM_PAGER_THR_CELLAR_LOW 0) then spillTo rest (spillStream s k) else s

/-- R249: pages of parked streams move to hall memory by MODE and SPILL_AGE, and by the watermarks whatever the mode. -/
def execSpill (s : State) : Host.Outcome State Fault Refusal :=
  let s := (s.strm.slots.filter fun e => spillDue s e.2).foldl (fun s e => spillStream s e.1) s
  .next (if cellarAbove s (rd s F.STRM_PAGER_THR_CELLAR_HIGH 0) then spillTo (byActivity s (s.strm.slots.filter fun e => e.2.state = .parked)) s else s)

end Sys2Proof.Machine
end

