-- ==== Sys2Proof/Machine/Fabric.lean ====
section
/-! DEFINITION. The commands of the Gorla fabric (R383–R410): ports, discovery, received messages, acknowledgement, retransmission and hall time. -/

namespace Sys2Proof.Machine

/-! ## What reaches a port -/

def discard (s : State) : State := bump s F.NET_FAB_CNT_DISCARD 0 1

/-- A frame on a twin port while the engine is paired is discarded unless its kind belongs there (R405). -/
def twinShut (s : State) (p : Nat) : Bool := portMode s p = pmTwin && journaled s

/-- The node is the twin, paired and with a pair key (R391, R395). -/
def isTwin (s : State) (n : Nat) : Bool := n ≠ 0 && n = twinNode s && s.twin.pairKey.isSome && journaled s

/-- The node uses a provisional ID: it answers nothing but HELLO (R393). -/
def isProvisional (s : State) : Bool := rd s F.NET_FAB_CTL_NODE 0 = 0

/-! ## Discovery (R392–R394) -/

/-- Nodes reachable in the pod: neighbours on POD ports, and theirs where they forward (R402). -/
def podNodes (s : State) : Nat :=
  let direct := podPeers s
  let via := direct.flatMap fun n => match tget? s.fab.nodes n with
    | some x => if x.hello.forwards then (x.hello.neighbours.map (·.toNat)).filter fun m => m ≠ 0 && m ≠ ownNode s else []
    | none => []
  (direct ++ via).eraseDups.length

/-- Paths whose route has gone close; their segments are sent again on others (R402, R404). -/
def closeStale (s : State) : State :=
  let stale (e : Nat × GPath) : Bool :=
    portMode s e.2.port = pmPod && !(routesTo s e.2.dst).any fun r => r.1 = e.2.port
  let gone := s.fab.paths.filter stale
  resendFlight (modFab s fun f => { f with paths := f.paths.filter fun e => !stale e }) (gone.flatMap (·.2.flight))

/-- A node's HELLO is kept (R392): the port's peer, its MAC, and its neighbours. -/
def learn (s : State) (m : HelloMsg) : State :=
  let s := modFab s fun f => { f with nodes := tset f.nodes m.node.toNat ⟨m⟩, macs := if portMode s m.port = pmPod then tset f.macs m.port m.mac else f.macs }
  let s := wrAll s m.port [(F.NET_PORT_PEER_NODE, m.node.toNat), (F.NET_PORT_PEER_PORT, m.peerPort.toNat)]
  closeStale (wr s F.NET_FAB_STATUS_POD_NODES 0 (min 255 (podNodes s)))

/-- A HELLO that carries this engine's node ID with another fingerprint (R394): a provisional ID yields and the next is drawn; two configured IDs are
in conflict. -/
def idConflict (s : State) (m : HelloMsg) : State :=
  if isProvisional s then modFab s fun f => { f with provisional := f.provisional + 1 }
  else if m.provisional then s
  else wr s F.NET_FAB_STATUS_ID_CONFLICT 0 1

/-- R392: a HELLO arrives; one sent by unicast is answered by a unicast HELLO. -/
def execHello (m : HelloMsg) (s : State) : Host.Outcome State Fault Refusal :=
  .next (if ¬ portUp s m.port then s
    else if twinShut s m.port then discard s
    else if m.node.toNat = ownNode s ∧ m.keyFp ≠ fingerprint then idConflict s m
    else
      let s := learn s m
      if m.unicast then sendHello s m.port (some m.node.toNat) else s)

/-- Destinations reached over SWITCHED ports. -/
def switchedUse (s : State) : List (Nat × Nat) :=
  ((s.fab.paths.filter fun e => portMode s e.2.port = pmSwitched).map fun e => (e.2.port, e.2.dst)).foldl
    (fun l e => if l.any fun x => x.2 = e.2 then l else l ++ [e]) []

/-- R392: each HELLO_MS a HELLO on every POD or SWITCHED port, and every second one to each destination in use beyond a switch. -/
def execHelloTimer (s : State) : Host.Outcome State Fault Refusal :=
  let own := ports.filter fun p => portUp s p && (portMode s p = pmPod || portMode s p = pmSwitched)
  let s := own.foldl (fun s p => sendHello s p none) s
  .next (if s.fab.uniAt + 1000000000 ≤ hallNs s then
      (switchedUse s).foldl (fun s e => sendHello s e.1 (some e.2)) (modFab s fun f => { f with uniAt := hallNs s })
    else s)

/-! ## Messages that fail, and NAKs (R249, R396, R400) -/

/-- A message fails (R400): its user acts under its own rule. A spilled page stays in the cellar and its extent takes no new spill (R396); a
fetch is made again, up to FETCH_RETRY times (R249). -/
def failMsg (s : State) (m : GMsg) : State :=
  let s := dropMsg s m.key
  match m.user with
  | .spill e p => modFab (setPage s p { pageOf s p with hall := false, place := none }) fun f => { f with shut := e :: f.shut.filter (· ≠ e) }
  | .fetch slot p tries =>
    if tries + 1 < rd s F.STRM_PAGER_THR_FETCH_RETRY 0 then fetchPage s slot p (tries + 1)
    else pageFailed (setPage s p { pageOf s p with hall := false, place := none, fetching := false }) slot
  | .caskOp => hallRead s none
  | .cask plan target version => imageRead s (plan, target, version) none
  | _ => s

/-- Messages of which a segment has been retransmitted RETX_MAX times fail. -/
def failExhausted (s : State) : State :=
  (s.fab.msgs.filter (exhausted s)).foldl (fun s m => match msgOf s m.key with | some m => failMsg s m | none => s) s

def sendNak (s : State) (dst code msg : Nat) (missing : List Nat) (path psn : Nat) : State :=
  modFab s fun f => { f with naks := (dst, ⟨BitVec.ofNat 16 (ownNode s), BitVec.ofNat 8 code, BitVec.ofNat 32 msg, missing, path, BitVec.ofNat 32 psn, none⟩) :: f.naks }

def nakAccess : Nat := 1
def nakBusy : Nat := 2
def nakRange : Nat := 3
def nakSeg : Nat := 5
def nakPsn : Nat := 6

/-! ## Receiving (R390, R400, R401) -/

/-- An ACK to a source (R401): the cumulative PSN of each of its paths, and the messages complete; at most 64 entries. -/
def sendAck (s : State) (src : Nat) (complete : List Nat) : State :=
  let cum := (s.fab.expect.filter fun e => e.1 / 256 = src && 0 < e.2).map fun e => AckEntry.path (e.1 % 256) (BitVec.ofNat 32 (e.2 - 1))
  let entries := (complete.map fun m => AckEntry.complete (BitVec.ofNat 32 m)) ++ cum
  modFab s fun f => { f with acks := (src, entries.take 64) :: f.acks, owed := tset f.owed src 0 }

/-- The PSN of a segment on its path: a gap is reported at once by NAK PSN (R400). -/
def notePsn (s : State) (h : GHdr) : State :=
  let k := h.src.toNat * 256 + h.path.toNat
  let want := tget s.fab.expect k 0
  let s := if want < h.psn.toNat then sendNak s h.src.toNat nakPsn h.msg.toNat [] h.path.toNat want else s
  modFab s fun f => { f with expect := tset f.expect k (max want (h.psn.toNat + 1)) }

/-- The key of a received message. -/
def rxKey (h : GHdr) : Nat := (if h.op = 4 then 2 ^ 48 else 0) + h.src.toNat * 2 ^ 32 + h.msg.toNat

def blankRx (k : Nat) (h : GHdr) : GRx := ⟨k, h.op.toNat, h.offset.toNat, h.mlen.toNat, none, [], false⟩
def rxOf (s : State) (k : Nat) : Option GRx := s.fab.rxs.find? fun r => r.key = k
def setRx (s : State) (r : GRx) : State := modFab s fun f => { f with rxs := f.rxs.filter (fun x => x.key ≠ r.key) ++ [r] }
def dropRx (s : State) (k : Nat) : State := modFab s fun f => { f with rxs := f.rxs.filter fun x => x.key ≠ k }

/-- All segments of a message are held. -/
def rxWhole (r : GRx) : Bool := match r.total with
  | some n => (List.range n).all fun i => (tget? r.parts i).isSome
  | none => false

def rxData (r : GRx) : List Byte := r.parts.flatMap (·.2)

/-- A segment is held. The flag says whether it completed its message; a duplicate counts and is discarded (R401). -/
def takeSeg (s : State) (m : GFrame) : Option GRx × State :=
  let h := m.hdr
  let k := rxKey h
  let r := (rxOf s k).getD (blankRx k h)
  if r.done ∨ (tget? r.parts h.seg.toNat).isSome then (none, bump s F.NET_FAB_CNT_DUP 0 1)
  else
    let r := { r with
      parts := tset r.parts h.seg.toNat m.payload
      offset := if h.seg = 0 then h.offset.toNat else r.offset
      total := if h.last then some (h.seg.toNat + 1) else r.total }
    if rxWhole r then (some r, setRx s { r with parts := [], done := true }) else (none, setRx s r)

/-- A segment received from a source counts for its ACK: one for every 16 segments (R401). -/
def owe (s : State) (src : Nat) : State :=
  let n := tget s.fab.owed src 0 + 1
  if 16 ≤ n then sendAck s src [] else modFab s fun f => { f with owed := tset f.owed src n }

/-- A segment is received in order and held; k acts on a whole message, which is then acknowledged as durable. -/
def receive (s : State) (m : GFrame) (k : State → GRx → Bool × State) : State :=
  let src := m.hdr.src.toNat
  match takeSeg (notePsn s m.hdr) m with
  | (none, s) => owe s src
  | (some r, s) =>
    let (ok, s) := k s r
    if ok then sendAck s src [m.hdr.msg.toNat] else owe s src

/-! ## Exported windows (R395) -/

/-- Length of the mirror store: 3 TiB, at most the fitted cellar. -/
def mirrorLen (s : State) : Nat := min (3 * 2 ^ 40) (cellarBytes (rd s F.KEEP_ID_ORDER 0))

/-- A range lies in a window that grants the request: WRITE to the partner ring, WRITE and READ to the mirror store, READ to the cask store. -/
def exported (s : State) (write : Bool) (off len : Nat) : Bool :=
  let fits (base n : Nat) : Bool := base ≤ off && off + len ≤ base + n
  (write && fits 0 (2 ^ 30)) || fits 0x010000000000 (mirrorLen s) || (!write && fits 0x040000000000 (2 ^ 40))

/-- Bytes held durable at an offset. -/
def storeWindow (s : State) (off : Nat) (data : List Byte) : State :=
  modFab s fun f => { f with window := data.zipIdx.foldl (fun t e => tset t (off + e.2) e.1) f.window }

/-- Bytes of a window; what no WRITE has set is free (assumption 3). -/
def readWindow (s : State) (off len : Nat) : List Byte × State :=
  (exportBytes s off len, { s with freeCtr := s.freeCtr + 1 })

/-! ## Gorla frames that carry messages -/

/-- The engine forwards a frame for a node it reaches directly (R403). -/
def forwardPort (s : State) (m : GFrame) : Option Nat :=
  if rdB s F.NET_FAB_CTL_FWD_EN 0 ∧ portMode s m.port = pmPod ∧ ¬ m.hdr.fwd then
    ports.find? fun q => portCarries s q && portMode s q = pmPod && portPeer s q = m.hdr.dst.toNat
  else none

/-- A frame is forwarded: hop limit less one, FWD set; FORWARDED counts in units of 1,024. -/
def forward (s : State) (m : GFrame) (q : Nat) : State :=
  let n := s.fab.fwd + 1
  let s := modFab s fun f => { f with fwd := n % 1024, sent := ⟨q, m.hopLimit - 1, none, { m.hdr with fwd := true }, m.payload⟩ :: f.sent }
  bump s F.NET_FAB_CNT_FORWARDED 0 (n / 1024)

/-- A frame with an operation arrives: what is not for this engine is forwarded or discarded, a frame of the twin must carry its tag (R391), and
k acts on the rest. twinPort: the operation belongs on a twin port of a paired engine (R405). -/
def onFrame (op : Nat) (twinPort : Bool) (m : GFrame) (s : State) (k : State → State) : State :=
  if ¬ portCarries s m.port then s
  else if m.hdr.ver ≠ 1 ∨ m.hdr.op.toNat ≠ op ∨ (twinShut s m.port ∧ (¬ twinPort ∨ m.hdr.src.toNat ≠ twinNode s)) then discard s
  else if m.hdr.dst.toNat ≠ ownNode s then
    match forwardPort s m with
    | some q => forward s m q
    | none => discard s
  else if isProvisional s then s
  else if isTwin s m.hdr.src.toNat ∧ ¬ (m.hdr.auth ∧ m.tagOk) then bump s F.NET_FAB_CNT_AUTH_FAIL 0 1
  else k s

/-- R390, R395: a WRITE into an exported window is made durable and acknowledged, or refused by NAK. -/
def execGorlaWrite (m : GFrame) (s : State) : Host.Outcome State Fault Refusal :=
  .next (onFrame 2 true m s fun s =>
    let src := m.hdr.src.toNat
    if ¬ isTwin s src then sendNak s src nakAccess m.hdr.msg.toNat [] 0 0
    else if ¬ exported s true m.hdr.offset.toNat m.payload.length then sendNak s src nakRange m.hdr.msg.toNat [] 0 0
    else receive s m fun s r => (true, storeWindow s r.offset (rxData r)))

/-- R390, R395: a READ_REQ for an exported window is answered by READ_RESP with the request's MSG, or by NAK. -/
def execReadReq (m : GFrame) (s : State) : Host.Outcome State Fault Refusal :=
  .next (onFrame 3 true m s fun s =>
    let src := m.hdr.src.toNat
    let off := m.hdr.offset.toNat
    let n := m.hdr.mlen.toNat
    if ¬ isTwin s src then sendNak s src nakAccess m.hdr.msg.toNat [] 0 0
    else if ¬ exported s false off n then sendNak s src nakRange m.hdr.msg.toNat [] 0 0
    else receive s m fun s _ =>
      let (data, s) := readWindow s off n
      (true, (sendKeyed s (2 ^ 48 + src * 2 ^ 32 + m.hdr.msg.toNat) 4 m.hdr.tc.toNat m.hdr.tenant.toNat off data n .answer).2))

/-- A page's rows from fetched bytes, layer by layer and 64 bytes to a row. -/
def fillCells (s : State) (data : List Byte) : Table (List RowData) :=
  let n := frameRows (kvNow s)
  (List.range (kvNow s).layers).map fun l =>
    (l, (List.range n).map fun i => BitVec.ofNat 512 (natOfBytes ((data.drop (64 * (n * l + i))).take 64)))

/-- A fetched page arrives (R249): its check must hold; on a mismatch the stream's context is rebuilt. -/
def pageArrived (s : State) (slot p : Nat) (data : List Byte) : State :=
  let x := pageOf s p
  if natOfBytes (shake128 data 8) = x.check then setPage s p { x with hall := false, place := none, fetching := false, cells := fillCells s data }
  else pageFailed (setPage (bump s F.STRM_PAGER_CNT_CHECK_FAIL 0 1) p { x with hall := false, place := none, fetching := false }) slot

/-- R390: read data for an earlier request arrives; whole, it completes the request. -/
def execReadResp (m : GFrame) (s : State) : Host.Outcome State Fault Refusal :=
  .next (onFrame 4 true m s fun s =>
    receive s m fun s r =>
      let key := m.hdr.src.toNat * 2 ^ 32 + m.hdr.msg.toNat
      match s.fab.msgs.find? fun x => x.key = key && x.op = 3 with
      | none => (true, s)
      | some x =>
        let s := dropMsg (modFab s fun f => { f with reads := rxData r :: f.reads }) key
        (true, match x.user with
          | .fetch slot p _ => pageArrived s slot p (rxData r)
          | .caskOp => hallRead s (some (rxData r))
          | .cask plan target version => imageRead s (plan, target, version) (some (rxData r))
          | _ => s))

/-- The node's HELLO says that it is a host (R392). -/
def isHostNode (s : State) (n : Nat) : Bool := match tget? s.fab.nodes n with | some x => x.hello.kind = 4 | none => false

/-- R395, R475: a SEND of a host or of the twin joins the queue of the supervisor; one that is malformed or names no command is answered with
INTERNAL instead (R472, R473). -/
def execGorlaSend (m : GFrame) (s : State) : Host.Outcome State Fault Refusal :=
  .next (onFrame 5 false m s fun s =>
    let src := m.hdr.src.toNat
    if ¬ isTwin s src ∧ ¬ isHostNode s src then sendNak s src nakAccess m.hdr.msg.toNat [] 0 0
    else receive s m fun s r =>
      let e := (m.hdr.src, rxData r)
      let s' := raiseSource s 15
      if 256 ≤ s.keep.sends.length then (false, dropRx (sendNak s src nakBusy m.hdr.msg.toNat [] 0 0) r.key)
      else if requestGood (sendRequest e) then (true, { s' with keep := { s'.keep with sends := s.keep.sends ++ [e] } })
      else (true, sendResponse s' (sendRequest e) stInternal []))

/-! ## Acknowledgement and retransmission (R398–R401) -/

/-- The positions of a stream whose pages the twin's cellar holds: those below every block with a mirror write not acknowledged, or rows still to be
exported, and below the first page that has none (R359, R361). -/
def sealedAtTwin (s : State) (h : Nat) : Nat :=
  let x := streamAt s (slotOf h)
  let sent := s.fab.msgs.filterMap fun m => match m.user with | .mirror g upto => if g = h then some (upto - 16) else none | _ => none
  let due := (s.strm.exports.filter fun e => e.slot = slotOf h).map fun e => 16 * e.block
  (sent ++ due).foldl min (min (16 * (x.built / 16)) (x.gap.getD x.built))

/-- A SEAL record follows the acknowledgement of a block's last mirror write (R361). -/
def sealStep (s : State) (h : Nat) : State :=
  let x := streamAt s (slotOf h)
  let n := sealedAtTwin s h
  if x.mirrored < n ∧ genOf h = x.gen ∧ journaled s then
    (addRecord (setStream s (slotOf h) { x with mirrored := n }) 6 h 0xFF x.version false (bytesOf 32 n)).2
  else s

/-- A message is durable at its receiver (R401). A READ_REQ goes on until its data come; a spilled page is then only in hall memory; a mirror
write forms its SEAL record (R361). -/
def messageDone (s : State) (m : GMsg) : State :=
  match m.user with
  | .mirror h _ => syncStep (sealStep (dropMsg s m.key) h)
  | .mirrorLog _ => syncStep (dropMsg s m.key)
  | _ => if m.op = 3 then s else dropMsg s m.key

def ackEntry (src : Nat) (ece : Bool) (s : State) (e : AckEntry) : State :=
  match e with
  | .path p psn => ackPath s src (p % 256) psn.toNat ece
  | .complete msg =>
    let k := src * 2 ^ 32 + msg.toNat
    match (msgOf s k).orElse fun _ => msgOf s (2 ^ 48 + k) with
    | some m => messageDone s m
    | none => s

/-- R401: an ACK advances paths and completes messages; a journal acknowledgement commits records (R362). -/
def execAck (m : AckMsg) (s : State) : Host.Outcome State Fault Refusal :=
  let src := m.src.toNat
  let s := m.entries.foldl (ackEntry src m.ece) s
  let s := match m.jsn with
    | some j => if isTwin s src then journalAck s j else s
    | none => s
  .next (pumpTo s src)

/-- The paths that carry a segment of a list. -/
def pathsOf (s : State) (key : Nat) (segs : List Nat) : List Nat :=
  (s.fab.paths.filter fun e => e.2.flight.any fun x => x.msg = key && segs.contains x.seg).map (·.1)

/-- A message answered by NAK BUSY waits for one RTO (R401). -/
def waitBusy (s : State) (key : Nat) : State :=
  match msgOf s key with
  | none => s
  | some m =>
    let s := modFab s fun f => { f with paths := f.paths.map fun e => (e.1, { e.2 with flight := e.2.flight.filter fun x => x.msg ≠ key }) }
    setMsg s { m with busy := true, waiting := List.range m.segs }

/-- R400, R401: a NAK. SEG and PSN send the missing segments again and halve their paths' windows; BUSY is retried after one RTO; a record the twin
asks for again is sent again. ACCESS and RANGE name no missing segment: such a message fails under R400. -/
def execNak (m : NakMsg) (s : State) : Host.Outcome State Fault Refusal :=
  let src := m.src.toNat
  let key := src * 2 ^ 32 + m.msg.toNat
  let s :=
    if m.code.toNat = nakSeg then
      let segs := m.missing.take 256
      failExhausted (resend ((pathsOf s key segs).foldl halve s) key segs)
    else if m.code.toNat = nakPsn then
      let k := src * 256 + m.path % 256
      let lost := match tget? s.fab.paths k with
        | some p => p.flight.filter fun x => m.psn.toNat ≤ x.psn
        | none => []
      failExhausted (resendFlight (if lost = [] then s else halve s k) lost)
    else if m.code.toNat = nakBusy then waitBusy s key
    else s
  .next (match m.jsn with
    | some j => if isTwin s src then modFab s fun f => { f with journalled := min f.journalled (j - 1) } else s
    | none => s)

/-- The segments of a message still missing: below its length in segments, from LAST or from MLEN. -/
def rxMissing (r : GRx) : List Nat :=
  let size := max 1 (r.parts.foldl (fun n e => max n e.2.length) 0)
  let n := r.total.getD (max 1 ((r.mlen + size - 1) / size))
  (List.range n).filter fun i => (tget? r.parts i).isNone

/-- R400: a message still incomplete REORDER_WAIT after its last segment: a NAK SEG names up to 256 from its first missing segment. -/
def execReorderWaitExpiry (msg : Nat) (s : State) : Host.Outcome State Fault Refusal :=
  .next (match rxOf s msg with
    | some r =>
      if r.done then s
      else
        let l := rxMissing r
        sendNak s (msg / 2 ^ 32 % 65536) nakSeg (msg % 2 ^ 32) (l.filter fun i => i < l.headD 0 + 256) 0 0
    | none => s)

/-- R400: a path's RTO expires: its segments are sent again, its RTO doubles up to 1 ms, and after three expiries in a row it closes. -/
def execRtoExpiry (path : Nat) (s : State) : Host.Outcome State Fault Refusal :=
  .next (match tget? s.fab.paths path with
    | none => s
    | some p =>
      let waits := s.fab.msgs.filter fun m => m.busy && msgDst m.key = p.dst
      if p.flight = [] ∧ waits = [] then s
      else
        let late := p.flight ≠ []
        let p := if late then halved { p with flight := [], expiries := p.expiries + 1, rto := min 1000000 (2 * p.rto), closed := 3 ≤ p.expiries + 1 || p.closed } else p
        let l := ((tget? s.fab.paths path).map (·.flight)).getD []
        let s := modFab s fun f => { f with
          paths := tset f.paths path p
          msgs := f.msgs.map fun m => if m.busy && msgDst m.key = p.dst then { m with busy := false } else m }
        pumpTo (failExhausted (resendFlight s l)) p.dst)

/-- R400: a path closed for 100 ms is probed with one segment. -/
def execPathProbe (path : Nat) (s : State) : Host.Outcome State Fault Refusal :=
  .next (match tget? s.fab.paths path with
    | some p =>
      if p.closed then pumpTo (modFab s fun f => { f with paths := tset f.paths path { p with closed := false, expiries := 0, win := 1 } }) p.dst else s
    | none => s)

/-- R400: a message fails after RETX_MAX retransmissions or 100 ms; classes 2 and 3 to the twin never fail. -/
def execMessageTimeout (msg : Nat) (s : State) : Host.Outcome State Fault Refusal :=
  .next (match msgOf s msg with
    | some m => if mayFail s m then failMsg s m else s
    | none => s)

/-- R401: 1 µs after the oldest unacknowledged segment an ACK is sent. -/
def execAckTimer (dst : BitVec 16) (s : State) : Host.Outcome State Fault Refusal :=
  .next (if tget s.fab.owed dst.toNat 0 = 0 then s else sendAck s dst.toNat [])

/-! ## Neighbours, echo and PFC (R383, R386, R387) -/

/-- An address of this engine: port p of its node (R387). -/
def isOwnAddress (s : State) (x : BitVec 128) : Bool := ports.any fun p => x = hallAddress s (ownNode s * 65536 + p)

/-- A request that names an address of this engine is answered; any other frame of its kind is discarded (R386). -/
def answer (s : State) (port kind : Nat) (target : BitVec 128) : State :=
  if ¬ portCarries s port then s
  else if twinShut s port ∨ ¬ isOwnAddress s target then discard s
  else if isProvisional s then s
  else modFab s fun f => { f with icmp := ⟨port, kind, target⟩ :: f.icmp }

def execNeighborSolicitation (port : Nat) (target : BitVec 128) (s : State) : Host.Outcome State Fault Refusal := .next (answer s port 0 target)
def execEchoRequest (port : Nat) (target : BitVec 128) (s : State) : Host.Outcome State Fault Refusal := .next (answer s port 1 target)

/-- R387: the gateway's MAC address on a SWITCHED port; what waited for it goes out. -/
def execNeighborAdvertisement (port : Nat) (target : BitVec 128) (mac : BitVec 48) (s : State) : Host.Outcome State Fault Refusal :=
  .next (if ¬ portCarries s port then s
    else if portMode s port = pmSwitched ∧ rd s F.NET_FAB_GW_GATEWAY 0 ≠ 0 ∧ target = hallAddress s (rd s F.NET_FAB_GW_GATEWAY 0) then
      let s := modFab s fun f => { f with macs := tset f.macs port mac }
      ((s.fab.paths.filter fun e => e.2.port = port).map (·.2.dst)).eraseDups.foldl pumpTo s
    else discard s)

/-- R383: a PFC frame pauses classes 2 and 3 of a port for its quanta, each 512 bit times at 800 Gb/s; without PFC_EN it is discarded. -/
def execPfcFrame (port : Nat) (quanta : List (Nat × Nat)) (s : State) : Host.Outcome State Fault Refusal :=
  .next (if ¬ portUp s port then s
    else if ¬ rdB s F.NET_FAB_CTL_PFC_EN 0 then discard s
    else
      let set (t : Table Nat) (q : Nat × Nat) : Table Nat :=
        if q.1 = 2 ∨ q.1 = 3 then tset t (4 * port + q.1) (s.clk.hall + q.2 * 5376 / 100) else t
      let s := modFab s fun f => { f with paused := quanta.foldl set f.paused }
      ((s.fab.paths.filter fun e => e.2.port = port).map (·.2.dst)).eraseDups.foldl pumpTo s)

/-- R383, R386, R391, R405: a frame that is not accepted is discarded and counted. -/
def execDiscardedFrame (port : Nat) (why : DropCause) (s : State) : Host.Outcome State Fault Refusal :=
  .next (if 64 ≤ port then s
    else match why with
      | .frame => discard s
      | .pause => bump (discard s) F.NET_PORT_CNT_PAUSE port 1
      | .auth => bump s F.NET_FAB_CNT_AUTH_FAIL 0 1
      | .fcs => bump (discard s) F.NET_PORT_CNT_FCS_ERR port 1
      | .fec => raiseSource (bump s F.NET_PORT_CNT_FEC_UNCORR port 1) (160 + port))

/-! ## Ports (R355, R384, R385) -/

/-- TWIN_STATUS.PORTS_UP follows the twin ports. -/
def noteTwinPorts (s : State) : State :=
  wr s F.TWIN_STATUS_PORTS_UP 0 ((List.range 8).foldl (fun n i => if portMode s (56 + i) = pmTwin ∧ rdB s F.NET_PORT_UP (56 + i) then n + 2 ^ i else n) 0)

/-- A port no longer carries traffic: its paths close, and their segments go out on others (R400). -/
def portLost (s : State) (p : Nat) : State :=
  failExhausted (closePort (modFab s fun f => { f with carry := f.carry.filter (· ≠ p) }) p)

/-- R385: a port's link goes down; the event is raised once per port until the next start (R377). -/
def execPortLinkDown (port : Nat) (s : State) : Host.Outcome State Fault Refusal :=
  .next (if 64 ≤ port ∨ ¬ rdB s F.NET_PORT_UP port then s
    else
      let s := bump (wr s F.NET_PORT_UP port 0) F.NET_PORT_CNT_LINK_DOWN port 1
      let s := raiseSource (noteTwinPorts s) (160 + port)
      let s :=
        if portMode s port = pmOff ∨ s.fab.downSeen.contains port then s
        else
          let s := modFab s fun f => { f with downSeen := port :: f.downSeen }
          if portMode s port = pmTwin then raiseEngine s .report evTwinPort port 0 else raiseEngine s .alarm evPortDown port 0
      portLost s port)

/-- R385, R392: a port's link comes up: it carries traffic from the next boundary, and a POD or SWITCHED port sends a HELLO. A port that is OFF
is not powered (R384), and one of a lost rim domain is gone (R53). -/
def execPortLinkUp (port : Nat) (s : State) : Host.Outcome State Fault Refusal :=
  .next (if 64 ≤ port ∨ portMode s port = pmOff ∨ rdB s F.NET_PORT_UP port ∨ s.pwr.lostRims.contains (port / 16) then s
    else
      let s := raiseSource (noteTwinPorts (wr s F.NET_PORT_UP port 1)) (160 + port)
      if portMode s port = pmTwin then s else sendHello s port none)

/-- The ports whose link is up carry traffic from a boundary on (R385). -/
def portsCarry (s : State) : State := modFab s fun f => { f with carry := ports.filter (portUp s) }

/-- A port takes a mode (R384): its messages in flight are treated as under a link loss, and its peer is no longer known. -/
def setPortMode (s : State) (p mode : Nat) : State :=
  if portMode s p = mode then s
  else
    let s := failExhausted (closePort (wrAll s p [(F.NET_PORT_MODE, mode), (F.NET_PORT_PEER_NODE, 0), (F.NET_PORT_PEER_PORT, 0)]) p)
    noteTwinPorts (if mode = pmOff then wr (modFab s fun f => { f with carry := f.carry.filter (· ≠ p) }) F.NET_PORT_UP p 0 else s)

/-- The twin ports named by TWIN_CTL.PORTS take mode TWIN; a port no longer named leaves it (R355, R384). -/
def setTwinPorts (s : State) : State :=
  (List.range 8).foldl (fun s i =>
    let p := 56 + i
    if (rd s F.TWIN_CTL_PORTS 0).testBit i then setPortMode s p pmTwin
    else if portMode s p = pmTwin then setPortMode s p pmOff else s) s

/-- R384: the mode that a COMMIT captured for a port applies at the boundary. -/
def execPortModeChange (port : Nat) (s : State) : Host.Outcome State Fault Refusal :=
  .next (match tget? s.captured (fkey F.NET_PORT_MODE port) with
    | none => s
    | some w =>
      let mode := getF F.NET_PORT_MODE w
      if 64 ≤ port ∨ mode = pmTwin ∨ portMode s port = pmTwin then s else setPortMode s port mode)

/-! ## Hall time (R406, R407) -/

/-- OFFSET of a correction in ns, as a signed 32-bit field. -/
def offsetField (n : Int) : Nat := (BitVec.ofInt 32 n).toNat

/-- Hall time takes up an offset from the parent, that is its own time less the parent's: at first lock a forward correction is one step, and
every other correction is slewed. -/
def correct (s : State) (offsetNs : Int) : State :=
  let gain := -(offsetNs * 84)
  if ¬ s.fab.everLocked ∧ 0 < gain then { s with clk := { s.clk with hall := s.clk.hall + gain.toNat, slew := 0 } }
  else { s with clk := { s.clk with slew := gain } }

/-- A change of the servo's state raises source PTP (R488). -/
def setLocked (s : State) (v : Bool) : State :=
  if rdB s F.NET_PTP_LOCKED 0 = v then s else raiseSource (wr s F.NET_PTP_LOCKED 0 (bit v)) 29

/-- R406, R407: a PTP message of the domain on a POD or SWITCHED port drives the boundary clock; one that the best master clock algorithm does not
select leaves an engine without a parent as grandmaster. -/
def execPtpMessage (m : PtpMsg) (s : State) : Host.Outcome State Fault Refusal :=
  .next (if ¬ portCarries s m.port then s
    else if portMode s m.port = pmTwin then discard s
    else if m.domain.toNat ≠ rd s F.NET_PTP_DOMAIN 0 then s
    else if ¬ m.better then
      if s.fab.parent then s else wrAll s 0 [(F.NET_PTP_GM, 1), (F.NET_PTP_STEPS, 0), (F.NET_PTP_TRACEABLE, 0)]
    else
      let s := modFab (correct s m.offsetNs) fun f => { f with parent := true, everLocked := true }
      let s := wrAll s 0 [(F.NET_PTP_OFFSET, offsetField m.offsetNs), (F.NET_PTP_STEPS, min 15 (m.steps.toNat + 1)),
        (F.NET_PTP_TRACEABLE, bit m.traceable), (F.NET_PTP_GM, 0), (F.NET_PTP_VALID, 1)]
      setLocked s true)

/-- R407: the parent is lost: the engine holds over on its reference, and VALID stays 1. -/
def execPtpParentLoss (s : State) : Host.Outcome State Fault Refusal :=
  .next (if s.fab.parent then setLocked (modFab s fun f => { f with parent := false }) false else s)

/-- R407: 10 s without a parent, hall time is no longer valid. -/
def execHoldoverExpiry (s : State) : Host.Outcome State Fault Refusal :=
  .next (if s.fab.parent ∨ ¬ rdB s F.NET_PTP_VALID 0 then s else raiseSource (wr s F.NET_PTP_VALID 0 0) 29)

end Sys2Proof.Machine
end

