-- ==== Sys2Proof/Machine/Flags.lean ====
section
/-! DEFINITION. The conditions and relations of the core: format J's cond field (R127), the relations of CMP (R125) and of VCMP (R166). No
instruction of the core sets a flag (R125, R154). -/

namespace Sys2Proof.Machine

/-- The condition of format J on s[ra] (R127). -/
def condHolds (cond : Nat) (x : Word) : Bool :=
  match cond with
  | 0 => true
  | 1 => x = 0
  | 2 => x ≠ 0
  | 3 => x.toInt < 0
  | 4 => 0 ≤ x.toInt
  | 5 => 0 < x.toInt
  | 6 => x.toInt ≤ 0
  | _ => false

/-- The relation of CMP (R125, R126). -/
def cmpHolds (fn : Nat) (a b : Word) : Bool :=
  match fn with
  | 0 => a = b
  | 1 => a ≠ b
  | 2 => a.toInt < b.toInt
  | 3 => a.toNat < b.toNat
  | 4 => a.toInt ≤ b.toInt
  | _ => a.toNat ≤ b.toNat

/-- The lane relation of VCMP (R166): a relation involving a NaN is false, except NE. -/
def vcmpLane (t : LaneTy) (fn : Nat) (a b : Nat) : Bool :=
  match t.ffmt with
  | some f =>
    let nan := (valOf f a).isNan || (valOf f b).isNan
    (match fn with
     | 0 => fEq f a b
     | 1 => !fEq f a b
     | 2 => fLt f false a b
     | _ => !nan && (fLt f false a b || fEq f a b))
  | none =>
    let x := sInt t.width a
    let y := sInt t.width b
    (match fn with
     | 0 => x = y
     | 1 => x ≠ y
     | 2 => x < y
     | _ => x ≤ y)

end Sys2Proof.Machine
end

