-- ==== Sys2Proof/Machine/Transfer.lean ====
section
/-! DEFINITION. The transfer slot (R141–R144). -/

namespace Sys2Proof.Machine

/-- The accumulators, ca registers or scalar registers of a group. -/
def groupAcc (g : Nat) : List Nat := (List.range 8).map (8 * g + ·)
def groupCa (g : Nat) : List Nat := (List.range 32).map (32 * g + ·)
def groupS (g : Nat) : List Nat := (List.range 16).map (16 * g + ·)

/-- The transfer form of eight accumulators (R142). -/
def accWord (r : RegFiles) (a : Nat) : NetWord :=
  packLanes 128 ((List.range 8).map fun i => (laTransfer (rdAcc r (a + i)).la).toNat)

/-- Lane i of a word as an accumulator value: bits [127:112] are ignored (R64). -/
def laneLa (w : NetWord) (i : Nat) : La112 := BitVec.ofNat 112 (laneOf 128 w i)

/-- A send hands one word to the router in the cycle it issues (R143). -/
def issSend (ok : Bool) (reads : List RegName) (w : NetWord) : Iss := ⟨!ok, reads, [], [(0, .sendWord w)], [], none⟩

/-- R141: sends a vector register. -/
def execSend (c : Nat) (f : FmtX) (s : State) : Host.Outcome State Fault Refusal :=
  onCore c s fun s =>
    issueSlot s c .xfer (issSend (f.rsv = 0 && f.fn = 0) [.v f.reg.toNat] (rdV (coreOf s c).regs f.reg.toNat))

/-- R141: sends eight accumulators in transfer form; with CLR they and their counts are cleared. A tasting point (R175). -/
def execSenda (c : Nat) (f : FmtX) (s : State) : Host.Outcome State Fault Refusal :=
  onCore c s fun s =>
    let g := f.reg.toNat
    let clr := f.fn = 1
    let ok := f.rsv = 0 && f.fn.toNat < 2 && g < 16
    let accs := groupAcc g
    issueSlot s c .xfer ⟨!ok, accs.map .acc, if clr then accs.map fun a => (.acc a, 1) else [],
      [(0, .taste (2 ^ (g / 2)) none 0), (0, .sendWord (accWord (coreOf s c).regs (8 * g)))] ++
        (if clr then accs.map fun a => (0, .setAcc a ⟨0, 0⟩) else []), [], none⟩

/-- R141: sends 32 ca registers. -/
def execSendc (c : Nat) (f : FmtX) (s : State) : Host.Outcome State Fault Refusal :=
  onCore c s fun s =>
    let g := f.reg.toNat
    let r := (coreOf s c).regs
    issueSlot s c .xfer (issSend (f.rsv = 0 && f.fn = 0 && g < 4) ((groupCa g).map .ca)
      (packLanes 32 ((groupCa g).map fun n => (rdCa r n).toNat)))

/-- R141: sends 16 scalar registers. -/
def execSends (c : Nat) (f : FmtX) (s : State) : Host.Outcome State Fault Refusal :=
  onCore c s fun s =>
    let g := f.reg.toNat
    let r := (coreOf s c).regs
    issueSlot s c .xfer (issSend (f.rsv = 0 && f.fn = 0 && g < 2) ((groupS g).map .s)
      (packLanes 64 ((groupS g).map fun n => (rdS r n).toNat)))

/-- The word delivered to the transfer slot in the current cycle (R144). -/
def delivered (s : State) (c : Nat) : Option NetWord :=
  ((coreOf s c).deliv.find? fun d => d.1 = s.clk.cyc).map (·.2)

/-- A receive takes the word delivered in its issue cycle; with none, EV_XFER_SLOT and zeros (R144). -/
def issRecv (s : State) (c : Nat) (ok : Bool) (reads : List RegName) (writes : List (RegName × Nat))
    (effs : NetWord → List (Nat × Eff)) : Iss :=
  match delivered s c with
  | some w => ⟨!ok, reads, writes, (0, .took) :: effs w, [], none⟩
  | none => ⟨!ok, reads, writes, (0, .fault evXferSlot 0) :: effs 0, [], none⟩

/-- R144: a vector register takes the delivered word. -/
def execRecv (c : Nat) (f : FmtX) (s : State) : Host.Outcome State Fault Refusal :=
  onCore c s fun s =>
    let v := f.reg.toNat
    issueSlot s c .xfer (issRecv s c (f.rsv = 0 && f.fn = 0) [] [(.v v, 1)] fun w => [(0, .setV v w)])

/-- R141, R142: writes the word's lanes into eight accumulators, or adds them; block counts stay. A tasting point (R175). -/
def execRecva (c : Nat) (f : FmtX) (s : State) : Host.Outcome State Fault Refusal :=
  onCore c s fun s =>
    let g := f.reg.toNat
    let add := f.fn = 1
    let r := (coreOf s c).regs
    let lat := if add then 2 else 1
    issueSlot s c .xfer (issRecv s c (f.rsv = 0 && f.fn.toNat < 2 && g < 16)
      (if add then (groupAcc g).map .acc else []) ((groupAcc g).map fun a => (.acc a, lat)) fun w =>
        (0, .taste (2 ^ (g / 2)) none 0) :: (List.range 8).map fun i =>
          let old := rdAcc r (8 * g + i)
          (lat - 1, .setAcc (8 * g + i) ⟨if add then old.la + laneLa w i else laneLa w i, old.cnt⟩))

/-- An FP32 lane with a non-finite value read as +0 (R61). -/
def fin32 (x : Nat) : Nat := if (valOf fp32 x).isFin then x else 0

/-- The non-finite FP32 lanes of a word. -/
def badLanes (w : NetWord) : Nat := (List.range 32).countP fun l => !(valOf fp32 (laneOf 32 w l)).isFin

/-- R141: 32 ca registers take the word's lanes. A non-finite lane is written as +0 and counts NAN_OP or faults, as CMOV's does, since no ca
register ever holds a non-finite value (R79): the model's choice between the two rules (assumption 87). -/
def execRecvc (c : Nat) (f : FmtX) (s : State) : Host.Outcome State Fault Refusal :=
  onCore c s fun s =>
    let g := f.reg.toNat
    issueSlot s c .xfer (issRecv s c (f.rsv = 0 && f.fn = 0 && g < 4) [] ((groupCa g).map fun n => (.ca n, 1)) fun w =>
      nanEffs s c (badLanes w) ++ (List.range 32).map fun i => (0, .setCa (32 * g + i) (BitVec.ofNat 32 (fin32 (laneOf 32 w i)))))

/-- R141: 16 scalar registers take the word's lanes; the lane for s0 is discarded. -/
def execRecvs (c : Nat) (f : FmtX) (s : State) : Host.Outcome State Fault Refusal :=
  onCore c s fun s =>
    let g := f.reg.toNat
    issueSlot s c .xfer (issRecv s c (f.rsv = 0 && f.fn = 0 && g < 2) [] ((groupS g).map fun n => (.s n, 1)) fun w =>
      (List.range 16).map fun i => (0, .setS (16 * g + i) (BitVec.ofNat 64 (laneOf 64 w i))))

end Sys2Proof.Machine
end

