-- ==== Sys2Proof/Machine/Correction.lean ====
section
/-! DEFINITION. The correction lane and TSKIP, issued from the vector slot (R172–R174, R177). -/

namespace Sys2Proof.Machine

/-- A CDOT or CUP holds the lane in the current cycle (R172). -/
def laneBusy (s : State) (c : Nat) : Bool :=
  (coreOf s c).ops.any fun o => o.issue < s.clk.cyc && (match o.kind with | .cdot _ _ => true | .cup _ _ => true | _ => false)

def laneBusyOr (s : State) (c : Nat) (f : Option (Nat × Nat)) : Option (Nat × Nat) := if laneBusy s c then some (evHazard, 0) else f

/-- R173: adds V·x products of a chunk into a ca group in ascending order. -/
def execCdot (c : Nat) (f : FmtCD) (s : State) : Host.Outcome State Fault Refusal :=
  onCore c s fun s =>
    let r := (coreOf s c).regs
    let len := f.ni.toNat + 1
    let nregs := f.ni.toNat / 64 + 1
    let vx := f.vx.toNat
    let g := f.g.toNat
    let ok := f.rsv = 0 && vx + nregs ≤ 32
    let xs := (List.range len).map fun i => laneOf 16 (rdV r (vx + i / 64)) (i % 64)
    let w := rdS r f.sv.toNat
    let last := if f.uf = 1 then f.ni.toNat else f.ni.toNat / 2
    let lat := len + 3
    let bad := xs.countP fun x => !(valOf bf16 x).isFin
    issueSlot s c .vec ⟨!ok, .s f.sv.toNat :: (List.range nregs).map (fun i => .v (vx + i)) ++ (if f.z = 1 then [] else (groupCa g).map .ca),
      (groupCa g).map fun n => (.ca n, lat), nanEffs s c bad ++ (groupCa g).map fun n => (lat - 1, .laneSum n),
      [⟨.vec, s.clk.cyc, (coreOf s c).seq.pc, lat, .cdot f xs, w.toNat, 0, []⟩],
      laneBusyOr s c (if streamOk w last then none else some (evAddrRange, 0))⟩

/-- R172: adds one ca group into another, one rounding each. -/
def execCadd (c : Nat) (f : FmtCA) (s : State) : Host.Outcome State Fault Refusal :=
  onCore c s fun s =>
    let r := (coreOf s c).regs
    let ga := f.ga.toNat
    let gb := f.gb.toNat
    let out := (List.range 32).map fun l =>
      laneAdd (rdCa r (32 * ga + l)).toNat (valOf fp32 (rdCa r (32 * gb + l)).toNat)
    issueSlot s c .vec ⟨f.rsv ≠ 0, (groupCa ga).map .ca ++ (groupCa gb).map .ca, (groupCa ga).map fun n => (.ca n, 2),
      (out.mapIdx fun l x => (1, .setCa (32 * ga + l) (BitVec.ofNat 32 x.1))) ++ [(1, .count .clamp (out.countP (·.2)))], [],
      laneBusyOr s c none⟩


/-- R172: a ca group scaled by the lanes of a vector register. -/
def execCscl (c : Nat) (f : FmtCS) (s : State) : Host.Outcome State Fault Refusal :=
  onCore c s fun s =>
    let r := (coreOf s c).regs
    let g := f.g.toNat
    let vc := rdV r f.vc.toNat
    let out := (List.range 32).map fun l => laneMul (rdCa r (32 * g + l)).toNat (fin32 (laneOf 32 vc l))
    issueSlot s c .vec ⟨f.rsv ≠ 0, .v f.vc.toNat :: (groupCa g).map .ca, [(.v f.vd.toNat, 3)],
      nanEffs s c (badLanes vc) ++ [(2, .setV f.vd.toNat (packLanes 32 (out.map (·.1)))), (2, .count .clamp (out.countP (·.2)))], [],
      laneBusyOr s c none⟩

/-- R174: correction outputs from U and t′ into a ca group. -/
def execCup (c : Nat) (f : FmtCU) (s : State) : Host.Outcome State Fault Refusal :=
  onCore c s fun s =>
    let r := (coreOf s c).regs
    let rank := rankOf f.rk.toNat
    let per := (rank + 31) / 32
    let vt := f.vt.toNat
    let g := f.g.toNat
    let ok := f.rsv = 0 && vt + 2 * per ≤ 32
    let xs := (List.range 2).flatMap fun m => (List.range rank).map fun j => laneOf 32 (rdV r (vt + m * per + j / 32)) (j % 32)
    let w := rdS r f.su.toNat
    let last := if f.uf = 1 then (rank - 1) / 2 else (rank - 1) / 4
    let lat := rank + 3
    let bad := xs.countP fun x => !(valOf fp32 x).isFin
    issueSlot s c .vec ⟨!ok, .s f.su.toNat :: (List.range (2 * per)).map (fun i => .v (vt + i)), (groupCa g).map fun n => (.ca n, lat),
      nanEffs s c bad ++ (groupCa g).map fun n => (lat - 1, .laneSum n),
      [⟨.vec, s.clk.cyc, (coreOf s c).seq.pc, lat, .cup f xs, w.toNat, 0, []⟩],
      laneBusyOr s c (if streamOk w last then none else some (evAddrRange, 0))⟩

/-- R172: moves FP32 lanes between a vector register and a ca group; a non-finite lane moved in is written as +0 (R79). -/
def execCmov (c : Nat) (f : FmtCM) (s : State) : Host.Outcome State Fault Refusal :=
  onCore c s fun s =>
    let r := (coreOf s c).regs
    let g := f.g.toNat
    let v := f.v.toNat
    let x : Iss :=
      if f.dir = 0 then
        ⟨f.rsv ≠ 0, (groupCa g).map .ca, [(.v v, 2)], [(1, .setV v (packLanes 32 ((groupCa g).map fun n => (rdCa r n).toNat)))], [],
          laneBusyOr s c none⟩
      else
        ⟨f.rsv ≠ 0, [.v v], (groupCa g).map fun n => (.ca n, 2),
          nanEffs s c (badLanes (rdV r v)) ++ (List.range 32).map fun l => (1, .setCa (32 * g + l) (BitVec.ofNat 32 (fin32 (laneOf 32 (rdV r v) l)))), [],
          laneBusyOr s c none⟩
    issueSlot s c .vec x

/-- R177: exempts the next drain group of the tick from tasting. -/
def execTskip (c : Nat) (rsv : BitVec 58) (s : State) : Host.Outcome State Fault Refusal :=
  onCore c s fun s =>
    issueThen s c .vec (issCheck (rsv = 0) issNone) fun s =>
      modCore s c fun co => { co with taster := { co.taster with skip := true } }

end Sys2Proof.Machine
end

