-- ==== Sys2Proof/Machine/Network.lean ====
section
/-! DEFINITION. The data network (R188–R208): the route program of a cycle, forwarding, late words, ingress and egress through P7, and the
landing commands of a core. -/

namespace Sys2Proof.Machine

/-! ## Route programs (R192, R193) -/

/-- An entry of core c's route store: what a load wrote there, or what the plan set's transit template placed there (R197). -/
def storeEntry (s : State) (c e : Nat) : Word := tget (coreOf s c).routes e (tget (tget s.store.transitRoutes c []) e 0)

/-- The entry that covers cycle t, from store entry e on, with n entries left. -/
def routeScan (s : State) (c : Nat) : Nat → Nat → Nat → Option Word
  | 0, _, _ => none
  | n + 1, e, t =>
    let w := storeEntry s c e
    let run := w.toNat >>> 48
    if t ≤ run then some w else routeScan s c n (e + 1) (t - (run + 1))

/-- The running program's entry for cycle t; every output is idle after the last entry. -/
def routeEntry (s : State) (c t : Nat) : Word :=
  ((routeScan s c (rd s F.NET_RP_LEN c) (rd s F.NET_RP_BASE c) t).getD 0)

/-- The source code of output o: 0 N, 1 E, 2 S, 3 W, 4 L. -/
def selOf (w : Word) (o : Nat) : Nat := (w.toNat >>> (3 * o)) % 8
def entryEgr (w : Word) : Bool := w.getLsbD 16
def entryIng (w : Word) : Bool := w.getLsbD 17

/-- The router input that a source code names: 1–4 are N, E, S, W; 5 is the transfer slot, or the egress ring with EGR. -/
def inputOf (w : Word) (sel : Nat) : Option Nat :=
  match sel with
  | 1 => some 0 | 2 => some 1 | 3 => some 2 | 4 => some 3
  | 5 => some (if entryEgr w then 5 else 4)
  | _ => none

/-! ## Hops (R190, R198–R201) -/

/-- The neighbour of core c through port p; none at the edge of the array, where the port joins a rim link. -/
def neighbour (c p : Nat) : Option Nat :=
  let x := coreX c
  let y := coreY c
  match p with
  | 0 => if y = 0 then none else some (coreAt x (y - 1))
  | 1 => if x = 151 then none else some (coreAt (x + 1) y)
  | 2 => if y = 95 then none else some (coreAt x (y + 1))
  | 3 => if x = 0 then none else some (coreAt (x - 1) y)
  | _ => none

/-- The port of the neighbour that faces back. -/
def backPort (p : Nat) : Nat := (p + 2) % 4

/-- The scheduled cost of the hop from c to d (R190). -/
def hopCost (c d : Nat) : Nat :=
  if fieldOf c = fieldOf d then 1
  else if (coreX c = 75 ∧ coreX d = 76) ∨ (coreX c = 76 ∧ coreX d = 75) then 5
  else 2

/-- The hop is an east–west hop within a field row that passes the row's dead tile on a bypass wire (R36, R198). -/
def isBypass (s : State) (c d : Nat) : Bool :=
  fieldOf c = fieldOf d && coreY c = coreY d &&
    (physOf s c + 2 = physOf s d || physOf s d + 2 = physOf s c)

/-- EV_ROUTE_FAULT with the DROP counter (R194). -/
def dropWord (s : State) (c : Nat) : State :=
  recordFault (bump s F.NET_CNT_DROP c 1) c evRouteFault 0 s.clk.cyc 0 false

/-- The link from physical tile a to the tile b east or south of it on the wires (R36, R201, R204). -/
def tileLink (a b : Nat) : Nat := 65536 * (a + 1) + b

/-- The physical link behind port p of core c: the tiles at its two ends, or a rim link. -/
def linkOf (s : State) (c p : Nat) : Nat :=
  match neighbour c p with
  | some d => if p = 1 ∨ p = 2 then tileLink (physOf s c) (physOf s d) else tileLink (physOf s d) (physOf s c)
  | none => 4 * c + p

/-! ## Rim slots (R205) -/

/-- The run of a rim slot table that covers cycle t. -/
def slotScan : List Word → Nat → Option Word
  | [], _ => none
  | w :: l, t => let run := w.toNat >>> 48
    if t ≤ run then some w else slotScan l (t - (run + 1))

def slotClass (w : Word) : Nat := w.toNat % 8
def slotOut (w : Word) : Bool := w.getLsbD 3
def slotBlock (w : Word) : Nat := w.toNat / 256 % 256

/-- The rim block that a slot names is lost (R53, R376). -/
def blockGone (s : State) (w : Word) : Bool :=
  let n := slotBlock w
  match slotClass w with
  | 1 => s.pwr.lostRims.contains 0
  | 2 => s.pwr.lostPagers.contains n
  | 3 => if n < 48 then s.pwr.lostStacks.contains n else s.pwr.lostRims.contains ((n - 64) / 16)
  | 4 => s.pwr.lostSamplers.contains n
  | _ => false

/-- The slot of a rim link in cycle t; a dead link has none (R204), and neither has a block that is lost. -/
def slotAt (s : State) (link t : Nat) : Option Word :=
  if s.net.deadLinks.contains link then none else (slotScan (tget s.store.rimSlots link []) t).filter fun w => !blockGone s w

/-- The slot lets a block take words from the link outward. -/
def slotTakes (o : Option Word) : Bool :=
  match o with
  | some w => slotOut w && slotClass w ≠ 0
  | none => false

/-- The slot lets the block of a class drive the link inward. -/
def slotGives (o : Option Word) (cls block : Nat) : Bool :=
  match o with
  | some w => !slotOut w && cls ≠ 0 && slotClass w = cls && slotBlock w = block
  | none => false

/-- A word leaves the array in cycle t: the block of the slot has it after the rim stage, which a late word skips (R190, R199). It is accepted once
its tick has closed cleanly (R208). A word that no block takes is lost (assumption 89). -/
def rimExit (s : State) (c p : Nat) (late : Bool) (region : Nat) (w : NetWord) : State :=
  let t := s.clk.cyc
  if slotTakes (slotAt s (4 * c + p) t) then
    { s with net := { s.net with rimWait := s.net.rimWait ++ [⟨tickCount s, t + 2 - bit late, c, p, region, w⟩] } }
  else s

/-- A word leaves core c through port p in the current cycle t: it arrives at the neighbour after the hop's cost. A late word skips the
crossing stage and is late no more; a word that passes a bypass becomes late, and a late one is discarded there (R198–R200). A dead link carries
nothing (R204). -/
def forwardHop (s : State) (c p : Nat) (late : Bool) (region : Nat) (w : NetWord) : State :=
  let t := s.clk.cyc
  match neighbour c p with
  | none => rimExit s c p late region w
  | some d =>
    let put (cy : Nat) (l : Bool) : State := modCore s d fun co => { co with inWords := co.inWords ++ [⟨backPort p, cy, l, region, w⟩] }
    if s.net.deadLinks.contains (linkOf s c p) then s
    else if isBypass s c d then (if late then dropWord s c else put (t + 2) true)
    else if fieldOf c = fieldOf d then put (t + 1) late
    else put (t + hopCost c d - bit late) false

/-- Rows of an ingress or egress ring from a position. -/
def ringRow (base len pos : Nat) : Nat := base + pos % max 1 len

/-- The ingress position advances by two rows, modulo LEN (R206). -/
def stepIng (s : State) (c : Nat) : State :=
  let len := rd s F.NET_ING_RING_LEN c
  if len = 0 then s else wr s F.NET_RING_POS_ING c ((rd s F.NET_RING_POS_ING c + 2) % len)

/-- A word delivered to P7 (R206): first is the cycle in which its lower row is written, row the ring row. One that comes while the word before
it still occupies P7 is discarded. -/
def toP7 (s : State) (c first row : Nat) (w : NetWord) : State :=
  let xferFault (s : State) : State := recordFault s c evXferSlot 0 s.clk.cyc 0 false
  if rd s F.NET_ING_RING_LEN c = 0 then xferFault s
  else if (coreOf s c).p7.any fun w => first < w.first + 2 then xferFault s
  else modCore s c fun co => { co with p7 := co.p7 ++ [⟨first, row, w, false⟩] }

/-- The L output under an entry: a delivery to the transfer slot, or an ingress write with ING (R193). The delivery stage takes a cycle,
which a late word skips (R199). slotPassed: the ingress slot of the word's schedule has already advanced the position. -/
def deliverL (s : State) (c : Nat) (entry : Word) (late : Bool) (w : NetWord) : State :=
  let t := s.clk.cyc
  if entryIng entry then
    let len := rd s F.NET_ING_RING_LEN c
    let pos := rd s F.NET_RING_POS_ING c
    let at' := if late then (pos + len - 2) % max 1 len else pos
    let s := toP7 s c (t + 1 - bit late) (ringRow (rd s F.NET_ING_RING_BASE c) len at') w
    if late then s else stepIng s c
  else modCore s c fun co => { co with deliv := co.deliv ++ [(t + 1 - bit late, w)] }

/-- Outputs of an entry that select an input. -/
def outputsFor (entry : Word) (inp : Nat) : List Nat :=
  (List.range 5).filter fun o => inputOf entry (selOf entry o) = some inp

/-- One word of the current cycle at router c forwarded to the outputs that select it; none selecting it drops it. taken lists the outputs
that an on-time word uses. -/
def forwardWord (s : State) (c : Nat) (entry : Word) (taken : List Nat) (iw : InWord) : State :=
  let outs := outputsFor entry iw.port
  if outs = [] then dropWord s c
  else
    outs.foldl (fun s o =>
      if iw.late && taken.contains o then dropWord s c
      else if o = 4 then deliverL s c entry iw.late iw.word
      else forwardHop s c o iw.late iw.region iw.word) s

/-! ## Lane checks (R189, R202–R204) -/

/-- The physical lane excluded on the link behind a port, 15 for none (R203, R220). -/
def sparedOf (s : State) (c p : Nat) : Nat := tget s.net.spared (linkOf s c p) 15

/-- NET_LANE of a router reports the maps of the links that its logical core now uses (R204, R220). -/
def showLanes (s : State) (c : Nat) : State :=
  wrAll s c [(F.NET_LANE_E_SPARED, sparedOf s c 1), (F.NET_LANE_S_SPARED, sparedOf s c 2)]

/-- The logical lane that runs on a physical lane (R203); none on the spared lane, or on the ninth when none is spared. -/
def logicalLane (spared lane : Nat) : Option Nat :=
  if spared = 15 then (if lane < 8 then some lane else none)
  else if lane < spared then some lane
  else if lane = spared ∨ 8 < lane then none
  else some (lane - 1)

/-- One step of the lane check code: generator x^8 + x^2 + x + 1. -/
def crc8Step (crc : BitVec 8) (b : Bool) : BitVec 8 := if xor (crc.getLsbD 7) b then (crc <<< 1) ^^^ 0x07#8 else crc <<< 1

/-- The check code of a lane: over V, then the data bits from bit 0 (R189, assumption 90). -/
def laneCrc (v : Bool) (d : BitVec 128) : BitVec 8 := (List.range 128).foldl (fun c i => crc8Step c (d.getLsbD i)) (crc8Step 0 v)

/-- The lane passes its check. -/
def laneGood (l : LaneBits) : Bool := l.crc = laneCrc l.v l.data

/-- What logical lane i of the link behind port p carries as sent: V and its data. -/
def laneSent (w : Option NetWord) (i : Nat) : Bool × BitVec 128 :=
  match w with
  | some w => (true, (w >>> (128 * i)).setWidth 128)
  | none => (false, 0)

/-- The eight logical lanes as received: those of the list as they came, the others as sent. -/
def lanesReceived (spared : Nat) (w : Option NetWord) (ls : List LaneBits) : List (Bool × BitVec 128) :=
  (List.range 8).map fun i =>
    match ls.find? fun l => logicalLane spared l.lane = some i with
    | some l => (l.v, l.data)
    | none => laneSent w i

/-- The word present in lanes: V is 1 in all eight (R189). -/
def lanesWord (ls : List (Bool × BitVec 128)) : Option NetWord :=
  if ls.all (·.1) then some (BitVec.ofNat 1024 (ls.foldr (fun l acc => l.2.toNat + acc * 2 ^ 128) 0)) else none

/-- A check failure on a lane joins the link's history. A second one of the lane within 1 s asks for its sparing (R203); with the spare in use, on
another lane, the link is dead (R204). -/
def noteLane (c p : Nat) (s : State) (lane : Nat) : State :=
  let link := linkOf s c p
  let now := hallNs s
  let again := s.net.laneFails.any fun f => f.link = link && f.lane = lane && now ≤ f.hall + 1000000000
  let s := { s with net := { s.net with laneFails := ⟨link, lane, now⟩ :: s.net.laneFails } }
  if ¬ again then s
  else if sparedOf s c p = 15 then
    { s with net := { s.net with spareReq := ⟨link, lane, c⟩ :: s.net.spareReq.filter fun r => r.link ≠ link } }
  else if sparedOf s c p ≠ lane ∧ ¬ s.net.deadLinks.contains link then
    raiseEngine { s with net := { s.net with deadLinks := link :: s.net.deadLinks } } .alarm evLinkDead c 0
  else s

/-- A word of port p that failed its check at router c: CHECK, EV_LINK_CHECK and the history of its lanes (R202). -/
def wordFails (s : State) (c p : Nat) (lanes : List Nat) : State :=
  lanes.foldl (noteLane c p) (recordFault (bump s F.NET_CNT_CHECK c 1) c evLinkCheck 0 s.clk.cyc 0 false)

/-- Port p of router c with lanes that received other bits than were sent: the word as received goes on, and it fails its check when a lane does or
when its lanes disagree on V, which is laid to the lanes without V (R189, R202, assumption 90). -/
def checkPort (c : Nat) (lanes : List LaneBits) (x : State × List InWord) (p : Nat) : State × List InWord :=
  let (s, here) := x
  let spared := sparedOf s c p
  let ls := lanes.filter fun l => l.port = p && (logicalLane spared l.lane).isSome
  if ls = [] then x
  else
    let sent := here.find? fun w => w.port = p
    let got := lanesReceived spared (sent.map (·.word)) ls
    let bad := ls.filter fun l => !laneGood l
    let split := got.any (·.1) && !got.all (·.1)
    let quiet := (List.range 9).filter fun k => match logicalLane spared k with | some i => (got.getD i (true, 0)).1 = false | none => false
    let s := if bad ≠ [] then wordFails s c p (bad.map (·.lane)) else if split then wordFails s c p quiet else s
    let rest := here.filter fun w => w.port ≠ p
    match lanesWord got with
    | some w => (s, rest ++ [match sent with | some o => { o with word := w } | none => ⟨p, s.clk.cyc, false, rd s F.CORE_STATUS_REGION c, w⟩])
    | none => (s, rest)

/-! ## Rim sources (R205, R208) -/

/-- The region runs: its sources deliver. -/
def delivers (s : State) (r : Nat) : Bool := rd s F.REG_UNIT_STATUS_STATE r = 5 || rd s F.REG_UNIT_STATUS_STATE r = 6

/-- A source drives a word in the current cycle: it reaches the edge router two cycles later (R190), and the source keeps it. -/
def rimEnter (c : Nat) (s : State) (w : RimWord) : State :=
  let k : RimIn := ⟨tickCount s, s.clk.cyc, c, w⟩
  let s := { s with net := { s.net with rimKept := s.net.rimKept ++ [k] } }
  modCore s c fun co => { co with inWords := co.inWords ++ [⟨w.port, s.clk.cyc + 2, false, w.region, w.word⟩] }

/-- The words that a replay repeats in the current cycle at edge router c. -/
def rimDue (s : State) (c : Nat) : List RimIn :=
  s.net.rimRepeat.filter fun k => k.core = c && k.tick = tickCount s && k.cycle = s.clk.cyc

/-- The oldest word that a source holds back for edge router c and may drive in the current slot of its link. -/
def rimNext (s : State) (c : Nat) : Option RimIn :=
  s.net.rimHeld.find? fun k => k.core = c && delivers s k.word.region && slotGives (slotAt s (4 * c + k.word.port) s.clk.cyc) k.word.cls k.word.block &&
    !s.net.rimRepeat.any fun q => q.word.region = k.word.region

/-- Word n of the payload of a cask image: two rows (R289). -/
def caskWord (image : List Byte) (n : Nat) : Option NetWord :=
  if image.length ≤ 256 + 128 * n then none else some (BitVec.ofNat 1024 (natOfBytes ((image.drop (256 + 128 * n)).take 128)))

/-- One streamed cask in a slot that a plan set assigns to it (R301): a pass begins at row 0, and the next payload word is ready for the slot. A region
that is stopped, or whose replay is still repeating words, takes none. -/
def streamNext (s : State) (c p : Nat) (mark : Bool) (x : CaskStream) : CaskStream × List RimIn :=
  if ¬ delivers s x.region ∨ s.net.rimRepeat.any (fun q => q.word.region = x.region) then (x, [])
  else
    let n := if mark then 0 else x.next
    let m := s.store.masters.find? fun m => m.plan = x.plan && m.target = x.target && m.version = x.version
    match m.bind fun m => caskWord m.image n, slotAt s (4 * c + p) s.clk.cyc with
    | some w, some e => ({ x with next := n + 1 }, [⟨tickCount s, s.clk.cyc, c, ⟨p, 3, slotBlock e, x.region, w⟩⟩])
    | _, _ => ({ x with next := n }, [])

/-- The streamed casks at port p of edge router c in the current cycle join the words held back for its slot. -/
def streamPort (c : Nat) (s : State) (p : Nat) : State :=
  let link := 4 * c + p
  if s.net.streams = [] ∨ (neighbour c p).isSome then s
  else match slotAt s link s.clk.cyc, Config.streamSlot (rd s F.REG_STATUS_PLAN_SET 0) link s.clk.cyc with
    | some e, some (k, mark) =>
      if slotClass e ≠ 3 ∨ slotOut e then s
      else
        let got := s.net.streams.map fun x => if (x.plan, x.target, x.version) = k then streamNext s c p mark x else (x, [])
        { s with net := { s.net with streams := got.map (·.1), rimHeld := s.net.rimHeld ++ got.flatMap (·.2) } }
    | _, _ => s

/-- Rim sources at edge router c in the current cycle. A new word joins those held back when a block may drive the link in this slot (R205); a
replay's repeats come in their own slots; the oldest word of a region that runs takes its slot, and a stopped region's wait (R208). -/
def rimSources (s : State) (c : Nat) (ws : List RimWord) : State :=
  let t := s.clk.cyc
  let new := (ws.filter fun w => (neighbour c w.port).isNone && w.port < 4 && slotGives (slotAt s (4 * c + w.port) t) w.cls w.block).map
    fun w => (⟨tickCount s, t, c, w⟩ : RimIn)
  let due := rimDue s c
  let s := (List.range 4).foldl (streamPort c) s
  let s := { s with net := { s.net with rimHeld := s.net.rimHeld ++ new, rimRepeat := s.net.rimRepeat.filter fun k => !due.contains k } }
  let s := due.foldl (fun s k => rimEnter c s k.word) s
  (List.range 4).foldl (fun s p =>
    if due.any fun k => k.word.port = p then s
    else match rimNext { s with net := { s.net with rimHeld := s.net.rimHeld.filter fun k => k.word.port = p } } c with
      | some k => rimEnter c { s with net := { s.net with rimHeld := s.net.rimHeld.erase k } } k.word
      | none => s) s

/-- The egress words of region r of ticks up to one that closed cleanly are accepted by their sinks (R112, R208). -/
def acceptRim (s : State) (r tick : Nat) : State :=
  let mine (w : RimOut) : Bool := w.region = r && w.tick ≤ tick
  { s with net := { s.net with rimOut := (s.net.rimWait.filter mine).reverse ++ s.net.rimOut, rimWait := s.net.rimWait.filter fun w => !mine w } }

/-- The egress words of region r from a tick on, which is replayed: the sinks discard them (R208). -/
def discardRim (s : State) (r tick : Nat) : State :=
  { s with net := { s.net with rimWait := s.net.rimWait.filter fun w => !(w.region = r && tick ≤ w.tick) } }

/-- Region r resumes in tick t with the state that opens tick restart: its sources repeat what they delivered from that tick on, in the same slots
(R208). -/
def repeatRim (s : State) (r restart t : Nat) : State :=
  let mine (k : RimIn) : Bool := k.word.region = r && restart ≤ k.tick
  { s with net := { s.net with
    rimRepeat := s.net.rimRepeat.filter (fun k => k.word.region ≠ r) ++
      (s.net.rimKept.filter mine).map fun k => { k with tick := t + (k.tick - restart) }
    rimKept := s.net.rimKept.filter fun k => !mine k } }

/-- The rim keeps nothing of region r. -/
def forgetRim (s : State) (r : Nat) : State :=
  { s with net := { s.net with rimKept := s.net.rimKept.filter fun k => k.word.region ≠ r, rimHeld := s.net.rimHeld.filter fun k => k.word.region ≠ r,
                               rimRepeat := s.net.rimRepeat.filter fun k => k.word.region ≠ r, rimWait := s.net.rimWait.filter fun w => w.region ≠ r,
                               streams := s.net.streams.filter fun x => x.region ≠ r } }

/-- At the opening of tick t the sources of a region that runs keep its last tick and the one that opens (R208). -/
def pruneRim (s : State) (t : Nat) : State :=
  { s with net := { s.net with rimKept := s.net.rimKept.filter fun k => !delivers s k.word.region || t ≤ k.tick + 1 } }

/-- Router c in the current cycle (R194, R198, R202): rim sources act, failed words are reported, late words take the entry of the cycle
before, on-time words the cycle's own, and an ingress slot without a word still advances the position (R206). -/
def routerCycle (s : State) (c : Nat) (i : RouterIn) : State :=
  let t := s.clk.cyc
  let s := rimSources s c i.rim
  let (s, here) := (List.range 4).foldl (checkPort c i.lanes) (s, (coreOf s c).inWords.filter fun w => w.cycle = t)
  let s := modCore s c fun co => { co with inWords := co.inWords.filter fun w => w.cycle ≠ t }
  let entry := routeEntry s c t
  let before := if t = 0 then 0 else routeEntry s c (t - 1)
  let onTime := here.filter fun w => !w.late
  let lates := here.filter (·.late)
  let used := onTime.flatMap fun w => outputsFor entry w.port
  let s := lates.foldl (fun s w => forwardWord (bump s F.NET_CNT_LATE c 1) c before used w) s
  let s := onTime.foldl (fun s w => forwardWord s c entry [] w) s
  let slotEmpty := entryIng entry && !(onTime.any fun w => (outputsFor entry w.port).contains 4) && selOf entry 4 ≠ 0
  if slotEmpty then stepIng s c else s

/-! ## Ingress and egress through P7 (R98–R100, R206, R207) -/

/-- A tick abort (R99, R182): EV_TICK_ABORT without a faulting bundle (R537), the ABORT flag and the ABORT counter, which counts every discarded
write of a tick: DESIGN CHOICE (assumption 86). -/
def tickAbort (s : State) (c cyc : Nat) : State :=
  let s := modCore s c fun co => { co with aborted := true }
  recordFault (bump s F.CORE_SPAD_CNT_ABORT c 1) c evTickAbort 0 cyc 0 false

/-- One row written through P7 (R98, R99): at once when its bank is free, else into the write-hold buffer, or discarded with a tick abort
when both entries are occupied. A bank serves one access in a cycle (R96): a write that meets the cycle's egress read is held as well
(assumption 86). -/
def p7Write (s : State) (c row : Nat) (d : RowData) : State :=
  let co := coreOf s c
  let b := bankOf row
  if bankBusy co s.clk.cyc b || co.held.any (fun h => bankOf h.row = b) || co.egrBanks.contains b then
    if 2 ≤ co.held.length then tickAbort s c s.clk.cyc
    else countConflict (setCore s c { co with held := co.held ++ [⟨row, d, s.clk.cyc, false⟩] }) c
  else setCore s c (putRow co row d)

/-- The write of one word of P7 in the current cycle: the lower row in the word's first cycle, the upper row in the next, when the word leaves P7
(R206). -/
def ingressWord (c : Nat) (s : State) (w : P7Word) : State :=
  let t := s.clk.cyc
  let back (w : P7Word) : State := modCore s c fun co => { co with p7 := co.p7 ++ [w] }
  if ¬ w.lowDone ∧ w.first ≤ t then p7Write (back { w with lowDone := true, first := t }) c w.row (w.word.setWidth 512)
  else if w.lowDone ∧ w.first < t then p7Write s c (w.row + 1) ((w.word >>> 512).setWidth 512)
  else back w

/-- The ingress writes of the current cycle. -/
def ingressCycle (s : State) (c : Nat) : State :=
  (coreOf s c).p7.foldl (ingressWord c) (modCore s c fun co => { co with p7 := [] })

/-- One attempt to read a row for the egress ring: none when an engine access or a held entry has the bank (R100). -/
def egressTry (s : State) (c row : Nat) : Option RowData × State :=
  let co := coreOf s c
  let b := bankOf row
  if bankBusy co s.clk.cyc b || co.held.any (fun h => bankOf h.row = b) then (none, countConflict s c)
  else
    let r := rowAt co row
    let s := modCore s c fun co => { co with egrBanks := b :: co.egrBanks }
    (some r.data, if rowGood row r then modCore s c fun co => { co with repaired := co.repaired.filter (· ≠ row) } else detectFail s c 0 s.clk.cyc row)

/-- The L input takes an egress word in cycle t. -/
def egressAt (s : State) (c t : Nat) : Bool :=
  let e := routeEntry s c t
  t < schedCycles s && entryEgr e && (List.range 5).any fun o => selOf e o = 5

/-- One egress word in the current cycle u (R207): its lower row in t − 4 or t − 3, its upper row in t − 2 or t − 1. -/
def egressStep (c : Nat) (s : State) (e : Egress) : State :=
  let u := s.clk.cyc
  let back (s : State) (e : Egress) : State := modCore s c fun co => { co with egress := co.egress ++ [e] }
  if u = e.cycle then
    let len := rd s F.NET_EGR_RING_LEN c
    let s := if len = 0 then s else wr s F.NET_RING_POS_EGR c ((rd s F.NET_RING_POS_EGR c + 2) % len)
    match e.lo, e.hi with
    | some lo, some hi =>
      modCore s c fun co =>
        { co with inWords := co.inWords ++ [⟨5, u, false, rd s F.CORE_STATUS_REGION c, BitVec.ofNat 1024 (lo.toNat + hi.toNat * 2 ^ 512)⟩] }
    | _, _ => recordFault s c evXferSlot 0 u 0 false
  else if u + 3 = e.cycle ∨ u + 4 = e.cycle then
    match e.lo with
    | some _ => back s e
    | none => let (d, s) := egressTry s c e.row; back s { e with lo := d }
  else if u + 1 = e.cycle ∨ u + 2 = e.cycle then
    match e.hi with
    | some _ => back s e
    | none => let (d, s) := egressTry s c (e.row + 1); back s { e with hi := d }
  else back s e

/-- The egress reads of the current cycle. An egress slot four cycles ahead opens a word, and cycle 0 those of the cycles before it, each two rows
on from the last. -/
def egressCycle (s : State) (c : Nat) : State :=
  let u := s.clk.cyc
  let co := coreOf s c
  let len := rd s F.NET_EGR_RING_LEN c
  let slots := ((if u = 0 then List.range 4 else []) ++ [u + 4]).filter (egressAt s c)
  let row (i : Nat) : Nat := ringRow (rd s F.NET_EGR_RING_BASE c) len (rd s F.NET_RING_POS_EGR c + 2 * (co.egress.length + i))
  let all := co.egress ++ slots.zipIdx.map fun e => (⟨e.1, row e.2, none, none⟩ : Egress)
  if len = 0 then
    -- no ring: every egress slot leaves with V = 0
    if egressAt s c u then recordFault s c evXferSlot 0 u 0 false else s
  else all.foldl (egressStep c) (setCore s c { co with egress := [] })

/-! ## The landing commands -/

/-- The last cycle of the tick, stretch cycles included (R537). -/
def lastCycle (s : State) : Nat := schedCycles s + stretchOf s - 1

/-- The egress reads, the router and the ingress write of core c in the current cycle, each once, in this order: a word read for the
current cycle enters the router in it. -/
def egressOnce (s : State) (c : Nat) : State :=
  oncePerCycle s c .egress fun s => if s.clk.cyc < schedCycles s then egressCycle s c else s
def routerOnce (s : State) (c : Nat) (i : RouterIn) : State :=
  oncePerCycle (egressOnce s c) c .router fun s => if s.clk.cyc < schedCycles s then routerCycle s c i else s
def ingressOnce (s : State) (c : Nat) : State :=
  oncePerCycle s c .ingress fun s => if s.clk.cyc < schedCycles s then ingressCycle s c else s

/-- R121: the results of core c due in the current cycle land; the cycle's accesses are made first, and no result lands in a
stretch cycle (R181). -/
def execResultLanding (c : Nat) (s : State) : Host.Outcome State Fault Refusal :=
  onCore c s fun s => if clocked s then landCore (doPorts s c) c else s


/-- R206: the ingress word in P7 is written. -/
def execIngressWrite (c : Nat) (s : State) : Host.Outcome State Fault Refusal :=
  onCore c s fun s => ingressOnce s c

/-- Entries left in the write-hold buffer in the tick's last cycle are discarded with a tick abort (R182). -/
def dropHeld (s : State) (c : Nat) : State :=
  if (coreOf s c).held.any (fun h => !h.landed) then
    tickAbort (modCore s c fun co => { co with held := co.held.filter (·.landed) }) c (lastCycle s)
  else s

/-- R98, R182: held entries whose bank is free land; in the tick's last cycle the others are discarded with a tick abort. -/
def execHeldEntryLand (c : Nat) (s : State) : Host.Outcome State Fault Refusal :=
  onCore c s fun s =>
    let s := oncePerCycle s c .held fun s => landHeld s c
    if s.clk.cyc = lastCycle s then dropHeld s c else s

/-- R207: P7 reads rows of the egress ring for words about to enter the router. -/
def execEgressRead (c : Nat) (s : State) : Host.Outcome State Fault Refusal :=
  onCore c s fun s => egressOnce s c

end Sys2Proof.Machine
end

