-- ==== Sys2Proof/Machine/Links.lean ====
section
/-! DEFINITION. Physical links and what a COMMIT may set of a router (R203, R206, R220, R410): the tiles at a link's ends, where its lane map is shown,
forced lanes, rings and route programs. -/

namespace Sys2Proof.Machine

/-- The logical core on a physical tile. -/
def coreOnTile (s : State) (f r col : Nat) : Option Nat :=
  (List.range 19).find? (fun j => physCol (deadCol s f r) j = col) |>.map fun j => coreAt (19 * (f % 8) + j) (16 * (f / 8) + r)

/-- The link of rim lane n (R410). -/
def rimLink (n : Nat) : Nat := if n < 152 then 4 * coreAt n 0 else 4 * coreAt 0 (n - 152) + 3

/-- The cores at the ends of a link. -/
def linkEnds (s : State) (link : Nat) : List Nat :=
  if link < 65536 then [link / 4]
  else [link / 65536 - 1, link % 65536].filterMap fun t => coreOnTile s (t / 320) (t % 320 / 20) (t % 20)

/-- The FORCE fields of a rim lane register with the byte each lies in. -/
def rimForces : List (Field × Field × Nat) :=
  [(F.NET_RIM_LANE_FORCE_0, F.NET_RIM_LANE_SPARED_0, 0), (F.NET_RIM_LANE_FORCE_1, F.NET_RIM_LANE_SPARED_1, 1),
    (F.NET_RIM_LANE_FORCE_2, F.NET_RIM_LANE_SPARED_2, 2), (F.NET_RIM_LANE_FORCE_3, F.NET_RIM_LANE_SPARED_3, 3),
    (F.NET_RIM_LANE_FORCE_4, F.NET_RIM_LANE_SPARED_4, 4), (F.NET_RIM_LANE_FORCE_5, F.NET_RIM_LANE_SPARED_5, 5),
    (F.NET_RIM_LANE_FORCE_6, F.NET_RIM_LANE_SPARED_6, 6), (F.NET_RIM_LANE_FORCE_7, F.NET_RIM_LANE_SPARED_7, 7)]

/-- The rim lane register's SPARED fields that name a link. -/
def showRim (s : State) (link lane : Nat) : State :=
  match (List.range 248).find? fun n => rimLink n = link with
  | some n => match rimForces[n % 8]? with
    | some (_, f, _) => wr s f (n / 8) lane
    | none => s
  | none => s

/-- The lane map of a link is shown: in NET_LANE of the routers at its ends, or, for a north or west rim link, in the rim block (R220, R410). -/
def showLink (s : State) (link : Nat) : State := (linkEnds s link).foldl showLanes (showRim s link (tget s.net.spared link 15))

/-- The core whose router holds a link's lane map, for a FORCE field of a register instance. -/
def forceCore (link i : Nat) : Nat := if link < 65536 then link / 4 else i

/-- The link that a FORCE field of a register instance names. -/
def forceLink (s : State) (f : Field) (i : Nat) : Option Nat :=
  if f = F.NET_LANE_E_FORCE then some (linkOf s i 1)
  else if f = F.NET_LANE_S_FORCE then some (linkOf s i 2)
  else match rimForces.find? fun e => e.1 = f with
    | some (_, _, j) => if 8 * i + j ≤ 247 then some (rimLink (8 * i + j)) else none
    | none => none

/-- A forced lane of a link (R220): a lane that does not exist, or a second lane of a link that spares one. -/
def forceBad (s : State) (link x : Nat) : Bool := (9 ≤ x && x ≤ 14) || (x ≠ 15 && tget s.net.spared link 15 ≠ 15 && tget s.net.spared link 15 ≠ x)

/-- A forced lane waits for a boundary at which its region is stopped (R203, R220); a force that is taken back ends the sparing it made. -/
def forceLane (s : State) (i link old x : Nat) : State :=
  if old = x then s
  else if x = 15 then
    (if tget s.net.spared link 15 = old then showLink { s with net := { s.net with spared := tdel s.net.spared link } } link else s)
  else { s with net := { s.net with spareReq := ⟨link, x, forceCore link i⟩ :: s.net.spareReq.filter fun r => r.link ≠ link } }

/-- Two runs of rows share a row. -/
def runsMeet (a n b k : Nat) : Bool := 0 < n && 0 < k && a < b + k && b < a + n

/-- A ring that is not applied beside a window (R206, R220): odd, past the last row, or over the core's cask window. -/
def ringBadBeside (base len wbase wlen : Nat) : Bool := len % 2 = 1 || 131072 < base + len || runsMeet base len wbase wlen

/-- A ring that is not applied beside the window in force. -/
def ringBad (s : State) (c base len : Nat) : Bool := ringBadBeside base len (rd s F.CORE_SPAD_WIN_BASE c) (rd s F.CORE_SPAD_WIN_LEN c)

/-- A route program that is not applied (R220). -/
def rpBad (base len : Nat) : Bool := 4096 < len || 8192 < base + len

end Sys2Proof.Machine
end

