-- ==== Sys2Proof/Machine/Regions.lean ====
section
/-! DEFINITION. Regions (R256–R286): region commands and their checks, binding and loading, sweeps, racks (R306–R311) and the unit mailbox. A
command sets the phase of every plan region it acts on; the boundaries and the load commands carry the phases on. -/

namespace Sys2Proof.Machine

/-! ## Commands in progress (R269) -/

/-- A command in progress on r, on a unit above it or on one beneath it (R269); so is what the Keep does by itself with a region. -/
def cmdBusy (s : State) (r : Nat) : Bool :=
  s.units.any fun u => (u.2.cmd.isSome || (u.2.phase ≠ .none && u.2.phase ≠ .stop) || (rackLoading s u.1).isSome) &&
    (u.1 = r || beneath s u.1 r || beneath s r u.1)

/-- EV_REGION_CMD with the command in DATA bits [3:0] and its status in bits [15:8]. -/
def cmdEvent (s : State) (r cmd st : Nat) : State := raiseRegion s .report evRegionCmd r 0 (cmd + st * 256)

/-- A command refused at once with a status. -/
def refuseCmd (s : State) (r cmd st : Nat) : State := cmdEvent (wr s F.REG_UNIT_STATUS_CMD_STATUS r st) r cmd st

/-- A command written while another is in progress (R269). -/
def refuseBusy (s : State) (r cmd : Nat) : State := cmdEvent (noteRefused s F.REG_COMMIT_WRITE_STATUS 0 stFrozen) r cmd stFrozen

/-- A command is accepted for its plan regions. -/
def acceptCmd (s : State) (r : Nat) (c : RCmd) (parts : List Nat) : State :=
  let s := wrAll s r [(F.REG_UNIT_STATUS_CMD_STATUS, stAccepted), (F.REG_UNIT_STATUS_LAST_CMD, c.cmd)]
  parts.foldl (fun s p => modUnit s p fun u => { u with result := stOk }) (modUnit s r fun u => { u with cmd := some c, parts := parts })

/-- A unit whose command has no part left at work completes with the first failing status (R259, R269). -/
def settleUnit (s : State) (r : Nat) : State :=
  let u := unitOf s r
  match u.cmd with
  | none => s
  | some c =>
    if u.parts.any fun p => (unitOf s p).phase ≠ .none then s
    else
      let st := (((u.parts.map fun p => (unitOf s p).result).find? (· ≠ stOk)).getD stOk)
      let s := modUnit s r fun u => { u with cmd := none, parts := [], missing := [] }
      cmdEvent (wr s F.REG_UNIT_STATUS_CMD_STATUS r st) r c.cmd st

def settleAll (s : State) : State := (s.units.map (·.1)).foldl settleUnit s

/-- The session may drive the region (R280). -/
def mayDrive (s : State) (a : Agent) (r : Nat) : Bool := r < 4096 && ownsOrOperator s a (regionTenant s r)

/-- The checks every region command passes first: progress, session and state. A descriptor beneath a plan region has no unit interface: the write is
discarded (R258, assumption 96). -/
def regionCommand (s : State) (a : Agent) (r cmd : Nat) (states : List Nat) (k : State → State) : State :=
  if underPlan s r then noteRefused s F.REG_COMMIT_WRITE_STATUS 0 stFrozen
  else if cmdBusy s r then refuseBusy s r cmd
  else if mayDrive s a r = false then refuseCmd s r cmd stBadHandle
  else if descKind s r = 0 ∨ states.contains (unitState s r) = false then refuseCmd s r cmd stFrozen
  else settleAll (k s)

/-! ## Core and region fields -/

/-- The cores of a tenant's regions in any state but FREE and DEFINED (R281). -/
def coreUse (s : State) (t : Nat) : Nat :=
  ((allDescs s).filter fun r => rsDefined < regionState s r && regionTenant s r = t).foldl (fun n r => n + (regionCores s r).length) 0

def countCores (s : State) (t : Nat) : State := wr s F.REG_TENANT_USE_A_CORES t (coreUse s t)

/-- LEES of a region: any core has it set. -/
def noteLees (s : State) (r : Nat) : State :=
  wr s F.REG_UNIT_STATUS_LEES r (bit ((regionCores s r).any fun c => rdB s F.CORE_STATUS_LEES c))

def setCores (s : State) (r st : Nat) : State := (liveCores s r).foldl (fun s c => setCoreState s c st) s

def setLees (s : State) (r : Nat) : State := noteLees ((liveCores s r).foldl (fun s c => wr s F.CORE_STATUS_LEES c 1) s) r

/-- The routers of a list of cores run the plan set's transit-only programs (R197). -/
def transitCores (s : State) (cores : List Nat) : State :=
  cores.foldl (fun s c => { s with regs := tset s.regs (fkey F.NET_RP_LEN c) (tget s.store.transit c 0) }) s

/-- The routers of a region run the transit-only programs; the plan's own are kept (R266). -/
def toTransit (s : State) (r : Nat) : State := transitCores s (liveCores s r)

def toOwnProgram (s : State) (r : Nat) : State :=
  let rp := (unitOf s r).rp
  (liveCores s r).foldl (fun s c => { s with regs := tset s.regs (fkey F.NET_RP_LEN c) (tget rp c 0) }) s

/-- The cores of a region are bound to no plan (R115). -/
def unbindCores (s : State) (r : Nat) : State :=
  (liveCores s r).foldl (fun s c => wrAll s c [(F.CORE_STATUS_REGION, 0), (F.CORE_STATUS_TENANT, 0)]) s

/-- CORE_SPAD_WIN.LEN comes back in a core whose rows were being repaired (R299). -/
def closeRepair (s : State) (r c : Nat) : State :=
  match tget? (unitOf s r).heldWin c with
  | some len => modUnit (wr s F.CORE_SPAD_WIN_LEN c len) r fun u => { u with heldWin := tdel u.heldWin c }
  | none => s

def closeRepairs (s : State) (r : Nat) : State := ((unitOf s r).heldWin.map (·.1)).foldl (fun s c => closeRepair s r c) s

/-- What region r waited for after a stop is over: its plan leaves it, and what rim sources and sinks keep for it goes too (R208). -/
def endAwait (s : State) (r : Nat) : State :=
  modUnit (forgetRim (closeRepairs s r) r) r fun u => { u with await := .none, runAt := false, stopAt := false, stopIn := 0, faults := [], replayed := false }

/-- Region r holds lees and no plan (R272, R274). -/
def hold (s : State) (r : Nat) : State :=
  let s := endAwait s r
  let s := unbindCores (setLees (setCores (wr s F.REG_PLAN_PLAN_ID r 0) r csIdle) r) r
  modUnit (setRegionState s r rsHeld) r fun u => { u with heldSince := hallNs s }

/-! ## Plans at bind (R264, R270, R293) -/

/-- Rows of the cask that an entry names, when its master is in the store. -/
def entryRows (s : State) (e : CaskEntry) : Option Nat := (masterAt s e.plan e.target e.version).map fun m => caskRows m.image

def coreEntries (b : List Byte) (c : Nat) : List CaskEntry := (caskEntries b).filter fun e => e.core = some c && e.version ≠ 0

/-- The layout conditions of R293 for one core. -/
def layoutOk (s : State) (b : List Byte) (c : Nat) : Bool :=
  let (base, len) := stagedWin b c
  let es := coreEntries b c
  let span (e : CaskEntry) : Nat × Nat := (e.row, e.row + (entryRows s e).getD 0)
  let within (e : CaskEntry) (lo hi : Nat) : Bool := lo ≤ (span e).1 && (span e).2 ≤ hi
  (es.all fun e => within e base (base + len)) &&
    ((List.range es.length).all fun i => (List.range i).all fun j =>
      match es[i]?, es[j]? with
      | some x, some y => (span x).2 ≤ (span y).1 || (span y).2 ≤ (span x).1
      | _, _ => true) &&
    (caskBanks b ≠ 2 || es.all fun e => if e.bank = 0 then within e base (base + len / 2) else within e (base + len / 2) (base + len))

/-- Check 3 of R270 but for the fetch: the status, OK when it passes. -/
def planStatus (s : State) (plan tenant : Nat) : Nat :=
  match tget? s.store.plans plan with
  | none => stInternal
  | some b =>
    let set := rd s F.REG_STATUS_PLAN_SET 0
    let others := boundRegions s
    if planDigestOk b = false ∨ (others ≠ [] ∧ planSet b ≠ set) ∨ planFits s b = false then stInternal
    else if ((caskEntries b).filterMap (·.core)).any fun c => layoutOk s b c = false then stInternal
    else if (caskEntries b).any fun e => e.version ≠ 0 && (match masterAt s e.plan e.target e.version with
        | some m => !isShared m && m.tenant ≠ tenant
        | none => false) then stBadHandle
    else stOk

/-- A core's window is reused (R297): the live window is the staged one, and every entry names the copy already at its rows. -/
def reuseWin (s : State) (b : List Byte) (c : Nat) : Bool :=
  (rd s F.CORE_SPAD_WIN_BASE c, rd s F.CORE_SPAD_WIN_LEN c) = stagedWin b c &&
    (coreEntries b c).all fun e => s.store.residents.any fun x =>
      x.core = c && x.plan = e.plan && x.target = e.target && x.version = e.version && x.row = e.row

/-- The keys that a bind must wait for: masters not in the store, or BAD and to be loaded. -/
def missingOf (s : State) (b : List Byte) : List (Nat × Nat × Nat) :=
  ((caskEntries b).filter fun e => e.version ≠ 0 && (match masterAt s e.plan e.target e.version with
    | some m => m.bad && (match e.core with | some c => !reuseWin s b c | none => true)
    | none => true)).map fun e => (e.plan, e.target, e.version)

/-- A key that no source yields: lost after its fetches (R305), or absent after every source was tried (R293). -/
def noSource (s : State) (k : Nat × Nat × Nat) : Bool :=
  match masterAt s k.1 k.2.1 k.2.2 with
  | some m => m.bad && hallTries s ≤ m.tries && (fetchOf s k).isNone
  | none => s.store.unfound.contains k

/-- The keys that a bind for a tenant waits for are fetched (R293); those that no source yields are known at once. -/
def fetchMissing (s : State) (keys : List (Nat × Nat × Nat)) (tenant : Nat) : State :=
  keys.foldl (fun s k => if noSource s k then s else startFetch s k tenant) s

/-- The hibernated fields (R425). -/
def fieldOff (s : State) (f : Nat) : Bool := (rd s F.PWR_HIB_STATUS_OFF 0).testBit f
def fieldLost (s : State) (f : Nat) : Bool := (rd s F.KEEP_FIELD_LOST_LOST 0).testBit f

/-- Cores in ascending order. -/
def sortedCores (l : List Nat) : List Nat := (List.range nCores).filter fun c => l.contains c

/-- Checks 4 to 7 of R270. charged: the region's cores already count against the tenant. -/
def bindStatus (s : State) (r plan tenant : Nat) (charged : Bool) : Nat :=
  let b := tget s.store.plans plan []
  let cores := planCoreSet b
  if cores.any fun c => fieldLost s (fieldOf c) then stDegraded
  else if cores.any fun c => fieldOff s (fieldOf c) then stFrozen
  else if cores.any fun c => coreState s c = csOff then stDegraded
  else if cores ≠ sortedCores (regionCores s r) then stInternal
  else if tenant ≠ 0 ∧ rd s F.REG_TENANT_LIM_A_CORES tenant < coreUse s tenant + (if charged then 0 else cores.length) then stQuota
  else if (caskEntries b).any fun e => e.version ≠ 0 && entryRetired s e then stRetired
  else stOk

/-! ## Bind and rebind (R271, R278) -/

/-- A bind that fails before its load: the region keeps its state. -/
def bindRefused (s : State) (r st : Nat) : State := finishPart (bump s F.REG_CNT_BIND_FAIL 0 1) r st

/-- The links between edge routers and the rim, by edge core and port (R188). -/
def rimLinks : List (Nat × Nat) :=
  ((List.range 152).flatMap fun x => [(coreAt x 0, 0), (coreAt x 95, 2)]) ++ (List.range 96).flatMap fun y => [(coreAt 151 y, 1), (coreAt 0 y, 3)]

/-- An entry of the slot table of the rim link at port p of edge core c: reserved bits are 0, and its block may use the link (R205). A segment bears
the number of its port (R47). -/
def slotEntryOk (c p : Nat) (w : Word) : Bool :=
  let n := w.toNat
  let block := n / 2 ^ 8 % 2 ^ 8
  n / 2 ^ 16 % 2 ^ 32 = 0 && n / 2 ^ 4 % 2 ^ 4 = 0 &&
    (match n % 8 with
     | 0 => block = 0
     | 1 => p = 0 && coreX c ≤ 75 && block = 0
     | 2 => block < 24 && block / 6 = p
     | 3 => (block < 48 && block / 12 = p) || (64 ≤ block && block < 128 && (block - 64) / 16 = p)
     | 4 => block < 64 && block / 16 = p
     | _ => false)

/-- A route entry has no reserved bit and no code that is not accepted (R193, R196). -/
def routeEntryOk (w : Word) : Bool :=
  (w.toNat >>> 18) % 2 ^ 30 = 0 && !w.getLsbD 15 &&
    (List.range 5).all fun o => selOf w o ≤ 5 && selOf w o ≠ o + 1

/-- A route program is whole (R196): its length, its place, and its cycles under its entries. -/
def programOk (s : State) (base len : Nat) (entry : Nat → Word) : Bool :=
  !rpBad base len && decide ((List.range len).foldl (fun n i => n + (entry (base + i)).toNat / 2 ^ 48 + 1) 0 ≤ 2 ^ tickK s)

/-- What a plan set fixes for the routers: its transit template and rim slot tables (R179, R197, R205). -/
def setTables (t : StoreSt) (set : Nat) : StoreSt :=
  { t with
    transit := (List.range nCores).map fun c => (c, Config.planTransit set c)
    transitRoutes := (List.range nCores).map fun c => (c, tsetAll [] (Config.planTransitRoutes set c))
    rimSlots := tsetAll [] (rimLinks.map fun e => (4 * e.1 + e.2, Config.planRimSlots set (4 * e.1 + e.2))) }

/-- The tables that a plan set fixes pass the checks of R196 and R205. -/
def tablesOk (s : State) (t : StoreSt) : Bool :=
  (rimLinks.all fun e =>
    let l := tget t.rimSlots (4 * e.1 + e.2) []
    l.length ≤ 256 && l.all (slotEntryOk e.1 e.2)) &&
  (List.range nCores).all fun c =>
    let rp := tget t.transit c 0
    let es := tget t.transitRoutes c []
    (es.all fun e => routeEntryOk e.2) && programOk s (getF F.NET_RP_BASE rp) (getF F.NET_RP_LEN rp) fun i => tget es i 0

/-- The cores whose routers are powered. -/
def poweredCores (s : State) : List Nat := (List.range nCores).filter fun c => coreState s c ≠ csOff && coreState s c ≠ csDead

/-- The plan set that every plan of the engine belongs to is that of the first plan bound (R179): its tables come into force, and every router runs its
transit-only program. A change of set is a replan (R377). None where R196 or R205 refuses the set. -/
def adoptSet (s : State) (b : List Byte) : Option State :=
  let old := rd s F.REG_STATUS_PLAN_SET 0
  if boundRegions s = [] ∧ old ≠ planSet b then
    let t := setTables s.store (planSet b)
    if tablesOk s t = false then none
    else
      let s := wr { s with store := t, strm := { s.strm with frames := [] } } F.REG_STATUS_PLAN_SET 0 (planSet b)
      let s := transitCores s (poweredCores s)
      some (if old = 0 then s else raiseEngine s .report evReplan 0 0)
  else some s

/-- A failed bind: HELD with LEES = 1, INTERNAL (R272). A rack whose load fails ends with it. -/
def failBind (s : State) (r : Nat) : State :=
  let s := if (rackLoading s r).isSome then endRack s stInternal else s
  settleAll (finishPart (bump (hold s r) F.REG_CNT_BIND_FAIL 0 1) r stInternal)

/-- The load phase is next: the plan is attached and the region reports BINDING; a plan set that is refused fails the bind (R196). -/
def openLoad (s : State) (r : Nat) (c : RCmd) : State :=
  match adoptSet s (tget s.store.plans c.plan []) with
  | none => failBind (raiseRegion s .fault evRouteFault r 0 0) r
  | some s =>
    let s := wrAll (modUnit s r fun u => { u with deciding := none }) r [(F.REG_PLAN_PLAN_ID, c.plan), (F.REG_UNIT_FAULT_VALID, 0),
      (F.REG_DESC0_TENANT, c.tenant), (F.REG_UNIT_STATUS_TENANT, c.tenant), (F.REG_UNIT_STATUS_HEAD, r)]
    countCores (setPhase (setRegionState s r rsBinding) r .begin) c.tenant

/-- The scope of a release or rebind sweep (R275): FULL unless every resident cask of the region is shared and FORCE_FULL is 0; a LOST region is swept
FULL (R285). -/
def sweepFull (s : State) (r : Nat) : Bool :=
  let cores := regionCores s r
  regionState s r = rsLost || rdB s F.REG_CTL_FORCE_FULL 0 || s.store.residents.any fun x => cores.contains x.core &&
    (match masterAt s x.plan x.target x.version with | some m => !isShared m | none => true)

/-- After validation and stop: streams unseated, then the sweep, or the load under KEEP_LEES within one tenant (R278). -/
def afterStopRebind (s : State) (r : Nat) (c : RCmd) : State :=
  let s := endAwait (unseatRegion s r) r
  let old := regionTenant s r
  if regionState s r = rsDefined then openLoad s r c
  else if c.keepLees ∧ c.tenant = old then openLoad (setLees s r) r c
  else
    let full := sweepFull s r
    setPhase (modUnit (unbindCores (wr s F.REG_PLAN_PLAN_ID r 0) r) r fun u => { u with fullSweep := full }) r .sweepStart

/-- The stop packets for a region's cores from the Keep's control ports (R148, R211): tick is the last in which the cores issue. -/
def stopPackets (s : State) (q tick : Nat) : List CtlPacket :=
  (liveCores s q).map fun c =>
    { type := 0x4, pri := 3, len := 1, rsv := 0, dest := BitVec.ofNat 16 c, src := BitVec.ofNat 16 (0x6000 + coreX c / 19), tag := 0,
      flits := [BitVec.ofNat 32 tick] }

/-- A stop at the boundary that closes the next tick, with the whole fate group (R148, R261, R273). -/
def orderStop (s : State) (r : Nat) : State :=
  (fateGroup s r).foldl (fun s q =>
    if regionState s q = rsRunning then
      modUnit (sendAllCtl (setRegionState s q rsStopping) (stopPackets s q (tickCount s + 1)).reverse) q fun u => { u with stopIn := 2 }
    else s) s

/-- Validation (R270) and what follows it. -/
def validate (s : State) (r : Nat) (c : RCmd) : State :=
  let st := planStatus s c.plan c.tenant
  if st ≠ stOk then bindRefused s r st
  else
    let b := tget s.store.plans c.plan []
    let s := fetchMissing s (missingOf s b) c.tenant
    let miss := missingOf s b
    if miss.any (noSource s) then
      bindRefused { s with store := { s.store with unfound := s.store.unfound.filter fun k => !miss.contains k } } r stDegraded
    else if miss ≠ [] then setPhase (modUnit s r fun u => { u with missing := miss }) r .fetch
    else
      let charged : Bool := regionState s r ≠ rsDefined && c.tenant = regionTenant s r
      let st := bindStatus s r c.plan c.tenant charged
      if st ≠ stOk then bindRefused s r st
      else if regionState s r = rsRunning then setPhase (orderStop s r) r .stop
      else afterStopRebind s r c

/-- No plan region lies at or beneath r, or above it, but r itself (R258, R270). -/
def bindable (s : State) (r : Nat) : Bool :=
  r ≠ 0 && (allDescs s).all fun q => q = r || !isPlanRegion s q || !(beneath s q r || beneath s r q)

/-- A rack in progress covers the region (R313). -/
def rackCovers (s : State) (r : Nat) : Bool := match s.store.rack with | some k => beneath s r k.region | none => false

/-- R271: BIND. -/
def execBind (a : Agent) (r plan : Nat) (autorun keepLees : Bool) (s : State) : Host.Outcome State Fault Refusal :=
  .next (regionCommand s a r 1 [rsDefined, rsHeld] fun s =>
    if bindable s r = false then refuseCmd s r 1 stFrozen
    else
      let c : RCmd := ⟨1, plan, regionTenant s r, autorun, keepLees⟩
      validate (acceptCmd s r c [r]) r c)

/-- R278: REBIND; to another tenant only in an operator session. -/
def execRebind (a : Agent) (r plan tenant : Nat) (autorun keepLees : Bool) (s : State) : Host.Outcome State Fault Refusal :=
  .next (regionCommand s a r 6 [rsBound, rsRunning, rsFaulted, rsHeld] fun s =>
    if tenant % 256 ≠ regionTenant s r ∧ isOperator s a = false then refuseCmd s r 6 stBadHandle
    else if bindable s r = false ∨ isComposite s r ∨ rackCovers s r then refuseCmd s r 6 stFrozen
    else
      let c : RCmd := ⟨6, plan, tenant % 256, autorun, keepLees⟩
      validate (acceptCmd s r c [r]) r c)

/-! ## Run, stop, unbind, release -/

/-- Every bound region of the fate group runs from the next boundary (R261). One whose last tick a replay still waits for runs after it (R273). -/
def armRun (s : State) (r : Nat) : State :=
  (fateGroup s r).foldl (fun s q =>
    if regionState s q = rsBound ∧ ((unitOf s q).phase = .none ∨ ((unitOf s q).phase = .stop ∧ (unitOf s q).cmd = none)) then setPhase s q .run else s) s

/-- R268: RUN. -/
def execRegionRun (a : Agent) (r : Nat) (s : State) : Host.Outcome State Fault Refusal :=
  .next (regionCommand s a r 2 [rsBound] fun s =>
    let parts := partsOf s r
    let s := acceptCmd s r ⟨2, 0, 0, false, false⟩ parts
    parts.foldl (fun s p =>
      if regionState s p = rsBound then armRun s p
      else if regionState s p = rsRunning then s
      else finishPart s p stFrozen) s)

/-- R273: STOP; with a replay pending, the replay first. -/
def execRegionStop (a : Agent) (r : Nat) (s : State) : Host.Outcome State Fault Refusal :=
  let replaying : Bool := (partsOf s r).any fun p => (unitOf s p).await = .replay || (unitOf s p).await = .moves
  .next (regionCommand s a r 3 (if replaying then [rsRunning, rsBound, rsBinding] else [rsRunning]) fun s =>
    let parts := partsOf s r
    let s := acceptCmd s r ⟨3, 0, 0, false, false⟩ parts
    parts.foldl (fun s p =>
      if (unitOf s p).stopAt ∨ (unitOf s p).await = .replay ∨ (unitOf s p).await = .moves then setPhase s p .stop
      else if regionState s p = rsRunning ∨ regionState s p = rsStopping then setPhase (orderStop s p) p .stop
      else s) s)

/-- R274: UNBIND, at the next boundary. -/
def execUnbind (a : Agent) (r : Nat) (s : State) : Host.Outcome State Fault Refusal :=
  .next (regionCommand s a r 4 [rsBound, rsFaulted] fun s =>
    let parts := partsOf s r
    let s := acceptCmd s r ⟨4, 0, 0, false, false⟩ parts
    parts.foldl (fun s p =>
      if regionState s p = rsBound ∨ regionState s p = rsFaulted then setPhase s p .detach else finishPart s p stFrozen) s)

/-- One region's part of a RELEASE (R275): both mailbox queues empty, the streams unseated, the sweep from the next boundary. -/
def startRelease (s : State) (r : Nat) : State :=
  let s := unseatRegion s r
  let full := sweepFull s r
  let s := modUnit (endAwait s r) r fun u => { u with inq := [], outq := [], delivered := [], again := [], outWait := [], fullSweep := full, deciding := none }
  let s := wrAll s r [(F.REG_UNIT_STATUS_IN_COUNT, 0), (F.REG_UNIT_STATUS_OUT_COUNT, 0), (F.REG_UNIT_FAULT_VALID, 0)]
  setPhase s r .sweepStart

/-- R275: RELEASE. -/
def execRelease (a : Agent) (r : Nat) (s : State) : Host.Outcome State Fault Refusal :=
  .next (regionCommand s a r 5 [rsDefined, rsHeld, rsBound, rsFaulted, rsLost] fun s =>
    let parts := partsOf s r
    let s := acceptCmd s r ⟨5, 0, 0, false, false⟩ parts
    parts.foldl (fun s p =>
      if [rsDefined, rsHeld, rsBound, rsFaulted, rsLost].contains (regionState s p) then startRelease s p else finishPart s p stFrozen) s)

/-- R274: a HELD region neither bound nor released within HOLD_LIMIT is released by the Keep. -/
def execHoldExpiry (r : Nat) (s : State) : Host.Outcome State Fault Refusal :=
  .next (if regionState s r = rsHeld ∧ rd s F.REG_CTL_HOLD_LIMIT 0 ≠ 0 ∧ cmdBusy s r = false ∧ (unitOf s r).phase = .none then
      startRelease (bump s F.REG_CNT_HOLD_EXPIRED 0 1) r
    else s)

/-! ## The sweep (R102, R277, R300) -/

def dataFields : List Field :=
  [F.CORE_DBG_DATA_0_DATA, F.CORE_DBG_DATA_1_DATA, F.CORE_DBG_DATA_2_DATA, F.CORE_DBG_DATA_3_DATA, F.CORE_DBG_DATA_4_DATA,
    F.CORE_DBG_DATA_5_DATA, F.CORE_DBG_DATA_6_DATA, F.CORE_DBG_DATA_7_DATA]

/-- The debug data of a former binding is no longer shown (R276). -/
def clearDebug (s : State) (c : Nat) : State :=
  wrAll s c ([(F.CORE_DBG_ROW_BAD, 0), (F.CORE_DBG_ROW_DONE, 0)] ++
    dataFields.map fun f => (f, 0))

/-- The sweep of one core: rows in scope become zeros with valid codes; register files, checkpoints, write marks, held entries and the taster's state
are cleared. -/
def sweepCore (s : State) (c : Nat) (full : Bool) : State :=
  let s := clearDebug s c
  let co := coreOf s c
  let rows := if full then []
    else ((co.rows.filter fun e => inWindow s c e.1).map fun e => (e.1, { e.2 with mark0 := false, mark1 := false })).filter fun e => !blankEntry e.1 e.2
  let s := setCore s c { blankCore with rows := rows, code := co.code, routes := co.routes, planSeed := co.planSeed, entryPc := co.entryPc }
  let keep (x : Resident) : Bool := x.core ≠ c || (!full && (match masterAt s x.plan x.target x.version with | some m => isShared m | none => false))
  let s := { s with store := { s.store with residents := s.store.residents.filter keep } }
  wrAll s c [(F.CORE_STATUS_LEES, 0), (F.CORE_STATUS_CKPT, 0)]

/-- The region that is sweeping a core. -/
def sweeper (s : State) (c : Nat) : Option Nat :=
  (s.units.find? fun u => u.2.phase = .sweep && (regionCores s u.1).contains c).map (·.1)

/-- A release's sweep is over: the region is DEFINED; LOST stays LOST (R268, R275, R285). -/
def afterRelease (s : State) (r : Nat) : State :=
  let tenant := regionTenant s r
  let s := unbindCores (wr s F.REG_PLAN_PLAN_ID r 0) r
  let s := (liveCores s r).foldl (fun s c => wr s F.CORE_FAULT_VALID c 0) s
  let lost := (unitOf s r).wasLost
  let s := modUnit (setRegionState s r (if lost then rsLost else rsDefined)) r fun u => { u with released := lost, wasLost := false }
  finishPart (countCores s tenant) r stOk

/-- The sweep of a region is over: a rebind goes on with its load, a release ends. -/
def afterSweep (s : State) (r : Nat) : State :=
  let s := bump (noteLees s r) F.REG_CNT_SWEEPS 0 1
  let old := regionTenant s r
  match (unitOf s r).cmd with
  | some c => if c.cmd = 1 ∨ c.cmd = 6 then countCores (openLoad s r c) old else afterRelease s r
  | none => afterRelease s r

/-- R102: the sweep of core c finishes. Where no region sweeps it, it is the FULL sweep of a domain's power-up or of a spare (R277). -/
def execSweepComplete (c : Nat) (s : State) : Host.Outcome State Fault Refusal :=
  onCore c s fun s =>
    if coreState s c ≠ csSweeping then s
    else match sweeper s c with
      | none => setCoreState (sweepCore s c true) c csIdle
      | some r =>
        let s := setCoreState (sweepCore s c (unitOf s r).fullSweep) c csIdle
        let s := modUnit s r fun u => { u with swept := c :: u.swept }
        if (regionCores s r).all fun d => (unitOf s r).swept.contains d || (coreState s d ≠ csSweeping && coreState s d ≠ csDead) then settleAll (afterSweep s r)
        else s

/-! ## Loading (R264, R265, R272, R297, R298) -/

/-- The image that a loading region takes its casks from. -/
def loadImage (s : State) (r : Nat) : List Byte :=
  match rackLoading s r with
  | some k => tget s.store.plans k.successor []
  | none => boundPlan s r

/-- The region whose load a core takes part in. -/
def loader (s : State) (c : Nat) : Option Nat :=
  (s.units.find? fun u => u.2.phase = .load && (regionCores s u.1).contains c).map (·.1)

/-- A load fault of core c: EV_BIND_FAULT, then a retry from SEQ 0, or the end of the bind. -/
def loadFault (s : State) (r c : Nat) (retry : Bool) : State :=
  let s := raiseRegion s .report evBindFault r c 0
  let u := unitOf s r
  let n := tget u.tries c 0
  if retry ∧ n < rd s F.REG_CTL_LOAD_RETRY 0 then
    setUnit s r { u with tries := tset u.tries c (n + 1), seqs := tset u.seqs c 0, ended := u.ended.filter (· ≠ c) }
  else failBind s r


/-- Bundles of a load word. -/
def wordBundles (w : NetWord) : List (BitVec 256) := (List.range 4).map fun i => (w >>> (256 * i)).setWidth 256

/-- Bundles written to a core's instruction store, entries to its route store, and rows. -/
def storeCode (c lo : Nat) (bs : List (BitVec 256)) (s : State) : State :=
  modCore s c fun co => { co with code := tsetAll co.code (bs.zipIdx.map fun e => (lo + e.2, e.1)) }
def storeRoutes (c lo : Nat) (es : List Word) (s : State) : State :=
  modCore s c fun co => { co with routes := tsetAll co.routes (es.zipIdx.map fun e => (lo + e.2, e.1)) }
def storeRows (c lo : Nat) (rows : List RowData) (s : State) : State :=
  modCore s c fun co => rows.zipIdx.foldl (fun co e => putRow co (lo + e.2) e.1) co

/-- Route entries and rows of load words; with ODD the last word holds one row (R264). -/
def wordRoutes (ws : List NetWord) : List Word := ws.flatMap fun (w : NetWord) => (List.range 16).map fun i => (w >>> (64 * i)).setWidth 64
def wordRows (ws : List NetWord) (odd : Bool) : List RowData :=
  let rows := ws.flatMap fun (w : NetWord) => [w.setWidth 512, (w >>> 512).setWidth 512]
  if odd then rows.take (2 * ws.length - 1) else rows

/-- The register of a CORE_ or NET_ block at an offset, with a CS field. -/
def loadReg? (dest : Nat) : Option Reg :=
  let base := if dest / 65536 = 1 then 0x24000000 else 0x20000000
  (F.regs_core ++ F.regs_net).find? fun r => r.base = base + dest % 65536 && r.fields.any (·.cs)

/-- The route program that the plan staged for a router is whole (R196). -/
def routeProgramOk (s : State) (c : Nat) : Bool :=
  let w := tget s.shadow (fkey F.NET_RP_LEN c) 0
  programOk s (getF F.NET_RP_BASE w) (getF F.NET_RP_LEN w) fun i => tget (coreOf s c).routes i 0

/-- The entry of a core's cask table that holds a row, with its master (R291). -/
def entryAt (s : State) (es : List CaskEntry) (row : Nat) : Option (CaskEntry × Master) :=
  es.findSome? fun e => (masterAt s e.plan e.target e.version).bind fun m =>
    if e.row ≤ row ∧ row < e.row + caskRows m.image then some (e, m) else none

/-- The entries of a core's cask table that a load delivers: all of them, or the new bank of a rack. -/
def loadEntries (s : State) (r c : Nat) : List CaskEntry :=
  match rackLoading s r with
  | some k => (coreEntries (loadImage s r) c).filter fun e => e.bank ≠ liveBankOf s k.oldPlan
  | none => coreEntries (loadImage s r) c

/-- The rows that the cask loader delivers to a core (R297, R298, R307): its first row and their number; none of a window that is reused. -/
def loadSpan (s : State) (r c : Nat) : Nat × Nat :=
  let b := loadImage s r
  let (base, len) := stagedWin b c
  match rackLoading s r with
  | some k => if liveBankOf s k.oldPlan = 0 then (base + len / 2, len / 2) else (base, len / 2)
  | none => if reuseWin s b c then (base, 0) else (base, len)

/-- The runs of up to 8,192 rows, each with a ROWS header of its own, that the cask loader appends to a core's load sequence (R298): first row and
number of rows. -/
def caskRuns (s : State) (r c : Nat) : List (Nat × Nat) :=
  let (base, len) := loadSpan s r c
  (List.range ((len + 8191) / 8192)).map fun j => (base + 8192 * j, min 8192 (len - 8192 * j))

/-- Rows that the cask loader delivers to a core: a cask row from its master, every other row as zeros (R297). -/
def putRun (s : State) (r c lo n : Nat) : State :=
  let es := loadEntries s r c
  let rows := (List.range n).map fun i => match entryAt s es (lo + i) with | some (e, m) => caskPayload m.image (lo + i - e.row) | none => 0
  storeRows c lo rows s

/-- Every row that a load owes a core's window. -/
def fillWindow (s : State) (r c : Nat) : State := (caskRuns s r c).foldl (fun s e => putRun s r c e.1 e.2) s

/-- The headers of a core's own load sequence before its END; a rack delivers cask rows alone (R307). -/
def planHeaders (s : State) (r c : Nat) : Nat := if (rackLoading s r).isSome then 0 else (coreLoads (loadImage s r) c).length - 1

/-- CODE: bundles; one beyond bundle 4,095 is a load fault. -/
def loadCode (s : State) (r c : Nat) (h : LoadHdr) (words : List NetWord) : State :=
  let bs := (words.take h.n).flatMap wordBundles
  if 4096 < h.dest.toNat + bs.length then loadFault s r c false else storeCode c h.dest.toNat bs s

/-- Entries of a ROUTE header overlap the router's program in force (R265). -/
def overProgram (s : State) (c lo n : Nat) : Bool := runsMeet lo n (rd s F.NET_RP_BASE c) (rd s F.NET_RP_LEN c)

/-- ROUTE: words over the program in force fail the bind; an entry that R196 refuses fails it with EV_ROUTE_FAULT. -/
def loadRoute (s : State) (r c : Nat) (h : LoadHdr) (words : List NetWord) : State :=
  let es := wordRoutes (words.take h.n)
  let lo := h.dest.toNat
  if 8192 < lo + es.length ∨ overProgram s c lo es.length then loadFault s r c false
  else if es.any fun e => !routeEntryOk e then loadFault (raiseRegion s .fault evRouteFault r c 0) r c false
  else storeRoutes c lo es s

/-- ROWS: those of the plan as they come, then those of the cask loader, run by run (R298). A write past the last row or into the live window is a load
fault (R101). -/
def loadRows (s : State) (r c : Nat) (h : LoadHdr) (words : List NetWord) (place : Nat) : State :=
  let lo := h.dest.toNat
  let n := 2 * h.n - bit h.odd
  if planHeaders s r c ≤ place then
    match (caskRuns s r c)[place - planHeaders s r c]? with
    | some run => if run = (lo, n) then putRun s r c lo n else loadFault s r c false
    | none => loadFault s r c false
  else
    let rows := wordRows (words.take h.n) h.odd
    if 131072 < lo + rows.length ∨ (List.range rows.length).any fun i => inWindow s c (lo + i) then loadFault s r c false
    else storeRows c lo rows s

/-- REG stages a CS register of the core's CORE_ or NET_ block; its value is in bytes 16 to 23 of the header word, the first of words. -/
def loadRegister (s : State) (r c : Nat) (h : LoadHdr) (words : List NetWord) : State :=
  match loadReg? h.dest.toNat, words.head? with
  | some g, some w => { s with shadow := tset s.shadow (g.base + g.stride * c) ((w >>> 128).setWidth 64) }
  | _, _ => loadFault s r c false

/-- END (R271): when every core has received it, the commit follows at the next boundary. An END before the cask loader's last word is a gap in SEQ. -/
def loadEnd (s : State) (r c place : Nat) : State :=
  if (rackLoading s r).isNone ∧ routeProgramOk s c = false then loadFault (raiseRegion s .fault evRouteFault r c 0) r c false
  else if place ≠ planHeaders s r c + (caskRuns s r c).length then loadFault s r c true
  else
    let s := modUnit s r fun u => { u with ended := c :: u.ended.filter (· ≠ c) }
    let u := unitOf s r
    if (regionCores s r).all u.ended.contains then
      let cycles := (s.clk.hall - u.loadStart) / period (rd s F.TICK_CLK_STATUS_STEP 0)
      setPhase (wr s F.REG_PLAN_LOADED r cycles) r .commit
    else s

/-- A header acts by its KIND (R264); NONE does nothing. place: the headers that the core has had before it. -/
def loadAct (s : State) (r c : Nat) (h : LoadHdr) (words : List NetWord) (place : Nat) : State :=
  match h.kind.toNat with
  | 0 => s
  | 1 => loadCode s r c h words
  | 2 => loadRoute s r c h words
  | 3 => loadRows s r c h words place
  | 4 => loadRegister s r c h words
  | _ => loadEnd s r c place

/-- A ROUTE header that reaches a router while its region runs (R192, R265): it fills the free part of the store; words over the program in force are
discarded, and the rebind that carried them fails once the region has stopped. -/
def earlyRoute (s : State) (r c : Nat) (h : LoadHdr) (words : List NetWord) (linkOk : Bool) : State :=
  let es := wordRoutes (words.take h.n)
  let lo := h.dest.toNat
  if linkOk ∧ lo + es.length ≤ 8192 ∧ overProgram s c lo es.length = false ∧ es.all routeEntryOk then storeRoutes c lo es s
  else
    let s := raiseRegion (if es.all routeEntryOk then s else raiseRegion s .fault evRouteFault r c 0) .report evBindFault r c 0
    if (unitOf s r).cmd.isSome then modUnit s r fun u => { u with result := stInternal } else s

/-- A load header for core c: its link check, its kind and its SEQ are checked, then it acts. A load sequence without END is a fault of its core before
anything is delivered. While the region runs, ROUTE words are taken alone; any other write is discarded and reported as FROZEN (R84). -/
def loadStep (c : Nat) (h : LoadHdr) (words : List NetWord) (linkOk : Bool) (s : State) : State :=
  match loader s c with
  | none =>
    let r := regionOfCore s c
    if r = 0 ∨ regionState s r ≠ rsRunning ∧ regionState s r ≠ rsStopping then s
    else if h.kind = 2 then earlyRoute s r c h words linkOk
    else if h.kind = 0 ∨ h.kind = 5 then s
    else noteRefused s F.CORE_COMMIT_WRITE_STATUS c stFrozen
  | some r =>
    let u := unitOf s r
    let place := tget u.seqs c 0
    if (rackLoading s r).isNone ∧ endsWithEnd (loadImage s r) c = false then loadFault s r c false
    else if linkOk = false then loadFault s r c true
    else if 5 < h.kind.toNat then loadFault s r c false
    else if h.seq.toNat ≠ place % 65536 then loadFault s r c true
    else loadAct (setUnit s r { u with seqs := tset u.seqs c (place + 1) }) r c h words place

/-- R264: a header that carries CODE. -/
def execLoadCode (c : Nat) (h : LoadHdr) (words : List NetWord) (linkOk : Bool) (s : State) : Host.Outcome State Fault Refusal :=
  onCore c s <| loadStep c h words linkOk

/-- R264, R265: a header that carries ROUTE. -/
def execLoadRoute (c : Nat) (h : LoadHdr) (words : List NetWord) (linkOk : Bool) (s : State) : Host.Outcome State Fault Refusal :=
  onCore c s <| loadStep c h words linkOk

/-- R264, R298: a header that carries ROWS. -/
def execLoadRows (c : Nat) (h : LoadHdr) (words : List NetWord) (linkOk : Bool) (s : State) : Host.Outcome State Fault Refusal :=
  onCore c s <| loadStep c h words linkOk

/-- R264: a header that carries REG. -/
def execLoadReg (c : Nat) (h : LoadHdr) (words : List NetWord) (linkOk : Bool) (s : State) : Host.Outcome State Fault Refusal :=
  onCore c s <| loadStep c h words linkOk

/-- R264, R271: END. -/
def execLoadEnd (c : Nat) (h : LoadHdr) (linkOk : Bool) (s : State) : Host.Outcome State Fault Refusal :=
  onCore c s <| loadStep c h [] linkOk

/-! ## Boundaries of a bind -/

/-- A core enters load mode (R271, R297): SEQ 0, its staged writes dropped, a window that is not reused emptied. -/
def beginCore (r : Nat) (s : State) (c : Nat) : State :=
  let s := { s with shadow := s.shadow.filter fun e =>
    !((F.regs_core ++ F.regs_net).any fun g => e.1 = g.base + g.stride * c && g.fields.any (·.cs)) }
  let s := modUnit (wrAll s c [(F.CORE_STATUS_REGION, r), (F.CORE_STATUS_TENANT, regionTenant s r)]) r fun u =>
    { u with seqs := tdel u.seqs c, ended := u.ended.filter (· ≠ c) }
  if reuseWin s (loadImage s r) c then s
  else wr { s with store := { s.store with residents := s.store.residents.filter fun x => x.core ≠ c } } F.CORE_SPAD_WIN_LEN c 0

/-- A core's window is narrowed to the live bank's half (R307). -/
def narrowWin (k : Rack) (b : List Byte) (s : State) (c : Nat) : State :=
  let (base, len) := stagedWin b c
  wrAll s c [(F.CORE_SPAD_WIN_BASE, if liveBankOf s k.oldPlan = 0 then base else base + len / 2), (F.CORE_SPAD_WIN_LEN, len / 2)]

/-- The load opens at a boundary (R271, R297): SEQ 0 in every core. -/
def beginLoad (s : State) (r : Nat) : State :=
  let cores := liveCores s r
  let s := modUnit s r fun u => { u with seqs := [], tries := [], ended := [], loadStart := s.clk.hall }
  let s := match rackLoading s r with
    | some k => cores.foldl (narrowWin k (loadImage s r)) s
    | none => cores.foldl (beginCore r) s
  setPhase s r .load

/-- The word that a commit of a bind gives a register of a core: what the plan staged, else its reset value (R117). -/
def boundWord (s : State) (g : Reg) (c : Nat) : Word := tget s.shadow (g.base + g.stride * c) (BitVec.ofNat 64 ((g.fields.head?.map (·.regRst)).getD 0))

/-- The CS fields of a register take a word; a lane force acts as one by a session does (R220). -/
def setBound (c : Nat) (s : State) (g : Reg) : State :=
  let w := boundWord s g c
  g.fields.foldl (fun s f =>
    if f.cs then
      let old := rd s f c
      let s := wr s f c (getF f w)
      match forceLink s f c with
      | some link => forceLane s c link old (getF f w)
      | none => s
    else s) s

/-- A field of that word. -/
def boundField (s : State) (f : Field) (c : Nat) : Nat := getF f (tget s.shadow (fkey f c) (BitVec.ofNat 64 f.regRst))

/-- The CORE_ set that a bind commits is refused (R116). -/
def boundWinBad (s : State) (c : Nat) : Bool := 131072 < boundField s F.CORE_SPAD_WIN_BASE c + boundField s F.CORE_SPAD_WIN_LEN c

/-- The NET_ set that a bind commits is refused (R206, R220): its route program, its rings beside the window in force, or a forced lane. -/
def boundNetBad (s : State) (c : Nat) : Bool :=
  rpBad (boundField s F.NET_RP_BASE c) (boundField s F.NET_RP_LEN c) ||
    ringBad s c (boundField s F.NET_ING_RING_BASE c) (boundField s F.NET_ING_RING_LEN c) ||
    ringBad s c (boundField s F.NET_EGR_RING_BASE c) (boundField s F.NET_EGR_RING_LEN c) ||
    [F.NET_LANE_E_FORCE, F.NET_LANE_S_FORCE].any fun f => match forceLink s f c with
      | some link => forceBad s link (boundField s f c)
      | none => false

/-- The CORE_ and NET_ blocks of a core take the values of a bind, each as a whole or not at all (R20, R116, R117, R220); the plan's route program is kept
for the RUN (R266). -/
def commitBlocks (s : State) (r c : Nat) : State :=
  let badCore := boundWinBad s c
  let s := if badCore then s else F.regs_core.foldl (setBound c) s
  let badNet := boundNetBad s c
  let rp := if badNet then tget (unitOf s r).rp c 0 else tget s.shadow (fkey F.NET_RP_LEN c) 0
  let s := if badNet then s else (F.regs_net.filter fun g => g.base ≠ F.NET_RP_LEN.base).foldl (setBound c) s
  let s := transitCores (modUnit s r fun u => { u with rp := tset u.rp c rp }) [c]
  let s := { s with shadow := (F.regs_core ++ F.regs_net).foldl (fun t g => tdel t (g.base + g.stride * c)) s.shadow }
  wrAll s c [(F.CORE_COMMIT_COMMIT_STATUS, if badCore then stInternal else stOk), (F.NET_COMMIT_COMMIT_STATUS, if badNet then stInternal else stOk)]

/-- The taster of a core as a bind leaves it: its sampling generator is seeded from the logical core, the fingerprint and the boot count (R106). -/
def seededTaster (s : State) (c : Nat) : Taster := { blankCore.taster with gen := Config.tasteSeed c (fingerprint.take 8) (bootCount s) }

/-- A core at the commit of a bind (R117, R271): its registers, its sequencer at the entry bundle, ring positions at 0, both checkpoint generations
empty. -/
def commitCore (s : State) (r c : Nat) : State :=
  let s := clearDebug (commitBlocks s r c) c
  let b := boundPlan s r
  let pc := match planEntry b c with | some (e, _, _) => e | none => 0
  let taster := seededTaster s c
  let s := modCore s c fun co => { co with
    seq := { blankSeq with pc := pc, resume := pc }, entryPc := pc, planSeed := planSeedOf b, inbox := [], arrived := [], pend := [], ops := [],
    older := blankCkpt, newer := blankCkpt, taster := taster, held := [], bundle := [], done := false, faulted := false, aborted := false,
    stopping := none, lastMsend := none, inWords := [], deliv := [], p7 := [], egress := [], egrBanks := [] }
  let old := s.store.residents.filter fun x => x.core ≠ c
  let new := (coreEntries b c).map fun e => (⟨c, e.plan, e.target, e.version, e.row, (entryRows s e).getD 0, e.bank⟩ : Resident)
  let s := { s with store := { s.store with residents := old ++ new } }
  setCoreState (wrAll s c [(F.CORE_STATUS_CKPT, 0), (F.NET_RING_POS_ING, 0), (F.NET_RING_POS_EGR, 0), (F.CORE_FAULT_VALID, 0)]) c csBound

/-- The commit of a rack load (R307): the full window, and the new bank in the resident map. -/
def commitRackCore (s : State) (r c : Nat) (k : Rack) : State :=
  let b := tget s.store.plans k.successor []
  let (base, len) := stagedWin (boundPlan s r) c
  let s := wrAll s c [(F.CORE_SPAD_WIN_BASE, base), (F.CORE_SPAD_WIN_LEN, len)]
  let new := ((coreEntries b c).filter fun e => e.bank ≠ liveBankOf s k.oldPlan).map fun e =>
    (⟨c, e.plan, e.target, e.version, e.row, (entryRows s e).getD 0, e.bank⟩ : Resident)
  let old := s.store.residents.filter fun x => !(x.core = c && new.any fun n => n.row = x.row)
  { s with store := { s.store with residents := old ++ new } }

/-- The casks that a region's plan streams (R301), each from its first payload row unless it is streamed already. -/
def openStreams (s : State) (r : Nat) : State :=
  let of (e : CaskEntry) : CaskStream :=
    (s.net.streams.find? fun x => x.region = r && x.plan = e.plan && x.target = e.target && x.version = e.version).getD ⟨r, e.plan, e.target, e.version, 0⟩
  let mine := ((caskEntries (boundPlan s r)).filter fun e => e.core.isNone && e.streamed && e.version ≠ 0).map of
  { s with net := { s.net with streams := s.net.streams.filter (fun x => x.region ≠ r) ++ mine } }

/-- The commit at a boundary (R271): the region becomes BOUND; with AUTORUN it runs at the following boundary, as it does after a rack's load, which
reports BINDING until then (R307). It waits for the substitution of a core that died in the load (R272). -/
def commitLoad (s : State) (r : Nat) : State :=
  if (regionCores s r).any fun c => coreState s c = csDead then s
  else match rackLoading s r with
  | some k => setPhase ((liveCores s r).foldl (fun s c => commitRackCore s r c k) s) r .autorun
  | none =>
    let u := unitOf s r
    let s := setRegionState ((liveCores s r).foldl (fun s c => commitCore s r c) (openStreams (forgetRim s r) r)) r rsBound
    let s := countCores (noteLees (bump s F.REG_UNIT_CNT_BINDS r 1) r) (regionTenant s r)
    match u.cmd with
    | some c => if c.autorun then setPhase s r .autorun else finishPart s r stOk
    | none => finishPart s r stOk

/-- The RUN of AUTORUN (R271) and of a rack (R307), with the fate group (R261). It waits for a stop under way. -/
def autoRun (s : State) (r : Nat) : State :=
  let s := if (rackLoading s r).isSome ∧ regionState s r = rsBinding then setRegionState s r rsBound else s
  if regionState s r = rsBound then armRun (setPhase s r .none) r
  else if regionState s r = rsRunning ∨ regionState s r = rsStopping then s
  else finishPart s r stFrozen

/-- A plan is detached at a boundary (R274). -/
def detach (s : State) (r : Nat) : State :=
  let s := unseatRegion s r
  finishPart (hold s r) r stOk

/-- The sweep starts at a boundary. -/
def startSweep (s : State) (r : Nat) : State :=
  let lost : Bool := regionState s r = rsLost
  let s := dropFrames (modUnit s r fun u => { u with swept := [], wasLost := lost }) fun c => (regionCores s r).contains c
  let cores := (liveCores s r).filter fun c => fieldLost s (fieldOf c) = false && coreState s c ≠ csOff
  let s := cores.foldl (fun s c => setCoreState s c csSweeping) (setRegionState s r rsSweeping)
  let s := setPhase s r .sweep
  if cores = [] ∧ (regionCores s r).all fun c => coreState s c ≠ csDead then afterSweep s r else s

def rackStatus (s : State) (st : Nat) : State := wr s F.CASK_RACK_STATUS_CMD_STATUS 0 st

/-- A rack is refused before its load begins: it ends with a status. -/
def rackRefused (s : State) (p st : Nat) : State := finishPart (rackStatus (endRack s st) st) p st

/-- The engine's rack is loading (R307). -/
def openRack (s : State) (k : Rack) : State :=
  wrAll { s with store := { s.store with rack := some k } } 0 [(F.CASK_RACK_STATUS_CMD_STATUS, stAccepted), (F.CASK_RACK_STATUS_PHASE, 1)]

/-- A rack's successor is validated under R270, its absent masters on their way first (R293, R313), and the region's fate group stops (R307). -/
def rackValidate (s : State) (p : Nat) (k : Rack) : State :=
  let st := planStatus s k.successor (regionTenant s p)
  if st ≠ stOk then rackRefused s p st
  else
    let d := tget s.store.plans k.successor []
    let s := fetchMissing s (missingOf s d) (regionTenant s p)
    let miss := missingOf s d
    if miss.any (noSource s) then
      rackRefused { s with store := { s.store with unfound := s.store.unfound.filter fun k => !miss.contains k } } p stDegraded
    else if miss ≠ [] then setPhase (modUnit (openRack s k) p fun u => { u with missing := miss }) p .fetch
    else
      let st := bindStatus s p k.successor (regionTenant s p) true
      if st ≠ stOk then rackRefused s p st
      else if regionState s p = rsRunning then setPhase (orderStop (openRack s k) p) p .stop
      else if regionState s p = rsBound then setPhase (setRegionState (openRack s k) p rsBinding) p .begin
      else rackRefused s p stFrozen

/-- Phases that a boundary carries on. A wait for masters validates again. -/
def phaseStep (s : State) (r : Nat) : State :=
  let u := unitOf s r
  match u.phase with
  | .fetch => match rackLoading s r, u.cmd with
    | some k, _ => rackValidate s r k
    | none, some c => validate s r c
    | none, none => finishPart s r stInternal
  | .detach => detach s r
  | .sweepStart => startSweep s r
  | .begin => beginLoad s r
  | .commit => commitLoad s r
  | .autorun => autoRun s r
  | _ => s

/-! ## Racks (R306–R309) -/

/-- The bytes of a plan image but for its header fields that may differ and its cask table entries of the other bank. -/
def sameLayout (b d : List Byte) : Bool :=
  planFootprint b = planFootprint d && planCores b = planCores d && planMboxCore b = planMboxCore d &&
    ((List.range (planCores b)).all fun i =>
      let o := planCoreTable b + 32 * i
      let p := planCoreTable d + 32 * i
      numAt b o 4 = numAt d p 4 && numAt b (o + 16) 4 = numAt d (p + 16) 4 &&
        loadWords b (numAt b (o + 8) 8) (numAt b (o + 16) 4) = loadWords d (numAt d (p + 8) 8) (numAt d (p + 16) 4))

/-- The Keep accepts the successor for a bound plan (R306). -/
def successorOk (s : State) (r succ : Nat) : Bool :=
  let b := boundPlan s r
  match tget? s.store.plans succ with
  | none => false
  | some d =>
    let live := liveBankOf s (rd s F.REG_PLAN_PLAN_ID r)
    let inBank (x : List Byte) : List CaskEntry := (caskEntries x).filter fun e => e.bank = live
    caskBanks b = 2 && caskBanks d = 2 && planSet b = planSet d && planSeedOf b = planSeedOf d && sameLayout b d && inBank b = inBank d &&
      (caskEntries d).any fun e => e.bank ≠ live && e.version ≠ 0 && e.core.isSome

/-- A composite unit covers whole fate groups (R306). -/
def wholeFates (s : State) (r : Nat) : Bool := (partsOf s r).all fun p => !isComposite s r || (fateGroup s p).all (partsOf s r).contains

/-- A rack command needs an operator session (R314). -/
def rackCommand (a : Agent) (s : State) (k : State → State) : State :=
  if isOperator s a then k s else noteRefused s F.CASK_COMMIT_WRITE_STATUS 0 stBadHandle

/-- R307: LOAD validates the successor and stops the region's fate groups; the new bank is loaded at the boundaries that follow. -/
def execRackLoad (a : Agent) (r plan : Nat) (s : State) : Host.Outcome State Fault Refusal :=
  .next (rackCommand a s fun s =>
    if s.store.rack.isSome ∨ cmdBusy s r then rackStatus s stFrozen
    else match (partsOf s r).find? fun p => hasPlan s p && successorOk s p plan with
      | none => rackStatus s stInternal
      | some p =>
        if wholeFates s r = false then rackStatus s stInternal
        else if regionState s p ≠ rsRunning ∧ regionState s p ≠ rsBound then rackStatus s stFrozen
        else rackValidate s p ⟨r, plan, rd s F.REG_PLAN_PLAN_ID p, false, false, 0⟩)

/-- The load of a rack is over once its region runs again (R307). -/
def rackLoaded (s : State) : State :=
  raiseEngine (wrAll s 0 [(F.CASK_RACK_STATUS_PHASE, 2), (F.CASK_RACK_STATUS_CMD_STATUS, stOk)]) .report evRack 0 0

/-- R308, R311: FLIP, at the next boundary. In a pair the twin's rack must be LOADED for the same successor: peerLoaded. -/
def execRackFlip (a : Agent) (peerLoaded : Bool) (s : State) : Host.Outcome State Fault Refusal :=
  .next (rackCommand a s fun s =>
    match s.store.rack with
    | some k =>
      if rd s F.CASK_RACK_STATUS_PHASE 0 ≠ 2 ∨ k.flipReq ∨ (twState s = twPaired ∧ peerLoaded = false) then rackStatus s stFrozen
      else rackStatus { s with store := { s.store with rack := some { k with flipReq := true } } } stAccepted
    | none => rackStatus s stFrozen)

/-- The flip takes effect at a boundary. -/
def flipStep (s : State) : State :=
  match s.store.rack with
  | some k =>
    if k.flipReq ∧ k.flip = false then
      let s := { s with store := { s.store with
        rack := some { k with flip := true, flipAt := hallNs s }, live := tset s.store.live k.successor (rackNewVersion s k) } }
      let s := match (partsOf s k.region).find? fun p => rd s F.REG_PLAN_PLAN_ID p = k.oldPlan with
        | some r => openStreams (wr s F.REG_PLAN_PLAN_ID r k.successor) r
        | none => s
      retireCheck (wrAll s 0 [(F.CASK_RACK_STATUS_PHASE, 3), (F.CASK_RACK_STATUS_CMD_STATUS, stOk),
        (F.CASK_RACK_STATUS_DRAIN_LEFT, rd s F.CASK_CTL_DRAIN_S 0)])
    else s
  | none => s

/-- R307: ABORT, in LOADED. -/
def execRackAbort (a : Agent) (s : State) : Host.Outcome State Fault Refusal :=
  .next (rackCommand a s fun s =>
    match s.store.rack with
    | some k => if rd s F.CASK_RACK_STATUS_PHASE 0 = 2 ∧ k.flipReq = false then endRack s stOk else rackStatus s stFrozen
    | none => rackStatus s stFrozen)

/-- R309: DRAIN_S after a flip every stream of the old version is repinned: a seated one is re-prefilled, the pages of another are discarded
and it is re-prefilled at its next seat. After the loss of the partner each keeps its pinned version (R313). -/
def execDrainDeadline (r : Nat) (s : State) : Host.Outcome State Fault Refusal :=
  .next (match s.store.rack with
    | some k =>
      if k.flip ∧ k.region = r ∧ rd s F.CASK_CTL_DRAIN_S 0 ≠ 0 then
        let v := rackNewVersion s k
        let s := if rd s F.CASK_RACK_STATUS_CMD_STATUS 0 = stDegraded then s
          else (oldStreams s k).foldl (fun s i => rebuild (modStream s i fun x => { x with version := v }) i) s
        retireCheck (wr s F.CASK_RACK_STATUS_DRAIN_LEFT 0 0)
      else s
    | none => s)

/-! ## The unit mailbox (R284) -/

/-- The plan region whose mailbox a unit presents (R259). -/
def headOf (s : State) (r : Nat) : Nat := ((partsOf s r).head?).getD r

def noteMbox (s : State) (r : Nat) : State :=
  wrAll s r [(F.REG_UNIT_STATUS_IN_COUNT, (unitOf s r).inq.length), (F.REG_UNIT_STATUS_OUT_COUNT, (unitOf s r).outq.length)]

/-- R284: a write to REG_UNIT_MBOX. -/
def execUnitMboxWrite (a : Agent) (r : Nat) (value : Word) (s : State) : Host.Outcome State Fault Refusal :=
  .next (if underPlan s r then noteRefused s F.REG_COMMIT_WRITE_STATUS 0 stFrozen
    else if mayDrive s a r = false then noteRefused s F.REG_COMMIT_WRITE_STATUS 0 stBadHandle
    else
      let h := headOf s r
      if 16 ≤ (unitOf s h).inq.length then bump s F.REG_UNIT_CNT_IN_LOST h 1
      else noteMbox (modUnit s h fun u => { u with inq := u.inq ++ [value] }) h)

/-- R284: a read of REG_UNIT_MBOX pops the oldest OUT word; a refused read and an empty OUT return 0 (R280). -/
def execUnitMboxRead (a : Agent) (r : Nat) (s : State) : Host.Outcome State Fault Refusal :=
  .next (if underPlan s r ∨ mayDrive s a r = false then returned s 0
    else
      let h := headOf s r
      match (unitOf s h).outq with
      | [] => returned s 0
      | w :: rest => returned (noteMbox (modUnit s h fun u => { u with outq := rest }) h) w)

end Sys2Proof.Machine
end

