-- ==== Sys2Proof/Machine/Faults.lean ====
section
/-! DEFINITION. What follows a fault: the stop of a fate group (R113, R148), the fault that decides it (R147), the death of a core (R94, R107,
R111, R204) and the loss of a field (R52, R285). -/

namespace Sys2Proof.Machine

/-- The faults that a replay may clear (R146, R221, R382). -/
def replayable (ev : Nat) : Bool := [evMboxLate, evXferSlot, evSpadDetect, evTasteMismatch, evTickAbort, evLinkCheck].contains ev

def faultKind (ev : Nat) : EvKind := if replayable ev then .replay else .fault

def regionRuns (s : State) (r : Nat) : Bool := regionState s r = rsRunning || regionState s r = rsStopping

/-- The running regions of a fate group stop at the next boundary (R113, R148, R261). -/
def stopForFault (s : State) (r : Nat) : State :=
  (fateGroup s r).foldl (fun s q =>
    if regionRuns s q ∧ (unitOf s q).stopAt = false then
      modUnit (sendAllCtl s (stopPackets s q (tickCount s)).reverse) q fun u => { u with stopAt := true }
    else s) s

/-- Core c ran the tick that the last boundary closed. -/
def ranLast (s : State) (c : Nat) : Bool := (tget s.net.lanterns (fieldOf c) ⟨0, [], [], [], false, 0, false⟩).ran.contains c

/-- A fault of the tick in which region r was stopped by command, found after the stop: its fate group stops anew at the next boundary, which decides,
so that it rests on a clean checkpoint (R273). -/
def lateFault (s : State) (r : Nat) (f : FaultRec) : State :=
  (fateGroup s r).foldl (fun s q =>
    if regionState s q = rsBound ∧ (unitOf s q).await = .none then
      modUnit s q fun u => { u with stopAt := true, phase := if u.phase = .none then .stop else u.phase }
    else s) (modUnit s r fun u => { u with faults := u.faults ++ [f] })

/-- A fault of core c joins those of the region's tick, and the region stops; one that is found while the region is stopped for the moves of
R539 has it replayed, and one of the last tick before a commanded stop is decided at the next boundary. A region that is stopped otherwise has no
fault to decide. -/
def noteFault (s : State) (c : Nat) (f : FaultRec) : State :=
  let r := regionOfCore s c
  if r = 0 then s
  else if regionRuns s r then stopForFault (modUnit s r fun u => { u with faults := u.faults ++ [f] }) r
  else if (unitOf s r).await = .moves then
    (fateGroup s r).foldl (fun s q => if (unitOf s q).await = .moves then modUnit s q fun u => { u with await := .replay } else s)
      (modUnit s r fun u => { u with faults := u.faults ++ [f] })
  else if regionState s r = rsBound ∧ (unitOf s r).await = .none ∧ (unitOf s r).closedTick < f.tick ∧ ranLast s c then lateFault s r f
  else s

/-- A core is dead (R94, R107, R111, R204): EV_CORE_DEAD, and its region's fate group awaits recovery (R538). -/
def coreDies (s : State) (c : Nat) : State :=
  if coreState s c = csDead then s
  else
    let r := ownerOf s c
    let s := raiseRegion s .alarm evCoreDead (regionOfCore s c) c 0
    let s := setCoreState s c csDead
    if r = 0 then s
    else
      let s := modUnit s r fun u => { u with dead := c :: u.dead }
      (fateGroup s r).foldl (fun s q =>
        if regionRuns s q then modUnit s q fun u => { u with await := .recovery }
        else if regionState s q = rsBound then modUnit (setRegionState s q rsBinding) q fun u => { u with await := .recovery }
        else s) (stopForFault s r)

/-- The core whose tile a dead link kills (R204): at its east or south end; a rim link kills none. -/
def deadLinkCore (s : State) (link : Nat) : Option Nat :=
  if link < 65536 then none
  else
    let tile := link % 65536
    coreOnTile s (tile / 320) (tile % 320 / 20) (tile % 20)

/-- A dead rim link leaves the plan set, which is replanned as for a lost rim block (R204, R376, R377): once. -/
def dropRimLink (s : State) (l : Nat) : State :=
  if tget s.store.rimSlots l [] = [] then s
  else
    let s := { s with store := { s.store with rimSlots := tdel s.store.rimSlots l } }
    handover (raiseEngine s .report evReplan 0 0)

/-- Dead links not yet acted on kill their tiles; a dead rim link leaves the plan set (R204). -/
def killLinks (s : State) : State :=
  s.net.deadLinks.foldl (fun s l =>
    if l < 65536 then dropRimLink s l
    else match deadLinkCore s l with
    | some c => if linkOf s c 0 = l ∨ linkOf s c 3 = l then coreDies s c else s
    | none => s) s

/-- The fault of core c that a lantern or a reading reports decides like its CORE_FAULT record (R111, R146); an abort without a record is ordered
at the last cycle of the tick that closed (R537). tag: the BEAT tag that replaces EVENT in the event record (R476). -/
def foundFault (s : State) (c tick tag : Nat) (abort : Bool) : State :=
  let r := regionOfCore s c
  let last := if s.clk.lastStretch = 0 then (0, schedCycles s - 1) else (1, s.clk.lastStretch - 1)
  let s :=
    if rdB s F.CORE_FAULT_VALID c then
      let ev := rd s F.CORE_FAULT_EVENT c
      let data := putF F.CORE_FAULT_EVENT (regWord s F.CORE_FAULT_EVENT c) tag
      noteFault (raiseEv s (faultKind ev) ev (regionTenant s r) r c data) c
        ⟨tick, 0, rd s F.CORE_FAULT_STRETCH c, rd s F.CORE_FAULT_CYCLE c, c, ev, rd s F.CORE_FAULT_PC c⟩
    else if abort then noteFault s c ⟨tick, 0, last.1, last.2, c, evTickAbort, 0⟩
    else s
  killLinks (if (coreOf s c).doomed then coreDies s c else s)

/-! ## Attribution (R147) -/

/-- The order of R147: tick, recorded before silent, scheduled before stretch, cycle, core. -/
def faultBefore (a b : FaultRec) : Bool :=
  let key (f : FaultRec) : List Nat := [f.tick, f.order, f.stretch, f.cycle, f.core]
  decide (key a < key b)

/-- The earliest fault of a list. -/
def earliest (l : List FaultRec) : Option FaultRec :=
  l.foldl (init := (none : Option FaultRec)) fun b f => match b with
    | none => some f
    | some g => if faultBefore f g then some f else some g

/-! ## Loss of a field (R52, R285) -/

/-- A region with a core in a lost field: LOST; a command in progress completes with DEVICE_DEGRADED (R286). -/
def regionLost (s : State) (r : Nat) : State :=
  let s := if regionRuns s r then coverRegion (stopForFault s r) r else s
  let s := if (unitOf s r).phase = .none then s else finishPart s r stDegraded
  modUnit (setRegionState (closeRepairs s r) r rsLost) r fun u => { u with await := .none, released := false }

/-- A field is lost, once: its cores leave the array, its regions are LOST, and the engine hands over to its twin (R376). -/
def fieldLoss (s : State) (f : Nat) : State :=
  if 48 ≤ f ∨ fieldLost s f then s
  else
    let s := wr s F.KEEP_FIELD_LOST_LOST 0 (rd s F.KEEP_FIELD_LOST_LOST 0 + 2 ^ f)
    let s := raiseEngine s .alarm evFieldLost f 0
    let hit := (allDescs s).filter fun r => rsDefined < regionState s r && (regionCores s r).any fun c => fieldOf c = f
    let s := hit.foldl discardSeats (hit.foldl regionLost s)
    let s := (fieldCores f).foldl (fun s c => setCoreState { s with cores := tdel s.cores c } c csOff) s
    let s := { s with store := { s.store with residents := s.store.residents.filter fun x => fieldOf x.core ≠ f } }
    let s := abandonRack { s with pwr := { s.pwr with on := s.pwr.on.filter (· ≠ f), ramps := tdel s.pwr.ramps f } } stDegraded
    settleAll (handover { s with net := { s.net with lanterns := tdel s.net.lanterns f } })

end Sys2Proof.Machine
end

