-- ==== Sys2Proof/Machine/RegAccess.lean ====
section
/-! DEFINITION. Access to registers (R17–R23): the rights of a session (R280, R489, R508), writes field by field (R21, R22, R117, R288), staging and
capture (R20), reads (R18), and the debug window (R103, R276). Registers whose write is a command are in Machine/Registers.lean. -/

namespace Sys2Proof.Machine

/-! ## Addresses (R318, R463) -/

/-- The Keep address that an agent's address names: a host gives an offset in BAR0. -/
def keyOf (a : Agent) (addr : Nat) : Nat :=
  match a with
  | .host _ => if addr < 0x4000000 then 0x10000000 + addr else 0
  | _ => addr

/-- The register and instance that an agent's address names. -/
def findReg (a : Agent) (addr : Nat) : Option (Reg × Nat) := regAt (keyOf a addr)

/-- The register that holds a field. -/
def isReg (g : Reg) (f : Field) : Bool := g.base = f.base

/-- The register lies at or above one address and below another. -/
def regIn (g : Reg) (lo hi : Nat) : Bool := lo ≤ g.base && g.base < hi

/-! ## Fields that every block has -/

def expertField (b : Block) : Field :=
  match b with
  | .keep => F.KEEP_CTL_EXPERT_EN
  | .belfry => F.BELFRY_CTL_EXPERT_EN
  | .boot => F.BOOT_CTL_EXPERT_EN
  | .sec => F.SEC_CTL_EXPERT_EN
  | .tick => F.TICK_CTL_EXPERT_EN
  | .reg => F.REG_CTL_EXPERT_EN
  | .cask => F.CASK_CTL_EXPERT_EN
  | .strm => F.STRM_CTL_EXPERT_EN
  | .pager => F.STRM_PAGER_CTL_EXPERT_EN
  | .twin => F.TWIN_CTL_EXPERT_EN
  | .pwr => F.PWR_CTL_EXPERT_EN
  | .thm => F.THM_CTL_EXPERT_EN
  | .chan => F.CHAN_CTL_EXPERT_EN
  | .fab => F.NET_FAB_CTL_EXPERT_EN
  | .core => F.CORE_CTL_EXPERT_EN
  | .net => F.NET_CTL_EXPERT_EN

/-- SHADOW_VIEW of a commit-staged block. -/
def shadowField (b : Block) : Option Field :=
  match b with
  | .keep | .belfry | .boot | .sec => none
  | .tick => some F.TICK_CTL_SHADOW_VIEW
  | .reg => some F.REG_CTL_SHADOW_VIEW
  | .cask => some F.CASK_CTL_SHADOW_VIEW
  | .strm => some F.STRM_CTL_SHADOW_VIEW
  | .pager => some F.STRM_PAGER_CTL_SHADOW_VIEW
  | .twin => some F.TWIN_CTL_SHADOW_VIEW
  | .pwr => some F.PWR_CTL_SHADOW_VIEW
  | .thm => some F.THM_CTL_SHADOW_VIEW
  | .chan => some F.CHAN_CTL_SHADOW_VIEW
  | .fab => some F.NET_FAB_CTL_SHADOW_VIEW
  | .core => some F.CORE_CTL_SHADOW_VIEW
  | .net => some F.NET_CTL_SHADOW_VIEW

/-- COMMIT_STATUS and WRITE_STATUS of a commit-staged block (R23). -/
def statusFields (b : Block) : Option (Field × Field) :=
  match b with
  | .keep | .belfry | .boot | .sec => none
  | .tick => some (F.TICK_COMMIT_COMMIT_STATUS, F.TICK_COMMIT_WRITE_STATUS)
  | .reg => some (F.REG_COMMIT_COMMIT_STATUS, F.REG_COMMIT_WRITE_STATUS)
  | .cask => some (F.CASK_COMMIT_COMMIT_STATUS, F.CASK_COMMIT_WRITE_STATUS)
  | .strm => some (F.STRM_COMMIT_COMMIT_STATUS, F.STRM_COMMIT_WRITE_STATUS)
  | .pager => some (F.STRM_PAGER_COMMIT_COMMIT_STATUS, F.STRM_PAGER_COMMIT_WRITE_STATUS)
  | .twin => some (F.TWIN_COMMIT_COMMIT_STATUS, F.TWIN_COMMIT_WRITE_STATUS)
  | .pwr => some (F.PWR_COMMIT_COMMIT_STATUS, F.PWR_COMMIT_WRITE_STATUS)
  | .thm => some (F.THM_COMMIT_COMMIT_STATUS, F.THM_COMMIT_WRITE_STATUS)
  | .chan => some (F.CHAN_COMMIT_COMMIT_STATUS, F.CHAN_COMMIT_WRITE_STATUS)
  | .fab => some (F.NET_FAB_COMMIT_COMMIT_STATUS, F.NET_FAB_COMMIT_WRITE_STATUS)
  | .core => some (F.CORE_COMMIT_COMMIT_STATUS, F.CORE_COMMIT_WRITE_STATUS)
  | .net => some (F.NET_COMMIT_COMMIT_STATUS, F.NET_COMMIT_WRITE_STATUS)

/-- The block has one copy per core. -/
def perCore (b : Block) : Bool := b = .core || b = .net

/-- The instance of a block's own registers beside register instance i. -/
def blkInst (b : Block) (i : Nat) : Nat := if perCore b then i else 0

def expertOn (s : State) (b : Block) (i : Nat) : Bool := rdB s (expertField b) (blkInst b i)

/-- The status of a discarded write: it stands in the block's WRITE_STATUS until it is read (R23); a core that is OFF or DEAD cannot answer, and the
Keep returns it to the session (R117, R220). -/
def noteWrite (s : State) (b : Block) (i st : Nat) : State :=
  if perCore b && (coreState s i = csOff || coreState s i = csDead) then { s with keep := { s.keep with wrote := st :: s.keep.wrote } }
  else match statusFields b with
    | some (_, w) => noteRefused s w (blkInst b i) st
    | none => s

/-! ## Rights (R255, R280, R314, R354, R381, R489, R490, R508, R518) -/

def isMc (a : Agent) : Bool := match a with | .mc _ => true | _ => false

/-- A write to a field of a Belfry register (R489). -/
def belfryRight (s : State) (a : Agent) (g : Reg) (i : Nat) (f : Field) : Bool :=
  isMc a || (isReg g F.BELFRY_CTL_EXPERT_EN && isOperator s a) ||
    (if f.ex then isOperator s a && expertOn s .belfry 0
     else if isReg g F.BELFRY_TGT_THRESH then isOperator s a && (8 ≤ i || expertOn s .belfry 0)
     else if i < 256 then isOperator s a && expertOn s .belfry 0
     else isOperator s a || (960 ≤ i && rightsOf s a = some (rd s F.STRM_QP_CFG_TENANT (i - 960)) && rdB s F.STRM_QP_CFG_EN (i - 960)))

/-- The agent may write a field of the block at all. -/
def mayWrite (s : State) (a : Agent) (g : Reg) (i : Nat) (f : Field) : Bool :=
  match g.blk with
  | .core | .net =>
    let r := ownerOf s i
    isOperator s a || (f.cs && r ≠ 0 && ownsOrOperator s a (regionTenant s r) && regionState s r = rsBound)
  | .cask => isOperator s a || (regIn g 0x10600028 0x10600040 && (rightsOf s a).isSome)
  | .strm => isOperator s a || (regIn g 0x10701000 0x10701040 && mayBindQp s a i)
  | .belfry => belfryRight s a g i f
  | _ => isOperator s a

/-- Values that only an expert may write to a field that is basic otherwise (R109, R479). -/
def expertValue (f : Field) (x : Nat) : Bool :=
  x = 3 && (f = F.CORE_TASTE_CTL_RATE || f = F.CORE_TASTE_CTL_DRIFT || f = F.BELFRY_SRC_CFG_COAL)

/-! ## Frozen fields (R21, R117, R288, R320, R381) -/

/-- A descriptor whose stored state freezes its relatives (R288). -/
def descBusy (s : State) (d : Nat) : Bool :=
  rsDefined < regionState s d && !((unitOf s d).released && regionState s d = rsLost) && !isComposite s d

/-- R288: a relative of descriptor n, before the write or after it, is in a state other than FREE or DEFINED. -/
def descFrozen (s : State) (n : Nat) (f : Field) (x : Nat) : Bool :=
  let kin (d : Nat) : Bool := beneath s d n || beneath s n d || (f = F.REG_DESC0_PARENT && x ≠ 0 && beneath s x d && d ≠ 0)
  (allDescs s).any fun d => d ≠ 0 && kin d && descBusy s d

/-- The fields of a queue pair that stand still while it is bound (R320). -/
def qpFixed (f : Field) : Bool :=
  [F.STRM_QP_CFG_EMIT_LOG2, F.STRM_QP_CFG_LEDGER_LOG2, F.STRM_QP_LEDGER_ADDR, F.STRM_QP_EMIT_ADDR, F.STRM_QP_IDX_ADDR].contains f

def twinFixed (g : Reg) (f : Field) : Bool := f = F.TWIN_CTL_PORTS || isReg g F.TWIN_PEER_KEY_KEY

/-- A core that discards every write to its blocks but to EXPERT_EN (R117, R220). -/
def coreShut (s : State) (c : Nat) : Bool := coreState s c = csOff || coreState s c = csSweeping || coreState s c = csDead

/-- A write of x to a field is frozen. -/
def fieldFrozen (s : State) (g : Reg) (i : Nat) (f : Field) (x : Nat) : Bool :=
  match g.blk with
  | .core | .net => (coreShut s i && f ≠ expertField g.blk) || (f.fr && regionRuns s (regionOfCore s i))
  | .tick => f.fr && anyRunning s
  | .reg => f.fr && descFrozen s i f x
  | .strm => qpFixed f && rdB s F.STRM_QP_CFG_EN i
  | .twin => twinFixed g f && twState s ≠ twUnpaired && twState s ≠ twOffering
  | _ => false

/-- The status that refuses a changed field, if any (R21–R23). Where a write lacks the right and its field is frozen as well (a tenant's write of an FR
field of its own RUNNING core: R280 gives it no right there, R21 and R218 freeze the field), the missing right is answered: DESIGN CHOICE
(assumption 92). -/
def refusal (s : State) (a : Agent) (g : Reg) (i : Nat) (f : Field) (x : Nat) : Option Nat :=
  if perCore g.blk ∧ coreShut s i ∧ f ≠ expertField g.blk then some stFrozen
  else if mayWrite s a g i f = false then some stBadHandle
  else if f.ex ∧ !(isMc a && g.blk = .belfry) ∧ (isOperator s a = false ∨ expertOn s g.blk i = false) then some stBadHandle
  else if expertValue f x ∧ !(isMc a && g.blk = .belfry) ∧ (isOperator s a = false ∨ expertOn s g.blk i = false) then some stBadHandle
  else if fieldFrozen s g i f x then some stFrozen
  else none

/-- Fields that take no write: those of the root descriptor, of tenant 0's quotas and of source 0, and the values a field never takes (R288, R518). -/
def inert (g : Reg) (i : Nat) (f : Field) (x : Nat) : Bool :=
  (isReg g F.REG_DESC0_KIND && i = 0) || (isReg g F.REG_DESC1_W && i = 0) || (isReg g F.REG_TENANT_LIM_A_CORES && i = 0) ||
    (isReg g F.REG_TENANT_LIM_B_PAGES && i = 0) || (g.blk = .belfry && regIn g 0x10102000 0x10102010 && i = 0) ||
    (f = F.BOOT_CTL_BIST_LEVEL && 2 ≤ x)

/-! ## Writing a register -/

/-- The value that a written field is compared with: the shadow's for a CS field (R21). -/
def heldValue (s : State) (f : Field) (i : Nat) : Nat := if f.cs then getF f (shadowWord s f i) else rd s f i

/-- An accepted field takes its value. A queue pair carries the tenant of the session that sets EN (R320). -/
def putField (s : State) (a : Agent) (f : Field) (i x : Nat) : State :=
  let s := if f = F.STRM_QP_CFG_EN ∧ x = 1 then wr s F.STRM_QP_CFG_TENANT i ((rightsOf s a).getD 0) else s
  if f.acc = .w1c then wr s f i (rd s f i - x) else if f.cs then stage s f i x else wr s f i x

/-- One field of a register write. -/
def writeField (a : Agent) (g : Reg) (i : Nat) (v : Word) (s : State) (f : Field) : State :=
  let x := getF f v
  let changes : Bool := (f.acc = .rw && x ≠ heldValue s f i) || (f.acc = .w1c && x = 1 && rd s f i = 1)
  if changes = false ∨ inert g i f x then s
  else match refusal s a g i f x with
    | some st => noteWrite s g.blk i st
    | none => putField s a f i x

/-- The first refusal among the fields of a write (R23, R211). -/
def writeStatus (s : State) (a : Agent) (g : Reg) (i : Nat) (v : Word) : Nat :=
  (g.fields.findSome? fun f =>
    let x := getF f v
    let changes : Bool := (f.acc = .rw && x ≠ heldValue s f i) || (f.acc = .w1c && x = 1 && rd s f i = 1)
    if changes && !inert g i f x then refusal s a g i f x else none).getD stOk

/-- A change of the Belfry's configuration is evaluated at once (R480). -/
def afterBelfry (s : State) (g : Reg) (i : Nat) : State :=
  if isReg g F.BELFRY_SRC_CFG_PRIO then evalSource s i else if isReg g F.BELFRY_TGT_THRESH then evalAll s else s

/-- Every field of a register is written (R21). -/
def writeFields (s : State) (a : Agent) (g : Reg) (i : Nat) (v : Word) : State :=
  let s := g.fields.foldl (writeField a g i v) s
  if g.blk = .belfry then afterBelfry s g i else s

/-! ## Capture (R20) -/

/-- The shadow entries of a block; those of a per-core block belong to one core. -/
def shadowOf (s : State) (b : Block) (i : Nat) : Table Word :=
  s.shadow.filter fun e => match regAt e.1 with
    | some (g, j) => g.blk = b && (!perCore b || j = i)
    | none => false

/-- A write of 1 to COMMIT captures the block's shadow copy for the next tick boundary. The COMMIT register itself stands in the captured set, so
that a copy without staged values has its status too (R23). -/
def captureBlock (s : State) (b : Block) (i : Nat) : State :=
  match statusFields b with
  | some (c, _) => { s with captured := tset (tsetAll s.captured (shadowOf s b i)) (fkey c i) 0 }
  | none => s

/-- The agent may commit a block. -/
def mayCommit (s : State) (a : Agent) (b : Block) (i : Nat) : Bool :=
  match b with
  | .core | .net =>
    let r := ownerOf s i
    isOperator s a || (r ≠ 0 && ownsOrOperator s a (regionTenant s r) && regionState s r = rsBound)
  | .strm => (rightsOf s a).isSome
  | _ => isOperator s a

/-- A write to a block's COMMIT register. -/
def commitBlock (s : State) (a : Agent) (b : Block) (i : Nat) : State :=
  if (statusFields b).isNone then s
  else if perCore b ∧ coreShut s i then noteWrite s b i stFrozen
  else if mayCommit s a b i = false then noteWrite s b i stBadHandle
  else captureBlock s b i

/-- The COMMIT register of a block. -/
def isCommitReg (g : Reg) : Bool :=
  match statusFields g.blk with
  | some (c, _) => g.base = c.base
  | none => false

/-! ## The debug window (R103, R276) -/


/-- The tenant whose session may use the debug window of a core: the owner, while the region is BOUND, FAULTED or HELD; the operator for
tenant 0's regions alone. -/
def mayDebug (s : State) (a : Agent) (c : Nat) : Bool :=
  let r := ownerOf s c
  let t := regionTenant s r
  match rightsOf s a with
  | some k => k = t && (k = 0 || (r ≠ 0 && (regionState s r = rsBound || regionState s r = rsFaulted || regionState s r = rsHeld)))
  | none => false

/-- The core's own state admits a debug read (R103). -/
def debugState (s : State) (c : Nat) : Bool :=
  coreState s c = csBound || coreState s c = csFaulted || (coreState s c = csIdle && rdB s F.CORE_STATUS_LEES c)

/-- The debug data registers take a row. -/
def putDebug (s : State) (c : Nat) (d : RowData) (bad : Bool) : State :=
  let s := dataFields.zipIdx.foldl (fun s e => wr s e.1 c ((d >>> (64 * e.2)).toNat % 2 ^ 64)) s
  wrAll s c [(F.CORE_DBG_ROW_BAD, bit bad), (F.CORE_DBG_ROW_DONE, 1)]

/-- The four packets that carry a debug row to the Keep's control port of the core's column, 32 bytes to a packet (R211). A row's 64 bytes fill two of
them; what the other two hold is not stated, and free (assumption 94). -/
def debugPackets (c : Nat) (d : RowData) (free : Nat) : List CtlPacket :=
  (List.range 4).map fun i =>
    let part : BitVec 256 := if i < 2 then (d >>> (256 * i)).setWidth 256 else BitVec.ofNat 256 (free / 2 ^ (256 * (i - 2)))
    { type := 0x9, pri := 0, len := 8, rsv := 0, dest := BitVec.ofNat 16 (keepPort c), src := BitVec.ofNat 16 c, tag := BitVec.ofNat 16 i,
      flits := (List.range 8).map fun j => (part >>> (32 * j)).setWidth 32 }

/-- The debug row is sent to the Keep, which fills the data registers (R103, R211). -/
def sendDebug (s : State) (c : Nat) (d : RowData) (bad : Bool) : State :=
  let (n, s) := draw s (2 ^ 512)
  putDebug (sendAllCtl s (debugPackets c d n)) c d bad

/-- One debug read of a row: the row as stored, with BAD when it fails its code; refused, zeros with BAD. On a core that is SWEEPING, OFF or DEAD the
write is discarded and reported under R117, where R103 alone would return zeros with BAD: DESIGN CHOICE (assumption 93). -/
def debugRow (s : State) (a : Agent) (c row : Nat) : State :=
  if coreShut s c then noteWrite s .core c stFrozen
  else
    let s := wr s F.CORE_DBG_ROW_ROW c row
    if mayDebug s a c ∧ debugState s c then
      let x := rowAt (coreOf s c) (row % 131072)
      sendDebug s c x.data (!rowGood (row % 131072) x)
    else putDebug (if mayDebug s a c then s else noteWrite s .core c stBadHandle) c 0 true

/-! ## Reading a register (R17–R19) -/

/-- The registers that need no session (R489, R508). -/
def openRead (g : Reg) : Bool := isReg g F.BOOT_STATUS_PHASE || isReg g F.SEC_STATUS_SESSIONS || regIn g 0x10300040 0x10300060

/-- The agent may read a register (R280, R508). -/
def mayRead (s : State) (a : Agent) (g : Reg) (i : Nat) : Bool :=
  openRead g || match g.blk with
  | .core | .net =>
    if regIn g 0x20000140 0x20000180 then mayDebug s a i
    else isOperator s a || (ownerOf s i ≠ 0 && ownsOrOperator s a (regionTenant s (ownerOf s i)))
  | .reg =>
    if regIn g 0x10501000 0x10501040 then isOperator s a || rightsOf s a = some i
    else if 0x10510000 ≤ g.base then ownsOrOperator s a (regionTenant s i)
    else (rightsOf s a).isSome
  | _ => (rightsOf s a).isSome


/-- REG_UNIT_STATUS of a composite unit, derived from its plan regions (R259, R260). -/
def compositeStatus (s : State) (r : Nat) (w : Word) : Word :=
  let ps := planRegions s r
  let h := headOf s r
  let any (f : Field) : Nat := bit (ps.any fun p => rdB s f p)
  [(F.REG_UNIT_STATUS_STATE, compositeState s r), (F.REG_UNIT_STATUS_COMPOSITE, 1), (F.REG_UNIT_STATUS_LEES, any F.REG_UNIT_STATUS_LEES),
    (F.REG_UNIT_STATUS_SEATED, bit (ps.any fun p => seatedOf s p ≠ [])), (F.REG_UNIT_STATUS_HEAD, h), (F.REG_UNIT_STATUS_TENANT, regionTenant s r),
    (F.REG_UNIT_STATUS_IN_COUNT, rd s F.REG_UNIT_STATUS_IN_COUNT h),
    (F.REG_UNIT_STATUS_OUT_COUNT, rd s F.REG_UNIT_STATUS_OUT_COUNT h)].foldl (fun w fv => putF fv.1 w fv.2) w

/-- The records that stand in REG_UNIT_FAULT of a composite unit's plan regions. -/
def compositeFaults (s : State) (r : Nat) : List (Nat × FaultRec) :=
  (planRegions s r).filterMap fun p => if rdB s F.REG_UNIT_FAULT_VALID p then (unitOf s p).deciding.map fun f => (p, f) else none

/-- REG_UNIT_FAULT of a composite unit: the earliest record of its plan regions in the order of R147 (R288). -/
def compositeFault (s : State) (r : Nat) : Word :=
  let fs := compositeFaults s r
  match (earliest (fs.map (·.2))).bind fun f => fs.find? fun e => e.2 = f with
  | some e => regWord s F.REG_UNIT_FAULT_VALID e.1
  | none => 0

/-- REG_UNIT_CNT of a composite unit: the sums of its plan regions, saturating (R288). -/
def compositeCnt (s : State) (r : Nat) : Word :=
  [F.REG_UNIT_CNT_EMPTY_ROW, F.REG_UNIT_CNT_REPLAYS, F.REG_UNIT_CNT_OUT_LOST, F.REG_UNIT_CNT_IN_LOST, F.REG_UNIT_CNT_BINDS].foldl
    (fun w f => putF f w (min (2 ^ f.width - 1) ((planRegions s r).foldl (fun n p => n + rd s f p) 0))) 0

/-- The word that a register presents: times of BOOT_TIME and NET_HALL_TIME as they stand, a core's own numbers (R34) and the tick count (R115), a queue pair's source (R351), a tenant's measured share of
the fabric (R281), which is a free value, tenant 0's quotas read as all ones, SEATED of a region, unit registers are derived for a composite unit and 0 beneath a plan
region. -/
def presented (s : State) (g : Reg) (i : Nat) (w : Word) : Word :=
  if isReg g F.BOOT_TIME_PHASE_MS then putF F.BOOT_TIME_PHASE_MS w ((s.clk.hall - s.keep.boot.phaseStart) / 84000000)
  else if isReg g F.NET_HALL_TIME_HALL then putF F.NET_HALL_TIME_HALL w (hallNs s)
  else if isReg g F.CORE_ID_PHYS then putF F.CORE_ID_FIELD (putF F.CORE_ID_PHYS (putF F.CORE_ID_LOGICAL w i) (physOf s i)) (fieldOf i)
  else if isReg g F.CASK_RACK_STATUS_PHASE then
    match s.store.rack with
    | some k => putF F.CASK_RACK_STATUS_DRAIN_LEFT w (getF F.CASK_RACK_STATUS_DRAIN_LEFT w - (hallNs s - k.flipAt) / 1000000000)
    | none => w
  else if isReg g F.CORE_STATUS_STATE then putF F.CORE_STATUS_TICK w (tickCount s % 65536)
  else if isReg g F.STRM_QP_CFG_EN then putF F.STRM_QP_CFG_SOURCE w (960 + i)
  else if isReg g F.REG_TENANT_USE_B_PAGES then putF F.REG_TENANT_USE_B_FABRIC w (Config.fabricShare s.freeCtr i)
  else if (isReg g F.REG_TENANT_LIM_A_CORES ∨ isReg g F.REG_TENANT_LIM_B_PAGES) ∧ i = 0 then g.fields.foldl (fun w f => putF f w (2 ^ f.width - 1)) 0
  else if regIn g 0x10510018 0x10510040 ∨ isReg g F.REG_PLAN_PLAN_ID then
    if underPlan s i then 0
    else if isReg g F.REG_UNIT_STATUS_STATE ∧ isComposite s i then compositeStatus s i w
    else if isReg g F.REG_UNIT_STATUS_STATE then putF F.REG_UNIT_STATUS_SEATED w (bit (seatedOf s i ≠ []))
    else if isReg g F.REG_UNIT_FAULT_VALID ∧ isComposite s i then compositeFault s i
    else if isReg g F.REG_UNIT_CNT_BINDS ∧ isComposite s i then compositeCnt s i
    else w
  else w

/-- The value of a register: reserved and WO bits 0, CS fields staged under SHADOW_VIEW. -/
def regValue (s : State) (g : Reg) (i : Nat) : Word :=
  let view : Bool := match shadowField g.blk with | some f => rdB s f (blkInst g.blk i) | none => false
  let w := g.fields.foldl (fun w f =>
    if f.acc = .wo then w else putF f w (if f.cs && view then getF f (shadowWord s f i) else rd s f i)) 0
  presented s g i w

/-- A read clears the RC fields (R18), but not those that a composite unit or a descriptor beneath a plan region presents (R288). -/
def clearRc (s : State) (g : Reg) (i : Nat) : State :=
  if isReg g F.REG_UNIT_CNT_BINDS ∧ (isComposite s i ∨ underPlan s i) then s
  else g.fields.foldl (fun s f => if f.acc = .rc ∧ rd s f i ≠ 0 then wr s f i 0 else s) s

/-- One register read: its value and the state after it; a refused read returns 0. -/
def readReg (s : State) (a : Agent) (g : Reg) (i : Nat) : Word × State :=
  if perCore g.blk ∧ (coreState s i = csOff ∨ coreState s i = csDead) then (0, s)
  else if mayRead s a g i then
    (regValue s g i, clearRc (if isReg g F.REG_TENANT_USE_B_PAGES then { s with freeCtr := s.freeCtr + 1 } else s) g i)
  else (0, s)

/-! ## The blocks of one core -/

/-- A write to a register of a CORE_ or NET_ block, COMMIT and GO included. -/
def writeCoreReg (s : State) (a : Agent) (g : Reg) (i : Nat) (v : Word) : State :=
  if isCommitReg g then (if v.getLsbD 0 then commitBlock s a g.blk i else s)
  else if isReg g F.CORE_DBG_ROW_GO then
    (if v.getLsbD 63 then debugRow s a i (getF F.CORE_DBG_ROW_ROW v)
     else if getF F.CORE_DBG_ROW_ROW v = rd s F.CORE_DBG_ROW_ROW i then s
     else if coreShut s i then noteWrite s .core i stFrozen
     else if mayDebug s a i then wr s F.CORE_DBG_ROW_ROW i (getF F.CORE_DBG_ROW_ROW v)
     else noteWrite s .core i stBadHandle)
  else writeFields s a g i v

end Sys2Proof.Machine
end

