-- ==== Sys2Proof/Machine/Lantern.lean ====
section
/-! DEFINITION. What the packets of the control network do where they arrive: the lanterns and their summaries (R110–R111, R212–R214), stops (R148), register
packets (R211, R464) and mailbox words (R138, R140, R284). -/

namespace Sys2Proof.Machine

/-! ## Packets (R211) -/

/-- A packet of the given type reaches its destination and acts, or it is discarded and its first router counts a check failure. -/
def onPacket (type : Nat) (p : CtlPacket) (s : State) (k : State → State) : State :=
  let s := takeIn s p
  if packetOk p ∧ p.type.toNat = type ∧ p.flits.length = p.len.toNat ∧ addressOk p.dest.toNat then k s
  else match firstRouter p with
    | some c => bump s F.NET_CNT_CHECK c 1
    | none => s

def flit (p : CtlPacket) (i : Nat) : Nat := (p.flits.getD i 0).toNat

/-! ## Lanterns (R110, R212–R214) -/

def blankLantern : Lantern := ⟨0, [], [], [], false, 0, false⟩
def lanternOf (s : State) (f : Nat) : Lantern := tget s.net.lanterns f blankLantern
def setLantern (s : State) (f : Nat) (x : Lantern) : State := { s with net := { s.net with lanterns := tset s.net.lanterns f x } }

/-- HB_SHORT as the network delivers it: one flit. -/
def shortPacket (h : Hb) : CtlPacket := wordsPacket [hbWord 1 h]

/-- A heartbeat is clean (R212). -/
def hbClean (h : Hb) : Bool := h.done && !h.fault && !h.abort

/-- The entry of a core in its field's summary, if it must be listed (R214); a droop below CRIT marks ABORT for every bound core (R429). -/
def summaryEntry (l : Lantern) (c : Nat) : Option SumEntry :=
  match l.hbs.find? fun h => h.core = c with
  | some h => if hbClean h ∧ ¬ l.droop then none else some ⟨c, h.tag, h.done, h.fault, h.abort || l.droop, false⟩
  | none => some ⟨c, 0, false, false, l.droop, true⟩

/-- Entries cut into packets of at most seven. -/
def chunks (n : Nat) : Nat → List SumEntry → List (List SumEntry)
  | 0, l => [l]
  | k + 1, l => if l.length ≤ n then [l] else l.take n :: chunks n k (l.drop n)

/-- The packets of a field's summary (R214). -/
def summaryPackets (f : Nat) (l : Lantern) : List Summary :=
  let es := (sortedCores l.expect).filterMap (summaryEntry l)
  let pkt (last all : Bool) (part : List SumEntry) : Summary :=
    ⟨f, BitVec.ofNat 16 l.tick, es.length, last, all, l.hbs.all (·.done), l.hbs.any (·.fault), l.hbs.any (·.abort) || l.droop, part⟩
  if 56 < es.length then [pkt true true []]
  else
    let cs := chunks 7 8 es
    cs.zipIdx.map fun e => pkt (e.2 + 1 = cs.length) false e.1

/-- The lantern sends its field's summary: its packets enter at its router. -/
def sendSummary (s : State) (f : Nat) : State :=
  let l := lanternOf s f
  let ms := summaryPackets f l
  let s := setLantern s f { l with sent := true, silent := 0 }
  let s := { s with net := { s.net with sumOut := ms.reverse ++ s.net.sumOut } }
  ms.foldl (fun s m => inject s (addressRouter 0 (0x4000 + f)) 3 (packetWords (sumPacket m))) s

/-- A heartbeat reaches its field's lantern: one of the tick, from a bound core, before the summary has gone. -/
def heartbeatArrives (s : State) (h : Hb) : State :=
  let f := fieldOf h.core
  let l := lanternOf s f
  if l.sent ∨ l.expect.contains h.core = false ∨ h.tick ≠ BitVec.ofNat 8 l.tick ∨ l.hbs.any (fun g => g.core = h.core) then s
  else
    let l := { l with hbs := l.hbs ++ [h] }
    let s := setLantern s f l
    if l.expect.all fun c => l.hbs.any fun g => g.core = c then sendSummary s f else s

/-- R212: a clean heartbeat, which carries no BEAT tag. -/
def execHbShort (h : Hb) (s : State) : Host.Outcome State Fault Refusal :=
  onCore h.core s fun s => if hbClean h then heartbeatArrives (takeIn s (shortPacket h)) { h with tag := 0 } else s

/-- R212: any other heartbeat, with its BEAT tag. -/
def execHbLong (h : Hb) (s : State) : Host.Outcome State Fault Refusal :=
  onCore h.core s fun s => if hbClean h then s else heartbeatArrives (takeIn s (hbPacket h)) h

/-- R214: 256 cycles after the boundary the lantern sends its summary. -/
def execLanternSummaryDeadline (f : Nat) (s : State) : Host.Outcome State Fault Refusal :=
  .next (if (lanternOf s f).sent ∨ fieldLost s f ∨ 48 ≤ f then s else sendSummary s f)

/-- R213: a powered field's lantern has been silent for three ticks. -/
def execLanternSilent (f : Nat) (s : State) : Host.Outcome State Fault Refusal :=
  .next (if fieldLost s f = false ∧ fieldOff s f = false ∧ 3 ≤ (lanternOf s f).silent then fieldLoss s f else s)

/-! ## What the Keep does with a summary (R111, R113, R214) -/

/-- The Keep reads a register of a core's CORE_ block over the control network and waits for the reply: CORE_STATUS (0x8) of a core that missed its
heartbeat (R111), CORE_FAULT (0x10) of one that ALL_FIELD covers (R214). -/
def readFault (s : State) (c : Nat) (off : BitVec 32) (abort : Bool) : State :=
  if s.net.missed.any fun m => m.1 = c then s
  else
    let s := sendCtl s ⟨5, 2, 1, 0, BitVec.ofNat 16 c, BitVec.ofNat 16 (keepPort c), 0, [off]⟩
    { s with net := { s.net with missed := (c, abort) :: s.net.missed } }

/-- A core missed its heartbeat: EV_HEARTBEAT_MISS and the reading (R111). -/
def missCore (s : State) (c : Nat) : State :=
  let r := regionOfCore s c
  readFault (raiseEv s .report evHeartbeatMiss (regionTenant s r) r c (putF F.CORE_FAULT_EVENT (regWord s F.CORE_FAULT_EVENT c) 0)) c 0x8 false

/-- Words sent to the unit mailbox in a clean tick enter OUT, and the words handed over are gone (R284). -/
def closeWords (s : State) (r tick : Nat) : State :=
  let u := unitOf s r
  let mine := u.outWait.filter fun w => w.1 = tick
  let sorted := (mine.map fun w => w.2.1).eraseDups.mergeSort (· ≤ ·) |>.flatMap fun c => mine.filter fun w => w.2.1 = c
  let room := 16 - u.outq.length
  let s := setUnit s r { u with outq := u.outq ++ (sorted.take room).map (·.2.2), outWait := u.outWait.filter fun w => tick < w.1,
                                delivered := u.delivered.filter fun d => tick < d.1, closedTick := tick }
  acceptRim (noteMbox (bump s F.REG_UNIT_CNT_OUT_LOST r (sorted.length - room)) r) r tick

/-- The summaries of every field that a region touches are in for a tick, and none lists a core of it. -/
def tickClean (s : State) (r tick : Nat) : Bool :=
  (unitOf s r).faults = [] && (liveCores s r).all fun c =>
    let l := lanternOf s (fieldOf c)
    l.tick = tick && l.sent && (summaryEntry l c).isNone

/-- A STOP that waited for a replay is issued now that the replayed tick has closed cleanly, with the whole fate group (R261, R273). -/
def waitedStop (s : State) (r : Nat) : State :=
  if (unitOf s r).phase = .stop ∧ regionState s r = rsRunning ∧ (unitOf s r).stopIn = 0 then orderStop s r else s

/-- Regions whose tick has closed cleanly: every region of the fate group that ran in it did, since they replay together (R112, R261). -/
def closeTicks (s : State) (tick : Nat) : State :=
  let ran (q : Nat) : Bool := (liveCores s q).any fun c => (lanternOf s (fieldOf c)).ran.contains c
  let sound (q : Nat) : Bool := ((unitOf s q).await = .none || (unitOf s q).await = .moves) && (!ran q || tickClean s q tick)
  (boundRegions s).foldl (fun s r =>
    if (regionRuns s r ∨ regionState s r = rsBound) ∧ (unitOf s r).closedTick < tick ∧ ran r ∧ (fateGroup s r).all sound then
      waitedStop (closeWords s r tick) r
    else s) s

/-- One entry of a summary. -/
def takeEntry (tick : Nat) (s : State) (e : SumEntry) : State :=
  if nCores ≤ e.core then s
  else if e.missed then missCore s e.core
  else foundFault s e.core tick e.tag.toNat e.abort

/-- R214: a field summary reaches the Keep. Under ALL_FIELD every bound core of the field is read. -/
def execSummary (m : Summary) (s : State) : Host.Outcome State Fault Refusal :=
  .next (let tick := (lanternOf s m.field).tick
    let s := takeIn s (sumPacket m)
    if 48 ≤ m.field ∨ m.tick ≠ BitVec.ofNat 16 tick then s
    else
      let s := if m.allField then (sortedCores (lanternOf s m.field).expect).foldl (fun s c => readFault s c 0x10 m.abortAny) s
        else m.entries.foldl (takeEntry tick) s
      if m.last then closeTicks s tick else s)

/-- R111: a core's heartbeat has not arrived. -/
def execHeartbeatMiss (c : Nat) (s : State) : Host.Outcome State Fault Refusal :=
  onCore c s fun s =>
    let l := lanternOf s (fieldOf c)
    if l.expect.contains c ∧ !(l.hbs.any fun h => h.core = c) then missCore s c else s

/-- R111: no reply within 1,024 cycles: the core is dead, after every recorded fault of its tick (R537). -/
def execCoreStatusTimeout (c : Nat) (s : State) : Host.Outcome State Fault Refusal :=
  onCore c s fun s =>
    if s.net.missed.any fun m => m.1 = c then
      let s := { s with net := { s.net with missed := s.net.missed.filter fun m => m.1 ≠ c } }
      coreDies (noteFault s c ⟨(lanternOf s (fieldOf c)).tick, 1, 0, 0, c, evCoreDead, 0⟩) c
    else s

/-! ## Stop packets (R148) -/

/-- R148, R211: the packet names the tick after which the core issues nothing; the core completes the tick, sends its heartbeat and issues nothing at the next boundary. -/
def execStopPacket (p : CtlPacket) (s : State) : Host.Outcome State Fault Refusal :=
  .next (onPacket 4 p s fun s =>
    let c := p.dest.toNat
    if c < nCores ∧ coreState s c = csRunning then modCore s c fun co => { co with stopping := some (flit p 0) } else s)

/-! ## Register packets (R211, R464) -/

/-- The block register that a packet's offset names: bit 16 selects the NET_ block (assumption 44). -/
def packetReg (c off : Nat) : Option (Reg × Nat) :=
  if 0x20000 ≤ off ∨ 0x1000 ≤ off % 0x10000 then none
  else regAt ((if off / 0x10000 = 1 then 0x24000000 else 0x20000000) + 0x1000 * c + off % 0x10000)

/-- The core is powered and alive: it answers (R216). -/
def answers (s : State) (c : Nat) : Bool := c < nCores && coreState s c ≠ csOff && coreState s c ≠ csDead

/-- The reply of core c to a request. -/
def reply (s : State) (p : CtlPacket) (flits : List (BitVec 32)) : State :=
  sendCtl s ⟨7, 2, BitVec.ofNat 4 flits.length, 0, p.src, p.dest, p.tag, flits⟩

/-- R211: a register read request; the Keep has checked the session before it sends one (R280). Offsets not listed read as 0. -/
def execRegRd (p : CtlPacket) (s : State) : Host.Outcome State Fault Refusal :=
  .next (onPacket 5 p s fun s =>
    let c := p.dest.toNat
    if answers s c = false then s
    else match packetReg c (flit p 0) with
      | some (g, i) =>
        let (w, s) := readReg s (.mc 0) g i
        reply s p [w.setWidth 32, (w >>> 32).setWidth 32]
      | none => reply s p [0, 0])

/-- R211: a register write request, answered with its status (R23). -/
def execRegWr (p : CtlPacket) (s : State) : Host.Outcome State Fault Refusal :=
  .next (onPacket 6 p s fun s =>
    let c := p.dest.toNat
    let v : Word := BitVec.ofNat 64 (flit p 1 + flit p 2 * 2 ^ 32)
    if answers s c = false then s
    else match packetReg c (flit p 0) with
      | some (g, i) => reply (writeCoreReg s (.mc 0) g i v) p [BitVec.ofNat 32 (writeStatus s (.mc 0) g i v)]
      | none => reply s p [0])

/-- R211: a response reaches its requester; that of a missed core lets its CORE_FAULT record decide (R111). -/
def execRegRsp (p : CtlPacket) (s : State) : Host.Outcome State Fault Refusal :=
  .next (onPacket 7 p s fun s =>
    let c := p.src.toNat
    match s.net.missed.find? fun m => m.1 = c with
    | some m =>
      let s := { s with net := { s.net with missed := s.net.missed.filter fun m => m.1 ≠ c } }
      foundFault s c (lanternOf s (fieldOf c)).tick 0 m.2
    | none => { s with net := { s.net with regReads := p :: s.net.regReads } })

/-- R464: an access to a core's block that brings no REG_RSP: a load access fault of the reader, and CTL_TIMEOUT counts. -/
def execCtlTimeout (a : Agent) (addr : Nat) (s : State) : Host.Outcome State Fault Refusal :=
  .next (match findReg a addr with
    | some (g, _) => if perCore g.blk then bump s F.KEEP_CNT_CTL_TIMEOUT 0 1 else s
    | none => s)

/-! ## Mailbox words (R138, R140, R284) -/

/-- A word placed among those that entered the inbox at the last boundary, in the order of R138. -/
def insertMail (l : List Mail) (m : Mail) : List Mail :=
  l.filter (fun x => x.sender ≤ m.sender) ++ [m] ++ l.filter (fun x => m.sender < x.sender)

/-- A late word of the tick before: it enters the inbox of the newer generation, and the region replays (R140). -/
def lateMail (s : State) (c : Nat) (m : Mail) : State :=
  let co := coreOf s c
  let ib := co.newer.inbox
  if 8 ≤ ib.length then recordFault s c evMboxFault 0 s.clk.cyc 0 false
  else
    let old := ib.length - co.entered
    let ib := ib.take old ++ insertMail (ib.drop old) m
    recordFault (setCore s c { co with newer := { co.newer with inbox := ib }, entered := co.entered + 1 }) c evMboxLate 0 s.clk.cyc 0 false

/-- A mailbox word reaches a core. -/
def mailToCore (s : State) (c tag : Nat) (m : Mail) : State :=
  if coreState s c ≠ csRunning then s
  else if tag = tickCount s % 256 then modCore s c fun co => { co with arrived := co.arrived ++ [m] }
  else if (tag + 1) % 256 = tickCount s % 256 then lateMail s c m
  else recordFault s c evMboxFault 0 s.clk.cyc 0 false

/-- A mailbox word reaches the unit mailbox of a region: it waits for the clean close of its tick, or is late (R284). -/
def mailToUnit (s : State) (r sender tag : Nat) (w : Word) : State :=
  let now := tickCount s
  let tick := if tag = now % 256 then now else now - 1
  if tag ≠ tick % 256 ∨ tick ≤ (unitOf s r).closedTick ∧ 0 < (unitOf s r).closedTick then bump s F.REG_UNIT_CNT_OUT_LOST r 1
  else modUnit s r fun u => { u with outWait := u.outWait ++ [(tick, sender, w)] }

/-- R140: a mailbox word reaches its receiver. -/
def execMboxWord (p : CtlPacket) (s : State) : Host.Outcome State Fault Refusal :=
  .next (onPacket 8 p s fun s =>
    let w : Word := BitVec.ofNat 64 (flit p 0 + flit p 1 * 2 ^ 32)
    let d := p.dest.toNat
    let tag := p.tag.toNat % 256
    if d < nCores then mailToCore s d tag ⟨p.src.toNat, w⟩
    else if 0x7001 ≤ d ∧ d ≤ 0x7FFF then mailToUnit s (d - 0x7000) p.src.toNat tag w
    else s)

/-! ## Bulk packets -/

/-- R211: 32 bytes of a debug row reach the Keep. -/
def execDebugPacket (p : CtlPacket) (s : State) : Host.Outcome State Fault Refusal :=
  .next (onPacket 9 p s fun s => { s with net := { s.net with debugRows := p :: s.net.debugRows } })

/-- R211: a counter snapshot reaches the Keep. -/
def execReportPacket (p : CtlPacket) (s : State) : Host.Outcome State Fault Refusal :=
  .next (onPacket 10 p s fun s => { s with net := { s.net with reports := p :: s.net.reports } })

end Sys2Proof.Machine
end

