-- ==== Sys2Proof/Machine/Replay.lean ====
section
/-! DEFINITION. Repair, replay, substitution and recovery (R93, R104, R113, R148, R299, R305, R538, R539). -/

namespace Sys2Proof.Machine

/-! ## Repair of a row (R93, R299) -/

/-- The master whose rows lie at row a of core c, and the index of the row in it. -/
def rowMaster (s : State) (c a : Nat) : Option (Master × Nat) :=
  (s.store.residents.find? fun x => x.core = c && x.row ≤ a && a < x.row + x.rows).bind fun x =>
    (masterAt s x.plan x.target x.version).map fun m => (m, a - x.row)

/-- The tick whose faults a region's fate group waits to replay (R113, R147). -/
def replayTick (s : State) (r : Nat) : Nat :=
  match earliest ((fateGroup s r).flatMap fun q => if (unitOf s q).await = .replay then (unitOf s q).faults else []) with
  | some f => f.tick
  | none => tickCount s - 2

/-- The newer generation opens a tick: it is restored when that tick was the last before a commanded stop (R273); else the older one is (R113). -/
def opensTick (co : Core) (tick : Nat) : Bool := co.newer.valid && co.newer.tick = tick

/-- The generation that a replay of a tick restores. -/
def genFor (co : Core) (tick : Nat) : Ckpt := if opensTick co tick then co.newer else co.older

/-- Where the content of a failed row comes from; bad: its cask's master fails its digest. -/
inductive RowSource where
  | data (d : RowData)
  | none
  | bad (m : Master)
  | lost
  deriving DecidableEq, Repr

/-- Row a lies in core c's cask window, as it stands when no repair holds it back (R299). -/
def inCaskWindow (s : State) (c a : Nat) : Bool :=
  let b := rd s F.CORE_SPAD_WIN_BASE c
  b ≤ a && a < b + (tget? (unitOf s (regionOfCore s c)).heldWin c).getD (rd s F.CORE_SPAD_WIN_LEN c)

/-- The cases of R93. -/
def rowSource (s : State) (c a : Nat) : RowSource :=
  if inCaskWindow s c a then
    match rowMaster s c a with
    | some (m, i) => if m.bad then .bad m else .data (caskPayload m.image i)
    | none => .data 0
  else if (if opensTick (coreOf s c) (replayTick s (regionOfCore s c)) then (rowAt (coreOf s c) a).mark1 else (rowAt (coreOf s c) a).mark0) then .none
  else match frameCopy s c a with
    | some d => .data d
    | none => .lost

/-- The row leaves the list of failed rows; its next read is watched (R94). With its last row a core commits its window again, and with its last core the
region is BOUND (R299). -/
def rowDone (s : State) (c a : Nat) : State :=
  let s := modCore s c fun co => { co with detects := co.detects.filter (· ≠ a), repaired := a :: co.repaired.filter (· ≠ a) }
  let r := regionOfCore s c
  if (coreOf s c).detects ≠ [] then s
  else
    let s := closeRepair s r c
    if regionState s r = rsBinding ∧ (unitOf s r).heldWin = [] then setRegionState s r rsBound else s

/-- A fate group that waits for a replay waits for its recovery instead (R538). -/
def toRecovery (s : State) (r : Nat) : State :=
  (fateGroup s r).foldl (fun s q =>
    if (unitOf s q).await = .replay then modUnit (setRegionState (closeRepairs s q) q rsBinding) q fun u => { u with await := .recovery } else s) s

/-- A fate group that waits for a replay cannot have it: the region is FAULTED and its streams are covered, the others are BOUND (R305). -/
def toFaulted (s : State) (r : Nat) : State :=
  (fateGroup s r).foldl (fun s q =>
    let st := if q = r then rsFaulted else rsBound
    let s := setCores (modUnit (setRegionState (closeRepairs s q) q st) q fun u => { u with await := .none }) q (if q = r then csFaulted else csBound)
    if q = r then coverRegion s q else s) s

/-- The check of the master before a cask row is repaired (R304). mismatch: its bytes do not match its digest. -/
def checkMaster (s : State) (c a : Nat) (mismatch : Bool) : State :=
  match rowMaster s c a with
  | some (m, _) => if inCaskWindow s c a ∧ mismatch ∧ m.bad = false then masterBad s m else s
  | none => s

/-- R93: the Keep restores a failed row before the replay. mismatch: the cask's master, read in the cellar, fails its digest. The row of a BAD master waits
while its fetches go on (R304); without one left the region is FAULTED (R305). -/
def execRowRepair (c row : Nat) (mismatch : Bool) (s : State) : Host.Outcome State Fault Refusal :=
  onCore c s fun s =>
    let r := regionOfCore s c
    if (coreOf s c).detects.contains row = false ∨ (unitOf s r).await ≠ .replay then s
    else
      let s := landFrame (checkMaster s c row mismatch) c row
      match rowSource s c row with
      | .data d => rowDone (modCore s c fun co => putRow co row d) c row
      | .none => rowDone s c row
      | .bad m =>
        let k := (m.plan, m.target, m.version)
        let s := startFetch s k m.tenant
        if (fetchOf s k).isSome then s else toFaulted s r
      | .lost => toRecovery s r

/-! ## Replay (R104, R113, R148) -/

/-- A core takes up a checkpoint generation: registers, sequencer, inbox and ring positions; everything in flight is gone. -/
def restoreCore (k : Ckpt) (s : State) (c : Nat) : State :=
  let s := modCore s c fun co => { co with
    regs := k.regs, seq := k.seq, inbox := k.inbox, arrived := [], pend := [], ops := [], bundle := [], held := [], lastMsend := none,
    inWords := [], deliv := [], taken := false, p7 := [], egress := [], steps := [], done := false, faulted := false,
    aborted := false, stopping := none, entered := 0,
    taster := { co.taster with opened := 0, skip := false, flight := none, forced := co.taster.forced.map fun x => (x.1, x.2.1, true) } }
  wrAll s c [(F.NET_RING_POS_ING, k.ing), (F.NET_RING_POS_EGR, k.egr), (F.CORE_FAULT_VALID, 0), (F.CORE_FAULT_LATER, 0)]

/-- One region of a replay: every core restored, the tick's tokens taken back, the region resumes at the next boundary. A mailbox word handed over
at a boundary that the replay passes again is handed over there again (R284). -/
def replayRegion (tick : Nat) (s : State) (r : Nat) : State :=
  let opened := ((liveCores s r).map fun c => (genFor (coreOf s c) tick).tick).foldl max 0
  let s := (liveCores s r).foldl (fun s c => restoreCore (genFor (coreOf s c) tick) s c) s
  let s := (streamsOf s r).foldl (rollbackStream tick) s
  let s := discardRim (wr (bump s F.REG_UNIT_CNT_REPLAYS r 1) F.REG_UNIT_FAULT_REPLAY r 1) r opened
  modUnit s r fun u => { u with
    restart := opened
    runAt := true, await := .none, replayed := true, faults := [], outWait := u.outWait.filter fun w => w.1 < tick,
    again := (u.delivered.filter fun d => opened < d.1).map (·.2) ++ u.again, delivered := [] }

/-- R148: the Keep restores the older generation in every core of the fate group; all resume together. Failed rows must be repaired first. -/
def execRegionReplay (r : Nat) (s : State) : Host.Outcome State Fault Refusal :=
  .next (let group := (fateGroup s r).filter fun q => (unitOf s q).await = .replay
    let tick := replayTick s r
    if (unitOf s r).await ≠ .replay ∨ group.any fun q => (liveCores s q).any fun c => (coreOf s c).detects ≠ [] then s
    else group.foldl (replayRegion tick) s)


/-! ## Substitution (R35–R38, R539) -/

/-- One part of a core's load sequence stored (R264). -/
def storeLoad (c : Nat) (s : State) (l : LoadHdr × NetWord × List NetWord) : State :=
  let (h, w, ws) := l
  match h.kind.toNat with
  | 1 => storeCode c h.dest.toNat (ws.flatMap wordBundles) s
  | 2 => storeRoutes c h.dest.toNat (wordRoutes ws) s
  | 3 => storeRows c h.dest.toNat (wordRows ws h.odd) s
  | 4 => match loadReg? h.dest.toNat with
    | some g => { s with shadow := tset s.shadow (g.base + g.stride * c) ((w >>> 128).setWidth 64) }
    | none => s
  | _ => s

/-- A bound core on its new tile: its code, routes and registers from the plan's load sequence and its window from the masters (R539). -/
def refillCore (s : State) (r c : Nat) : State :=
  let s := (coreLoads (boundPlan s r) c).foldl (storeLoad c) s
  commitCore (fillWindow s r c) r c

/-- The core of a dead tile on its new tile, the spare swept FULL (R277, R286, R539). In a sweep it is swept with the region; in a load it is loaded from
SEQ 0 (R272); a rack's core takes its plan before the new bank. -/
def reloadCore (s : State) (r c : Nat) : State :=
  let st := { s.store with residents := s.store.residents.filter fun x => x.core ≠ c }
  let s := clearDebug (setCore { s with store := st } c blankCore) c
  let phase := (unitOf s r).phase
  if r = 0 then setCoreState s c csIdle
  else if phase = .sweep then modUnit (setCoreState s c csSweeping) r fun u => { u with swept := u.swept.filter (· ≠ c) }
  else if phase = .load ∨ phase = .commit then
    match rackLoading s r with
    | some k =>
      let s := narrowWin k (loadImage s r) (refillCore s r c) c
      setPhase (modUnit s r fun u => { u with seqs := tdel u.seqs c, ended := u.ended.filter (· ≠ c) }) r .load
    | none => setPhase (beginCore r (setCoreState s c csIdle) c) r .load
  else if hasPlan s r = false ∨ phase = .begin then setCoreState s c csIdle
  else refillCore s r c

/-- The row byte of a field row (R40). -/
def setRowByte (s : State) (f r d src lost : Nat) : State := wr s (rowByteF r) f (d + 32 * src + 64 * lost)

/-- An entry of the field overlay, signed with the identity key (R38). -/
def signedTile (t : Nat × Nat × Nat) : OverlayEntry := ⟨t, identitySign (bytesOf 1 t.1 ++ bytesOf 1 t.2.1 ++ bytesOf 1 t.2.2)⟩

/-- The overlay takes a dead tile (R38); under the sag lock the entry is held in Keep SRAM (R438). -/
def addOverlay (s : State) (t : Nat × Nat × Nat) : State :=
  let e := signedTile t
  if sagLocked s then { s with pwr := { s.pwr with heldOverlay := s.pwr.heldOverlay ++ [e] } }
  else { s with keep := { s.keep with boot := { s.keep.boot with overlay := s.keep.boot.overlay ++ [e] } } }

/-- A tile is dead: the overlay takes it, and the row is mapped anew. -/
def mapRow (s : State) (f r col : Nat) : State :=
  let dead := coreOnTile s f r col
  let s := setRowByte s f r col 1 0
  let row := (List.range 19).map fun j => coreAt (19 * (f % 8) + j) (16 * (f / 8) + r)
  let s := row.foldl (fun s c => showLanes (wr s F.CORE_ID_PHYS c (physOf s c)) c) s
  match dead with
  | none => s
  | some c =>
    let r := ownerOf s c
    let s := reloadCore s r c
    if r = 0 then s else modUnit s r fun u => { u with dead := u.dead.filter (· ≠ c) }

/-- The running regions of a fate group stop for the moves of a field row (R37, R539). -/
def stopForMoves (s : State) (r : Nat) : State :=
  (fateGroup s r).foldl (fun s q =>
    if regionRuns s q ∧ (unitOf s q).await = .none then modUnit s q fun u => { u with await := .moves } else s) (stopForFault s r)

/-- The regions stopped for the moves run again exactly as before (R539), unless a member of their fate group is LOST by then (R285). -/
def endMoves (s : State) : State :=
  (boundRegions s).foldl (fun s r =>
    if (unitOf s r).await ≠ .moves then s
    else if (fateGroup s r).any fun q => regionState s q = rsLost then modUnit s r fun u => { u with await := .none }
    else modUnit s r fun u => { u with runAt := true }) s

/-- R539: a field row is mapped around a dead tile once no region that uses the row runs (R37); those that run are stopped first. A second dead
tile loses the field (R35). -/
def execSubstitution (f row col : Nat) (s : State) : Host.Outcome State Fault Refusal :=
  .next (if 48 ≤ f ∨ 16 ≤ row ∨ 20 ≤ col ∨ fieldLost s f ∨ deadCol s f row = some col then s
    else
      match deadCol s f row with
      | some d => fieldLoss (setRowByte (addOverlay s (f, row, col)) f row d (rd s (rowByteF row) f / 32 % 2) 1) f
      | none =>
        let cores := (List.range 19).map fun j => coreAt (19 * (f % 8) + j) (16 * (f / 8) + row)
        let running := ((cores.map (regionOfCore s)).filter (regionRuns s)).eraseDups
        if running ≠ [] then running.foldl stopForMoves s else endMoves (mapRow (addOverlay s (f, row, col)) f row col))

/-! ## Recovery (R538) -/

/-- A core after the sweep of a recovery: the cask window stays, and the core starts as after a bind. -/
def recoverCore (s : State) (c : Nat) : State :=
  let keep := s.store.residents
  let s := sweepCore s c false
  let s := modCore { s with store := { s.store with residents := keep } } c fun co =>
    { co with seq := { blankSeq with pc := co.entryPc, resume := co.entryPc } }
  setCoreState (wrAll s c [(F.NET_RING_POS_ING, 0), (F.NET_RING_POS_EGR, 0), (F.CORE_FAULT_VALID, 0)]) c csBound

/-- One region of a recovery: swept with the scope KEEP_CASKS, its seats discarded, restarted at the next boundary. -/
def recoverRegion (s : State) (r : Nat) : State :=
  let s := discardSeats (closeRepairs s r) r
  let s := (liveCores s r).foldl recoverCore s
  let s := openStreams (forgetRim (noteLees (bump s F.REG_CNT_SWEEPS 0 1) r) r) r
  modUnit s r fun u => { u with runAt := true, replayed := false, lastReplay := none, again := u.delivered.map (·.2) ++ u.again, delivered := [], outWait := [], faults := [] }

/-- R538: a region that lost volatile rows is recovered with its fate group, once its dead cores are substituted. One whose cask is lost stays
FAULTED (R305). -/
def execRegionRecovery (r : Nat) (s : State) : Host.Outcome State Fault Refusal :=
  .next (let group := (fateGroup s r).filter fun q => (unitOf s q).await = .recovery
    if (unitOf s r).await ≠ .recovery ∨ group.any fun q => regionRuns s q || (unitOf s q).dead ≠ [] then s
    else if group.any fun q => (missingOf s (boundPlan s q)).any (noSource s) then
      group.foldl (fun s q => setCores (modUnit (setRegionState s q rsFaulted) q fun u => { u with await := .none }) q csFaulted) s
    else group.foldl recoverRegion s)

end Sys2Proof.Machine
end

