-- ==== Sys2Proof/Machine/Power.lean ====
section
/-! DEFINITION. Power delivery (R411–R442): setpoints, forecasts, switching field domains, buttresses, droop, rail faults, calibration, the sag lock
and the cap. Currents are in units of 1/20 A, so that half a rim domain is whole. -/

namespace Sys2Proof.Machine

def modPwr (s : State) (f : PowerSt → PowerSt) : State := { s with pwr := f s.pwr }

/-! ## Setpoints (R413) -/

/-- Nominal VCORE in mV of a clock step. -/
def nominal (step : Nat) : Nat :=
  match step with
  | 0 => 800
  | 1 => 760
  | 2 => 730
  | _ => 700

/-- The expert TRIM in mV, at most 40 either way (R442). -/
def trimOf (s : State) (f : Nat) : Int := max (-40) (min 40 (BitVec.ofNat 8 (rd s F.PWR_FIELD_TRIM f)).toInt)

/-- The clock step to which the setpoints belong: a raised step's come before the step itself (R414). -/
def voltStep (s : State) : Nat :=
  let now := rd s F.TICK_CLK_STATUS_STEP 0
  match s.pwr.raise with
  | some step => min step now
  | none => now

/-- A field's VCORE setpoint in mV. -/
def setpoint (s : State) (f : Nat) : Nat :=
  let v : Int := nominal (voltStep s) + tget s.pwr.guard f 0 + trimOf s f
  (max 700 (min 900 v)).toNat

/-! ## Forecasts (R416–R418) -/

/-- The quadrant of a field: 0 NW, 1 NE, 2 SW, 3 SE (R51). -/
def quadOf (f : Nat) : Nat := f % 8 / 4 + 2 * (f / 24)

def quadFields (q : Nat) : List Nat := (List.range 48).filter fun f => quadOf f = q

/-- A quadrant's setpoint: the highest of its powered fields (R413), and 25 mV while its droop compensation is provisional (R434), within the range of
R412. -/
def quadSetpoint (s : State) (q : Nat) : Option Nat :=
  match (quadFields q).filter s.pwr.on.contains with
  | [] => none
  | l => some (min 900 (l.foldl (fun m f => max m (setpoint s f)) 0 + if s.pwr.prov.contains (1, q) then 25 else 0))

/-- The Keep sends each quadrant's setpoint to the Spire, by VOUT_COMMAND (R412). -/
def sendVout (s : State) : State :=
  let put (t : Table Nat) (q : Nat) : Table Nat := match quadSetpoint s q with
    | some v => tset t q v
    | none => t
  modPwr s fun p => { p with vout := (List.range 4).foldl put p.vout }

/-- The rim domains of which half counts against a quadrant: 0 north, 1 east, 2 south, 3 west. -/
def quadRims (q : Nat) : List Nat :=
  match q with
  | 0 => [0, 3]
  | 1 => [0, 1]
  | 2 => [2, 3]
  | _ => [1, 2]

/-- The first class whose bound, 37.5 A each, is not below a current in 0.1 A. -/
def classFor (i : Nat) : Nat := min 15 ((i + 374) / 375)

/-- Running plan regions that touch a field. -/
def runningIn (s : State) (f : Nat) : List Nat :=
  (boundRegions s).filter fun r => regionRuns s r && (regionCores s r).any fun c => fieldOf c = f

/-- The current of a field that is on, in 0.1 A, in a tick: the running plans' tables, 2 A for each powered core outside them, and the Keep's own values
for cores at work. -/
def fieldCurrent (s : State) (f tick : Nat) : Nat :=
  let rs := runningIn s f
  let plans := rs.foldl (fun n r =>
    let p := rd s F.REG_PLAN_PLAN_ID r
    n + Config.planCurrent p f (tick % max 1 (Config.passLen p))) 0
  (fieldCores f).foldl (fun n c =>
    let st := coreState s c
    if st = csOff ∨ st = csDead ∨ rs.contains (regionOfCore s c) then n
    else if st = csSweeping ∨ regionState s (regionOfCore s c) = rsBinding then n + Config.activityCurrent st
    else n + 20) plans

/-- The class of a switching domain: a ramp step up is i/64 of class 4, a step down i/16 of it. -/
def rampClass (r : Ramp) : Nat :=
  match r.phase with
  | .wait => 0
  | .up i => (i + 15) / 16
  | .test _ => 4
  | .sweepWait => 4
  | .sweep _ => 8
  | .down i => (16 - i + 3) / 4

/-- The forecast class of a field in a tick (R417, R422). -/
def fieldClass (s : State) (f tick : Nat) : Nat :=
  if rdB s F.PWR_FIELD_OVR_EN f then rd s F.PWR_FIELD_OVR f
  else match tget? s.pwr.ramps f with
    | some r => rampClass r
    | none =>
      if s.pwr.on.contains f then
        min 15 (classFor (fieldCurrent s f tick) + rd s F.PWR_CTL_FCAST_MARGIN 0 + bit (s.pwr.margin.contains f))
      else 0

/-- The class of a rim domain in a tick. -/
def rimClassOf (s : State) (r tick : Nat) : Nat := if s.pwr.rims.contains r then Config.rimClass r tick % 16 else 0

/-- The sum of bounds of a quadrant in a tick, without one field. -/
def quadOthers (s : State) (q f tick : Nat) : Nat :=
  let a := (quadFields q).foldl (fun n g => if g = f then n else n + 750 * fieldClass s g tick) 0
  (quadRims q).foldl (fun n r => n + 375 * rimClassOf s r tick) a

/-- The sum of bounds of a quadrant in a tick. -/
def quadSum (s : State) (q tick : Nat) : Nat := quadOthers s q 48 tick

/-- CRC-16 with generator x^16 + x^12 + x^5 + 1 over bytes. -/
def crc16Bit (c : BitVec 16) : BitVec 16 := if c.getLsbD 15 then (c <<< 1) ^^^ 0x1021#16 else c <<< 1
def crc16 (l : List Byte) : BitVec 16 :=
  l.foldl (fun c b => (List.range 8).foldl (fun c _ => crc16Bit c) (c ^^^ (BitVec.setWidth 16 b).shiftLeft 8)) 0xFFFF#16

/-- A frame of a body, from its SYNC symbols on (R418). -/
def frameOf (body : List Byte) : List Byte := List.replicate 8 0xBC#8 ++ body ++ bytesOf 2 (crc16 body).toNat

/-- The forecast frame for a tick (R418). -/
def forecastFrame (s : State) (tick : Nat) : List Byte :=
  let step := s.clk.nextStep.getD (rd s F.TICK_CLK_STATUS_STEP 0)
  let cls := (List.range 48).map fun f => fieldClass s f tick
  let rims := (List.range 4).map fun r => rimClassOf s r tick
  let pair (l : List Nat) (i : Nat) : Byte := BitVec.ofNat 8 (l.getD (2 * i) 0 + 16 * l.getD (2 * i + 1) 0)
  let body := bytesOf 2 tick ++ (List.range 24).map (pair cls) ++ (List.range 2).map (pair rims) ++ bytesOf 1 step ++ bytesOf 1 0
  frameOf body

/-- During a Keep-only restart the sender repeats the last frame with TICK advanced (R511). -/
def nextFrame (s : State) (tick : Nat) : List Byte :=
  match s.pwr.frames with
  | l :: _ => if keepDown s then frameOf (bytesOf 2 tick ++ (l.drop 10).take 28) else forecastFrame s tick
  | [] => forecastFrame s tick

/-- At a boundary that opens tick t: the frame for t + 2, the classes of t + 1 as registers show them, and the classes of t as the load bands need
them (R418, R434, R442). -/
def sendForecast (s : State) : State :=
  let t := tickCount s
  let s := modPwr s fun p => { p with frames := nextFrame s (t + 2) :: p.frames }
  let s := (List.range 48).foldl (fun s f => wr s F.PWR_FIELD_CLASS f (fieldClass s f (t + 1))) s
  let s := (List.range 4).foldl (fun s q => wr s F.PWR_QUAD_FCAST q (quadSum s q (t + 1) / 20)) s
  let add (h : Table (List Nat)) (d c : Nat) : Table (List Nat) := tset h d (c :: (tget h d []).take 1023)
  let h := (List.range 48).foldl (fun h f => add h f (fieldClass s f t)) s.pwr.hist
  modPwr s fun p => { p with hist := (List.range 4).foldl (fun h r => add h (48 + r) (rimClassOf s r t)) h }

/-! ## Calibration (R434–R436) -/

/-- The load band of a class: L0 to L3. -/
def loadBand (c : Nat) : Nat := if c ≤ 4 then 0 else if c ≤ 8 then 1 else if c ≤ 12 then 2 else 3

/-- The temperature band of a temperature in 0.25 °C: T0 to T3. -/
def tempBand (t : Int) : Nat := if t < 160 then 0 else if t < 240 then 1 else if t < 320 then 2 else 3

def mean (l : List Nat) : Nat := l.foldl (· + ·) 0 / max 1 l.length

def tempOf (s : State) (f : Field) (i : Nat) : Int := (BitVec.ofNat 12 (rd s f i)).toInt

/-- The domains of an item: its field, its quadrant's fields, or its rim segment. -/
def itemDomains (kind item : Nat) : List Nat :=
  match kind with
  | 0 => [item]
  | 1 => quadFields item
  | 2 => [48 + item / 12]
  | _ => [48 + item / 16]

/-- The load band at which an item operates: the mean class of its domain. -/
def itemLoad (s : State) (kind item : Nat) : Nat := loadBand (mean ((itemDomains kind item).map fun d => mean (tget s.pwr.hist d [])))

/-- The temperature band at which an item operates: a stack's own, else its fields', else that of the hottest junction. -/
def itemTemp (s : State) (kind item : Nat) : Nat :=
  match kind with
  | 0 => tempBand (tempOf s F.THM_FIELD_TEMP item)
  | 1 => tempBand ((quadFields item).foldl (fun m f => max m (tempOf s F.THM_FIELD_TEMP f)) (-2048))
  | 2 => tempBand (tempOf s F.THM_STACK_TEMP item)
  | _ => tempBand (tempOf s F.THM_STATUS_TJ_MAX 0)

/-- Items of a kind: 48 fields, 4 quadrants, 48 stacks, 64 ports. -/
def itemCount (kind : Nat) : Nat :=
  match kind with
  | 0 => 48
  | 1 => 4
  | 2 => 48
  | _ => 64

/-- CAL_PROV shows each kind with a provisional item. -/
def noteProv (s : State) : State :=
  wr s F.PWR_STATUS_CAL_PROV 0 ((List.range 4).foldl (fun n k => if s.pwr.prov.any fun e => e.1 = k then n + 2 ^ k else n) 0)

/-- How far a value lies from temperature band t; a value of that band at a lighter load, or stored before a full restart, is less fit than a
final one (R435, R511). -/
def calMiss (t l : Nat) (v : CalVal) : Nat :=
  if v.temp = t then (if l ≤ v.load ∧ v.stored = false then 0 else 1) else 2 + (max v.temp t - min v.temp t)

/-- The value in use for an item: a final one, else one of the operating temperature band, else one of the nearest; the newest of equals. -/
def calPick (s : State) (kind item : Nat) : Option CalVal :=
  let miss := calMiss (itemTemp s kind item) (itemLoad s kind item)
  (s.pwr.cal.filter fun v => v.kind = kind && v.item = item).foldl (fun b v => match b with
    | some u => if miss v < miss u then some v else b
    | none => some v) none

/-- A field's guardband is that of the value in use, and 25 mV while it is provisional (R434). One that is in force is replaced at the next boundary, a
fall of more than 10 mV in steps of 2 mV (R436). -/
def aimGuard (s : State) (kind item : Nat) : State :=
  match kind, calPick s kind item with
  | 0, some v =>
    let want := v.value + if s.pwr.prov.contains (kind, item) then 25 else 0
    match tget? s.pwr.guard item with
    | none => modPwr s fun p => { p with guard := tset p.guard item want }
    | some now => modPwr s fun p => { p with goal := if now = want then tdel p.goal item else tset p.goal item (want, want + 10 < now) }
  | _, _ => s

/-- One item enters or leaves provisional use (R435). -/
def calItem (s : State) (kind item : Nat) : State :=
  let now : Bool := match calPick s kind item with | some v => calMiss (itemTemp s kind item) (itemLoad s kind item) v ≠ 0 | none => false
  let was := s.pwr.prov.contains (kind, item)
  let s :=
    if now ∧ ¬ was then raiseEngine (modPwr s fun p => { p with prov := (kind, item) :: p.prov }) .report evCalProvisional item 0
    else if was ∧ ¬ now then modPwr s fun p => { p with prov := p.prov.filter (· ≠ (kind, item)) }
    else s
  aimGuard s kind item

/-- An item that has no calibration value gets one, at the lightest load band and its temperature band (R434). -/
def calibrate (kind : Nat) (s : State) (item : Nat) : State :=
  if s.pwr.cal.any fun v => v.kind = kind && v.item = item then s
  else
    let (x, s) := draw s 256
    { s with pwr := { s.pwr with cal := s.pwr.cal ++ [⟨kind, item, 0, itemTemp s kind item, x, false⟩] } }

/-- After a full ACTIVATE every stored value is provisional (R511). -/
def storedCal (s : State) : State := modPwr s fun p => { p with cal := p.cal.map fun v => { v with stored := true } }

/-- Every item against the bands at which it operates. -/
def calEval (s : State) : State :=
  noteProv ((List.range 4).foldl (fun s k => (List.range (itemCount k)).foldl (fun s i => calItem s k i) s) s)

/-- R436: a retrained value, taken at the operating bands, replaces a provisional one at the next boundary; a fall of VCORE by more than 10 mV goes
in steps of 2 mV. The record for flash waits under the sag lock (R438). -/
def execCalibrationReplace (kind item value : Nat) (s : State) : Host.Outcome State Fault Refusal :=
  .next (if ¬ s.pwr.prov.contains (kind, item) then s
    else
      let v : CalVal := ⟨kind, item, itemLoad s kind item, itemTemp s kind item, value, false⟩
      let s := modPwr s fun p => { p with cal := v :: p.cal, prov := p.prov.filter (· ≠ (kind, item)), logsDue := p.logsDue || sagLocked s }
      noteProv (aimGuard s kind item))

/-- Guardbands move to their new values at a boundary. -/
def moveGuards (s : State) : State :=
  s.pwr.goal.foldl (fun s e =>
    let f := e.1
    let (v, slow) := e.2
    let now := tget s.pwr.guard f 0
    if slow ∧ v + 2 < now then modPwr s fun p => { p with guard := tset p.guard f (now - 2) }
    else modPwr s fun p => { p with guard := tset p.guard f v, goal := tdel p.goal f }) s

/-! ## Switching field domains (R422–R426) -/

/-- The difference of two sums. -/
def apart (a b : Nat) : Nat := max a b - min a b

/-- Classes cs.getD i for a field in the ticks from the one that opens now are admitted (R423): every sum within LIMIT and every change within DIDT. now:
the class in force. -/
def admits (s : State) (f now : Nat) (cs : List Nat) : Bool :=
  let q := quadOf f
  let t := tickCount s
  let sum (i c : Nat) : Nat := quadOthers s q f (t + i) + 750 * c
  let limit := 20 * rd s F.PWR_QUAD_LIMIT q
  let didt := 20 * rd s F.PWR_QUAD_DIDT q
  let before := quadOthers s q f (t - 1) + 750 * now
  (cs.zipIdx.all fun e => sum e.2 e.1 ≤ limit) &&
    (cs.zipIdx.all fun e => apart (sum e.2 e.1) (if e.2 = 0 then before else sum (e.2 - 1) (cs.getD (e.2 - 1) 0)) ≤ didt)

/-- A window in which all 64 steps fit (R424). -/
def windowFits (s : State) (f : Nat) : Bool := admits s f 0 ((List.range 64).map fun i => (i + 16) / 16)

/-- Ticks of a FULL sweep (R426). -/
def sweepTicks (s : State) : Nat := (16384 + 2 ^ tickK s - 1) / 2 ^ tickK s

def setRamp (s : State) (f : Nat) (r : Ramp) : State := modPwr s fun p => { p with ramps := tset p.ramps f r }

/-- A step that is not admitted waits; the delay is reported once per switch-on (R424). -/
def holdRamp (s : State) (f : Nat) (r : Ramp) : State :=
  let s := wr (setRamp s f { r with delayed := true }) F.PWR_STATUS_ADMIT_WAIT 0 1
  if r.delayed then s else raiseEngine (bump s F.PWR_CNT_ADMIT_DELAY 0 1) .report evPowerAdmitDelay f 0

/-- The ramp up of a field begins; the boundary at which the request applies and two frames already sent come first (R418,
R427). -/
def startUp (s : State) (f : Nat) : State := setRamp s f ⟨.wait, 3, false, false⟩

/-- A field is on (R426): its cores are swept and IDLE, and OFF clears. -/
def fieldUp (s : State) (f : Nat) : State :=
  let s := (fieldCores f).foldl (fun s c =>
    if coreState s c = csDead then s else setCoreState (setCore (sweepCore s c true) c blankCore) c csIdle) s
  let s := modPwr s fun p => { p with ramps := tdel p.ramps f, on := f :: p.on.filter (· ≠ f) }
  let off := rd s F.PWR_HIB_STATUS_OFF 0
  wr (transitCores s (fieldCores f)) F.PWR_HIB_STATUS_OFF 0 (if off.testBit f then off - 2 ^ f else off)

/-- A field that woke has its guardband (R434). -/
def fieldWoke (s : State) (f : Nat) : State := noteProv (calItem (calibrate 0 (fieldUp s f) f) 0 f)

/-- A field is off (R425): its cores are OFF and hold nothing, and OFF sets. A wake asked for meanwhile starts (R441). -/
def fieldDown (s : State) (f : Nat) : State :=
  let s := (fieldCores f).foldl (fun s c => setCoreState { s with cores := tdel s.cores c } c csOff) s
  let gone := (fieldCores f)
  let s := { s with store := { s.store with residents := s.store.residents.filter fun x => !gone.contains x.core } }
  let s := modPwr s fun p => { p with ramps := tdel p.ramps f, on := p.on.filter (· ≠ f) }
  let off := rd s F.PWR_HIB_STATUS_OFF 0
  let s := wr s F.PWR_HIB_STATUS_OFF 0 (if off.testBit f then off else off + 2 ^ f)
  if s.pwr.wakeNext.contains f then startUp (modPwr s fun p => { p with wakeNext := p.wakeNext.filter (· ≠ f) }) f else s

/-- A switching field advances at a boundary. -/
def rampStep (s : State) (f : Nat) : State :=
  match tget? s.pwr.ramps f with
  | none => s
  | some r =>
    if 1 < r.lead then setRamp s f { r with lead := r.lead - 1 }
    else
      let r := { r with lead := 0 }
      let now := rampClass r
      match r.phase with
      | .wait =>
        if (r.forced || windowFits s f) && admits s f 0 [1] then setRamp s f { r with phase := .up 1 } else holdRamp s f r
      | .up i =>
        if 64 ≤ i then setRamp s f { r with phase := .test 2 }
        else if admits s f now [(i + 16) / 16] then setRamp s f { r with phase := .up (i + 1) } else holdRamp s f r
      | .test n =>
        if 1 < n then setRamp s f { r with phase := .test (n - 1) }
        else if admits s f now (List.replicate (sweepTicks s) 8) then
          setRamp ((fieldCores f).foldl (fun s c => setCoreState s c csSweeping) s) f { r with phase := .sweep (sweepTicks s) }
        else holdRamp s f { r with phase := .sweepWait }
      | .sweepWait =>
        if admits s f now (List.replicate (sweepTicks s) 8) then
          setRamp ((fieldCores f).foldl (fun s c => setCoreState s c csSweeping) s) f { r with phase := .sweep (sweepTicks s) }
        else holdRamp s f r
      | .sweep n => if 1 < n then setRamp s f { r with phase := .sweep (n - 1) } else fieldWoke s f
      | .down i =>
        if 15 ≤ i then fieldDown s f
        else if admits s f now [rampClass { r with phase := .down (i + 1) }] then setRamp s f { r with phase := .down (i + 1) } else holdRamp s f r

/-- Every switching field advances by one step at a boundary (R422). -/
def rampAll (s : State) : State :=
  (s.pwr.ramps.map (·.1)).foldl rampStep (wr s F.PWR_STATUS_ADMIT_WAIT 0 0)

/-- A field ramps down over 16 ticks (R425). -/
def startDown (s : State) (f : Nat) : State := setRamp s f ⟨.down 0, 2, false, false⟩

/-- A core of the field lies in a region whose state is not DEFINED (R425). -/
def fieldInUse (s : State) (f : Nat) : Bool :=
  (allDescs s).any fun r => rsDefined < regionState s r && (regionCores s r).any fun c => fieldOf c = f

/-- Field f may hibernate (R425, R441): the plan set names it hibernatable, no region uses it, and it is not waking. -/
def mayHibernate (s : State) (f : Nat) : Bool :=
  Config.hibernatable (planSetNow s) f && !fieldInUse s f && (tget? s.pwr.ramps f).isNone

/-- Field f may wake (R460): no flow stop and no hard limit holds. -/
def mayWake (s : State) : Bool := !s.thm.stopped && !s.thm.limit

/-- A field asked to hibernate ramps down; one that is off already stays. -/
def hibernateField (s : State) (f : Nat) : State := if s.pwr.on.contains f then startDown s f else s

/-- A field asked to wake: at once when it is off, after its ramp down when that is in course (R441). -/
def wakeField (s : State) (f : Nat) : State :=
  if fieldLost s f then s
  else match tget? s.pwr.ramps f with
    | some r => match r.phase with
      | .down _ => modPwr s fun p => { p with wakeNext := f :: p.wakeNext.filter (· ≠ f) }
      | _ => s
    | none => if s.pwr.on.contains f then s else startUp s f

/-- R425: a committed bit f of PWR_HIB.REQ sets, or the commit is refused FROZEN. -/
def execHibernate (f : Nat) (s : State) : Host.Outcome State Fault Refusal :=
  .next (if 48 ≤ f ∨ (rd s F.PWR_HIB_REQ 0).testBit f then s
    else if mayHibernate s f then
      wr (hibernateField (wr s F.PWR_HIB_REQ 0 (rd s F.PWR_HIB_REQ 0 + 2 ^ f)) f) F.PWR_COMMIT_COMMIT_STATUS 0 stOk
    else wr s F.PWR_COMMIT_COMMIT_STATUS 0 stFrozen)

/-- R426: a committed bit f of PWR_HIB.REQ clears, or the commit is refused FROZEN (R460). -/
def execWake (f : Nat) (s : State) : Host.Outcome State Fault Refusal :=
  .next (if 48 ≤ f ∨ ¬ (rd s F.PWR_HIB_REQ 0).testBit f then s
    else if mayWake s then
      wr (wakeField (wr s F.PWR_HIB_REQ 0 (rd s F.PWR_HIB_REQ 0 - 2 ^ f)) f) F.PWR_COMMIT_COMMIT_STATUS 0 stOk
    else wr s F.PWR_COMMIT_COMMIT_STATUS 0 stFrozen)

/-- R424: ADMIT_WAIT ticks have passed without a window: waiting switch-ons start, and hold each step that does not fit. -/
def execAdmitWaitExpiry (s : State) : Host.Outcome State Fault Refusal :=
  .next (modPwr s fun p => { p with ramps := p.ramps.map fun e => if e.2.phase = .wait then (e.1, { e.2 with forced := true }) else e })

/-! ## The stretch demand (R186) -/

/-- The throttle demand: the largest of the cooling controls', the power cap's, a derate's (R421) and a droop's (R430). -/
def throttleDemand (s : State) : Nat :=
  let k := tickK s
  max (max (rd s F.THM_STATUS_DEMAND 0) s.pwr.capDemand)
    (max (if rdB s F.PWR_STATUS_DERATE 0 then 2 ^ (k - 4) else 0) (if s.pwr.margin = [] then 0 else 2 ^ (k - 3)))

/-- S of a new tick (R186). -/
def chooseStretch (s : State) : Nat :=
  let n := if rdB s F.TICK_STRETCH_FORCE_EN 0 then rd s F.TICK_STRETCH_FORCE 0 else max (rd s F.TICK_STRETCH_FLOOR 0) (throttleDemand s)
  min (2 ^ tickK s) n

/-! ## Buttresses (R420, R421) -/

/-- R420, R421: a buttress of a field fails; the fifth derates the wafer, the sixth drops the field at the next boundary. -/
def execButtressFail (f b : Nat) (s : State) : Host.Outcome State Fault Refusal :=
  .next (let old := rd s F.PWR_BUTT_FAILED f
    if 48 ≤ f ∨ 64 ≤ b ∨ old.testBit b then s
    else
      let n := rd s F.PWR_FIELD_FAILED f + 1
      let s := wrAll s f [(F.PWR_BUTT_FAILED, old + 2 ^ b), (F.PWR_FIELD_FAILED, n)]
      let s := raiseEngine s .alarm evButtressFail f 0
      if n = 5 then raiseEngine (wr s F.PWR_STATUS_DERATE 0 1) .alarm evButtressDerate f 0
      else if n = 6 then
        modPwr s fun p => { p with drop := f :: p.drop, ramps := tdel p.ramps f }
      else s)

/-- Fields whose sixth buttress failed are dropped at the boundary. -/
def dropFields (s : State) : State := s.pwr.drop.foldl fieldLoss (modPwr s fun p => { p with drop := [] })

/-! ## Droop (R428–R430) -/

/-- WARN and CRIT in mV below the setpoint. -/
def droopLimits (s : State) : Nat × Nat :=
  match rd s F.PWR_CTL_DROOP 0 with
  | 0 => (50, 90)
  | 1 => (40, 70)
  | 2 => (30, 55)
  | _ => (rd s F.PWR_THR_DROOP_WARN 0, rd s F.PWR_THR_DROOP_CRIT 0)

/-- A field's minimum with its tick and hall time (R428). -/
def noteVmin (s : State) (f mv : Nat) : State :=
  if mv < rd s F.PWR_VMIN_VMIN f then
    wrAll s f [(F.PWR_VMIN_VMIN, mv), (F.PWR_VMIN_TICK, tickCount s % 65536), (F.PWR_VMIN_STAMP_HALL, rd s F.TICK_STAMP_HALL 0)]
  else s

/-- R429: a field falls below WARN in this tick; reported once for the tick. -/
def execDroopWarn (f mv : Nat) (s : State) : Host.Outcome State Fault Refusal :=
  .next (if 48 ≤ f ∨ ¬ s.pwr.on.contains f then s
    else
      let s := noteVmin s f mv
      let t := tickCount s + 1
      if setpoint s f ≤ mv + (droopLimits s).1 ∨ tget s.pwr.warnTick f 0 = t then s
      else
        let s := modPwr s fun p => { p with warnTick := tset p.warnTick f t }
        raiseEngine (bump s F.PWR_CNT_DROOP_WARN 0 1) .report evDroop f 0)

/-- R429, R430: a field falls below CRIT in this tick, which is then not trusted: the lantern marks ABORT at its close. Three such ticks within 1 s
raise its margin and the stretch demand. -/
def execDroopCrit (f mv : Nat) (s : State) : Host.Outcome State Fault Refusal :=
  .next (if 48 ≤ f ∨ ¬ s.pwr.on.contains f then s
    else
      let s := noteVmin s f mv
      let t := tickCount s + 1
      if setpoint s f ≤ mv + (droopLimits s).2 ∨ tget s.pwr.critTick f 0 = t then s
      else
        let now := hallNs s
        let times := now :: (tget s.pwr.crits f []).filter fun x => now < x + 1000000000
        modPwr (bump s F.PWR_CNT_DROOP_ABORT 0 1) fun p =>
          { p with critTick := tset p.critTick f t, crits := tset p.crits f times,
                   margin := if 3 ≤ times.length then f :: p.margin.filter (· ≠ f) else p.margin })

/-- R430: 10 s after the last action the margin and the demand end. -/
def execDroopMarginExpiry (f : Nat) (s : State) : Host.Outcome State Fault Refusal :=
  .next (modPwr s fun p => { p with margin := p.margin.filter (· ≠ f) })

/-- Every field's minimum restarts (R428). -/
def restartVmin (s : State) : State :=
  (List.range 48).foldl (fun s f => wrAll s f [(F.PWR_VMIN_VMIN, 0xFFF), (F.PWR_VMIN_TICK, 0), (F.PWR_VMIN_STAMP_HALL, 0)]) s

def execVminRst (s : State) : Host.Outcome State Fault Refusal := .next (restartVmin s)

/-! ## Telemetry and clock steps (R414, R415) -/

/-- R415: the Spire's telemetry; POWER is the average of the last 10 ms, 40 polls. FCAST_MISS counts missed frames and saturated ticks (R419). -/
def execPmbusPoll (m : PmbusReading) (s : State) : Host.Outcome State Fault Refusal :=
  let ps := (m.powerW :: s.pwr.powers).take 40
  let s := modPwr s fun p => { p with powers := ps, poll := some m }
  .next (bump (wrAll s 0 [(F.PWR_TELEM_POWER, ps.foldl (· + ·) 0 / ps.length), (F.PWR_TELEM_BUSBAR, m.busbar10mV), (F.PWR_TELEM_AUX33, m.aux33mV)])
    F.PWR_CNT_FCAST_MISS 0 (m.missed + m.saturated))

/-- R415: PMB_ALERT_N, answered from source PMB_ALERT. -/
def execPmbAlert (s : State) : Host.Outcome State Fault Refusal := .next (raiseSource s 17)

/-- The clock goes to a lower step at the next boundary, or asks for a higher one, whose voltage rises first (R414). -/
def requestStep (s : State) (step : Nat) : State :=
  let now := s.clk.nextStep.getD (rd s F.TICK_CLK_STATUS_STEP 0)
  if now ≤ step then modPwr { s with clk := { s.clk with nextStep := some step } } fun p => { p with raise := none }
  else modPwr s fun p => { p with raise := some step }

/-- R414: the raised setpoints have settled: the step applies at the next boundary, once no ramp is in progress (R441). -/
def execStepRaiseSettle (s : State) : Host.Outcome State Fault Refusal :=
  .next (match s.pwr.raise with
    | some step =>
      if s.pwr.ramps = [] ∧ ¬ s.clk.fallback then
        modPwr { s with clk := { s.clk with nextStep := some step } } fun p => { p with raise := none }
      else s
    | none => s)

/-! ## Faults on the rails (R431–R433) -/

/-- The fields, rims and cellar lose power: cores and routers are OFF and hold nothing, and the cellar's plans, masters, streams and journal are
gone (R13, R454). The Keep and flash stay. -/
def losePower (s : State) : State :=
  let s := { s with
    regs := s.regs.filter (fun e => e.1 < 0x20000000), shadow := s.shadow.filter (fun e => e.1 < 0x20000000), captured := s.captured.filter fun e => e.1 < 0x20000000
    cores := [], store := StoreSt.initial, strm := StreamSt.initial, units := []
    net := { NetSt.initial with deadLinks := s.net.deadLinks, spared := s.net.spared, regReads := s.net.regReads, debugRows := s.net.debugRows, reports := s.net.reports }
    fab := { s.fab with carry := [], paths := [], msgs := [], rxs := [], window := [] }
    clk := { s.clk with gated := true } }
  let s := (allDescs s).foldl (fun s r => if rsDefined < regionState s r then wr (setRegionState s r rsDefined) F.REG_PLAN_PLAN_ID r 0 else s) s
  let s := ports.foldl (fun s p => if rdB s F.NET_PORT_UP p then wr s F.NET_PORT_UP p 0 else s) s
  modPwr (noteTwinPorts s) fun p => { p with rails := false, on := [], rims := [], ramps := [], wakeNext := [] }

/-- The Keep asserts ENG_FAULT_N, held until the next start (R433): the Spire drops every rail, and the engine is in STANDBY. -/
def engFault (s : State) : State := losePower (wr s F.PWR_STATUS_ENG_FAULT 0 1)

/-- R431: a short in a field domain: the field is isolated and lost. -/
def execFieldShort (f : Nat) (s : State) : Host.Outcome State Fault Refusal := .next (fieldLoss s f)

/-- R431: isolation has failed. -/
def execIsolationFail (q : Nat) (s : State) : Host.Outcome State Fault Refusal := .next (if q < 4 then engFault s else s)

/-- R432: SPIRE_FAULT_N gates both halves; a ramp stops (R441). -/
def execSpireFault (s : State) : Host.Outcome State Fault Refusal :=
  let s := modPwr { s with clk := { s.clk with gated := true } } fun p => { p with ramps := [] }
  .next (raiseSource (raiseEngine (wr s F.PWR_STATUS_SPIRE_FAULT 0 1) .alarm evSpireFault 0 0) 16)

/-! ## The sag lock and AUX12 (R437, R438) -/

/-- R437: a supply sags: every non-volatile write is locked. -/
def execSagLock (s : State) : Host.Outcome State Fault Refusal :=
  .next (if sagLocked s then s else raiseSource (raiseEngine (wr s F.PWR_STATUS_NVLOCK 0 1) .report evSagNvlock 0 0) 18)

/-- The cycle counts of every item that has some (R458): 64 more for a stack. -/
def cycleCounts (s : State) : Table (Nat × Nat) :=
  let get (base i : Nat) (a b : Field) : Table (Nat × Nat) :=
    let x := (rd s a i, rd s b i)
    if x = (0, 0) then [] else [(base + i, x)]
  (List.range 48).flatMap (fun i => get 0 i F.THM_FCYC_C15 F.THM_FCYC_C30) ++ (List.range 48).flatMap fun i => get 64 i F.THM_SCYC_C15 F.THM_SCYC_C30

/-- R437, R438: the lock is released, and what it deferred is written. -/
def execSagRelease (s : State) : Host.Outcome State Fault Refusal :=
  .next (if ¬ sagLocked s then s
    else
      let s := wr s F.PWR_STATUS_NVLOCK 0 0
      let b := s.keep.boot
      let s := { s with
        alarmFlash := s.alarmsDeferred.reverse ++ s.alarmFlash
        alarmsDeferred := []
        keep := { s.keep with boot := { b with overlay := b.overlay ++ s.pwr.heldOverlay } } }
      let s := if s.pwr.logsDue then { s with thm := { s.thm with flashed := cycleCounts s } } else s
      modPwr s fun p => { p with heldOverlay := [], logsDue := false })

/-- R438, R458: AUX12 fails. A page program in progress completes on hold-up; what Keep SRAM held for flash is lost. -/
def execAux12Fail (s : State) : Host.Outcome State Fault Refusal :=
  let s := { s with alarmsDeferred := [], events := [] }
  .next (modPwr s fun p => { p with heldOverlay := [], logsDue := false })

/-! ## The power cap (R440) -/

/-- The cap in W: PWR_CTL.CAP and the flow cap, the smaller of the two; none when neither is set (R440, R451). -/
def capOf (s : State) : Option Nat :=
  let c := 100 * rd s F.PWR_CTL_CAP 0
  match s.thm.flowCap with
  | some w => some (if c = 0 then w else min c w)
  | none => if c = 0 then none else some c

/-- R440: every 10 ms the demand rises by 2^(k−6) above the cap and falls by as much below 95 % of it; without a cap it falls. -/
def execCapEvaluation (s : State) : Host.Outcome State Fault Refusal :=
  let u := 2 ^ (tickK s - 6)
  let p := rd s F.PWR_TELEM_POWER 0
  let d := s.pwr.capDemand
  let d' := match capOf s with
    | some c => if c < p then min (2 ^ tickK s) (d + u) else if 100 * p < 95 * c then d - u else d
    | none => d - u
  .next (modPwr s fun p => { p with capDemand := d' })

end Sys2Proof.Machine
end

