-- ==== Sys2Proof/Machine/Thermal.lean ====
section
/-! DEFINITION. Cooling, the measurement channels and the thermal limits (R443–R461), the clamp senses (R535), and the loss of a stack or a rim domain
(R53, R376). Temperatures are in 0.25 °C, channel temperatures in 0.01 °C, flow in 0.01 L/min. -/

namespace Sys2Proof.Machine

def modThm (s : State) (f : ThermSt → ThermSt) : State := { s with thm := f s.thm }

/-! ## Channels (R444–R447) -/

/-- A channel's reading is valid: enabled, and OK or RANGE. -/
def chanValid (s : State) (n : Nat) : Bool :=
  rdB s F.CHAN_CFG_EN n && (rd s F.CHAN_VAL_STATE n = 1 || rd s F.CHAN_VAL_STATE n = 5)

def chanValue (s : State) (n : Nat) : Int := (BitVec.ofNat 32 (rd s F.CHAN_VAL_VALUE n)).toInt

/-- A channel is in fault. -/
def chanFaulty (s : State) (n : Nat) : Bool := 2 ≤ rd s F.CHAN_VAL_STATE n && rd s F.CHAN_VAL_STATE n ≤ 4

def setChan (s : State) (n st : Nat) (v : Int) : State :=
  wrAll s n [(F.CHAN_VAL_STATE, st), (F.CHAN_VAL_VALUE, (BitVec.ofInt 32 v).toNat)]

/-- One sample of a channel (R446): three in one condition enter fault, a hundred clean ones leave it. -/
def takeSample (s : State) (x : ChanSample) : State :=
  let n := x.chan
  if 16 ≤ n ∨ ¬ rdB s F.CHAN_CFG_EN n then s
  else if x.cond ≠ 0 then
    let old := tget s.thm.bad n 0
    let count := if old / 16 = x.cond then min 15 (old % 16 + 1) else 1
    let s := modThm s fun t => { t with bad := tset t.bad n (16 * x.cond + count), clean := tdel t.clean n }
    if 3 ≤ count ∧ ¬ chanFaulty s n then raiseEngine (wr s F.CHAN_VAL_STATE n x.cond) .report evChanFault n 0 else s
  else
    let count := tget s.thm.clean n 0 + 1
    let s := modThm s fun t => { t with bad := tdel t.bad n, clean := tset t.clean n (min 100 count) }
    if chanFaulty s n ∧ count < 100 then s else setChan s n (if x.outOfSpan then 5 else 1) x.value

/-- A leak cable is wet: a valid reading of 1. -/
def wet (s : State) (n : Nat) : Bool := (n = 8 || n = 9) && chanValid s n && chanValue s n = 1

/-- The leak cables as a sample set leaves them: a dry cable ends its report, and shedding for a wet one (R455). -/
def noteWet (s : State) : State :=
  let still := s.thm.wasWet.filter (wet s)
  modThm s fun t =>
    { t with wasWet := still, dryAt := if still = [] ∧ t.wasWet ≠ [] then hallNs s else t.dryAt, leakShed := t.leakShed && still ≠ [] }

/-- The dew-check temperature: RTD_IN, or the lower of RTD_A and RTD_B (R447). -/
def inletTemp (s : State) : Option Int :=
  if chanValid s 0 then some (chanValue s 0)
  else match chanValid s 2, chanValid s 3 with
    | true, true => some (min (chanValue s 2) (chanValue s 3))
    | true, false => some (chanValue s 2)
    | false, true => some (chanValue s 3)
    | false, false => none

/-- The inlet lies below the dew point plus a margin in K. -/
def belowDew (s : State) (margin : Nat) : Bool :=
  match inletTemp s with
  | some t => chanValid s 10 && t < chanValue s 10 + 100 * margin
  | none => false

/-- Disabled channels read DISABLED, and nothing is counted of them. -/
def disabledChans (s : State) : State :=
  let s := modThm s fun t => { t with bad := t.bad.filter fun e => rdB s F.CHAN_CFG_EN e.1, clean := t.clean.filter fun e => rdB s F.CHAN_CFG_EN e.1 }
  (List.range 16).foldl (fun s n => if rdB s F.CHAN_CFG_EN n ∨ rd s F.CHAN_VAL_STATE n = 0 then s else setChan s n 0 0) s

/-- The flow (R447): FLOW_A, else FLOW_B, else from the rail power and the temperature rise. -/
def flowNow (s : State) : Option Nat :=
  if chanValid s 6 then some (chanValue s 6).toNat
  else if chanValid s 7 then some (chanValue s 7).toNat
  else
    let rise := chanValue s 1 - chanValue s 0
    if chanValid s 0 ∧ chanValid s 1 ∧ 0 < rise then some (rd s F.PWR_TELEM_POWER 0 * 100000 / (697 * rise.toNat)) else none

/-! ## Stages and demand (R449, R451, R461) -/

/-- THM_STATUS.STAGE: the gravest stage in force. -/
def noteStage (s : State) : State :=
  let t := s.thm
  wr s F.THM_STATUS_STAGE 0
    (if t.limit then 4 else if t.leakHold ∨ t.wasWet ≠ [] then 5 else if t.stopped then 3 else if t.shedFlow ∨ t.noFlow then 2 else if t.warn then 1 else 0)

/-- R444: a sample set is complete, every 10 ms; a dew episode, and the shedding that the dew point demands, end with their cause (R455, R456). -/
def execChannelSample (cs : List ChanSample) (s : State) : Host.Outcome State Fault Refusal :=
  let s := noteWet (cs.foldl takeSample (disabledChans s))
  let low := belowDew s (rd s F.THM_THR_DEW_MARGIN 0)
  let wetDome := belowDew s 0
  .next (raiseSource (noteStage (modThm s fun t => { t with dewLow := t.dewLow && low, dewShed := t.dewShed && wetDome })) 22)

/-- TJ_T0, TJ_T1, HBM_T0 and HBM_T1 in °C. -/
def curve (s : State) : Nat × Nat × Nat × Nat :=
  match rd s F.THM_CTL_PROFILE 0 with
  | 0 => (85, 93, 85, 92)
  | 1 => (90, 98, 88, 95)
  | 2 => (95, 102, 92, 98)
  | _ => (rd s F.THM_CURVE_TJ_T0 0, rd s F.THM_CURVE_TJ_T1 0, rd s F.THM_CURVE_HBM_T0 0, rd s F.THM_CURVE_HBM_T1 0)

/-- One curve's demand in units of 2^(k−6), rounded up and clamped to 64 of them. -/
def curveUnits (t : Int) (t0 t1 : Nat) : Nat :=
  let n := (64 * (t - 4 * (t0 : Int))).toNat
  let d := 4 * (t1 - t0)
  if d = 0 then (if n = 0 then 0 else 64) else min 64 ((n + d - 1) / d)

/-- The demand of the cooling controls (R449), at least 2^(k−2) without a flow value (R447). -/
def demandNow (s : State) : Nat :=
  let (a0, a1, b0, b1) := curve s
  let u := 2 ^ (tickK s - 6)
  max (u * max (curveUnits s.thm.tj a0 a1) (curveUnits s.thm.thbm b0 b1)) (if s.thm.noFlow then 2 ^ (tickK s - 2) else 0)

/-- DEMAND rises at once and falls by at most 2^(k−6) in 10 ms; its start from zero is reported (R449, R450). -/
def setDemand (s : State) : State :=
  let now := rd s F.THM_STATUS_DEMAND 0
  let want := demandNow s
  if now < want then
    let s := wr s F.THM_STATUS_DEMAND 0 want
    if now = 0 then raiseEngine s .report evThermThrottle 0 0 else s
  else if want < now ∧ s.thm.fallAt + 10000000 ≤ hallNs s then
    modThm (wr s F.THM_STATUS_DEMAND 0 (max want (now - 2 ^ (tickK s - 6)))) fun t => { t with fallAt := hallNs s }
  else s

/-! ## Temperatures (R448, R454) -/

/-- The hard limits in 0.25 °C; values above 105 °C and 100 °C act as those. -/
def tjLimit (s : State) : Int := 4 * (min 105 (rd s F.THM_THR_TJ_LIMIT 0) : Nat)
def thbmLimit (s : State) : Int := 4 * (min 100 (rd s F.THM_THR_THBM_LIMIT 0) : Nat)

def maxInt (l : List Int) : Int := l.foldl max (-2048)
def tempField (t : Int) : Nat := (BitVec.ofInt 12 t).toNat

/-- R448: every sensor is read; a field's temperature is its highest. The demand, the calibration bands and the count of readings at a hard limit
follow. -/
def execTempRead (m : TempReading) (s : State) : Host.Outcome State Fault Refusal :=
  let s := ((m.fields.take 48).zipIdx).foldl (fun s e => wr s F.THM_FIELD_TEMP e.2 (tempField (maxInt e.1))) s
  let s := ((m.hbm.take 48).zipIdx).foldl (fun s e => wr s F.THM_STACK_TEMP e.2 (tempField e.1)) s
  let tj := maxInt ((m.fields.map maxInt) ++ m.rims.map maxInt)
  let thbm := maxInt m.hbm
  let s := wrAll s 0 [(F.THM_STATUS_TJ_MAX, tempField tj), (F.THM_STATUS_THBM_MAX, tempField thbm)]
  let hot : Bool := tjLimit s ≤ tj || thbmLimit s ≤ thbm
  let s := modThm s fun t => { t with tj := tj, thbm := thbm, overLim := if hot then t.overLim + 1 else 0 }
  .next (calEval (setDemand s))

/-! ## Clock steps (R450, R451) -/

/-- The throttle selects a step; a fallback holds the clock meanwhile (R45). -/
def selectStep (s : State) (n : Nat) : State :=
  let s := modPwr s fun p => { p with sel := n }
  if s.clk.fallback then s else requestStep s n

/-- Full stretch, with a temperature at its upper point, or the flow cap still exceeded. -/
def stepDownDue (s : State) : Bool :=
  let (_, a1, _, b1) := curve s
  let full := 2 ^ tickK s
  let capped : Bool := match s.thm.flowCap with | some w => w < rd s F.PWR_TELEM_POWER 0 | none => false
  (rd s F.THM_STATUS_DEMAND 0 = full && (4 * (a1 : Int) ≤ s.thm.tj || 4 * (b1 : Int) ≤ s.thm.thbm)) || (s.pwr.capDemand = full && capped)

/-- R450: after 100 ms at full stretch the clock goes down one step. -/
def execThrottleStepDown (s : State) : Host.Outcome State Fault Refusal :=
  .next (if stepDownDue s ∧ s.pwr.sel < 3 then
      raiseEngine (bump (selectStep s (s.pwr.sel + 1)) F.THM_CNT_STEP_DOWN 0 1) .report evThermThrottle 0 0
    else s)

/-- R450: 3 K below both lower points for 1 s, the clock goes up one step. -/
def execThrottleStepUp (s : State) : Host.Outcome State Fault Refusal :=
  let (a0, _, b0, _) := curve s
  .next (if s.thm.tj < 4 * (a0 : Int) - 12 ∧ s.thm.thbm < 4 * (b0 : Int) - 12 ∧ 0 < s.pwr.sel then selectStep s (s.pwr.sel - 1) else s)

/-! ## Flow (R451–R453) -/

/-- The flow stages begin by the flow (R451); the flow cap is 657 W per L/min. -/
def evalFlow (s : State) : State :=
  let f := flowNow s
  let s := wr s F.THM_STATUS_FLOW 0 (match f with | some n => min 0xFFE (n / 10) | none => 0xFFF)
  let s := modThm s fun t => { t with noFlow := f.isNone }
  let s := match f with
    | none => s
    | some n =>
      let low : Bool := n < 100 * rd s F.THM_THR_FLOW_WARN 0
      let s := if low ∧ ¬ s.thm.warn then
          raiseEngine (bump (modThm s fun t => { t with warn := true }) F.THM_CNT_FLOW_LOW 0 1) .alarm evFlowLow 0 0
        else s
      let s := if n < 100 * rd s F.THM_THR_FLOW_SHED 0 then modThm s fun t => { t with shedFlow := true } else s
      modThm s fun t => { t with flowCap := if t.warn then some (657 * n / 100) else none }
  noteStage (setDemand s)

/-- R451: the evaluation of every 10 ms; none while the Keep restarts (R460). -/
def execFlowEvaluation (s : State) : Host.Outcome State Fault Refusal := .next (if keepDown s then s else evalFlow s)

/-- R451: stages whose condition has been absent for 60 s end. -/
def execFlowStageEnd (s : State) : Host.Outcome State Fault Refusal :=
  .next (match flowNow s with
    | none => s
    | some n =>
      if keepDown s then s else
      let warn : Bool := s.thm.warn && n < 100 * rd s F.THM_THR_FLOW_WARN 0
      let shed : Bool := s.thm.shedFlow && n < 100 * rd s F.THM_THR_FLOW_SHED 0
      noteStage (modThm s fun t => { t with warn := warn, shedFlow := shed, flowCap := if warn then t.flowCap else none }))

/-- A plan region goes down with the fields: its plan is remembered, and it is DEFINED (R453). -/
def regionDown (s : State) (r : Nat) : State :=
  let s := modThm s fun t => { t with rebind := t.rebind ++ [(r, rd s F.REG_PLAN_PLAN_ID r)] }
  let s := discardSeats s r
  let s := if (unitOf s r).phase = .none then s else finishPart s r stDegraded
  let s := (liveCores s r).foldl (fun s c => wrAll s c [(F.CORE_STATUS_REGION, 0), (F.CORE_STATUS_TENANT, 0), (F.CORE_STATUS_LEES, 1), (F.CORE_STATUS_STATE, csIdle), (F.CORE_FAULT_VALID, 0)]) s
  modUnit (wr (setRegionState s r rsDefined) F.REG_PLAN_PLAN_ID r 0) r fun u =>
    { u with stopAt := false, runAt := false, stopIn := 0, await := .none, faults := [], delivered := [], again := [], outWait := [] }

/-- Steps 1 and 2 of R453: the handover, and every field down, whatever the plan set names. -/
def fieldsDown (s : State) : State :=
  let s := handover s
  let s := (boundRegions s).foldl regionDown s
  let s := (s.pwr.on ++ s.pwr.ramps.map (·.1)).eraseDups.foldl startDown (modPwr s fun p => { p with wakeNext := [] })
  settleAll (modThm s fun t => { t with stopped := true })

/-- R452, R453: flow has stopped. A stop that a leak's HANDOVER causes is not reported (R455). -/
def execFlowStop (s : State) : Host.Outcome State Fault Refusal :=
  .next (if s.thm.stopped ∨ s.thm.leakHold ∨ s.thm.limit then s
    else
      let s := raiseSource (raiseEngine (bump s F.THM_CNT_FLOW_STOP 0 1) .alarm evFlowStop 0 0) 19
      noteStage (modThm (fieldsDown s) fun t => { t with valve := 20000, pump := 1000 }))

/-- R453 step 4: flow has returned: the fields wake, except those asked to hibernate, and the plans bind again once they are up. -/
def execFlowRestored (s : State) : Host.Outcome State Fault Refusal :=
  .next (match flowNow s with
    | none => s
    | some n =>
      if ¬ s.thm.stopped ∨ s.thm.leakHold ∨ s.thm.limit ∨ n < 100 * rd s F.THM_THR_FLOW_WARN 0 then s
      else
        let s := modThm s fun t => { t with stopped := false }
        noteStage (((List.range 48).filter fun f => !(rd s F.PWR_HIB_REQ 0).testBit f).foldl wakeField s))

/-- The plans that a flow stop unbound bind again, with AUTORUN, when every field is up (R453). -/
def rebindPlans (s : State) : State :=
  if s.thm.stopped ∨ s.thm.limit ∨ s.pwr.ramps ≠ [] ∨ s.thm.rebind = [] then s
  else
    let l := s.thm.rebind
    l.foldl (fun s e => match execBind (.mc 1) e.1 e.2 true false s with
      | .next t => t
      | _ => s) (modThm s fun t => { t with rebind := [] })

/-! ## Hard limits and clamps (R454, R535) -/

/-- The engine shuts down at a hard limit (R454): handover, every domain down, ENG_FAULT_N. -/
def hardShutdown (s : State) (data : Nat) : State :=
  let s := raiseEngine (bump s F.THM_CNT_LIMIT 0 1) .alarm evThermLimit 0 data
  noteStage (engFault (modThm (handover s) fun t => { t with limit := true }))

/-- R454: two consecutive readings at a limit. -/
def execHardLimit (s : State) : Host.Outcome State Fault Refusal :=
  .next (if 2 ≤ s.thm.overLim ∧ ¬ s.thm.limit then hardShutdown s 0 else s)

/-- R454: a junction sensor reaches 110 °C: ENG_FAULT_N at once. -/
def execTj110 (s : State) : Host.Outcome State Fault Refusal :=
  .next (noteStage (raiseSource (engFault (modThm s fun t => { t with limit := true })) 20))

/-- R535: a clamp sense opens; while a rail is on, as at a hard limit, with DATA 0x1. -/
def execClampSenseOpen (s : State) : Host.Outcome State Fault Refusal :=
  let s := modPwr s fun p => { p with clamped := false }
  .next (if s.pwr.rails then hardShutdown s 1 else s)

/-- R535: both clamp senses are closed. -/
def execClampSenseClosed (s : State) : Host.Outcome State Fault Refusal := .next (modPwr s fun p => { p with clamped := true })

/-! ## Leaks and dew (R455, R456) -/

/-- LEAK_ACT applies to a wet cable or to the dew point: REPORT, SHED or HANDOVER. -/
def leakAction (dew : Bool) (s : State) : State :=
  match rd s F.THM_CTL_LEAK_ACT 0 with
  | 1 => modThm s fun t => if dew then { t with dewShed := true } else { t with leakShed := true }
  | 2 =>
    let s := if s.thm.stopped then s else fieldsDown s
    modThm s fun t => { t with leakHold := true, pump := 0, valve := 4000 }
  | _ => s

/-- R455: a wet leak cable, LEAK_A or LEAK_B, is reported once while it is wet. -/
def execLeak (cable : Nat) (s : State) : Host.Outcome State Fault Refusal :=
  .next (let n := 8 + cable
    if ¬ wet s n ∨ s.thm.wasWet.contains n then s
    else
      let s := modThm s fun t => { t with wasWet := n :: t.wasWet }
      noteStage (leakAction false (raiseSource (raiseEngine s .alarm evLeak n 0) 21)))

/-- An operator's write of THM_CTL ends the hold of a leak's HANDOVER once every cable has been dry for 60 s (R455). -/
def endLeakHold (s : State) : State :=
  if s.thm.leakHold ∧ s.thm.wasWet = [] ∧ s.thm.dryAt + 60000000000 ≤ hallNs s then noteStage (modThm s fun t => { t with leakHold := false }) else s

/-- R456: the inlet falls below the dew point plus its margin; once per episode. -/
def execDewAlarm (s : State) : Host.Outcome State Fault Refusal :=
  .next (if belowDew s (rd s F.THM_THR_DEW_MARGIN 0) ∧ ¬ s.thm.dewLow then
      raiseEngine (modThm s fun t => { t with dewLow := true }) .alarm evDew 0 0
    else s)

/-- R456: below the dew point itself for 60 s: LEAK_ACT applies. -/
def execDewLimit (s : State) : Host.Outcome State Fault Refusal := .next (if belowDew s 0 then noteStage (leakAction true s) else s)

/-! ## Valve and pump (R457) -/

/-- The outputs that this evaluation drives. In mode FLOW the loop's gains are the firmware's: the outputs are free values (assumption 3). -/
def outputs (s : State) : (Nat × Nat) × State :=
  if s.thm.leakHold then ((4000, 0), s)
  else if s.thm.stopped then ((20000, 1000), s)
  else if rd s F.THM_CTL_CTRL 0 = 0 then
    ((max 4000 (min 20000 (rd s F.CHAN_CFG_FIXED 11)), min 1000 (rd s F.CHAN_CFG_FIXED 12)), s)
  else
    let (v, s) := draw s 16001
    let (p, s) := draw s 1001
    ((4000 + v, p), s)

/-- Each output holds its value before the settings load at a start (phases up to SETTINGS), and while the Keep restarts (R457). -/
def outputsHeld (s : State) : Bool := rd s F.BOOT_STATUS_PHASE 0 < 5 || keepDown s

/-- R457: every 100 ms. Enabled channels show what is driven. -/
def execValvePumpControl (s : State) : Host.Outcome State Fault Refusal :=
  .next (if outputsHeld s then s
    else
      let ((v, p), s) := outputs s
      let s := modThm s fun t => { t with valve := v, pump := p }
      let s := if chanValid s 11 then wr s F.CHAN_VAL_VALUE 11 v else s
      if chanValid s 12 then wr s F.CHAN_VAL_VALUE 12 p else s)

/-! ## Thermal cycles (R458, R459) -/

/-- One second of an item's turning-point search, with 2 K hysteresis: the half-cycle that ends, if one does. -/
def turn (x : Option Turn) (t : Int) : Turn × Option Int :=
  match x with
  | none => (⟨true, none, t⟩, none)
  | some x =>
    let ended : Option Int := x.last.map fun l => if l ≤ x.extreme then x.extreme - l else l - x.extreme
    if x.rising then
      if x.extreme < t then ({ x with extreme := t }, none)
      else if t + 8 ≤ x.extreme then (⟨false, some x.extreme, t⟩, ended)
      else (x, none)
    else
      if t < x.extreme then ({ x with extreme := t }, none)
      else if x.extreme + 8 ≤ t then (⟨true, some x.extreme, t⟩, ended)
      else (x, none)

/-- One item's count: half-cycles of 15 K or more, and of 30 K or more. -/
def countCycle (item i : Nat) (temp c15 c30 : Field) (s : State) : State :=
  let (x, a) := turn (tget? s.thm.turns item) (tempOf s temp i)
  let s := modThm s fun t => { t with turns := tset t.turns item x }
  match a with
  | none => s
  | some a =>
    let s := if 60 ≤ a then bump s c15 i 1 else s
    if 120 ≤ a then bump s c30 i 1 else s

/-- Life used in units of 1/600 of 0.01 %. -/
def lifeUnits (x : Nat × Nat) : Nat := 3 * (x.1 - x.2) + 50 * x.2

/-- The item of largest use. -/
def worst (t : Table (Nat × Nat)) : Nat × Nat :=
  t.foldl (fun b e => if b.2 < lifeUnits e.2 then (e.1, lifeUnits e.2) else b) (0, 0)

/-- Tenths of a year left at the rate of the last 30 days (R459); 0xFFFF with less data or no use. -/
def yearsLeft (s : State) (item now : Nat) : Nat :=
  match s.thm.snaps.find? fun e => e.1 + 2592000000000000 ≤ hallNs s with
  | none => 0xFFFF
  | some e =>
    let old := lifeUnits (tget e.2 item (0, 0))
    if now ≤ old then 0xFFFF else min 0xFFFE ((6000000 - now) * (hallNs s - e.1) / ((now - old) * 3155760000000000))

/-- THM_LIFE follows the counts. -/
def noteLife (s : State) : State :=
  let (item, n) := worst (cycleCounts s)
  wrAll s 0 [(F.THM_LIFE_ITEM, item), (F.THM_LIFE_USED, min 0xFFFF (n / 600)), (F.THM_LIFE_YEARS_LEFT, yearsLeft s item n)]

/-- R458: once per second, every field and every stack. -/
def execThermalCycleCount (s : State) : Host.Outcome State Fault Refusal :=
  let s := (List.range 48).foldl (fun s f => countCycle f f F.THM_FIELD_TEMP F.THM_FCYC_C15 F.THM_FCYC_C30 s) s
  .next (noteLife ((List.range 48).foldl (fun s i => countCycle (64 + i) i F.THM_STACK_TEMP F.THM_SCYC_C15 F.THM_SCYC_C30 s) s))

/-- R458: hourly the counts are written to flash, subject to the sag lock (R438). -/
def execCycleLogWrite (s : State) : Host.Outcome State Fault Refusal :=
  let now := cycleCounts s
  let s := modThm s fun t => { t with snaps := (hallNs s, now) :: t.snaps.take 720 }
  .next (if sagLocked s then modPwr s fun p => { p with logsDue := true } else modThm s fun t => { t with flashed := now })

/-! ## Loss of a stack or a rim domain (R53, R376) -/

/-- What a stack held (R305, R376): its masters are BAD; its pages come again from the twin, or are rebuilt without one (R250). -/
def stackGone (s : State) (st : Nat) : State :=
  let s := modPwr s fun p => { p with lostStacks := st :: p.lostStacks }
  let hit (m : Master) : Bool := Config.masterStack m.plan m.target m.version % 48 = st
  let s := (s.store.masters.filter hit).foldl (fun s m => startFetch (putMaster s { m with bad := true, tries := 0 }) (m.plan, m.target, m.version) m.tenant) s
  if journaled s then s
  else
    let lost := (s.strm.slots.filter fun e => e.2.state ≠ .closed && !e.2.lost && Config.logStack (handleOf e.1 e.2.gen) % 48 = st).map (·.1)
    let s := lost.foldl loseStream s
    let hit := (s.strm.slots.filter fun e =>
      e.2.state ≠ .closed && !e.2.lost && e.2.pages.any fun p => !(pageOf s p).hall && Config.pageStack p % 48 = st).map (·.1)
    hit.foldl rebuild s

/-- R376: an HBM stack fails; reported once. -/
def execStackLost (st : Nat) (s : State) : Host.Outcome State Fault Refusal :=
  .next (if 48 ≤ st ∨ s.pwr.lostStacks.contains st then s
    else stackGone (raiseSource (raiseEngine s .alarm evStackLost st 0) (96 + st)) st)

/-- R53: a rim domain is lost, with its 12 stacks, 16 ports, 16 samplers and 6 pagers (R47); the north one takes the PCIe controller along. The engine
hands over. -/
def execRimLost (seg : Nat) (s : State) : Host.Outcome State Fault Refusal :=
  .next (if 4 ≤ seg ∨ s.pwr.lostRims.contains seg then s
    else
      let s := raiseSource (raiseEngine s .alarm evRimLost (48 + seg) 0) (80 + seg)
      let s := modPwr s fun p => { p with
        lostRims := seg :: p.lostRims
        lostSamplers := (List.range 16).map (16 * seg + ·) ++ p.lostSamplers
        lostPagers := (List.range 6).map (6 * seg + ·) ++ p.lostPagers
        rims := p.rims.filter (· ≠ seg) }
      let s := handover s
      let hbm := ((List.range 12).map (12 * seg + ·)).filter fun st => !s.pwr.lostStacks.contains st
      let s := hbm.foldl stackGone s
      let s := ((List.range 16).map (16 * seg + ·)).foldl (fun s p => portLost (if rdB s F.NET_PORT_UP p then wr s F.NET_PORT_UP p 0 else s) p) s
      let s := noteTwinPorts s
      if seg = 0 then ([0, 1].filter (portExists s)).foldl portDown s else s)

end Sys2Proof.Machine
end

