-- ==== Sys2Proof/Machine/Commit.lean ====
section
/-! DEFINITION. What the writes that a COMMIT captured do at their boundary (R20, R183 step 3): the checks that keep a value from applying, the
validity of the descriptor tree (R257), and what a new value starts. -/

namespace Sys2Proof.Machine

/-! ## The descriptor tree (R257) -/

/-- Two leaves share a core. -/
def leavesMeet (s : State) (a b : Nat) : Bool :=
  let x (d : Nat) := (rd s F.REG_DESC1_X0 d, rd s F.REG_DESC1_W d)
  let y (d : Nat) := (rd s F.REG_DESC1_Y0 d, rd s F.REG_DESC1_H d)
  overlaps (x a).1 (x a).2 (x b).1 (x b).2 && overlaps (y a).1 (y a).2 (y b).1 (y b).2

/-- A leaf holds a core of field f. -/
def leafMeetsField (s : State) (d f : Nat) : Bool :=
  overlaps (rd s F.REG_DESC1_X0 d) (rd s F.REG_DESC1_W d) (19 * (f % 8)) 19 && overlaps (rd s F.REG_DESC1_Y0 d) (rd s F.REG_DESC1_H d) (16 * (f / 8)) 16

/-- One descriptor other than the root is a LEAF or a GROUP (R256) and meets conditions 1, 2, 3, 5 and 6 of R257. -/
def descValid (s : State) (d : Nat) : Bool :=
  beneath s d 0 && descKind s (parentOf s d) = 2 &&
    (if descKind s d = 1 then
       0 < rd s F.REG_DESC1_W d && 0 < rd s F.REG_DESC1_H d && rd s F.REG_DESC1_X0 d + rd s F.REG_DESC1_W d ≤ 152 &&
         rd s F.REG_DESC1_Y0 d + rd s F.REG_DESC1_H d ≤ 96 && (List.range 48).all fun f => !(fieldLost s f && leafMeetsField s d f)
     else descKind s d = 2 && rd s F.REG_DESC1_W d = 0 && rd s F.REG_DESC1_H d = 0 && rd s F.REG_DESC1_X0 d = 0 && rd s F.REG_DESC1_Y0 d = 0)

/-- No leaf of the list shares a core with a later one (condition 4). -/
def leavesApart (s : State) : List Nat → Bool
  | [] => true
  | d :: l => l.all (fun e => !leavesMeet s d e) && leavesApart s l

/-- The descriptor tree is valid (R257). -/
def treeValid (s : State) : Bool :=
  let ds := (allDescs s).filter (· ≠ 0)
  ds.all (descValid s) && leavesApart s (ds.filter fun d => descKind s d = 1)

/-- A released LOST region whose rectangles a change of descriptor d rewrites is DEFINED again (R285): d itself, or a GROUP above it. -/
def regain (d : Nat) (s : State) (r : Nat) : State :=
  if regionState s r = rsLost ∧ (unitOf s r).released ∧ beneath s d r then
    modUnit (setRegionState s r rsDefined) r fun u => { u with released := false }
  else s

/-- A descriptor that a commit changed: freed, or described and DEFINED (R267, R285). -/
def defineDesc (s : State) (d : Nat) : State :=
  if descKind s d = 0 then
    let s := { s with units := tdel s.units d }
    wrAll s d [(F.REG_UNIT_STATUS_STATE, rsFree), (F.REG_UNIT_STATUS_HEAD, 0), (F.REG_UNIT_STATUS_TENANT, 0)]
  else
    let s := (allDescs s).foldl (regain d) s
    let s := if regionState s d = rsFree then setRegionState s d rsDefined else s
    wrAll s d [(F.REG_UNIT_STATUS_HEAD, d), (F.REG_UNIT_STATUS_TENANT, regionTenant s d)]

/-- DESC_USED counts the descriptors that are not FREE. -/
def countDescs (s : State) : State := wr s F.REG_STATUS_DESC_USED 0 (allDescs s).length

/-- The descriptors whose registers differ between two states, among those that a list of words names. -/
def changedDescs (s t : State) (l : List (Reg × Nat × Word)) : List Nat :=
  (l.filterMap fun e => if (isReg e.1 F.REG_DESC0_KIND || isReg e.1 F.REG_DESC1_W) &&
      (regWord s F.REG_DESC0_KIND e.2.1 ≠ regWord t F.REG_DESC0_KIND e.2.1 || regWord s F.REG_DESC1_W e.2.1 ≠ regWord t F.REG_DESC1_W e.2.1)
    then some e.2.1 else none).eraseDups

/-! ## Values that are not applied -/

/-- The status with which one field of a captured word is not applied. -/
def fieldBad (s : State) (g : Reg) (i : Nat) (w : Word) (f : Field) : Option Nat :=
  let v (x : Field) : Nat := getF x w
  let bad (b : Bool) : Option Nat := if b then some stInternal else none
  match forceLink s f i with
  | some link => bad (forceBad s link (v f))
  | none =>
    if f = F.TICK_CTL_K then bad (v f < 12 || 16 < v f)
    else if isReg g F.CORE_SPAD_WIN_LEN then
      bad (131072 < v F.CORE_SPAD_WIN_BASE + v F.CORE_SPAD_WIN_LEN ||
        runsMeet (v F.CORE_SPAD_WIN_BASE) (v F.CORE_SPAD_WIN_LEN) (rd s F.NET_ING_RING_BASE i) (rd s F.NET_ING_RING_LEN i))
    else if isReg g F.NET_RP_LEN then bad (rpBad (v F.NET_RP_BASE) (v F.NET_RP_LEN))
    else if isReg g F.NET_ING_RING_LEN then bad (ringBad s i (v F.NET_ING_RING_BASE) (v F.NET_ING_RING_LEN))
    else if isReg g F.NET_EGR_RING_LEN then bad (ringBad s i (v F.NET_EGR_RING_BASE) (v F.NET_EGR_RING_LEN))
    else if isReg g F.STRM_QP_CFG_EN then
      bad (v F.STRM_QP_CFG_EMIT_LOG2 < 8 || 20 < v F.STRM_QP_CFG_EMIT_LOG2 || v F.STRM_QP_CFG_LEDGER_LOG2 < 6 ||
        16 < v F.STRM_QP_CFG_LEDGER_LOG2 || (v F.STRM_QP_CFG_PORT = 1 && !s.bifurcated))
    else if f = F.STRM_PAGER_CTL_MODE ∨ f = F.STRM_PAGE_PIN_PIN ∨ f = F.THM_CTL_LEAK_ACT then bad (v f = 3)
    else if isReg g F.STRM_PAGER_THR_CELLAR_LOW then
      bad (v F.STRM_PAGER_THR_CELLAR_HIGH ≤ v F.STRM_PAGER_THR_CELLAR_LOW || 100 < v F.STRM_PAGER_THR_CELLAR_HIGH || 100 < v F.STRM_PAGER_THR_CELLAR_LOW)
    else if isReg g F.NET_POOL_A_NODE then bad (v F.NET_POOL_A_OFFSET % 2 ^ 21 ≠ 0)
    else if isReg g F.NET_POOL_B_EN then bad (v F.NET_POOL_B_LEN % 2 ^ 21 ≠ 0)
    else if f = F.NET_FAB_CTL_NODE then
      (if v f ≠ rd s f 0 ∧ ¬ (twState s = twUnpaired ∧ s.fab.msgs = []) then some stFrozen else none)
    else if f = F.NET_PORT_MODE then bad (v f ≠ portMode s i && (v f = pmTwin || portMode s i = pmTwin))
    else if f = F.PWR_HIB_REQ then
      let was := rd s f 0
      let fresh := (List.range 48).filter fun k => (v f).testBit k && !was.testBit k
      let woken := (List.range 48).filter fun k => !(v f).testBit k && was.testBit k
      (if fresh.all (mayHibernate s) && (woken = [] || mayWake s) then none else some stFrozen)
    else if isReg g F.PWR_THR_DROOP_WARN then bad (v F.PWR_THR_DROOP_CRIT ≤ v F.PWR_THR_DROOP_WARN)
    else if f = F.THM_CTL_CTRL then bad (1 < v f)
    else if isReg g F.THM_THR_FLOW_STOP then
      bad (v F.THM_THR_FLOW_SHED ≤ v F.THM_THR_FLOW_STOP || v F.THM_THR_FLOW_WARN ≤ v F.THM_THR_FLOW_SHED)
    else if isReg g F.THM_CURVE_TJ_T0 then
      bad (v F.THM_CURVE_TJ_T1 ≤ v F.THM_CURVE_TJ_T0 || v F.THM_CURVE_HBM_T1 ≤ v F.THM_CURVE_HBM_T0 ||
        rd s F.THM_THR_TJ_LIMIT 0 < v F.THM_CURVE_TJ_T1 || rd s F.THM_THR_THBM_LIMIT 0 < v F.THM_CURVE_HBM_T1)
    else none

/-- A pulse channel with SCALE below 300 is applied, and reported (R444, R461). -/
def reported (g : Reg) (i : Nat) (w : Word) : Option Nat :=
  if isReg g F.CHAN_CFG_EN ∧ (i = 6 ∨ i = 7) ∧ getF F.CHAN_CFG_MODE w = 0 ∧ getF F.CHAN_CFG_SCALE w < 300 then some stInternal else none

/-! ## What a new value starts -/

/-- One field of a captured word applies. FR is judged when a field is written (R21); a value that was staged while its region was stopped and is captured
after the region runs applies all the same: DESIGN CHOICE (assumption 95). -/
def applyField (i : Nat) (w : Word) (s : State) (f : Field) : State :=
  if ¬ f.cs then s
  else
    let old := rd s f i
    let x := getF f w
    if f = F.NET_PORT_MODE then setPortMode s i x
    else
      let s := wr s f i x
      match forceLink s f i with
      | some link => forceLane s i link old x
      | none =>
        if f = F.STRM_QP_CFG_EN then (if old = x then s else if x = 1 then bindQp s i else unbindQp s i)
        else if f = F.TWIN_CTL_PAIR_EN then (if old = x then s else if x = 1 then startOffering s else stopPairing s)
        else if f = F.TWIN_CTL_PORTS then (if old = x then s else setTwinPorts s)
        else if f = F.NET_ING_RING_LEN then wr s F.NET_RING_POS_ING i 0
        else if f = F.NET_EGR_RING_LEN then wr s F.NET_RING_POS_EGR i 0
        else if f = F.NET_FAB_CTL_NODE then (if old = x then s else
          wrAll s 0 [(F.NET_FAB_STATUS_ID_CONFLICT, 0), (F.NET_FAB_STATUS_PROVISIONAL, bit (x = 0))])
        else if f = F.NET_FAB_GW_GATEWAY ∨ f = F.NET_FAB_PREFIX_PREFIX then (if old = x then s else gatewayChange s)
        else if f = F.NET_POOL_A_NODE ∨ f = F.NET_POOL_B_EN then modFab s fun b => { b with shut := b.shut.filter (· ≠ i) }
        else if f = F.PWR_HIB_REQ then
          let s := ((List.range 48).filter fun k => x.testBit k && !old.testBit k).foldl hibernateField s
          ((List.range 48).filter fun k => !x.testBit k && old.testBit k).foldl wakeField s
        else s

/-! ## Applying a block -/

/-- The captured words of a block; those of a per-core block belong to one core. -/
def capturedOf (s : State) (b : Block) (i : Nat) : List (Reg × Nat × Word) :=
  s.captured.filterMap fun e => (regAt e.1).bind fun g =>
    if g.1.blk = b ∧ (¬ perCore b ∨ g.2 = i) then some (g.1, g.2, e.2) else none

/-- The status that keeps a captured set from applying, if any (R20, assumption 48): that of the first value that a rule refuses. -/
def setRefused (s : State) (l : List (Reg × Nat × Word)) : Option Nat :=
  l.findSome? fun e => (e.1.fields.filter (·.cs)).findSome? (fieldBad s e.1 e.2.1 e.2.2)

/-- The status of a captured set that applies. -/
def setStatus (l : List (Reg × Nat × Word)) : Nat := (l.findSome? fun e => reported e.1 e.2.1 e.2.2).getD stOk

/-- The words of a list are written. -/
def applyWords (s : State) (l : List (Reg × Nat × Word)) : State :=
  l.foldl (fun s e => e.1.fields.foldl (applyField e.2.1 e.2.2) s) s

/-- A page pin whose handle is stale is cleared by a commit of its block (R255). -/
def clearStalePins (s : State) : State :=
  (s.regs.filterMap fun e => match regAt e.1 with
    | some (g, i) => if isReg g F.STRM_PAGE_PIN_PIN ∧ getF F.STRM_PAGE_PIN_PIN e.2 ≠ 0 then some i else none
    | none => none).foldl (fun s i =>
      let h := rd s F.STRM_PAGE_PIN_HANDLE i
      if (streamAt s (slotOf h)).gen = genOf h ∧ (streamAt s (slotOf h)).state ≠ .closed then s else wr s F.STRM_PAGE_PIN_PIN i 0) s

/-- The captured set of the region block (R257, R286): applied whole, or not at all where it changes the descriptor table wrongly. -/
def applyRegions (s : State) (l : List (Reg × Nat × Word)) : State :=
  let note (s : State) (st : Nat) : State := wrAll s 0 [(F.REG_COMMIT_COMMIT_STATUS, st), (F.REG_STATUS_COMMIT_STATUS, st)]
  let t := applyWords s l
  let ds := changedDescs s t l
  if ds.any (cmdBusy s) then note s stFrozen
  else if ds ≠ [] ∧ treeValid t = false then note s stInternal
  else note (countDescs (ds.foldl defineDesc t)) (setStatus l)

/-- The captured set of one block applies as a whole or not at all, and COMMIT_STATUS takes its status (R20, R23). -/
def applyBlock (b : Block) (s : State) (i : Nat) : State :=
  match capturedOf s b i with
  | [] => s
  | l =>
    if b = .reg then applyRegions s l
    else
      let note (s : State) (st : Nat) : State := match statusFields b with | some (c, _) => wr s c i st | none => s
      match setRefused s l with
      | some st => note s st
      | none => note (if b = .pager then holdPinned (clearStalePins (applyWords s l)) else applyWords s l) (setStatus l)

/-- The cores whose blocks a captured word names. -/
def capturedCores (s : State) : List Nat :=
  (s.captured.filterMap fun e => (regAt e.1).bind fun g => if perCore g.1.blk then some g.2 else none).eraseDups

/-- Captured writes apply in every block (R183 step 3). A staged word that was captured and has not changed since is staged no longer. -/
def applyCommits (s : State) : State :=
  let cores := capturedCores s
  let s := [Block.tick, .reg, .cask, .strm, .pager, .twin, .pwr, .thm, .chan, .fab].foldl (fun s b => applyBlock b s 0) s
  let s := cores.foldl (applyBlock .core) s
  let s := cores.foldl (applyBlock .net) s
  { s with shadow := s.shadow.filter (fun e => !s.captured.contains e), captured := [] }

end Sys2Proof.Machine
end

