-- ==== Sys2Proof/Machine/Scalar.lean ====
section
/-! DEFINITION. The scalar instructions of the control/scalar slot (R125, R126). -/

namespace Sys2Proof.Machine

/-- Sequential issue from the current bundle would run past address 4,095; the control/scalar slot then acts as NOP (R120). -/
def runsPast (q : Seq) : Bool := 4096 ≤ (seqNext q).pc

/-- A control/scalar instruction issues, unless its bundle runs past address 4,095 (R120): the fault is recorded at the end of the
cycle. -/
def issueCtl (s : State) (c : Nat) (x : Iss) (k : State → State) : State :=
  if canIssue s c (coreOf s c) && runsPast (coreOf s c).seq then modCore s c fun co => { co with bundle := co.bundle ++ [(.ctl, [])] }
  else issueThen s c .ctl x k

/-- An instruction that writes one scalar register. -/
def issS (ok : Bool) (reads : List Nat) (rd lat : Nat) (x : Word) : Iss :=
  ⟨!ok, reads.map .s, [(.s rd, lat)], [(lat - 1, .setS rd x)], [], none⟩

/-- A three-register scalar operation of latency lat. -/
def scalarOp (c : Nat) (f : FmtA) (lat : Nat) (ok : Bool) (op : Word → Word → Word) (s : State) : State :=
  let r := (coreOf s c).regs
  issueCtl s c (issS (ok && f.rsv = 0) [f.ra.toNat, f.rb.toNat] f.rd.toNat lat (op (rdS r f.ra.toNat) (rdS r f.rb.toNat))) id

/-- R125: 64-bit addition, wrapping (R126). -/
def execAdd (c : Nat) (f : FmtA) (s : State) : Host.Outcome State Fault Refusal := onCore c s (scalarOp c f 1 true (· + ·))

/-- R125: 64-bit subtraction. -/
def execSub (c : Nat) (f : FmtA) (s : State) : Host.Outcome State Fault Refusal := onCore c s (scalarOp c f 1 true (· - ·))

/-- R125: the low 64 bits of the product; latency 3. -/
def execMul (c : Nat) (f : FmtA) (s : State) : Host.Outcome State Fault Refusal := onCore c s (scalarOp c f 3 true (· * ·))

/-- R125: bitwise AND. -/
def execAnd (c : Nat) (f : FmtA) (s : State) : Host.Outcome State Fault Refusal := onCore c s (scalarOp c f 1 true (· &&& ·))

/-- R125: bitwise OR. -/
def execOr (c : Nat) (f : FmtA) (s : State) : Host.Outcome State Fault Refusal := onCore c s (scalarOp c f 1 true (· ||| ·))

/-- R125: bitwise exclusive OR. -/
def execXor (c : Nat) (f : FmtA) (s : State) : Host.Outcome State Fault Refusal := onCore c s (scalarOp c f 1 true (· ^^^ ·))

/-- The shift chosen by fn, by the low six bits of b (R125). -/
def shiftBy (fn : Nat) (a b : Word) : Word :=
  let n := b.toNat % 64
  match fn with
  | 0 => a <<< n
  | 1 => a >>> n
  | _ => a.sshiftRight n

/-- R125: SHL, SHR or SAR; fn 3–7 are not accepted. -/
def execShift (c : Nat) (f : FmtA) (s : State) : Host.Outcome State Fault Refusal :=
  onCore c s (scalarOp c f 1 (f.fn.toNat < 3) (shiftBy f.fn.toNat))

/-- R125: 1 where the relation holds, else 0; fn 6–7 are not accepted. -/
def execCmp (c : Nat) (f : FmtA) (s : State) : Host.Outcome State Fault Refusal :=
  onCore c s (scalarOp c f 1 (f.fn.toNat < 6) fun a b => if cmpHolds f.fn.toNat a b then 1 else 0)

/-- R125: s[ra] plus a sign-extended 32-bit immediate. -/
def execAddi (c : Nat) (f : FmtI) (s : State) : Host.Outcome State Fault Refusal :=
  onCore c s fun s =>
    issueCtl s c (issS (f.rsv = 0) [f.ra.toNat] f.rd.toNat 1 (rdS (coreOf s c).regs f.ra.toNat + f.imm.signExtend 64)) id

/-- R125: a sign-extended 48-bit immediate, shifted left by 16 with H. -/
def execLi (c : Nat) (f : FmtW) (s : State) : Host.Outcome State Fault Refusal :=
  onCore c s fun s => issueCtl s c (issS (f.rsv = 0) [] f.rd.toNat 1 (f.imm.signExtend 64 <<< (16 * f.h.toNat))) id

/-- R125, R126: one 64-bit lane between a vector and a scalar register. The table gives fn 0 and fn 1 only; any other fn is refused as
EV_ILLEGAL_BUNDLE: DESIGN CHOICE (assumption 16). -/
def execLane (c : Nat) (f : FmtV) (s : State) : Host.Outcome State Fault Refusal :=
  onCore c s fun s =>
    let r := (coreOf s c).regs
    let rs := f.rs.toNat
    let vm := f.vm.toNat
    let v := rdV r vm
    let x : Iss :=
      if f.fn = 0 then ⟨f.rsv ≠ 0, [.v vm], [(.s rs, 2)], [(1, .setS rs (BitVec.ofNat 64 (laneOf 64 v f.lane.toNat)))], [], none⟩
      else ⟨f.rsv ≠ 0 || f.fn ≠ 1, [.s rs], [(.v vm, 2)],
        [mergeLanes 1 vm 64 fun i => if i = f.lane.toNat then some (rdS r rs).toNat else none], [], none⟩
    issueCtl s c x id

/-- R125: a move between a mask register and a scalar register; vm must be 0–7. The lane field, which the operation does not use, is ignored, and an fn
other than 0 and 1 is refused as EV_ILLEGAL_BUNDLE: DESIGN CHOICES (assumption 16). -/
def execMovr (c : Nat) (f : FmtV) (s : State) : Host.Outcome State Fault Refusal :=
  onCore c s fun s =>
    let r := (coreOf s c).regs
    let rs := f.rs.toNat
    let vm := f.vm.toNat
    let ok := f.rsv = 0 && vm < 8
    let x : Iss :=
      if f.fn = 0 then ⟨!ok, [.m vm], [(.s rs, 1)], [(0, .setS rs (rdM r vm))], [], none⟩
      else ⟨!(ok && f.fn = 1), [.s rs], [(.m vm, 1)], [(0, .setM vm (rdS r rs))], [], none⟩
    issueCtl s c x id

end Sys2Proof.Machine
end

