-- ==== Sys2Proof/Machine/Control.lean ====
section
/-! DEFINITION. NOP, sequencing, status and mailbox instructions of the control/scalar slot (R119, R127–R140). -/

namespace Sys2Proof.Machine

/-- R119: opcode 0 of any slot does nothing; its other bits are reserved. -/
def execNop (c : Nat) (sl : Slot) (rsv : BitVec 58) (s : State) : Host.Outcome State Fault Refusal :=
  onCore c s fun s => if sl = .ctl then issueCtl s c (issCheck (rsv = 0) issNone) id else issueSlot s c sl (issCheck (rsv = 0) issNone)

/-- The bundle stands in a delay slot (R120). -/
def inDelay (q : Seq) : Bool := 0 < q.delay

/-- The bundle is one of the last two of an open loop's body (R120). -/
def nearLoopEnd (q : Seq) : Bool := q.loops.any fun l => l.start ≤ q.pc && q.pc ≤ l.fin && l.fin ≤ q.pc + 1

/-- The reserved fields of format J are 0, and its condition is one that is accepted (R127). The fields that an instruction does not use are not
checked: DESIGN CHOICE (assumption 16). -/
def jClean (f : FmtJ) : Bool := f.rsv1 = 0 && f.rsv2 = 0 && f.cond ≠ 7

/-- A sequencing instruction: accepted where ok, where its bundle stands in no delay slot, and, for those of rule 3 of R120, not near a
loop's end. It reads s[ra] where reads is set. -/
def issSeq (s : State) (c : Nat) (f : FmtJ) (ok rule3 reads : Bool) : Iss :=
  let q := (coreOf s c).seq
  ⟨!(ok && jClean f && !inDelay q && !(rule3 && nearLoopEnd q)), if reads then [.s f.ra.toNat] else [], [], [], [], none⟩

/-- The sequencer of core c changed. -/
def modSeq (s : State) (c : Nat) (f : Seq → Seq) : State := modCore s c fun co => { co with seq := f co.seq }

/-- A branch is in force from the next bundle on (R128). -/
def branchTo (target : Nat) (pops : Bool) (q : Seq) : Seq := { q with delay := 3, target := some target, pops := pops }

/-- EV_SEQ_STACK: the sequencer issues nothing more in the tick (R145). -/
def seqStackFault (s : State) (c : Nat) : State :=
  bundleFault (modSeq s c fun q => { q with halted := true }) c evSeqStack 0

/-- R128: a conditional branch; the two delay bundles issue whether or not it is taken. -/
def execBr (c : Nat) (f : FmtJ) (s : State) : Host.Outcome State Fault Refusal :=
  onCore c s fun s =>
    let x := rdS (coreOf s c).regs f.ra.toNat
    issueCtl s c (issSeq s c f true true (f.cond ≠ 0)) fun s =>
      modSeq s c fun q =>
        if condHolds f.cond.toNat x then branchTo f.target.toNat true q else { q with delay := 3, target := none }

/-- R128: pushes pc + 3 and branches; a fifth entry faults. -/
def execCall (c : Nat) (f : FmtJ) (s : State) : Host.Outcome State Fault Refusal :=
  onCore c s fun s =>
    issueCtl s c (issSeq s c f (f.cond = 0) true false) fun s =>
      if 4 ≤ (coreOf s c).seq.calls.length then seqStackFault s c
      else modSeq s c fun q => branchTo f.target.toNat false { q with calls := (q.pc + 3) :: q.calls }

/-- R128: pops an address and branches; an empty stack faults, and a popped address above 4,095 acts as issue past the last address. -/
def execRet (c : Nat) (f : FmtJ) (s : State) : Host.Outcome State Fault Refusal :=
  onCore c s fun s =>
    issueCtl s c (issSeq s c f (f.cond = 0 && f.ra = 0 && f.imm = 0 && f.target = 0) true false) fun s =>
      match (coreOf s c).seq.calls with
      | [] => seqStackFault s c
      | a :: rest =>
        if 4096 ≤ a then bundleFault (modSeq s c fun q => { q with halted := true }) c evIllegalBundle 0
        else modSeq s c fun q => branchTo a false { q with calls := rest }

/-- The count of a LOOP (R129). -/
def loopCount (x : Word) (imm : Nat) : Nat := x.toNat % 2 ^ 32 + imm

/-- R129: opens a counted loop; a count of 0 leaves two empty cycles and goes past the target. -/
def execLoop (c : Nat) (f : FmtJ) (s : State) : Host.Outcome State Fault Refusal :=
  onCore c s fun s =>
    let n := loopCount (rdS (coreOf s c).regs f.ra.toNat) f.imm.toNat
    let tg := f.target.toNat
    issueCtl s c (issSeq s c f true true true) fun s =>
      let q := (coreOf s c).seq
      let enclosed : Bool := match q.loops with | l :: _ => l.fin ≤ tg | [] => false
      if 4 ≤ q.loops.length ∨ tg ≤ q.pc ∨ enclosed then seqStackFault s c
      else if n = 0 then modSeq s c fun q => { q with idle := 2, jump := some (tg + 1) }
      else modSeq s c fun q => { q with loops := ⟨q.pc + 1, tg, n⟩ :: q.loops }

/-- R131: ends the core's work for the tick and sets DONE; open loops or calls fault, and the core still waits. Issue does
not run on past it, so it may stand at address 4,095 (R120). -/
def execTwait (c : Nat) (f : FmtJ) (s : State) : Host.Outcome State Fault Refusal :=
  onCore c s fun s =>
    issueThen s c .ctl (issSeq s c f true false false) fun s =>
      let q := (coreOf s c).seq
      let s := modCore s c fun co => { co with done := true, seq := { co.seq with waiting := true, resume := f.target.toNat } }
      if q.loops ≠ [] ∨ q.calls ≠ [] then bundleFault s c evSeqStack 0 else s

/-- R132: imm16 empty cycles after this bundle. -/
def execIdle (c : Nat) (f : FmtJ) (s : State) : Host.Outcome State Fault Refusal :=
  onCore c s fun s =>
    issueCtl s c (issCheck (jClean f) issNone) fun s => modSeq s c fun q => { q with idle := f.imm.toNat }

/-- R135: the tag of the next heartbeat. -/
def execBeat (c : Nat) (f : FmtJ) (s : State) : Host.Outcome State Fault Refusal :=
  onCore c s fun s =>
    issueCtl s c (issCheck (jClean f) issNone) fun s => modCore s c fun co => { co with beat := f.imm.setWidth 8 }

/-- R136: with a true condition, EV_TRAP. -/
def execTrap (c : Nat) (f : FmtJ) (s : State) : Host.Outcome State Fault Refusal :=
  onCore c s fun s =>
    let x := rdS (coreOf s c).regs f.ra.toNat
    issueCtl s c ⟨!(jClean f), if f.cond ≠ 0 then [.s f.ra.toNat] else [], [], [], [], none⟩ fun s =>
      if condHolds f.cond.toNat x then bundleFault s c evTrap 0 else s

/-- A status item (R134). -/
def statItem (s : State) (c fn : Nat) : Word :=
  BitVec.ofNat 64 (match fn with
    | 0 => c
    | 1 => coreX c + 65536 * coreY c
    | 2 => s.clk.cyc
    | 3 => tickK s
    | _ => (coreOf s c).inbox.length)

/-- R134: s[rd] takes status item fn; selectors 5–7 are not accepted. -/
def execStat (c : Nat) (f : FmtA) (s : State) : Host.Outcome State Fault Refusal :=
  onCore c s fun s => issueCtl s c (issS (f.rsv = 0 && f.fn.toNat < 5) [] f.rd.toNat 1 (statItem s c f.fn.toNat)) id

/-- The destination of an MSEND: a core of the same region, or the region's unit mailbox (R137, R211). -/
def msendDest (s : State) (c : Nat) (d : Word) : Option Nat :=
  let r := rd s F.CORE_STATUS_REGION c
  if d = 0x3FFF then some (0x7000 + r)
  else if d.toNat < nCores ∧ rd s F.CORE_STATUS_REGION d.toNat = r then some d.toNat
  else none

/-- R137, R140: sends s[rb] to the mailbox of core s[ra]; one in any eight cycles, none in the last 1,024 cycles. -/
def execMsend (c : Nat) (f : FmtA) (s : State) : Host.Outcome State Fault Refusal :=
  onCore c s fun s =>
    let co := coreOf s c
    let t := s.clk.cyc
    let tooSoon := match co.lastMsend with | some l => t < l + 8 | none => false
    let tooLate := schedCycles s - 1024 < t
    let word := rdS co.regs f.rb.toNat
    let dest := msendDest s c (rdS co.regs f.ra.toNat)
    let x : Iss := ⟨f.rsv ≠ 0, [.s f.ra.toNat, .s f.rb.toNat], [],
      (match dest with | some d => [(0, .mail d word)] | none => [(0, .fault evMboxFault 0)]), [],
      if tooSoon || tooLate then some (evHazard, 0) else none⟩
    issueCtl s c x fun s => modCore s c fun co => { co with lastMsend := some t }

/-- R139: pops the oldest inbox word and its sender; rd must be even, 2–30. -/
def execMrecv (c : Nat) (f : FmtA) (s : State) : Host.Outcome State Fault Refusal :=
  onCore c s fun s =>
    let rd := f.rd.toNat
    let ok := f.rsv = 0 && rd % 2 = 0 && 2 ≤ rd
    let (w, snd, pop) := match (coreOf s c).inbox with
      | m :: _ => (m.word, BitVec.ofNat 64 m.sender, [(0, Eff.popInbox)])
      | [] => (0, BitVec.allOnes 64, [])
    issueCtl s c ⟨!ok, [], [(.s rd, 1), (.s (rd + 1), 1)], [(0, .setS rd w), (0, .setS (rd + 1) snd)] ++ pop, [], none⟩ id

end Sys2Proof.Machine
end

