-- ==== Sys2Proof/Machine/CtlCycle.lean ====
section
/-! DEFINITION. One cycle of the control network's routers (R209, R210, R217): dimension-ordered routes, priorities and round robin, buffers of eight
flits with credits, parity with repeats, and packets that reach their destination. -/

namespace Sys2Proof.Machine

/-- Room of an input buffer (R209). -/
def ctlRoom : Nat := 8

/-- The output that a packet at router c takes towards an address: east or west first, then north or south, and 4 at its router (R209). A packet to a
lantern stays in its field and one to a Keep port in its field column, so both follow the same rule. -/
def routeOut (c dest : Nat) : Nat :=
  let d := addressRouter c dest
  if coreX c < coreX d then 1 else if coreX d < coreX c then 3
  else if coreY c < coreY d then 2 else if coreY d < coreY c then 0 else 4

/-- The address that the first flit of a packet names: HB_SHORT goes to the lantern of its core's field (R212). -/
def flitDest (f : CtlFlit) : Nat :=
  match f.kind with
  | .single => 0x4000 + fieldOf ((f.word.toNat >>> 14) % 16384)
  | _ => f.word.toNat % 65536

/-- Flits of a buffer; the newest that came in this cycle do not count as held yet. -/
def ctlBuf (r : CtlRouter) (inp pri : Nat) : List CtlFlit := tget r.bufs (4 * inp + pri) []

/-- The neighbour's buffer has a credit left for a flit from output o of router c (R209); a dead link has none. -/
def hasCredit (s : State) (c o pri : Nat) : Bool :=
  if o = 4 then true
  else match neighbour c o with
    | none => false
    | some d =>
      let r := ctlAt s d
      !s.net.deadLinks.contains (linkOf s c o) &&
        (ctlBuf r (backPort o) pri).length + (r.arrived.countP fun a => a.1 = backPort o && a.2.pri = pri) < ctlRoom

/-- The inputs in the order in which an output serves them after the one it served last (R210). -/
def turnOrder (last : Nat) : List Nat := (List.range 5).map fun k => (last + 1 + k) % 5

/-- The input that output o of router c serves at a priority: the one whose packet has the output, else the next with a packet for it (R210). -/
def pickInput (r : CtlRouter) (c o pri : Nat) : Option Nat :=
  match tget? r.owner (4 * o + pri) with
  | some i => if ctlBuf r i pri = [] then none else some i
  | none => (turnOrder (tget r.turn (4 * o + pri) 4)).find? fun i =>
      match ctlBuf r i pri with
      | f :: _ => (f.kind = .head || f.kind = .single) && routeOut c (flitDest f) = o
      | [] => false

/-- The flit that output o sends now: of the highest priority that has one ready and a credit (R210). -/
def pickFlit (s : State) (r : CtlRouter) (c o : Nat) : Option (Nat × CtlFlit) :=
  [3, 2, 1, 0].findSome? fun pri =>
    if hasCredit s c o pri then (pickInput r c o pri).bind fun i => (ctlBuf r i pri).head?.map fun f => (i, f) else none

/-- The flit at the front of input i leaves by output o: from HEAD to TAIL the packet keeps the output (R210), and the output keeps its last 16 flits
(R217). -/
def takeFlit (r : CtlRouter) (i o : Nat) (f : CtlFlit) : CtlRouter :=
  let k := 4 * o + f.pri
  let open' : Bool := f.kind = .head || f.kind = .body
  { r with
    bufs := tput r.bufs (4 * i + f.pri) ((ctlBuf r i f.pri).drop 1) []
    owner := if open' then tset r.owner k i else tdel r.owner k
    turn := tput r.turn k i 4
    kept := tset r.kept o ((f :: tget r.kept o []).take 16) }

/-- A flit crosses the link behind output o of router c with the bits of a mask flipped. A failed parity check discards it and asks for a repeat,
four cycles later; the eighth failure in a row kills the link (R204, R217, assumption 88). -/
def crossLink (s : State) (c o i : Nat) (f : CtlFlit) (fails : Nat) (mask : BitVec 36) : State :=
  let r := ctlAt s c
  let got := flipFlit f mask
  match neighbour c o with
  | none => s
  | some d =>
    if flitOk got then
      let s := setCtl s c { r with retry := tdel r.retry o }
      let q := ctlAt s d
      setCtl s d { q with arrived := q.arrived ++ [(backPort o, got)] }
    else if fails + 1 < 8 then setCtl s c { r with retry := tset r.retry o ⟨i, f, 3, fails + 1⟩ }
    else
      let s := setCtl s c { r with retry := tdel r.retry o }
      let l := linkOf s c o
      if s.net.deadLinks.contains l then s
      else raiseEngine { s with net := { s.net with deadLinks := l :: s.net.deadLinks } } .alarm evLinkDead c 0

/-- A flit is delivered to the blocks at router c; with its packet's last flit the packet has arrived. -/
def deliverFlit (s : State) (c : Nat) (f : CtlFlit) : State :=
  let r := ctlAt s c
  let fl := tget r.parts f.pri [] ++ [f]
  if f.kind = .tail ∨ f.kind = .single then
    let s := setCtl s c { r with parts := tdel r.parts f.pri }
    { s with net := { s.net with ctlIn := s.net.ctlIn ++ [wordsPacket (fl.map (·.word))] } }
  else setCtl s c { r with parts := tset r.parts f.pri fl }

/-- One output of router c in the current cycle: the repeat it owes, or one flit. Each repeat counts CTL_RETRY (R217). -/
def ctlOutput (c : Nat) (errs : List (Nat × BitVec 36)) (s : State) (o : Nat) : State :=
  let r := ctlAt s c
  let mask := tget errs o 0
  match tget? r.retry o with
  | some y =>
    if 0 < y.wait then setCtl s c { r with retry := tset r.retry o { y with wait := y.wait - 1 } }
    else crossLink (bump s F.NET_CNT_CTL_RETRY c 1) c o y.inp y.flit y.fails mask
  | none =>
    match pickFlit s r c o with
    | none => s
    | some (i, f) =>
      let s := setCtl s c (takeFlit r i o f)
      if o = 4 then deliverFlit s c f else crossLink s c o i f 0 mask

/-- The blocks at a router put in one flit, where the buffer of its priority has room. -/
def feedSource (r : CtlRouter) : CtlRouter :=
  match r.source with
  | f :: rest =>
    if (ctlBuf r 4 f.pri).length < ctlRoom then
      { r with source := rest, bufs := tset r.bufs (4 * 4 + f.pri) (ctlBuf r 4 f.pri ++ [f]) }
    else r
  | [] => r

/-- Control router c in the current cycle, once; a gated clock stops it (R44). -/
def ctlOnce (s : State) (c : Nat) (errs : List (Nat × BitVec 36)) : State :=
  let r := ctlAt s c
  if s.clk.gated ∨ r.done ∨ r = blankCtl then s
  else
    let s := setCtl s c (feedSource r)
    let s := (List.range 5).foldl (ctlOutput c errs) s
    setCtl s c { ctlAt s c with done := true }

/-- A router's cycle is over: what came in it is held. -/
def endCtl (r : CtlRouter) : CtlRouter :=
  { r with done := false, arrived := [],
           bufs := r.arrived.foldl (fun t a => tset t (4 * a.1 + a.2.pri) (tget t (4 * a.1 + a.2.pri) [] ++ [a.2])) r.bufs }

/-- The control network's cycle: every router that has not acted does (R187: in stretch cycles too), and what came is held. -/
def ctlCycle (s : State) : State :=
  let s := (s.net.ctl.map (·.1)).foldl (fun s c => ctlOnce s c []) s
  { s with net := { s.net with ctl := s.net.ctl.map fun e => (e.1, endCtl e.2) } }

/-! ## The commands of a tile's routers -/

/-- R194, R210: the routers of tile c forward the words and flits of the current cycle. -/
def execRouterForward (c : Nat) (i : RouterIn) (s : State) : Host.Outcome State Fault Refusal :=
  onCore c s fun s => ctlOnce (routerOnce s c i) c i.ctl

end Sys2Proof.Machine
end

