-- ==== Sys2Proof/Machine/Matrix.lean ====
section
/-! DEFINITION. The matrix slot (R153–R159). -/

namespace Sys2Proof.Machine

/-- A product holds the matrix unit in the current cycle (R156). -/
def matrixBusy (s : State) (c : Nat) : Bool :=
  (coreOf s c).ops.any fun o => isProduct o.kind && o.issue < s.clk.cyc

/-- The fault of a matrix-slot instruction issued while the unit is busy, else the one given. -/
def busyOr (s : State) (c : Nat) (f : Option (Nat × Nat)) : Option (Nat × Nat) := if matrixBusy s c then some (evHazard, 0) else f

/-- Accumulators of the rows set in a mask. -/
def rowAccs (mask : Nat) : List Nat := (List.range 128).filter fun n => mask.testBit (n / 16)

/-- The mask of rows 0 to n. -/
def rowsTo (n : Nat) : Nat := 2 ^ (n + 1) - 1

/-- What a product asks at issue (R150, R155–R158): stream bases, the limit of its accumulators' block counts, its destinations and, under
CLR, the drain group it opens. -/
def issProduct (s : State) (c : Nat) (ok : Bool) (sw sx : Nat) (kind : UnitKind) (u wLast xLast : Nat) : Iss :=
  let r := (coreOf s c).regs
  let blocks := prodNb kind + 1
  let lat := u * blocks + 5
  let clr := prodClr kind
  let adds := rowAccs (rowsTo (prodNr kind))
  let dests := if clr then List.range 128 else adds
  let w := rdS r sw
  let x := rdS r sx
  let tooMany := !clr && adds.any fun n => 2 ^ 27 < (rdAcc r n).cnt + blocks
  let fault := if ¬ (streamOk w wLast && streamOk x xLast) then some (evAddrRange, 0) else if tooMany then some (evLaRange, 0) else none
  ⟨!ok, [.s sw, .s sx] ++ (if clr then [] else adds.map .acc), dests.map fun n => (.acc n, lat),
    (if clr then [(0, .taste 255 none 0), (0, .opening)] else []) ++ [(lat - 1, .prodCounts)] ++ dests.map fun n => (lat - 1, .prod n),
    [⟨.mx, s.clk.cyc, (coreOf s c).seq.pc, lat, kind, w.toNat, x.toNat, []⟩], busyOr s c fault⟩

/-- R155: the exact 4-bit product into the tile. -/
def execMm4 (c : Nat) (f : FmtMM) (s : State) : Host.Outcome State Fault Refusal :=
  onCore c s fun s =>
    issueSlot s c .mx (issProduct s c (f.rsv = 0 && f.wf.toNat < 4) f.sw.toNat f.sx.toNat (.mm4 f) 1
      (wLast4 (fmt4 f.wf.toNat) f.nb.toNat) (xLast4 f.nb.toNat))

/-- R155: the eight-bit product, each element product rounded under R66; S = 0 reads every scale as 0x78 (R60). -/
def execMm8 (c : Nat) (f : FmtM8) (s : State) : Host.Outcome State Fault Refusal :=
  onCore c s fun s =>
    issueSlot s c .mx (issProduct s c (f.rsv = 0 && f.wf.toNat < 3 && f.xf.toNat < 3) f.sw.toNat f.sx.toNat (.mm8 f) 4
      (wLast8 (f.s = 1) f.nb.toNat) (xLast8 (f.s = 1) f.nb.toNat))

/-- R155: the BF16 product; wf, xf and S must be 0 (R153). -/
def execMmbf (c : Nat) (f : FmtM8) (s : State) : Host.Outcome State Fault Refusal :=
  onCore c s fun s =>
    issueSlot s c .mx (issProduct s c (f.rsv = 0 && f.wf = 0 && f.xf = 0 && f.s = 0) f.sw.toNat f.sx.toNat (.mmbf f) 16
      ((16 * (f.nb.toNat + 1) - 1) / 2) ((16 * (f.nb.toNat + 1) - 1) / 4))

/-- R158: clears the masked rows and their counts; a mask of all rows opens a drain group. -/
def execMclr (c : Nat) (f : FmtMC) (s : State) : Host.Outcome State Fault Refusal :=
  onCore c s fun s =>
    let rm := f.rm.toNat
    let accs := rowAccs rm
    issueSlot s c .mx ⟨f.rsv ≠ 0, [], accs.map fun n => (.acc n, 1),
      [(0, .taste rm none 0)] ++ (if rm = 255 then [(0, .opening)] else []) ++ accs.map fun n => (0, .setAcc n ⟨0, 0⟩), [],
      busyOr s c none⟩

/-- The target of a drain format code. -/
def drainFmt (n : Nat) : Option DrainFmt :=
  match n with
  | 0 => some .fp32 | 1 => some .bf16 | 2 => some .fp16 | 3 => some .e4m3 | 4 => some .e5m2 | 5 => some .int8
  | _ => none

/-- Rows drained and lane width of a drain target (R159). -/
def DrainFmt.rows : DrainFmt → Nat
  | .fp32 => 2
  | .bf16 => 4
  | .fp16 => 4
  | _ => 8
def DrainFmt.width : DrainFmt → Nat
  | .fp32 => 32
  | .bf16 => 16
  | .fp16 => 16
  | _ => 8

/-- R159: rounds rows of accumulators once, with the tensor scale and the correction, into a vector register. -/
def execMdrain (c : Nat) (f : FmtMD) (s : State) : Host.Outcome State Fault Refusal :=
  onCore c s fun s =>
    let r := (coreOf s c).regs
    let t := (drainFmt f.fmt.toNat).getD .fp32
    let m0 := f.m0.toNat
    let ok := f.rsv = 0 && (drainFmt f.fmt.toNat).isSome && m0 % t.rows = 0
    let tcode := (rdS r f.st.toNat).toNat % 2 ^ 32
    let tv := valOf fp32 tcode
    let accs := (List.range (16 * t.rows)).map (16 * m0 + ·)
    let out (n : Nat) : Nat × Bool :=
      drainRound t (drainExact (rdAcc r n).la tv (if f.y = 1 then valOf fp32 (rdCa r n).toNat else .fin false 0 0))
    let sats := accs.countP fun n => (out n).2
    let mask := ((List.range t.rows).map fun i => 2 ^ (m0 + i)).sum
    let satMask := ((List.range t.rows).filter fun i => (List.range 16).any fun n => (out (16 * (m0 + i) + n)).2).map fun i => 2 ^ (m0 + i)
    let fault := if ¬ tv.isFin then some (evNanOperand, 0)
      else if rdB s F.CORE_NUM_CTL_SAT_TRAP c && 0 < sats then some (evNumSat, 0) else none
    issueSlot s c .mx ⟨!ok, [.s f.st.toNat] ++ accs.map .acc ++ (if f.y = 1 then accs.map .ca else []),
      (.v f.vd.toNat, 4) :: (if f.z = 1 then accs.map fun n => (.acc n, 4) else []),
      [(0, .taste mask (if f.y = 1 then some tcode else none) satMask.sum),
       (3, .setV f.vd.toNat (packLanes t.width (accs.map fun n => (out n).1))), (3, .count .clamp sats)] ++
        (if f.z = 1 then accs.map fun n => (3, .setAcc n ⟨0, 0⟩) else []), [], busyOr s c fault⟩

/-- R154: eight accumulators in transfer form to a vector register, optionally cleared. -/
def execMget (c : Nat) (f : FmtMG) (s : State) : Host.Outcome State Fault Refusal :=
  onCore c s fun s =>
    let a := f.a.toNat
    let accs := (List.range 8).map (a + ·)
    let clr := f.f = 1
    issueSlot s c .mx ⟨!(f.rsv = 0 && a % 8 = 0), accs.map .acc,
      (.v f.r.toNat, 2) :: (if clr then accs.map fun n => (.acc n, 1) else []),
      [(0, .taste (2 ^ (a / 16)) none 0), (1, .setV f.r.toNat (accWord (coreOf s c).regs a))] ++
        (if clr then accs.map fun n => (0, .setAcc n ⟨0, 0⟩) else []), [], busyOr s c none⟩

/-- R154: writes or adds the lanes of a vector register into eight accumulators; block counts stay. -/
def execMput (c : Nat) (f : FmtMG) (s : State) : Host.Outcome State Fault Refusal :=
  onCore c s fun s =>
    let a := f.a.toNat
    let accs := (List.range 8).map (a + ·)
    let add := f.f = 1
    let lat := if add then 2 else 1
    let r := (coreOf s c).regs
    let v := rdV r f.r.toNat
    issueSlot s c .mx ⟨!(f.rsv = 0 && a % 8 = 0), .v f.r.toNat :: (if add then accs.map .acc else []),
      accs.map fun n => (.acc n, lat),
      (0, .taste (2 ^ (a / 16)) none 0) :: (List.range 8).map fun i =>
        let old := rdAcc r (a + i)
        (lat - 1, .setAcc (a + i) ⟨if add then old.la + laneLa v i else laneLa v i, old.cnt⟩), [], busyOr s c none⟩

/-- R154: an accumulator's block count into a scalar register; F must be 0. -/
def execMcnt (c : Nat) (f : FmtMG) (s : State) : Host.Outcome State Fault Refusal :=
  onCore c s fun s =>
    let a := f.a.toNat
    issueSlot s c .mx ⟨!(f.rsv = 0 && f.f = 0), [.acc a], [(.s f.r.toNat, 1)],
      [(0, .setS f.r.toNat (BitVec.ofNat 64 (rdAcc (coreOf s c).regs a).cnt))], [], busyOr s c none⟩

end Sys2Proof.Machine
end

