-- ==== Sys2Proof/Machine/Vector.lean ====
section
/-! DEFINITION. The vector slot but for the correction lane (R160–R171). -/

namespace Sys2Proof.Machine

/-! ## Loads and stores (R164) -/

/-- The address of a VLD or VST, computed in 64 bits. Only this sum is held to the scratchpad's range, not the register by itself: DESIGN CHOICE
(assumption 98). -/
def vmAddr (s : State) (c : Nat) (f : FmtVM) : Word := rdS (coreOf s c).regs f.sa.toNat + f.off.setWidth 64

/-- The last stream index that a VLD or VST touches. -/
def vmLast (f : FmtVM) : Nat := if f.hh = 0 then 1 else 0

/-- R164: loads one or two scratchpad rows into a vector register. -/
def execVld (c : Nat) (f : FmtVM) (s : State) : Host.Outcome State Fault Refusal :=
  onCore c s fun s =>
    let a := vmAddr s c f
    let v := f.v.toNat
    issueSlot s c .vec ⟨!(f.rsv = 0 && f.hh ≠ 3), [.s f.sa.toNat], [(.v v, 3)], [(2, .load v)],
      [⟨.vec, s.clk.cyc, (coreOf s c).seq.pc, 3, .vld f, a.toNat, 0, []⟩], if streamOk a (vmLast f) then none else some (evAddrRange, 0)⟩

/-- R164: stores one or two halves of a vector register; a row inside the cask window faults and nothing is written (R101). -/
def execVst (c : Nat) (f : FmtVM) (s : State) : Host.Outcome State Fault Refusal :=
  onCore c s fun s =>
    let a := vmAddr s c f
    let v := f.v.toNat
    let rows := (List.range (vmLast f + 1)).map (streamRow a.toNat)
    let fault := if ¬ streamOk a (vmLast f) then some (evAddrRange, 0)
      else (rows.find? (inWindow s c)).map fun r => (evCaskWrite, r)
    issueSlot s c .vec ⟨!(f.rsv = 0 && f.hh ≠ 3), [.s f.sa.toNat, .v v], [], [],
      [⟨.vec, s.clk.cyc, (coreOf s c).seq.pc, 0, .vst f (rdV (coreOf s c).regs v), a.toNat, 0, []⟩], fault⟩

/-! ## VR instructions (R160–R163) -/

/-- The fields a VR word may hold: an accepted type, fn below the bound, zero where unused. -/
def vrOk (f : FmtVR) (u : VrUse) (types : LaneTy → Bool) : Bool :=
  (match laneTy f.ty.toNat with | some t => types t | none => false) && f.rsv = 0 && (u.va || f.va = 0) && (u.vb || f.vb = 0) &&
    (u.msk || f.msk = 0) && f.fn.toNat < u.fn && (u.sa || f.sa = 0) && (u.h || f.h = 0)

def anyTy : LaneTy → Bool := fun _ => true
def intTy (t : LaneTy) : Bool := t.ffmt.isNone
def fpTy (t : LaneTy) : Bool := t.ffmt.isSome

/-- The lane type of an accepted word. -/
def tyOf (f : FmtVR) : LaneTy := (laneTy f.ty.toNat).getD .fp32

/-- The destination's landing: lanes selected by m[mk] take g's value, the others keep theirs (R161). -/
def maskedEff (r : RegFiles) (f : FmtVR) (t : LaneTy) (d : Nat) (g : Nat → Nat) : Nat × Eff :=
  mergeLanes d f.vd.toNat t.width fun i => if maskBit (rdM r f.msk.toNat) t i then some (g i) else none

/-- A lane-wise VR instruction of latency lat. It reads va, vb and vd as it uses them, and the mask. -/
def vrOp (c : Nat) (f : FmtVR) (u : VrUse) (types : LaneTy → Bool) (lat : Nat) (readsVd : Bool) (g : RegFiles → LaneTy → Nat → Nat)
    (s : State) : State :=
  let r := (coreOf s c).regs
  let t := tyOf f
  let reads := (if u.va then [.v f.va.toNat] else []) ++ (if u.vb then [.v f.vb.toNat] else []) ++
    (if u.sa then [.s f.sa.toNat] else []) ++ [.m f.msk.toNat] ++ (if readsVd then [.v f.vd.toNat] else [])
  issueSlot s c .vec ⟨!vrOk f u types, reads, [(.v f.vd.toNat, lat)], [maskedEff r f t (lat - 1) (g r t)], [], none⟩

/-- Lanes of va, vb and vd. -/
def la (r : RegFiles) (f : FmtVR) (t : LaneTy) (i : Nat) : Nat := laneOf t.width (rdV r f.va.toNat) i
def lb (r : RegFiles) (f : FmtVR) (t : LaneTy) (i : Nat) : Nat := laneOf t.width (rdV r f.vb.toNat) i
def ld (r : RegFiles) (f : FmtVR) (t : LaneTy) (i : Nat) : Nat := laneOf t.width (rdV r f.vd.toNat) i

/-- A lane operation: op on a floating-point format, iop on integers that wrap (R162). -/
def laneOp (t : LaneTy) (op : FFmt → Nat → Nat → Nat) (iop : Int → Int → Int) (a b : Nat) : Nat :=
  match t.ffmt with
  | some f => op f a b
  | none => wrapInt t.width (iop (sInt t.width a) (sInt t.width b))

def useAb (fn : Nat) : VrUse := ⟨true, true, true, fn, false, false⟩

/-- R163: copies a vector register. -/
def execVmov (c : Nat) (f : FmtVR) (s : State) : Host.Outcome State Fault Refusal :=
  onCore c s (vrOp c f ⟨true, false, true, 1, false, false⟩ anyTy 2 false fun r t i => la r f t i)

/-- R163: every lane takes s[sa], truncated. -/
def execVbcst (c : Nat) (f : FmtVR) (s : State) : Host.Outcome State Fault Refusal :=
  onCore c s (vrOp c f ⟨false, false, true, 1, true, false⟩ anyTy 2 false fun r t _ => (rdS r f.sa.toNat).toNat % 2 ^ t.width)

/-- R163: lane i takes s[sa] + i, wrapped. -/
def execViota (c : Nat) (f : FmtVR) (s : State) : Host.Outcome State Fault Refusal :=
  onCore c s (vrOp c f ⟨false, false, true, 1, true, false⟩ intTy 2 false fun r t i => ((rdS r f.sa.toNat).toNat + i) % 2 ^ t.width)

/-- R163: lane i takes lane vb_i mod lanes of va. -/
def execVperm (c : Nat) (f : FmtVR) (s : State) : Host.Outcome State Fault Refusal :=
  onCore c s (vrOp c f (useAb 1) anyTy 2 false fun r t i => la r f t (lb r f t i % t.lanes))

/-- The bitwise operation of VLOG. -/
def vlogBits (fn a b : Nat) : Nat :=
  match fn with
  | 0 => a &&& b
  | 1 => a ||| b
  | 2 => a ^^^ b
  | _ => a - (a &&& b)

/-- R163: bitwise logic; fn 3 is va AND NOT vb. -/
def execVlog (c : Nat) (f : FmtVR) (s : State) : Host.Outcome State Fault Refusal :=
  onCore c s (vrOp c f (useAb 4) anyTy 2 false fun r t i => vlogBits f.fn.toNat (la r f t i) (lb r f t i))

/-- R162: lane-wise addition. -/
def execVadd (c : Nat) (f : FmtVR) (s : State) : Host.Outcome State Fault Refusal :=
  onCore c s (vrOp c f (useAb 1) anyTy 2 false fun r t i => laneOp t fAdd (· + ·) (la r f t i) (lb r f t i))

/-- R162: lane-wise subtraction. -/
def execVsub (c : Nat) (f : FmtVR) (s : State) : Host.Outcome State Fault Refusal :=
  onCore c s (vrOp c f (useAb 1) anyTy 2 false fun r t i => laneOp t fSub (· - ·) (la r f t i) (lb r f t i))

/-- R162: lane-wise multiplication; integer lanes keep the low bits. -/
def execVmul (c : Nat) (f : FmtVR) (s : State) : Host.Outcome State Fault Refusal :=
  onCore c s (vrOp c f (useAb 1) anyTy 3 false fun r t i => laneOp t fMul (· * ·) (la r f t i) (lb r f t i))

/-- R162: va × vb + vd with one rounding. -/
def execVfma (c : Nat) (f : FmtVR) (s : State) : Host.Outcome State Fault Refusal :=
  onCore c s (vrOp c f (useAb 1) anyTy 4 true fun r t i =>
    laneOp t (fun g a b => fFma g a b (ld r f t i)) (fun a b => a * b + sInt t.width (ld r f t i)) (la r f t i) (lb r f t i))

/-- R163: maximum (fn 0) or minimum (fn 1). -/
def execVmax (c : Nat) (f : FmtVR) (s : State) : Host.Outcome State Fault Refusal :=
  onCore c s (vrOp c f (useAb 2) anyTy 2 false fun r t i =>
    laneOp t (fun g => fMaxMin g (f.fn = 1)) (fun a b => if f.fn = 1 then min a b else max a b) (la r f t i) (lb r f t i))

/-- The mask word of VCMP (R166). -/
def vcmpWord (r : RegFiles) (f : FmtVR) : Word :=
  let t := tyOf f
  let m := rdM r f.msk.toNat
  let lane (i : Nat) : Bool := maskBit m t i && vcmpLane t f.fn.toNat (la r f t i) (lb r f t i)
  let b (i : Nat) : Bool := match t with | .i8 => lane (2 * i) && lane (2 * i + 1) | .fp32 => i < 32 && lane i | .i32 => i < 32 && lane i | _ => lane i
  BitVec.ofNat 64 ((List.range 64).foldr (fun i acc => bit (b i) + 2 * acc) 0)

/-- R166: writes a mask register from a lane-wise relation; bits [57:56] must be 0. -/
def execVcmp (c : Nat) (f : FmtVR) (s : State) : Host.Outcome State Fault Refusal :=
  onCore c s fun s =>
    let r := (coreOf s c).regs
    let m := f.vd.toNat
    issueSlot s c .vec ⟨!(vrOk f (useAb 4) anyTy && m < 8), [.v f.va.toNat, .v f.vb.toNat, .m f.msk.toNat], [(.m m, 2)],
      [(1, .setM m (vcmpWord r f))], [], none⟩

/-- R163: lanes of va where the mask is set, else of vb; all lanes are written. -/
def execVsel (c : Nat) (f : FmtVR) (s : State) : Host.Outcome State Fault Refusal :=
  onCore c s fun s =>
    let r := (coreOf s c).regs
    let t := tyOf f
    let m := rdM r f.msk.toNat
    let w := packLanes t.width ((List.range t.lanes).map fun i => if maskBit m t i then la r f t i else lb r f t i)
    issueSlot s c .vec ⟨!vrOk f (useAb 1) anyTy, [.v f.va.toNat, .v f.vb.toNat, .m f.msk.toNat], [(.v f.vd.toNat, 2)],
      [(1, .setV f.vd.toNat w)], [], none⟩

/-- A destination format of VCVT (R167): lane width and conversion of a value. -/
def cvtDest (fn : Nat) : Option (Nat × (Val → Nat)) :=
  let fl (f : FFmt) : Nat × (Val → Nat) := (f.w, roundVal f)
  match fn with
  | 0 => some (fl fp32)
  | 1 => some (fl bf16)
  | 2 => some (fl fp16)
  | 3 => some (32, toIntSat 32)
  | 4 => some (16, toIntSat 16)
  | 5 => some (8, toIntSat 8)
  | 6 => some (8, fun v => match v with
      | .nan => 0x7F
      | .inf n => withSign e4m3 n e4m3.maxCode
      | v => roundVal e4m3 v)
  | 7 => some (fl e5m2)
  | 22 => some (fl fp32)
  | 23 => some (fl fp32)
  | _ => none

/-- The value of a source lane of VCVT: fn 0x16 and 0x17 read 8-bit lanes as E4M3 and E5M2. -/
def cvtSource (t : LaneTy) (fn code : Nat) : Val :=
  if fn = 22 then valOf e4m3 code else if fn = 23 then valOf e5m2 code
  else match t.ffmt with
    | some f => valOf f code
    | none => let x := sInt t.width code; .fin (decide (x < 0)) x.natAbs 0

/-- The mask bit of destination lane i of width w. -/
def cvtMask (m : Word) (w i : Nat) : Bool := m.getLsbD (if w = 8 then i / 2 else i)

/-- R167: converts lanes; when widening h names the source segment, when narrowing the destination segment. -/
def execVcvt (c : Nat) (f : FmtVR) (s : State) : Host.Outcome State Fault Refusal :=
  onCore c s fun s =>
    let r := (coreOf s c).regs
    let t := tyOf f
    let fn := f.fn.toNat
    let dst := cvtDest fn
    let (dw, conv) := dst.getD (32, fun _ => 0)
    let sw := t.width
    let h := f.h.toNat
    let ok := vrOk f ⟨true, false, true, 32, false, true⟩ anyTy && dst.isSome && (fn < 8 || t = .i8) &&
      h < (if sw < dw then dw / sw else sw / dw)
    let m := rdM r f.msk.toNat
    let va := rdV r f.va.toNat
    let n := min (1024 / sw) (1024 / dw)
    let value (i : Nat) : Nat := conv (cvtSource t fn (laneOf sw va i))
    let lanes (i : Nat) : Option Nat :=
      if ¬ cvtMask m dw i then none
      else if sw ≤ dw then some (value (n * h + i))
      else if n * h ≤ i ∧ i < n * h + n then some (value (i - n * h)) else none
    issueSlot s c .vec ⟨!ok, [.v f.va.toNat, .m f.msk.toNat], [(.v f.vd.toNat, 2)], [mergeLanes 1 f.vd.toNat dw lanes], [], none⟩

/-- Pairs combined, left operand first. -/
def combinePairs (op : Nat → Nat → Nat) : List Nat → List Nat
  | a :: b :: rest => op a b :: combinePairs op rest
  | l => l

/-- The fixed binary tree over levels (R165). -/
def treeReduce (op : Nat → Nat → Nat) : Nat → List Nat → List Nat
  | 0, l => l
  | n + 1, l => treeReduce op n (combinePairs op l)

/-- The operation and identity of VRED's fn in a lane type (R165). -/
def vredOp (t : LaneTy) (fn : Nat) : (Nat → Nat → Nat) × Nat :=
  match fn with
  | 1 => (laneOp t (fun g => fMaxMin g false) max, match t.ffmt with | some g => infOf g true | none => 2 ^ (t.width - 1))
  | 2 => (laneOp t (fun g => fMaxMin g true) min, match t.ffmt with | some g => infOf g false | none => 2 ^ (t.width - 1) - 1)
  | _ => (laneOp t fAdd (· + ·), 0)

/-- The reduced value of the segment of lane i. -/
def vredLane (r : RegFiles) (f : FmtVR) (t : LaneTy) (i : Nat) : Nat :=
  let n := f.sa.toNat
  let (op, e) := vredOp t f.fn.toNat
  let m := rdM r f.msk.toNat
  let base := i / 2 ^ n * 2 ^ n
  let lanes := (List.range (2 ^ n)).map fun j =>
    let a := la r f t (base + j)
    if ¬ maskBit m t (base + j) then e else if f.fn = 3 then laneOp t fMul (· * ·) a a else a
  (treeReduce op n lanes).headD 0

/-- R165: reduces segments of 2^sa lanes on a fixed tree. sa is a literal here. -/
def execVred (c : Nat) (f : FmtVR) (s : State) : Host.Outcome State Fault Refusal :=
  onCore c s fun s =>
    let r := (coreOf s c).regs
    let t := tyOf f
    let ok := vrOk f ⟨true, false, true, 4, true, false⟩ anyTy && 1 ≤ f.sa.toNat && 2 ^ f.sa.toNat ≤ t.lanes
    issueSlot s c .vec ⟨!ok, [.v f.va.toNat, .m f.msk.toNat], [(.v f.vd.toNat, 6)],
      [maskedEff r f t 5 (vredLane r f t)], [], none⟩

/-- A function-pipeline instruction (R161, R168): FP32 lanes under the mask, or 16-bit lanes 32h to 32h + 31 with no mask. -/
def pipeSel (r : RegFiles) (f : FmtVR) (t : LaneTy) (i : Nat) : Bool :=
  if t = .fp32 then maskBit (rdM r f.msk.toNat) t i else 32 * f.h.toNat ≤ i && i < 32 * f.h.toNat + 32

/-- Whether the fields of a function-pipeline word are accepted. -/
def pipeOk (f : FmtVR) (vb : Bool) (fns : Nat) : Bool :=
  vrOk f ⟨true, vb, tyOf f = .fp32, fns, false, tyOf f ≠ .fp32⟩ fpTy && f.h.toNat < 2

/-- One function-pipeline instruction of latency 8 with lane function g and further effects. -/
def pipeOp (c : Nat) (f : FmtVR) (vb : Bool) (fns : Nat) (g : FFmt → Nat → Nat → Nat) (more : List (Nat × Eff)) (s : State) : State :=
  let r := (coreOf s c).regs
  let t := tyOf f
  let fm := t.ffmt.getD fp32
  let land := mergeLanes 7 f.vd.toNat t.width fun i => if pipeSel r f t i then some (g fm (la r f t i) (lb r f t i)) else none
  issueSlot s c .vec ⟨!pipeOk f vb fns, [.v f.va.toNat] ++ (if vb then [.v f.vb.toNat] else []) ++ [.m f.msk.toNat],
    [(.v f.vd.toNat, 8)], land :: more, [], none⟩

/-- R168: a correctly rounded function. -/
def execVfun (c : Nat) (f : FmtVR) (s : State) : Host.Outcome State Fault Refusal :=
  onCore c s (pipeOp c f false 11 (fun g a _ => vfun g f.fn.toNat a) [])

/-- R169: guarded e^(va − vb). -/
def execVsmx (c : Nat) (f : FmtVR) (s : State) : Host.Outcome State Fault Refusal :=
  onCore c s (pipeOp c f true 1 vsmxLane [])

/-- R169: guarded va / vb; fn 1 counts the selected lanes whose vb is a zero. -/
def execVsnrm (c : Nat) (f : FmtVR) (s : State) : Host.Outcome State Fault Refusal :=
  onCore c s fun s =>
    let r := (coreOf s c).regs
    let t := tyOf f
    let fm := t.ffmt.getD fp32
    let n := (List.range t.lanes).countP fun i => pipeSel r f t i && (valOf fm (lb r f t i)).isZero
    pipeOp c f true 2 fGuardDiv (if f.fn = 1 then [(0, .empty n)] else []) s

/-- R169: va + ln vb, rounded once. -/
def execVlse (c : Nat) (f : FmtVR) (s : State) : Host.Outcome State Fault Refusal :=
  onCore c s (pipeOp c f true 1 vlseLane [])

/-- R163: va × vb × vd with one rounding. -/
def execVnrm (c : Nat) (f : FmtVR) (s : State) : Host.Outcome State Fault Refusal :=
  onCore c s (vrOp c f (useAb 1) fpTy 4 true fun r t i => fMul3 (t.ffmt.getD fp32) (la r f t i) (lb r f t i) (ld r f t i))

/-- A lane shifted by n: SHL, SHR or SAR. -/
def vshrLane (w fn a n : Nat) : Nat :=
  match fn with
  | 0 => a * 2 ^ n % 2 ^ w
  | 1 => a / 2 ^ n
  | _ => wrapInt w (sInt w a / 2 ^ n)

/-- R163: shifts each lane by vb_i mod lane width. -/
def execVshr (c : Nat) (f : FmtVR) (s : State) : Host.Outcome State Fault Refusal :=
  onCore c s (vrOp c f (useAb 3) intTy 2 false fun r t i => vshrLane t.width f.fn.toNat (la r f t i) (lb r f t i % t.width))

/-! ## Quantise and dequantise (R170, R171) -/

/-- The target of a tf code. -/
def qFmt (tf : Nat) : Option QFmt :=
  match tf with
  | 0 => some .d4f | 1 => some .d4i | 4 => some .int8 | 5 => some .e4m3 | 6 => some .e5m2
  | _ => none

def QFmt.is4 : QFmt → Bool
  | .d4f => true
  | .d4i => true
  | _ => false

/-- The placement rules of R170's table. -/
def vqOk (f : FmtVQ) : Bool :=
  match qFmt f.tf.toNat with
  | none => false
  | some q =>
    f.rsv = 0 && (if f.l = 0 then f.idx.toNat < 8 && (!q.is4 || f.bpos.toNat % 2 = 0) else q.is4 && f.bpos.toNat < 4)

/-- The blocks of a VQNT or VDQ: for each, the first FP32 lane, and the byte of its scale. Two blocks for a 4-bit target with L = 0. -/
def vqBlocks (f : FmtVQ) (q : QFmt) : List (Nat × Nat) :=
  let b := f.bpos.toNat
  let i := f.idx.toNat
  if f.l = 0 then
    if q.is4 then [(0, 8 * b + i), (16, 8 * (b + 1) + i)] else [(16 * (b % 2), 8 * b + i)]
  else [(16 * (b % 2), 16 * b + i)]

/-- The bit position of element e of the block at place k (0 or 1) in the code register. -/
def vqBit (f : FmtVQ) (q : QFmt) (k e : Nat) : Nat :=
  let i := f.idx.toNat
  if q.is4 then 64 * (8 * k + i) + 4 * e else 8 * (if e < 8 then 8 * i + e else 64 + 8 * i + e - 8)

/-- Bits [pos, pos + w) of a word replaced. -/
def putBits (x : NetWord) (pos w v : Nat) : NetWord :=
  (x &&& ~~~ (BitVec.ofNat 1024 ((2 ^ w - 1) * 2 ^ pos))) ||| BitVec.ofNat 1024 (v % 2 ^ w * 2 ^ pos)

/-- The draw of an element (R76): the first SHAKE128 byte over seed, step, tensor index and 0x01. -/
def quantDraw (seed step idx : Word) : Nat :=
  ((shake128 (bytesOf 8 seed.toNat ++ bytesOf 8 step.toNat ++ bytesOf 8 idx.toNat ++ [1]) 1).headD 0).toNat

/-- The target of an accepted VQNT or VDQ word, and the width of its codes. -/
def vqTarget (f : FmtVQ) : QFmt := (qFmt f.tf.toNat).getD .d4f
def QFmt.width (q : QFmt) : Nat := if q.is4 then 4 else 8

/-- The tensor scale in s[sg]. -/
def vqScale (r : RegFiles) (f : FmtVQ) : Val := valOf fp32 ((rdS r f.sg.toNat).toNat % 2 ^ 32)

/-- A VQNT's blocks quantised (R71, R76, R170): of each, the byte of its scale, its codes, scale and saturation, and its non-finite elements. -/
def vqntBlocks (s : State) (c : Nat) (f : FmtVQ) : List (Nat × (List Nat × Nat × Bool) × Nat) :=
  let co := coreOf s c
  let r := co.regs
  let q := vqTarget f
  let stoch := f.sr = 1 && rdB s F.CORE_NUM_CTL_QSR_EN c
  (vqBlocks f q).mapIdx fun k b =>
    let elems := (List.range 16).map fun e => quantElem (valOf fp32 (laneOf 32 (rdV r f.va.toNat) (b.1 + e))) (vqScale r f)
    let draws (e : Nat) : Option Nat :=
      if stoch then some (quantDraw co.planSeed (rdS r f.sstep.toNat) (rdS r f.sidx.toNat + BitVec.ofNat 64 (16 * k + e))) else none
    (b.2, quantBlock q (elems.map (·.1)) draws, elems.countP (·.2))

/-- The blocks' codes in their places of the code register, and the blocks' scales in theirs, each under g: the values themselves, or ones where a
value is written. -/
def vqntCodes (f : FmtVQ) (blocks : List (Nat × (List Nat × Nat × Bool) × Nat)) (g : Nat → Nat) : NetWord :=
  (blocks.mapIdx fun k b => (k, b.2.1.1)).foldl (fun x kb =>
    (kb.2.mapIdx fun e code => (e, code)).foldl (fun x ec => putBits x (vqBit f (vqTarget f) kb.1 ec.1) (vqTarget f).width (g ec.2)) x) 0
def vqntScales (blocks : List (Nat × (List Nat × Nat × Bool) × Nat)) (g : Nat → Nat) : NetWord :=
  blocks.foldl (fun x b => putBits x (8 * b.1) 8 (g b.2.1.2.1)) 0

/-- R170: quantises one or two blocks of FP32 lanes into codes and scales. QSAT and NAN_OP advance with the landing of the codes, which is the
model's choice of cycle (assumption 85). -/
def execVqnt (c : Nat) (f : FmtVQ) (s : State) : Host.Outcome State Fault Refusal :=
  onCore c s fun s =>
    let sr := f.sr = 1
    let ok := vqOk f && f.vd ≠ f.vs && (sr || (f.sstep = 0 && f.sidx = 0))
    let blocks := vqntBlocks s c f
    let ones (_ : Nat) : Nat := 255
    issueSlot s c .vec ⟨!ok, [.v f.va.toNat, .s f.sg.toNat] ++
        (if sr then [.s f.sstep.toNat, .s f.sidx.toNat] else []), [(.v f.vd.toNat, 4), (.v f.vs.toNat, 4)],
      [(3, .mergeV f.vd.toNat (vqntCodes f blocks id) (vqntCodes f blocks ones)),
        (3, .mergeV f.vs.toNat (vqntScales blocks id) (vqntScales blocks ones)),
        (3, .count .qsat (blocks.countP fun b => b.2.1.2.2)), (3, .count .nanOp (blocks.map fun b => b.2.2).sum)], [], none⟩

/-- The elements of a VDQ (R171): of each, its FP32 lane, the value rounded once, and whether its code is reserved. -/
def vdqElems (r : RegFiles) (f : FmtVQ) : List (Nat × Nat × Bool) :=
  let q := vqTarget f
  ((vqBlocks f q).mapIdx fun k b =>
    let sc := bs8Dy (((rdV r f.vs.toNat).toNat >>> (8 * b.2)) % 256)
    (List.range 16).map fun e =>
      let (v, res) := dequantVal q (((rdV r f.va.toNat).toNat >>> vqBit f q k e) % 2 ^ q.width)
      (b.1 + e, roundVal fp32 (valMul (valMul v (.fin false sc.1.natAbs sc.2)) (vqScale r f)), res)).flatten

/-- R171: codes and scales back to FP32 lanes. -/
def execVdq (c : Nat) (f : FmtVQ) (s : State) : Host.Outcome State Fault Refusal :=
  onCore c s fun s =>
    let ok := vqOk f && f.sr = 0 && f.sstep = 0 && f.sidx = 0
    let elems := vdqElems (coreOf s c).regs f
    issueSlot s c .vec ⟨!ok, [.v f.va.toNat, .v f.vs.toNat, .s f.sg.toNat],
      [(.v f.vd.toNat, 3)], [mergeLanes 2 f.vd.toNat 32 fun i => (elems.find? fun x => x.1 = i).map (·.2.1),
        (2, .count .resCode (elems.countP fun x => x.2.2))], [], none⟩

end Sys2Proof.Machine
end

