-- ==== Sys2Proof/Machine/Cycle.lean ====
section
/-! DEFINITION. One cycle of the arithmetic clock, passed when no command waits: egress reads, routers, the bundles that running cores fetch and
issue (R84, R118, R119), ingress writes, landings, and, at the end of the scheduled cycles and of the tick, what may not go on (R123, R181,
R182). Hall time runs with it (R406, R407). -/

namespace Sys2Proof.Machine

/-! ## A fetched slot -/

/-- The state after a meaning, where it answers one. -/
def outState (s : State) (o : Host.Outcome State Fault Refusal) : State :=
  match o with
  | .next t => t
  | .fault _ => s
  | .refused _ => s

/-- A decoded instruction of a core takes effect; every other command is no instruction. -/
def runFetched (i : Instr) (s : State) : Host.Outcome State Fault Refusal :=
  match i with
  | .nop c sl r => execNop c sl r s
  | .br c f => execBr c f s
  | .call c f => execCall c f s
  | .ret c f => execRet c f s
  | .loop c f => execLoop c f s
  | .twait c f => execTwait c f s
  | .idle c f => execIdle c f s
  | .beat c f => execBeat c f s
  | .stat c f => execStat c f s
  | .msend c f => execMsend c f s
  | .mrecv c f => execMrecv c f s
  | .trap c f => execTrap c f s
  | .add c f => execAdd c f s
  | .sub c f => execSub c f s
  | .mul c f => execMul c f s
  | .and c f => execAnd c f s
  | .or c f => execOr c f s
  | .xor c f => execXor c f s
  | .shift c f => execShift c f s
  | .cmp c f => execCmp c f s
  | .addi c f => execAddi c f s
  | .li c f => execLi c f s
  | .lane c f => execLane c f s
  | .movr c f => execMovr c f s
  | .send c f => execSend c f s
  | .recv c f => execRecv c f s
  | .senda c f => execSenda c f s
  | .recva c f => execRecva c f s
  | .sendc c f => execSendc c f s
  | .recvc c f => execRecvc c f s
  | .sends c f => execSends c f s
  | .recvs c f => execRecvs c f s
  | .mm4 c f => execMm4 c f s
  | .mm8 c f => execMm8 c f s
  | .mmbf c f => execMmbf c f s
  | .mclr c f => execMclr c f s
  | .mdrain c f => execMdrain c f s
  | .mget c f => execMget c f s
  | .mput c f => execMput c f s
  | .mcnt c f => execMcnt c f s
  | .vld c f => execVld c f s
  | .vst c f => execVst c f s
  | .vmov c f => execVmov c f s
  | .vbcst c f => execVbcst c f s
  | .viota c f => execViota c f s
  | .vperm c f => execVperm c f s
  | .vlog c f => execVlog c f s
  | .vadd c f => execVadd c f s
  | .vsub c f => execVsub c f s
  | .vmul c f => execVmul c f s
  | .vfma c f => execVfma c f s
  | .vmax c f => execVmax c f s
  | .vcmp c f => execVcmp c f s
  | .vsel c f => execVsel c f s
  | .vcvt c f => execVcvt c f s
  | .vred c f => execVred c f s
  | .vfun c f => execVfun c f s
  | .vqnt c f => execVqnt c f s
  | .vdq c f => execVdq c f s
  | .vsmx c f => execVsmx c f s
  | .vsnrm c f => execVsnrm c f s
  | .vlse c f => execVlse c f s
  | .vnrm c f => execVnrm c f s
  | .vshr c f => execVshr c f s
  | .cdot c f => execCdot c f s
  | .cadd c f => execCadd c f s
  | .cscl c f => execCscl c f s
  | .cup c f => execCup c f s
  | .cmov c f => execCmov c f s
  | .tskip c r => execTskip c r s
  | _ => .next s

/-- One slot of a fetched bundle. A reserved opcode acts as NOP with EV_ILLEGAL_BUNDLE (R119). -/
def fetchSlot (c : Nat) (b : BitVec 256) (s : State) (sl : Slot) : State :=
  match decodeSlot c sl (slotWord b sl) with
  | some i => outState s (runFetched i s)
  | none => if sl = .ctl then issueCtl s c (issCheck false issNone) id else issueSlot s c sl (issCheck false issNone)

/-- Core c fetches the bundle at its pc and issues it (R84), unless commands have issued slots of the cycle's bundle. -/
def fetchBundle (s : State) (c : Nat) : State :=
  let co := coreOf s c
  if co.bundle = [] ∧ canIssue s c co then
    [Slot.ctl, .mx, .vec, .xfer].foldl (fetchSlot c (tget co.code co.seq.pc 0)) s
  else s

/-! ## The end of the scheduled cycles (R123, R181) -/

/-- What core c still has in flight at the end of the scheduled cycles: the issue cycle and bundle of each result and of each access to
come. -/
def inFlight (s : State) (co : Core) : List (Nat × Nat) :=
  (co.pend.map fun p => (p.issue, p.pc)) ++
    ((co.ops.filter fun o => schedCycles s ≤ o.issue + lastAccess o).map fun o => (o.issue, o.pc))

/-- Results and accesses in flight are discarded with EV_HAZARD, the record naming the bundle that issued them (R123, R537). -/
def dropResults (s : State) (c : Nat) : State :=
  let l := (inFlight s (coreOf s c)).mergeSort fun a b => a.1 ≤ b.1
  let s := l.eraseDups.foldl (fun s e => recordFault s c evHazard e.2 e.1 0 false) s
  modCore s c fun co => { co with pend := [], ops := [] }

/-- Words still in the router, its delivery stage or P7 are dropped (R181). -/
def dropWords (s : State) (c : Nat) : State :=
  let co := coreOf s c
  let n := co.inWords.length + co.deliv.length + co.p7.length
  let s := (List.range n).foldl (fun s _ => dropWord s c) s
  modCore s c fun co => { co with inWords := [], deliv := [], p7 := [], egress := [] }

/-! ## One cycle -/

/-- Hall time gains dt, and, while it slews, one unit in 2,000 of what it has to gain or lose (R407). -/
def passTime (s : State) (dt : Nat) : State :=
  let acc := s.clk.slewAcc + dt
  let m := min (acc / 2000) s.clk.slew.natAbs
  let gain : Int := if s.clk.slew < 0 then -(m : Int) else m
  { s with clk := { s.clk with hall := ((s.clk.hall + dt : Nat) + gain).toNat, slew := s.clk.slew - gain, slewAcc := if s.clk.slew - gain = 0 then 0 else acc % 2000 } }

/-- The cores that hold anything. -/
def knownCores (s : State) : List Nat := s.cores.map (·.1)

def eachCore (s : State) (f : State → Nat → State) : State := (knownCores s).foldl f s

/-- The work of the current cycle. -/
def cycleWork (s : State) : State :=
  let s := eachCore s egressOnce
  let s := eachCore s fun s c => routerOnce s c ⟨[], [], []⟩
  let s := ctlCycle s
  let s := eachCore s fetchBundle
  let s := eachCore s ingressOnce
  let s := eachCore s endCycle
  let s := if s.clk.cyc + 1 = schedCycles s then eachCore (eachCore s dropResults) dropWords else s
  if s.clk.cyc = lastCycle s then eachCore s dropHeld else s

/-- One cycle passes. A gated clock stands while hall time goes on; a tick that is over waits for its boundary. -/
def idleCycle (s : State) : State :=
  let dt := period (rd s F.TICK_CLK_STATUS_STEP 0)
  if s.clk.gated then passTime s dt
  else if lastCycle s < s.clk.cyc then s
  else
    let s := passTime (cycleWork s) dt
    { s with clk := { s.clk with cyc := s.clk.cyc + 1 } }

/-- At most n cycles pass. -/
def passCycles : Nat → State → State
  | 0, s => s
  | n + 1, s => passCycles n (idleCycle s)

/-- The rest of the tick passes. -/
def restOfTick (s : State) : State := if s.clk.gated then s else passCycles (lastCycle s + 1 - s.clk.cyc) s

end Sys2Proof.Machine
end

