-- ==== Sys2Proof/Machine/Outcomes.lean ====
section
/-! DEFINITION. What a tick boundary does to regions: stops by fault and by command (R113, R146–R148, R261, R273), the sparing of lanes while a
region is stopped (R203, R220), and the regions that run again (R104, R148, R266, R268, R538). -/

namespace Sys2Proof.Machine

/-! ## Checkpoints (R104) -/

/-- Core c copies its state: the newer generation becomes the older one, and the write marks follow (R93, R104). t: the tick that the boundary
opens. -/
def copyCore (t : Nat) (s : State) (c : Nat) : State :=
  let co := coreOf s c
  let k : Ckpt := ⟨true, t, co.regs, co.seq, co.inbox, rd s F.NET_RING_POS_ING c, rd s F.NET_RING_POS_EGR c⟩
  let rows := (co.rows.map fun e => (e.1, { e.2 with mark0 := e.2.mark1, mark1 := false })).filter fun e => !blankEntry e.1 e.2
  wr (setCore s c { co with older := co.newer, newer := k, rows := rows }) F.CORE_STATUS_CKPT c (bit co.newer.valid)

/-! ## Stops -/

/-- The cores of a region that were running take a state and issue no more (R148). -/
def stopCores (s : State) (r st : Nat) : State :=
  (liveCores s r).foldl (fun s c => if coreState s c = csRunning then setCoreState s c st else s) s

/-- Region r stops with a state; its routers run the transit-only programs (R266). -/
def stopRegion (s : State) (r st cores : Nat) : State :=
  let s := toTransit (stopCores s r cores) r
  modUnit (if regionState s r = rsLost then s else setRegionState s r st) r fun u => { u with stopAt := false, stopIn := 0 }

/-- What waited for the stop goes on: a rack's load, a rebind, or a STOP that is done (R271, R273, R307). -/
def stopDone (s : State) (r : Nat) : State :=
  if (unitOf s r).phase ≠ .stop then s
  else if (rackLoading s r).isSome then
    if regionState s r = rsBound then setPhase (setRegionState s r rsBinding) r .begin else finishPart (endRack s stInternal) r stInternal
  else match (unitOf s r).cmd with
    | some c => if c.cmd ≠ 6 then finishPart s r stOk else if (unitOf s r).result ≠ stOk then failBind s r else afterStopRebind s r c
    | none => finishPart s r stOk

/-- A region ends a fault stop without a replay. -/
def endStop (st cores : Nat) (s : State) (r : Nat) : State :=
  stopDone (modUnit (stopRegion s r st cores) r fun u => { u with await := .none, faults := [] }) r

/-- REG_UNIT_FAULT takes the fault that decides a stop (R147). -/
def noteAttribution (s : State) (r : Nat) (f : FaultRec) : State :=
  wrAll (modUnit s r fun u => { u with deciding := some f }) r [(F.REG_UNIT_FAULT_VALID, 1), (F.REG_UNIT_FAULT_REPLAY, 0), (F.REG_UNIT_FAULT_TICK, f.tick % 65536), (F.REG_UNIT_FAULT_PC, f.pc),
    (F.REG_UNIT_FAULT_EVENT, f.event), (F.REG_UNIT_FAULT_CORE, f.core)]

/-- The fault recurs in the replay: the same event at the same core and the same PC (R147). -/
def recurs (s : State) (r : Nat) (f : FaultRec) : Bool := (unitOf s r).replayed && (unitOf s r).lastReplay = some (f.event, f.core, f.pc)

/-- An abort without a record in its core comes from a droop, which never counts as a recurrence (R537). -/
def isDroop (s : State) (f : FaultRec) : Bool := f.event = evTickAbort && !rdB s F.CORE_FAULT_VALID f.core

/-- The fault is replayed (R146, R221): a recurrence of a detection or of a link check is left to R94, R203 and R204. -/
def replays (s : State) (r : Nat) (f : FaultRec) : Bool :=
  replayable f.event && (!recurs s r f || isDroop s f || f.event = evSpadDetect || f.event = evLinkCheck)

/-- The repair of a region's failed rows opens (R93, R299): CORE_SPAD_WIN.LEN is 0 in the cores concerned, and the region reports BINDING. -/
def openRepairs (s : State) (r : Nat) : State :=
  match (liveCores s r).filter fun c => (coreOf s c).detects ≠ [] with
  | [] => s
  | cs => cs.foldl (fun s c =>
      let len := rd s F.CORE_SPAD_WIN_LEN c
      modUnit (wr s F.CORE_SPAD_WIN_LEN c 0) r fun u => { u with heldWin := tset u.heldWin c len }) (setRegionState s r rsBinding)

/-- The stop of a fate group whose member q has the earliest fault f (R146–R148, R261). -/
def decideStop (s : State) (members : List Nat) (q : Nat) (f : FaultRec) : State :=
  let s := noteAttribution s q f
  let s := if f.event = evTasteMismatch ∧ recurs s q f then coreDies s f.core else s
  if members.any fun r => (unitOf s r).await = .recovery then
    members.foldl (fun s r => stopRegion s r rsBinding csBound) s
  else if replays s q f then
    let s := modUnit s q fun u => { u with lastReplay := some (f.event, f.core, f.pc) }
    members.foldl (fun s r => openRepairs (modUnit (stopRegion s r rsBound csBound) r fun u => { u with await := .replay }) r) s
  else members.foldl (fun s r => if r = q then endStop rsFaulted csFaulted s r else endStop rsBound csBound s r) s

/-- The members of r's fate group that a fault stops at this boundary (R113, R148). Their seated streams are covered (R371). -/
def faultStop (s : State) (r : Nat) : State :=
  if (unitOf s r).stopAt = false then s
  else
    let members := (fateGroup s r).filter fun q => (unitOf s q).stopAt
    let fs := members.flatMap fun q => (unitOf s q).faults.map fun f => (q, f)
    let lost := members.any fun q => regionState s q = rsLost
    match earliest (fs.map (·.2)) with
    | some f =>
      let q := ((fs.find? fun e => e.2 = f).map (·.1)).getD r
      let s := members.foldl coverRegion s
      if lost then members.foldl (endStop rsBound csBound) (noteAttribution s q f) else decideStop s members q f
    | none =>
      if members.any fun q => (unitOf s q).await = .recovery then
        (members.foldl coverRegion s) |> fun s => members.foldl (fun s q => stopRegion s q rsBinding csBound) s
      else members.foldl (fun s q =>
        if (unitOf s q).await = .moves then stopRegion s q rsBound csBound else endStop rsBound csBound s q) s

/-- A commanded stop counts down to its boundary (R273); a region that runs its last tick is STOPPING (R267). -/
def commandStop (s : State) (r : Nat) : State :=
  let n := (unitOf s r).stopIn
  if n = 0 then s
  else if n = 1 then stopDone (stopRegion s r rsBound csBound) r
  else
    let s := if regionState s r = rsRunning then sendAllCtl (setRegionState s r rsStopping) (stopPackets s r (tickCount s)).reverse else s
    modUnit s r fun u => { u with stopIn := n - 1 }

/-- A core whose stop packet has come stops without its region, when the region itself does not stop (R148). -/
def packetStop (t : Nat) (s : State) (c : Nat) : State :=
  match (coreOf s c).stopping with
  | some n =>
    if n ≤ t % 2 ^ 32 then
      let s := modCore s c fun co => { co with stopping := none }
      if coreState s c = csRunning then setCoreState s c csBound else s
    else s
  | none => s

/-- Core c stops at the boundary that closes tick t. -/
def stopsNow (s : State) (t c : Nat) : Bool :=
  let u := unitOf s (regionOfCore s c)
  u.stopAt || u.stopIn = 1 || (match (coreOf s c).stopping with | some n => n ≤ t % 2 ^ 32 | none => false)

/-- A clean close after a replay ends it: later faults are no recurrence (R147). -/
def endReplayed (t : Nat) (s : State) (r : Nat) : State :=
  let u := unitOf s r
  if u.replayed ∧ u.stopAt = false ∧ u.runAt = false ∧ u.await = .none ∧ u.closedTick + 1 = t then
    setUnit s r { u with replayed := false, lastReplay := none }
  else s

/-! ## Sparing (R203, R220) -/

/-- A lane that waits to be spared is, once the region of the router that asks is stopped (R203): before its replay, whatever else runs at the
link's other end, since sparing changes no cycle of any schedule. The failures that kill the link are counted from then on (R204). -/
def spareLane (s : State) (e : SpareReq) : State :=
  if coreState s e.core = csRunning then s
  else
    let fails := s.net.laneFails.filter fun f => f.link ≠ e.link
    let s := { s with net := { s.net with spareReq := s.net.spareReq.filter (· ≠ e), spared := tset s.net.spared e.link e.lane, laneFails := fails } }
    raiseEv (showLink s e.link) .report evLaneSpared (rd s F.CORE_STATUS_TENANT e.core) (regionOfCore s e.core) e.core 0

def spareLanes (s : State) : State := s.net.spareReq.foldl spareLane s

/-! ## Regions that run (R104, R148, R266, R268) -/

/-- The cores of a region run from this boundary, which opens tick t; each copies its state (R104). -/
def runCores (s : State) (r t : Nat) : State :=
  let cores := (liveCores s r).filter fun c => coreState s c = csBound
  let s := cores.foldl (fun s c => copyCore t (setCoreState s c csRunning) c) s
  setRegionState (toOwnProgram s r) r rsRunning

/-- A stream that a recovery or a cover left without its context takes a seat again and its command goes on (R370, R538). -/
def reseat (s : State) (slot : Nat) : State :=
  let x := streamAt s slot
  if x.wants = false ∨ x.state = .parked ∨ x.state = .closed ∨ x.mirror then s
  else
    let s := seat s slot
    if x.run.isSome ∧ (streamAt s slot).seat.isSome then resumeRun s slot else s

/-- Region r runs: a covered one has its streams handed back (R372), one that recovered takes its streams again (R538), and pages pinned WAFER take
their frames (R255). -/
def startRegion (s : State) (r t : Nat) : State :=
  let s := uncoverRegion (runCores s r t) r
  holdPinned ((streamsOf s r).foldl reseat s)

/-- A region whose replay or recovery is ready resumes (R148); a STOP that waits for the replay stops the fate group at the boundary by which the replayed
tick has closed cleanly (R261, R273). -/
def resumeRegion (t : Nat) (s : State) (r : Nat) : State :=
  if (unitOf s r).runAt = false then s
  else
    let stops := (fateGroup s r).any fun q => (unitOf s q).phase = .stop
    let s := if (unitOf s r).replayed then repeatRim s r (unitOf s r).restart t else s
    let s := modUnit s r fun u => { u with runAt := false, await := .none, faults := [] }
    let s := startRegion s r t
    if (unitOf s r).phase = .run then finishPart s r stOk
    else if stops then modUnit s r fun u => { u with stopIn := 2 } else s

/-- A region told to run does (R268); a rack whose region runs again is loaded (R307). -/
def runRegion (t : Nat) (s : State) (r : Nat) : State :=
  let u := unitOf s r
  if u.phase ≠ .run then s
  else if regionState s r ≠ rsBound ∨ u.await ≠ .none then s
  else
    let loaded := (rackLoading s r).isSome
    let s := finishPart (startRegion s r t) r stOk
    if loaded then rackLoaded s else s

end Sys2Proof.Machine
end

