-- ==== Sys2Proof/Machine/Start.lean ====
section
/-! DEFINITION. The start of the engine (R491–R503): its kinds, its phases, the recovery ROM (R516), and the fall-back of a trial (R512). -/

namespace Sys2Proof.Machine

/-! ## Phases (R497, R518) -/

def modBoot (s : State) (f : BootSt → BootSt) : State := { s with keep := { s.keep with boot := f s.keep.boot } }

/-- A phase begins. -/
def enterPhase (s : State) (n : Nat) : State := modBoot (wr s F.BOOT_STATUS_PHASE 0 n) fun b => { b with phaseStart := s.clk.hall }

/-- KEEP_STATUS.OK (R469): no watchdog in stage 2, at most one core held, no start or restart in progress. -/
def noteKeepOk (s : State) : State :=
  let stage2 := (List.range 8).any fun m => rd s F.KEEP_WDT_STAGE m = 2
  wr s F.KEEP_STATUS_OK 0 (bit (!stage2 && s.keep.boot.heldMcs.length ≤ 1 && (bootPhase s = phReady || bootPhase s = phHalted)))

/-! ## The boot record and the slots (R500, R501) -/

def bootRecord (s : State) : BootRec := s.keep.boot.record.getD ⟨0, 0, none, false, 0, 0, 0⟩

/-- The boot record is written, with the next sequence number (R500). -/
def writeRecord (s : State) (f : BootRec → BootRec) : State :=
  modBoot s fun b => { b with record := some { f (bootRecord s) with seq := (bootRecord s).seq + 1 } }

def slotImg (s : State) (n : Nat) : SlotImg := tget s.keep.boot.slots n ⟨[], [], false⟩
def setSlot (s : State) (n : Nat) (x : SlotImg) : State := modBoot s fun b => { b with slots := tset b.slots n x }

/-- The device that holds a slot is present: slot A on FL0, slot B on FL1 (R492, R493). -/
def slotPresent (s : State) (n : Nat) : Bool := if n = 0 then s.keep.boot.fl0 else s.keep.boot.fl1

/-- The SVN of a slot's manifest is at least MIN_SVN (R501). -/
def svnOk (s : State) (manifest : List Byte) : Bool := (bootRecord s).minSvn ≤ Config.manifestField manifest 0

/-- A slot may run: its device is present, its image was verified, and its SVN is high enough. -/
def slotMayRun (s : State) (n : Nat) : Bool := slotPresent s n && (slotImg s n).verified && svnOk s (slotImg s n).manifest

/-! ## What a start clears -/

/-- The Keep addresses whose registers a start leaves: the Belfry's, the boot count, the update state, the restart cause and count, the event
sequence, the thermal cycle counts and the sag lock; the queue pairs of a warm start, whose bindings its journal holds (R379). -/
def startKeeps (warm : Bool) (a : Nat) : Bool :=
  (0x10100000 ≤ a && a < 0x10200000) || a = F.BOOT_COUNT_COUNT.base || a = F.BOOT_UPD_STATE.base || a = F.KEEP_EV_SEQ_SEQ.base ||
    a = F.KEEP_STATUS_OK.base || a = F.PWR_STATUS_NVLOCK.base || a = F.TICK_CLK_STATUS_W_LOCK.base || a = F.THM_LIFE_ITEM.base ||
    (0x10A01000 ≤ a && a < 0x10A03000) || (warm && 0x10701000 ≤ a && a < 0x10702000) ||
    a = F.REG_DESC0_KIND.base || a = F.REG_TENANT_LIM_A_CORES.base || a = F.REG_TENANT_LIM_B_PAGES.base

/-- Channels with a request in progress lose it and show RESTARTED (R514). -/
def dropRequests (s : State) : State :=
  { s with keep := { s.keep with mbox := s.keep.mbox.map fun e =>
      (e.1, if e.2.busy.isSome then { e.2 with busy := none, done := false, restarted := true, rsp := [] } else e.2) } }

/-- A cold or warm start begins (R497): a warm one keeps the cellar. Every session closes (R507). -/
def beginStart (s : State) (kind : StartKind) : State :=
  let warm := kind = .warm
  let nv := rd s F.PWR_STATUS_NVLOCK 0
  let cause := rd s F.KEEP_STATUS_CAUSE 0
  let count := rd s F.KEEP_STATUS_RESTARTS 0
  let s := dropRequests (closeSessions s fun _ => true)
  let regs := s.regs.filter fun e => startKeeps warm e.1
  let locks := [F.TICK_CLK_STATUS_W_LOCK, F.TICK_CLK_STATUS_E_LOCK, F.TICK_CLK_STATUS_FALLBACK_CNT].map fun f => (f, rd s f 0)
  let s := { s with
    regs := regs.filter fun e => e.1 ≠ F.TICK_CLK_STATUS_W_LOCK.base && e.1 ≠ F.PWR_STATUS_NVLOCK.base && e.1 ≠ F.KEEP_STATUS_OK.base
    shadow := [], captured := [], cores := [], units := [], ctlSent := []
    clk := { s.clk with cyc := 0, nextStep := none, gated := true, lossAt := none, fallback := false, steady := false, held := false }
    pcie := [], net := NetSt.initial
    store := if warm then { s.store with residents := [], op := none, rack := none, fetches := [], unfound := [], staging := [],
                                         transit := [], transitRoutes := [], rimSlots := [] } else StoreSt.initial
    strm := if warm then s.strm else StreamSt.initial
    twin := if warm then { TwinSt.initial with marker := s.twin.marker, recorded := s.twin.recorded } else TwinSt.initial
    fab := { FabricSt.initial with everLocked := s.fab.everLocked }
    pwr := { PowerSt.initial with present := s.pwr.present, clamped := s.pwr.clamped, cal := s.pwr.cal, heldOverlay := s.pwr.heldOverlay,
                                  logsDue := s.pwr.logsDue }
    thm := { ThermSt.initial with limit := s.thm.limit, stopped := s.thm.stopped, noFlow := s.thm.noFlow, turns := s.thm.turns,
                                  flashed := s.thm.flashed, snaps := s.thm.snaps, tj := s.thm.tj, thbm := s.thm.thbm,
                                  valve := s.thm.valve, pump := s.thm.pump }
    keep := { s.keep with challenges := [], fails := [], refused := [], sends := [],
                          mctp := { s.keep.mctp with eids := [], receiver := none, deferred := [], hashes := [] } } }
  let s := wrAll s 0 (locks ++ [(F.PWR_STATUS_NVLOCK, nv), (F.KEEP_STATUS_CAUSE, cause), (F.KEEP_STATUS_RESTARTS, count),
    (F.BOOT_STATUS_WARM, bit warm)])
  let s := modBoot s fun b => { b with kind := kind, origin := s.clk.hall, heldMcs := [], rerun := [], planned := false, toBind := [] }
  enterPhase s phKeep

/-- The recovery ROM takes over with a cause (R516): on mc0 alone, with the north rim on where the rails can be. -/
def enterRecovery (s : State) (cause : Nat) : State :=
  let s := enterPhase (wr s F.BOOT_STATUS_CAUSE 0 cause) phRecovery
  let s := raiseEngine s .alarm evRecoveryRom 0 0
  if s.pwr.present ∧ s.pwr.clamped ∧ ¬ s.thm.limit then { s with pwr := { s.pwr with rails := true, rims := [0] } } else s

/-- The regions that run, which a planned Keep-only restart stops with their streams seated and runs again (R511). -/
def runningRegions (s : State) : List Nat := (boundRegions s).filter fun r => regionState s r = rsRunning

/-- A Keep-only start begins (R497, R511): the array ticks on, no ledger is fetched, no entry is written, and the running regions stop. planned:
it was ordered by ACTIVATE or BOOT_RESTART, which keeps the sessions. -/
def beginKeepOnly (s : State) (planned : Bool) : State :=
  let rs := runningRegions s
  let s := if planned then s else dropRequests (closeSessions s fun _ => true)
  let s := enterPhase (wrAll s 0 [(F.KEEP_STATUS_OK, 0), (F.KEEP_STATUS_PLANNED_RESTART, bit planned)]) phKeepRestart
  let s := modBoot s fun b => { b with kind := .keepOnly, origin := s.clk.hall, rerun := rs, planned := planned, heldMcs := [] }
  rs.foldl orderStop s

/-- A fall-back ends the trial (R512): the other slot becomes ACTIVE and runs, and its settings format is restored. -/
def endTrial (s : State) : State :=
  let r := bootRecord s
  let s := writeRecord s fun x => { x with active := r.fallback.getD r.active, fallback := none, trial := false, setFmt := r.setFmtPrev }
  let s := modBoot s fun b => { b with settings := if b.settingsPrev.isSome then b.settingsPrev else b.settings, settingsPrev := none,
                                       running := r.fallback.getD r.active }
  raiseEngine (wrAll s 0 [(F.BOOT_UPD_STATE, 0), (F.BOOT_UPD_SVN, 0), (F.BOOT_STATUS_SLOT, r.fallback.getD r.active), (F.BOOT_STATUS_TRIAL, 0)])
    .report evUpdate 0 3

/-- KEEP_STATUS and BOOT_COUNT of a Keep restart with a cause (R514, R518). -/
def countRestart (s : State) (cause : Nat) : State :=
  wrAll s 0 [(F.KEEP_STATUS_CAUSE, cause), (F.KEEP_STATUS_RESTARTS, min 65535 (rd s F.KEEP_STATUS_RESTARTS 0 + 1)),
    (F.BOOT_COUNT_COUNT, bootCount s + 1)]

/-- A planned Keep-only restart (R511, R515). -/
def plannedRestart (s : State) : State := belfryKeepRestart (beginKeepOnly (countRestart s 4) true)

/-- A full restart: a planned handover from PAIRED, then a warm or cold start (R375, R511, R515). -/
def fullRestart (s : State) (kind : StartKind) : State := beginStart (wr (handover s) F.KEEP_STATUS_CAUSE 0 4) kind

/-- The fall-back is a start of the kind that began the trial (R512). -/
def fallBack (s : State) : State :=
  match s.keep.boot.trialKind with
  | .keepOnly => plannedRestart (endTrial s)
  | k => fullRestart (storedCal (endTrial s)) k

/-! ## KEEP, IDENTITY and MANIFEST -/

/-- The Belfry's default targets, as a mask of management cores, and priorities (R488). -/
def sourceDefaults : List (Nat × Nat × Nat × Nat) :=
  [(1, 1, 0x80, 15), (2, 8, 0x01, 15), (9, 12, 0x01, 8), (13, 14, 0, 8), (15, 15, 0x01, 6), (16, 16, 0x10, 15), (17, 17, 0x10, 10),
    (18, 18, 0x10, 14), (19, 20, 0x20, 15), (21, 21, 0x20, 14), (22, 22, 0x20, 4), (23, 23, 0x04, 13), (24, 24, 0x04, 14),
    (25, 25, 0x04, 12), (26, 27, 0x08, 11), (28, 28, 0x01, 3), (29, 29, 0x40, 3), (30, 30, 0x02, 12), (32, 79, 0x02, 13),
    (80, 83, 0x02, 14), (96, 143, 0x08, 9), (160, 223, 0x40, 7), (256, 257, 0x80, 5), (258, 258, 0x80, 2), (259, 259, 0x80, 12)]

/-- Firmware writes each source's defaults (R488). -/
def belfryDefaults (s : State) : State :=
  let s := sourceDefaults.foldl (fun s e => (List.range (e.2.1 + 1 - e.1)).foldl (fun s k =>
    wrAll s (e.1 + k) [(F.BELFRY_SRC_CFG_MASK, e.2.2.1), (F.BELFRY_SRC_CFG_PRIO, e.2.2.2)]) s) s
  (List.range 64).foldl (fun s n => wrAll s (960 + n)
    [(F.BELFRY_SRC_CFG_MASK, 2 ^ (8 + rd s F.STRM_QP_CFG_PORT n)), (F.BELFRY_SRC_CFG_PRIO, 8), (F.BELFRY_SRC_CFG_VECTOR, n),
      (F.BELFRY_SRC_CFG_AUTO, 1), (F.BELFRY_SRC_CFG_COAL, 0)]) s

/-- Phase KEEP: flash discovery (R491, R493). -/
def keepPhase (s : State) (fl0 fl1 : Bool) : State :=
  let s := modBoot (belfryDefaults (belfryRunning s)) fun b => { b with fl0 := fl0, fl1 := fl1 }
  if ¬ fl0 ∧ ¬ fl1 then enterRecovery s 4
  else
    let s := if fl0 ∧ fl1 then s else raiseEngine s .alarm evBootManifest 0 4
    enterPhase s phIdentity

/-- The identity is derived: the fingerprint is shown, and the sealed keys can be unsealed (R494, R504). -/
def identityDerived (s : State) : State :=
  let s := (List.range 4).foldl (fun s i => wr s F.SEC_ID_FP_FP i (natOfBytes ((fingerprint.drop (8 * i)).take 8))) s
  let s := s.keep.keys.foldl (fun s e => wr s { F.SEC_KEYS_PRESENT with lo := e.1 % 64, width := 1 } (e.1 / 64) 1) s
  wrAll s 0 [(F.SEC_STATUS_IDENTITY, 1), (F.SEC_STATUS_OPERATOR_KEY, bit (tget? s.keep.keys 0).isSome)]

/-- Phase IDENTITY (R493–R495): the boot count advances. -/
def identityPhase (m : PhaseResult) (s : State) : State :=
  if ¬ m.pufOk then enterRecovery s 4
  else if ¬ m.identityOk then enterRecovery s 2
  else enterPhase (wr (identityDerived s) F.BOOT_COUNT_COUNT 0 (bootCount s + 1)) phManifest

/-- The firmware of a slot runs. -/
def runSlot (s : State) (n : Nat) : State :=
  let r := bootRecord s
  let s := modBoot (wrAll s 0 [(F.BOOT_STATUS_SLOT, n), (F.BOOT_STATUS_TRIAL, bit r.trial)]) fun b => { b with running := n }
  let s := if r.trial then wrAll s 0 [(F.BOOT_UPD_STATE, 3), (F.BOOT_UPD_SVN, Config.manifestField (slotImg s n).manifest 0)] else s
  enterPhase s phSettings

/-- Phase MANIFEST (R493, R501, R512). -/
def manifestPhase (m : PhaseResult) (s : State) : State :=
  let r := bootRecord s
  if ¬ m.recordOk ∨ s.keep.boot.record = none then enterRecovery s 4
  else if m.activeOk ∧ slotMayRun s r.active then runSlot s r.active
  else
    let s := raiseEngine s .alarm evBootManifest 0 0
    match r.fallback with
    | none => enterRecovery s 1
    | some n => if r.trial then fallBack s else if m.fallbackOk ∧ slotMayRun s n then runSlot s n else enterRecovery s 1

/-! ## SETTINGS, RAILS and CELLAR -/

/-- The new firmware's first start converts the settings and keeps the old format's copy (R511). -/
def convertSettings (s : State) : State :=
  let r := bootRecord s
  if r.trial ∧ s.keep.boot.settingsPrev = none ∧ s.keep.boot.settings ≠ none then
    let s := modBoot s fun b => { b with settingsPrev := b.settings }
    writeRecord s fun x => { x with setFmtPrev := r.setFmt, setFmt := Config.manifestField (slotImg s r.active).manifest 1 }
  else s

/-- The saved settings are applied, or the reset values stand (R502). -/
def settingsApplied (m : PhaseResult) (s : State) : State :=
  match s.keep.boot.settings with
  | some t =>
    if m.settingsOk then
      let s := applySettings (convertSettings s) t
      countDescs (((allDescs s).filter (· ≠ 0)).foldl defineDesc s)
    else raiseEngine (wr s F.BOOT_STATUS_SETTINGS_DEFAULT 0 1) .alarm evBootManifest 0 2
  | none => raiseEngine (wr s F.BOOT_STATUS_SETTINGS_DEFAULT 0 1) .alarm evBootManifest 0 2

/-- R502: the live settings are snapshotted and signed into flash, with the start list: the plan regions that are bound, up to 64, with their plans
(assumption 107). -/
def execSettingsSave (q : Req) (s : State) : Host.Outcome State Fault Refusal :=
  .next (serve s q 0x0121 .operator fun s q _ =>
    unlessSag s q fun s =>
      let bound := (boundRegions s).map fun r => (r, rd s F.REG_PLAN_PLAN_ID r)
      let b := { s.keep.boot with settings := some (settingsOf s), startList := bound.take 64 }
      respond { s with keep := { s.keep with boot := b } } q stOk [])

/-- Phase SETTINGS: settings, then the defect map (R498). -/
def settingsPhase (m : PhaseResult) (s : State) : State :=
  let s := settingsApplied m s
  let s := setTwinPorts (wr s F.NET_FAB_STATUS_PROVISIONAL 0 (bit (isProvisional s)))
  let s := if m.mapOkFirst then s else raiseEngine s .alarm evDefectMapSig 0 0
  if ¬ m.mapOkFirst ∧ ¬ m.mapOkSecond then noteKeepOk (enterPhase (wr s F.BOOT_STATUS_CAUSE 0 3) phHalted)
  else
    let s := m.badOverlay.foldl (fun s _ => raiseEngine s .alarm evDefectMapSig 0 0) s
    let keep := (s.keep.boot.overlay.zipIdx.filter fun e => !m.badOverlay.contains e.2).map (·.1)
    enterPhase (modBoot s fun b => { b with overlay := keep }) phRails

/-- After a hard limit, temperatures lie 20 K below their limits and the flow is at or above FLOW_WARN (R454). -/
def limitCleared (s : State) : Bool :=
  s.thm.tj + 80 ≤ tjLimit s && s.thm.thbm + 80 ≤ thbmLimit s &&
    (match flowNow s with | some f => 100 * rd s F.THM_THR_FLOW_WARN 0 ≤ f | none => false)

/-- Phase RAILS (R454, R497, R528, R535): the rails and the rims are on, and the arithmetic clock runs. -/
def railsPhase (m : PhaseResult) (s : State) : State :=
  if ¬ (s.pwr.present ∧ s.pwr.clamped ∧ m.railsReady) ∨ (s.thm.limit ∧ limitCleared s = false) then s
  else
    let s := { s with pwr := { s.pwr with rails := true, rims := [0, 1, 2, 3] }, thm := { s.thm with limit := false },
                      clk := { s.clk with gated := false, cyc := 0 } }
    let s := noteStage (wrAll s 0 [(F.PWR_STATUS_ENG_FAULT, 0), (F.PWR_STATUS_VCORE_NOM, nominal 3)])
    let locked : Bool := rdB s F.TICK_CLK_STATUS_W_LOCK 0 && rdB s F.TICK_CLK_STATUS_E_LOCK 0
    enterPhase (if locked then requestStep s s.pwr.sel else s) phCellar

/-- Phase CELLAR: the stacks are read (R4), HBM and SerDes are trained. -/
def cellarPhase (m : PhaseResult) (s : State) : State :=
  let g := m.stackGib.toNat
  let s := wrAll s 0 [(F.KEEP_ID_STACK_GIB, g), (F.KEEP_ID_ORDER, if g = 0x40 then 1 else 2)]
  let s := (List.range 4).foldl (calibrate 1) ((List.range 48).foldl (calibrate 2) s)
  enterPhase ((List.range 64).foldl (calibrate 3) s) phFields

/-! ## FIELDS (R38–R41, R422–R426) -/

/-- A tile that self-test finds dead and no map records enters the overlay (R39). -/
def noteDeadTile (s : State) (e : Nat × Nat × Nat) : State :=
  if (s.keep.boot.factory ++ (s.keep.boot.overlay ++ s.pwr.heldOverlay).map (·.tile)).contains e then s else addOverlay s e

/-- The dead tiles of a field row: the factory map's first. -/
def deadOfRow (s : State) (f r : Nat) : List (Nat × Bool) :=
  ((s.keep.boot.factory.filter fun e => e.1 = f && e.2.1 = r).map fun e => (e.2.2, false)) ++
    (((s.keep.boot.overlay ++ s.pwr.heldOverlay).filter fun e => e.tile.1 = f && e.tile.2.1 = r).map fun e => (e.tile.2.2, true))

/-- One row byte is published (R40); a second dead tile loses the field (R35). -/
def publishRow (f : Nat) (s : State) (r : Nat) : State :=
  match deadOfRow s f r with
  | [] => s
  | (c, src) :: rest =>
    if rest.any fun e => e.1 ≠ c then fieldLoss (setRowByte s f r c (bit src) 1) f else setRowByte s f r c (bit src) 0

/-- The field map is published. -/
def publishMap (s : State) : State := (List.range 48).foldl (fun s f => (List.range 16).foldl (publishRow f) s) s

/-- A field is switched on, self-tested and swept; a hibernated or lost one stays off. -/
def raiseField (s : State) (f : Nat) : State :=
  if fieldLost s f then s
  else if (rd s F.PWR_HIB_REQ 0).testBit f then wr s F.PWR_HIB_STATUS_OFF 0 (rd s F.PWR_HIB_STATUS_OFF 0 ||| 2 ^ f)
  else calibrate 0 (fieldUp s f) f

/-- The start list that this start follows (R502, R503): it belongs to the settings. -/
def startListNow (s : State) : List (Nat × Nat) :=
  if rdB s F.BOOT_CTL_START_LIST_EN 0 ∧ ¬ rdB s F.BOOT_STATUS_SETTINGS_DEFAULT 0 then s.keep.boot.startList else []

/-- The key of a plan image (R262). -/
def planKey (plan : Nat) : CaskKey := (plan, 0xFFFF, 0)

/-- A plan's masters in the cellar have their digests checked again (R503). -/
def recheckMasters (s : State) (plan : Nat) : State :=
  (s.store.masters.filter fun m => namesMaster (tget s.store.plans plan []) m).foldl (fun s m =>
    if m.bad ∨ caskDigestOk m.image then s else masterBad s m) s

/-- A region of the start list is bound with AUTORUN once its plan image is there, or is known not to be had. -/
def startBind (s : State) (e : Nat × Nat) : State :=
  if (tget? s.store.plans e.2).isNone ∧ s.store.unfound.contains (planKey e.2) = false then s
  else
    let s := modBoot (recheckMasters s e.2) fun b => { b with toBind := b.toBind.filter (· ≠ e) }
    let s := { s with store := { s.store with unfound := s.store.unfound.filter (· ≠ planKey e.2) } }
    match execBind (.mc 1) e.1 e.2 true false s with
    | .next t => t
    | _ => s

def startBinds (s : State) : State := s.keep.boot.toBind.foldl startBind s

/-- The plan images of the start list that the cellar lacks are fetched, and the binds begin (R503). -/
def startPlans (s : State) : State :=
  let l := startListNow s
  let s := modBoot s fun b => { b with toBind := l }
  startBinds (l.foldl (fun s e => if (tget? s.store.plans e.2).isNone then startFetch s (planKey e.2) 0 else s) s)

/-- Phase PLANS begins. -/
def enterPlans (s : State) : State := startPlans (enterPhase s phPlans)

/-- Phase FIELDS: not while a flow stop holds (R517). A cold start skips phase JOURNAL. -/
def fieldsPhase (m : PhaseResult) (s : State) : State :=
  if s.thm.stopped then s
  else
    let s := publishMap (m.deadTiles.foldl noteDeadTile s)
    let s := calEval ((List.range 48).foldl raiseField s)
    if s.keep.boot.kind = .warm then enterPhase s phJournal else enterPlans s

/-! ## JOURNAL, PLANS and READY -/

/-- Every queue pair is unbound. -/
def clearQps (s : State) : State :=
  { s with regs := s.regs.filter fun e => e.1 < 0x10701000 || 0x10703000 ≤ e.1 }

/-- The twin holds the streams (R379 step 1). -/
def twinHoldsStreams (s : State) : Bool :=
  s.twin.marker || s.twin.recorded = twSyncing || s.twin.recorded = twPaired || s.twin.recorded = twHandback

/-- One stream at its last committed state (R379 step 2): tokens not committed are taken back, and what only the array held of its context is
re-prefilled. -/
def restoreStream (s : State) (slot : Nat) : State :=
  let s := landExports (rollbackStream 0 s slot) slot
  modStream s slot fun x => { (if x.seat.isSome then loseContext x else x) with mirror := false, covered := false }

/-- Phase JOURNAL (R379). The JSN starts again at 1 (R360). -/
def journalPhase (s : State) : State :=
  let s := if twinHoldsStreams s then clearQps { s with strm := StreamSt.initial }
    else
      let s := releaseCommitted s
      let open_ := (s.strm.slots.filter fun e => e.2.state ≠ .closed).map (·.1)
      open_.foldl restoreStream s
  let old := s.strm
  let s := { s with strm := { old with frames := [], seqs := [], journal := ⟨1, 0, [], [], 1, 0, false, false⟩, cmds := old.cmds.map (fun (c : LCmd) => { c with jsn := 0 }) } }
  enterPlans (countStreams { s with twin := { s.twin with marker := false, recorded := twUnpaired } })

/-- The regions of the start list whose bind is not over. -/
def plansBusy (s : State) : Bool := s.keep.boot.toBind ≠ [] || (startListNow s).any fun e => cmdBusy s e.1

/-- Phase PLANS ends once every bind has ended: PARTIAL shows a failed one (R503), and the engine is READY. -/
def plansPhase (s : State) : State :=
  if plansBusy s then s
  else
    let bad := (startListNow s).any fun e => stQuota ≤ rd s F.REG_UNIT_STATUS_CMD_STATUS e.1
    let s := wrAll s 0 [(F.BOOT_STATUS_PARTIAL, bit bad), (F.BOOT_TIME_READY_MS, (s.clk.hall - s.keep.boot.origin) / 84000000)]
    startOffering (noteKeepOk (enterPhase s phReady))

/-- R497: the phase in progress finishes with what it found, and the next begins. -/
def execStartPhaseComplete (m : PhaseResult) (s : State) : Host.Outcome State Fault Refusal :=
  .next (match bootPhase s with
    | 1 => keepPhase s m.flash0 m.flash1
    | 2 => identityPhase m s
    | 3 => manifestPhase m s
    | 4 => settingsPhase m s
    | 5 => railsPhase m s
    | 6 => cellarPhase m s
    | 7 => fieldsPhase m s
    | 8 => journalPhase s
    | 9 => plansPhase s
    | _ => s)

/-! ## Events of the start -/

/-- R497: AUX12 rises, from no power at all: a cold start, with every volatile register at its reset value and hall time from 0 (R407, R476). -/
def execAux12Rise (s : State) : Host.Outcome State Fault Refusal :=
  let kept := [F.BOOT_COUNT_COUNT.base, F.BOOT_UPD_STATE.base]
  let s : State := { s with
    regs := State.reset.regs ++ s.regs.filter (fun (e : Nat × Word) => kept.contains e.1 || (0x10A01000 ≤ e.1 && e.1 < 0x10A03000)), events := [], bel := State.reset.bel,
    clk := State.reset.clk, pwr := { s.pwr with heldOverlay := [], logsDue := false }, alarmsDeferred := []
    keep := { s.keep with mbox := [], sessions := [], boot := { s.keep.boot with restarts := [] } } }
  let s := { s with regs := tsetAll [] s.regs, thm := { ThermSt.initial with turns := s.thm.turns, flashed := s.thm.flashed, snaps := s.thm.snaps } }
  .next (beginStart { s with fab := FabricSt.initial } .cold)

/-- R439, R497: the busbar returns to an engine in STANDBY: a full start. -/
def execBusbarReturn (s : State) : Host.Outcome State Fault Refusal :=
  .next (if s.pwr.rails ∨ bootPhase s ≠ phReady then s else beginStart s .cold)

/-- R528: SPIRE_PRES_N goes low, which lets the Keep switch on rails in phase RAILS, or high. -/
def execSpirePresence (low : Bool) (s : State) : Host.Outcome State Fault Refusal :=
  .next { s with pwr := { s.pwr with present := low } }

/-- R493: in recovery with no flash, the ROM repeats the discovery; once a device is present it takes a download, under the identity it derives. -/
def execFlashDiscoveryRetry (fl0 fl1 : Bool) (s : State) : Host.Outcome State Fault Refusal :=
  .next (if bootPhase s = phRecovery ∧ rd s F.BOOT_STATUS_CAUSE 0 = 4 ∧ ¬ s.keep.boot.fl0 ∧ ¬ s.keep.boot.fl1 ∧ (fl0 ∨ fl1) then
      identityDerived (modBoot s fun b => { b with fl0 := fl0, fl1 := fl1 })
    else s)

/-- R512: a trial start has not reached READY within READY_WAIT. -/
def execReadyWaitExpiry (s : State) : Host.Outcome State Fault Refusal :=
  .next (if (bootRecord s).trial ∧ (bootRecord s).fallback ≠ none ∧ bootPhase s ≠ phReady then fallBack s else s)

end Sys2Proof.Machine
end

