-- ==== Sys2Proof/Machine/Update.lean ====
section
/-! DEFINITION. Firmware updates (R510–R513, R516, R517). -/

namespace Sys2Proof.Machine

def updIdle : Nat := 0
def updStaging : Nat := 1
def updStaged : Nat := 2
def updTrial : Nat := 3
def updState (s : State) : Nat := rd s F.BOOT_UPD_STATE 0

/-- An update command completes: the response, and BOOT_UPD.STATUS. -/
def updDone (s : State) (q : Req) (st : Nat) : State := respond (wr s F.BOOT_UPD_STATUS 0 st) q st []

/-- The checks of an update command (R510, R516): an operator session; in the recovery ROM, on the ROM's own channels, with a valid identity, and
over the UART without a session where no operator key is held. -/
def serveUpdate (s : State) (q : Req) (cmd : Nat) (k : State → Req → State) : State :=
  if bootPhase s ≠ phRecovery then serve s q cmd .operator fun s q _ => k s q
  else if q.chan = 2 then s
  else if ¬ rdB s F.SEC_STATUS_IDENTITY 0 then serve s q cmd .none fun s q _ => respond s q stBadHandle []
  else if q.chan = 3 ∧ tget? s.keep.keys 0 = none then serve s q cmd .none fun s q _ => k s q
  else serve s q cmd .operator fun s q _ => k s q

/-- The slot that staging writes: the one not ACTIVE; in the recovery ROM slot A, or B where FL0 is absent (R493, R510, R516). -/
def stagingSlot (s : State) : Nat :=
  if bootPhase s = phRecovery then (if s.keep.boot.fl0 then 0 else 1) else 1 - (bootRecord s).active

/-! ## Components -/

def compCount (m : List Byte) : Nat := Config.manifestField m 2
def compLength (m : List Byte) (i : Nat) : Nat := Config.manifestComp m i 3

/-- Byte k of a component as programmed: that of the newest piece that covers it; a byte not programmed is erased. -/
def compByte (x : SlotImg) (i k : Nat) : Byte :=
  match x.chunks.find? fun c => c.1 = i && c.2.1 ≤ k && k < c.2.1 + c.2.2.length with
  | some c => c.2.2.getD (k - c.2.1) 0xFF
  | none => 0xFF

def compBytes (x : SlotImg) (i : Nat) : List Byte := (List.range (compLength x.manifest i)).map (compByte x i)

/-- Every component's digest matches (R501). -/
def digestsOk (x : SlotImg) : Bool :=
  (List.range (compCount x.manifest)).all fun i => shake256 (compBytes x i) 64 = Config.manifestDigest x.manifest i

/-- PROGRESS: percent of the staged components written (R518). -/
def noteProgress (s : State) : State :=
  let x := slotImg s (stagingSlot s)
  let total := (List.range (compCount x.manifest)).foldl (fun n i => n + compLength x.manifest i) 0
  let done := x.chunks.foldl (fun n c => n + c.2.2.length) 0
  wr s F.BOOT_UPD_PROGRESS 0 (if total = 0 then 100 else min 100 (100 * done / total))

/-- A piece of a component is programmed into the slot being staged. -/
def program (s : State) (q : Req) (i off : Nat) (data : List Byte) : State :=
  let n := stagingSlot s
  let x := slotImg s n
  if updState s ≠ updStaging ∨ compCount x.manifest ≤ i ∨ compLength x.manifest i < off + data.length then updDone s q stInternal
  else if sagLocked s then updDone s q stFrozen
  else updDone (noteProgress (setSlot s n { x with chunks := (i, off, data) :: x.chunks })) q stOk

/-! ## Commands -/

/-- R510: the new manifest's signature and SVN are checked, and the inactive slot is erased. -/
def execUpdateBegin (q : Req) (s : State) : Host.Outcome State Fault Refusal :=
  .next (serveUpdate s q 0x0200 fun s q =>
    let n := stagingSlot s
    if updState s = updStaging ∨ updState s = updTrial ∨ sagLocked s then updDone s q stFrozen
    else if ¬ (Config.manifestSigOk q.body ∧ svnOk s q.body ∧ slotPresent s n) then updDone s q stInternal
    else
      let s := setSlot s n ⟨q.body, [], false⟩
      updDone (wrAll s 0 [(F.BOOT_UPD_STATE, updStaging), (F.BOOT_UPD_SVN, Config.manifestField q.body 0), (F.BOOT_UPD_PROGRESS, 0)]) q stOk)

/-- R510: component index (4 bytes), offset (4 bytes) and up to 4,000 bytes. -/
def execUpdateData (q : Req) (s : State) : Host.Outcome State Fault Refusal :=
  .next (serveUpdate s q 0x0201 fun s q =>
    if q.body.length < 8 ∨ 4008 < q.body.length then updDone s q stInternal
    else program s q (numAt q.body 0 4) (numAt q.body 4 4) (q.body.drop 8))

/-- R510: a whole component, read by DMA or Gorla READ. data: what the read returned, none where it failed. -/
def execUpdateFetch (q : Req) (data : Option (List Byte)) (s : State) : Host.Outcome State Fault Refusal :=
  .next (serveUpdate s q 0x0202 fun s q =>
    match data with
    | none => updDone s q stInternal
    | some b => program s q (numAt q.body 0 4) 0 b)

/-- R510, R516: the slot is verified. A download of the recovery ROM writes the boot record and starts cold. -/
def execUpdateEnd (q : Req) (s : State) : Host.Outcome State Fault Refusal :=
  .next (serveUpdate s q 0x0203 fun s q =>
    let n := stagingSlot s
    let x := slotImg s n
    if updState s ≠ updStaging then updDone s q stInternal
    else if sagLocked s then updDone s q stFrozen
    else
      let s := raiseEngine s .report evUpdate 0 0
      if ¬ (svnOk s x.manifest ∧ digestsOk x) then updDone s q stInternal
      else
        let s := updDone (wr (setSlot s n { x with verified := true }) F.BOOT_UPD_STATE 0 updStaged) q stOk
        if bootPhase s ≠ phRecovery then s
        else
          let s := writeRecord s fun r => { r with active := n, fallback := none, trial := true }
          beginStart (modBoot s fun b => { b with trialKind := .cold }) .cold)

/-- R510: staging ends and the slot stays unverifiable. -/
def execUpdateAbort (q : Req) (s : State) : Host.Outcome State Fault Refusal :=
  .next (serveUpdate s q 0x0204 fun s q =>
    if updState s = updStaging ∨ updState s = updStaged then
      let n := stagingSlot s
      let s := setSlot s n { slotImg s n with chunks := [], verified := false }
      updDone (wrAll s 0 [(F.BOOT_UPD_STATE, updIdle), (F.BOOT_UPD_SVN, 0), (F.BOOT_UPD_PROGRESS, 0)]) q stOk
    else updDone s q stInternal)

/-- Component i is the same in two manifests. -/
def sameComp (a b : List Byte) (i : Nat) : Bool :=
  i < compCount a && i < compCount b && Config.manifestComp a i 0 = Config.manifestComp b i 0 && Config.manifestDigest a i = Config.manifestDigest b i

/-- Every component that differs between two manifests has restart kind KEEP (R511). -/
def keepOnlyChange (old new : List Byte) : Bool :=
  (List.range (max (compCount old) (compCount new))).all fun i => sameComp old new i || Config.manifestComp new i 2 = 0

/-- No start is in progress (R517). -/
def mayRestart (s : State) : Bool := bootPhase s = phReady || bootPhase s = phHalted

/-- A rack runs or a region command is in progress (R517). -/
def regionsBusy (s : State) : Bool := s.store.rack.isSome || s.units.any fun u => u.2.cmd.isSome

/-- A joined engine restarts fully only from PAIRED (R513). -/
def pairingForbids (s : State) : Bool := twState s = twSyncing || twState s = twHandback

/-- R511: the staged slot becomes ACTIVE for a trial, and the engine restarts. -/
def execActivate (q : Req) (s : State) : Host.Outcome State Fault Refusal :=
  .next (serve s q 0x0205 .operator fun s q _ =>
    let n := 1 - (bootRecord s).active
    let flags := numAt q.body 0 1
    let keepOnly : Bool := keepOnlyChange (slotImg s (bootRecord s).active).manifest (slotImg s n).manifest && !flags.testBit 0
    if bootPhase s = phRecovery ∨ updState s ≠ updStaged then updDone s q stInternal
    else if ¬ mayRestart s ∨ sagLocked s ∨ regionsBusy s ∨ (¬ keepOnly ∧ pairingForbids s ∧ ¬ flags.testBit 1) then updDone s q stFrozen
    else
      let s := writeRecord s fun r => { r with active := n, fallback := some r.active, trial := true }
      let s := modBoot (wr s F.BOOT_UPD_STATE 0 updTrial) fun b => { b with trialKind := if keepOnly then .keepOnly else .warm }
      let s := updDone s q stOk
      if keepOnly then plannedRestart (runSlot0 s n) else fullRestart (storedCal s) .warm)
where
  /-- The new firmware of a Keep-only restart runs. -/
  runSlot0 (s : State) (n : Nat) : State :=
    modBoot (wrAll (convertSettings s) 0 [(F.BOOT_STATUS_SLOT, n), (F.BOOT_STATUS_TRIAL, 1)]) fun b => { b with running := n }

/-- R512: the trial ends with the new firmware. -/
def execUpdateConfirm (q : Req) (s : State) : Host.Outcome State Fault Refusal :=
  .next (serve s q 0x0206 .operator fun s q _ =>
    let r := bootRecord s
    if bootPhase s = phRecovery ∨ ¬ r.trial ∨ updState s ≠ updTrial then updDone s q stInternal
    else if sagLocked s then updDone s q stFrozen
    else
      let s := writeRecord s fun x => { x with trial := false, minSvn := Config.manifestField (slotImg s r.active).manifest 0 }
      let s := modBoot (wrAll s 0 [(F.BOOT_UPD_STATE, updIdle), (F.BOOT_STATUS_TRIAL, 0)]) fun b => { b with settingsPrev := none }
      updDone (raiseEngine s .report evUpdate 0 0) q stOk)

/-- R512: during a trial, the previous slot is restored. -/
def execRollback (q : Req) (s : State) : Host.Outcome State Fault Refusal :=
  .next (serve s q 0x0207 .operator fun s q _ =>
    let r := bootRecord s
    if bootPhase s = phRecovery ∨ ¬ r.trial ∨ r.fallback = none then updDone s q stInternal
    else if sagLocked s then updDone s q stFrozen
    else fallBack (updDone s q stOk))

/-! ## Ordered restarts (R515) -/

/-- A restart request of BOOT_RESTART: from an operator session, with its status in the register. -/
def restartRequest (a : Agent) (s : State) (refused : Bool) (k : State → State) : State :=
  if ¬ isOperator s a then s
  else if ¬ mayRestart s ∨ refused then wr s F.BOOT_RESTART_STATUS 0 stFrozen
  else k (wr s F.BOOT_RESTART_STATUS 0 stOk)

/-- R515: a planned Keep-only restart, as under ACTIVATE. -/
def execRestartKeepOnly (a : Agent) (s : State) : Host.Outcome State Fault Refusal :=
  .next (restartRequest a s (regionsBusy s) plannedRestart)

/-- R515: a warm restart. -/
def execRestartWarm (a : Agent) (s : State) : Host.Outcome State Fault Refusal :=
  .next (restartRequest a s (pairingForbids s) fun s => fullRestart s .warm)

/-- R515: a cold restart, through STANDBY. -/
def execRestartCold (a : Agent) (s : State) : Host.Outcome State Fault Refusal :=
  .next (restartRequest a s (pairingForbids s) fun s => fullRestart s .cold)

end Sys2Proof.Machine
end

