-- ==== Sys2Proof/Machine/Boundary.lean ====
section
/-! DEFINITION. The tick boundary (R183): what closes a tick in every core, what the regions, the power domains, the clocks and the streams do
between two ticks, and what opens the next one. -/

namespace Sys2Proof.Machine

/-! ## What closes a tick in a core -/

/-- The cores that ran the tick. -/
def runningCores (s : State) : List Nat := (knownCores s).filter fun c => coreState s c = csRunning

/-- A numeric report of core c to its region. -/
def coreReport (s : State) (c ev : Nat) : State :=
  raiseEv s .report ev (rd s F.CORE_STATUS_TENANT c) (regionOfCore s c) c 0

/-- One event for each counter that advanced in the tick (R82, R98, R169). -/
def tickReports (s : State) (c : Nat) : State :=
  let a := (coreOf s c).adv
  let s := if a.resCode then coreReport s c evCodeReserved else s
  let s := if a.qsat then coreReport s c evNumSat else s
  let s := if a.clamp then coreReport s c evNumSat else s
  let s := if a.nanOp then coreReport s c evNanOperand else s
  let s := if a.conflict then coreReport s c evBankConflict else s
  let s := if a.emptyRows = 0 then s
    else coreReport (bump s F.REG_UNIT_CNT_EMPTY_ROW (regionOfCore s c) a.emptyRows) c evEmptyRow
  modCore s c fun co => { co with adv := ⟨false, false, false, false, false, 0⟩ }

/-- A taste still in flight is not completed, and a forced one that its replay did not reach is over (R106, R107). -/
def endTaste (s : State) (c : Nat) : State :=
  let ts := (coreOf s c).taster
  let s := if ts.flight.isSome then bump s F.CORE_TASTE_CNT_SKIPPED c 1 else s
  modCore s c fun co => { co with taster := { co.taster with
    flight := none, opened := 0, skip := false, forced := match co.taster.forced with | some (_, _, true) => none | x => x } }

/-- A core closes its tick: a tick without a TWAIT is an overrun (R85, R131), words beyond the inbox's eight are a fault (R138), and the
tick's reports go to the region. -/
def closeCore (s : State) (c : Nat) : State :=
  let co := coreOf s c
  let s := if co.done then s else recordFault s c evTickOverrun co.seq.pc (schedCycles s - 1) 0 false
  let s := if 8 < co.inbox.length + co.arrived.length then recordFault s c evMboxFault 0 (lastCycle s) 0 false else s
  tickReports (endTaste s c) c

/-! ## Heartbeats (R110, R212, R213) -/

/-- The bound cores (R110): those that run, and those whose region is stopped. -/
def boundCores (s : State) : List Nat := (knownCores s).filter fun c => [csBound, csRunning, csFaulted].contains (coreState s c)

/-- The heartbeat of core c for tick t; a clean one carries no tag. A core that did not run the tick has no tick wait to issue and sends DONE
(assumption 22). -/
def heartbeatOf (s : State) (t c : Nat) (ran : Bool) : Hb :=
  let co := coreOf s c
  let done := co.done || !ran
  let clean := done && !co.faulted && !co.aborted
  ⟨c, BitVec.ofNat 8 t, done, co.faulted, co.aborted, if clean then 0 else co.beat⟩

/-- The lantern of field f turns to tick t: it expects the field's bound cores. A tick in which it sent no summary was silent (R213). -/
def turnLantern (t : Nat) (bound ran : List Nat) (s : State) (f : Nat) : State :=
  let old := tget? s.net.lanterns f
  let silent := match old with
    | some l => if l.sent then 0 else l.silent + 1
    | none => 0
  setLantern s f { tick := t, expect := bound.filter fun c => fieldOf c = f, ran := ran.filter fun c => fieldOf c = f, hbs := [], sent := false,
                   silent := silent, droop := tget s.pwr.critTick f 0 = t + 1 }

/-- The fields whose lanterns are powered. -/
def lanternFields (s : State) : List Nat :=
  (((boundCores s).map fieldOf) ++ s.pwr.on.filter (fun f => f < 48 && !fieldLost s f)).eraseDups

/-- Every bound core sends its heartbeat, and every powered lantern turns to the tick. ran: the cores that ran it. -/
def sendHeartbeats (s : State) (t : Nat) (ran : List Nat) : State :=
  let bound := boundCores s
  let hbs := bound.map fun c => heartbeatOf s t c (ran.contains c)
  let fs := lanternFields s
  let s := { s with net := { s.net with hbOut := hbs.reverse ++ s.net.hbOut } }
  let s := hbs.foldl (fun s h => inject s h.core 3 (hbWords h)) s
  fs.foldl (turnLantern t bound ran) s

/-! ## Mailbox words (R138, R284) -/

/-- The Keep hands one IN word of a RUNNING region to the plan's MBOX_CORE: one that a replay must see again, or the oldest of IN. t: the tick that
opens. -/
def deliverUnit (t : Nat) (s : State) (r : Nat) : State :=
  let u := unitOf s r
  let put (w : Word) (s : State) : State :=
    let s := modUnit s r fun u => { u with delivered := u.delivered ++ [(t, w)] }
    modCore s (planMboxCore (boundPlan s r)) fun co => { co with arrived := co.arrived ++ [⟨0x3FFF, w⟩] }
  if regionState s r ≠ rsRunning ∨ u.stopAt ∨ u.stopIn = 1 ∨ nCores ≤ planMboxCore (boundPlan s r) then s
  else match u.again, u.inq with
    | w :: rest, _ => put w (setUnit s r { u with again := rest })
    | [], w :: rest => put w (noteMbox (setUnit s r { u with inq := rest }) r)
    | [], [] => s

/-- The words of the tick in the order of R138: from cores by sender, then from the unit mailbox. -/
def mailOrder (l : List Mail) : List Mail := l.mergeSort fun a b => a.sender ≤ b.sender

/-- The sequencer of core c turns to the next tick, and its words enter the inbox (R131, R138). -/
def turnCore (s : State) (c : Nat) : State :=
  modCore s c fun co =>
    let q := co.seq
    let new := (mailOrder co.arrived).take (8 - co.inbox.length)
    { co with
      seq := { q with pc := if q.waiting then q.resume else q.pc, waiting := false, halted := false, idle := 0 }
      inbox := co.inbox ++ new, entered := new.length, arrived := [], done := false, faulted := false, aborted := false, beat := 0,
      lastMsend := none, bundle := [], taken := false, steps := [] }

/-! ## Regions and clocks -/

/-- Regions with a plan or with a phase to carry on. -/
def activeUnits (s : State) : List Nat := s.units.map (·.1)

/-- A region that a loss of lock covered runs on (R44, R372). -/
def endCover (s : State) (r : Nat) : State :=
  let u := unitOf s r
  if u.covered ∧ regionState s r = rsRunning ∧ u.stopAt = false ∧ u.runAt = false then uncoverRegion s r else s

/-- The regions that stop at the boundary that closes tick t. -/
def stopRegions (s : State) (t : Nat) : State :=
  let s := (activeUnits s).foldl faultStop s
  let s := (activeUnits s).foldl commandStop s
  (knownCores s).foldl (packetStop t) s

/-- A clock step in force from this boundary on, in both halves (R43); VCORE follows it (R414). -/
def setStep (s : State) (step : Nat) : State :=
  wrAll { s with clk := { s.clk with nextStep := none } } 0 [(F.TICK_CLK_STATUS_STEP, step), (F.PWR_STATUS_VCORE_NOM, nominal step)]

/-- A step change that waits for its boundary; halves on their fallback PLLs keep 400 MHz (R45). -/
def stepClock (s : State) : State :=
  match s.clk.nextStep with
  | some n => if s.clk.fallback then s else setStep s n
  | none => s

/-- The regions that go on at the boundary that opens tick t: lanes spared, plans loaded and committed, replays and runs resumed. -/
def startRegions (s : State) (t : Nat) : State :=
  let s := startBinds (killLinks (spareLanes s))
  let s := (activeUnits s).foldl phaseStep s
  let s := (activeUnits s).foldl (resumeRegion t) s
  let s := (activeUnits s).foldl (fun s r => runRegion t s r) s
  settleAll (retireCheck (retryOp (flipStep s)))

/-- A tile that the self-test at the end of a field's wake finds dead is mapped around (R39, R426). -/
def bistFind (s : State) (e : Nat × Nat × Nat) : State :=
  match tget? s.pwr.ramps e.1 with
  | some r => if r.phase = .test 1 then outState s (execSubstitution e.1 e.2.1 e.2.2 s) else s
  | none => s

/-- Power domains advance by one step (R183 step 5), calibration and the plans that wait for their fields follow. -/
def stepPower (s : State) (bist : List (Nat × Nat × Nat)) : State :=
  let s := rampAll (bist.foldl bistFind s)
  rebindPlans (moveGuards (dropFields s))

/-! ## Streams (R321, R348, R361) -/

/-- The tick before which every tick of a region has closed cleanly (R112). -/
def closedBefore (s : State) (r : Nat) : Nat :=
  match (partsOf s r).map fun p => (unitOf s p).closedTick with
  | [] => 0
  | n :: l => l.foldl min n + 1

/-- The queue pairs that are bound. -/
def boundQps (s : State) : List Nat := (s.strm.qps.filter fun e => e.2.bound).map (·.1)

/-- The ledger is read and accepted, committed entries are written, the journal goes out, and streams are handed back; not before the engine is
READY, and not while the Keep restarts (R511, R514). -/
def stepStreams (s : State) (reads : List QpRead) : State :=
  if bootPhase s ≠ phReady then s
  else
    let s := (s.strm.slots.map (·.1)).foldl (fun s k => flushStream (closedBefore s (streamAt s k).region) s k) s
    let s := reads.foldl readQp s
    let s := noteTaken ((boundQps s).foldl acceptQp (releaseCommitted s))
    noteJsn (handbackStep (sendJournal (journalRoom s)))

/-! ## The boundary -/

/-- TICK_COUNT counts the boundary that closes tick t (R184). -/
def countTick (s : State) (t : Nat) : State := wr s F.TICK_COUNT_COUNT 0 (t + 1)

/-- Tick t opens: its number, the hall time of its boundary and its stretch are shown, and its cycle 0 is next (R180, R184, R186). -/
def openTick (s : State) (t : Nat) : State :=
  let s := pruneRim s t
  let closed := stretchOf s
  let s := wrAll s 0 [(F.TICK_COUNT_COUNT, t), (F.TICK_STAMP_HALL, hallNs s), (F.TICK_STRETCH_CUR, chooseStretch s)]
  { s with clk := { s.clk with cyc := 0, lastStretch := closed } }

/-- Steps 1 and 2 of R183: tick t closes in every core that ran it; cores that do not stop copy their state, with the words that enter. -/
def closeTick (s : State) (t : Nat) : State :=
  let s := (activeUnits s).foldl (deliverUnit (t + 1)) s
  let ran := runningCores s
  let s := ran.foldl closeCore s
  let s := sendHeartbeats s t ran
  ran.foldl (fun s c =>
    let s := turnCore s c
    if stopsNow s t c then s else copyCore (t + 1) s c) s

/-- The steps that every boundary takes once the tick is counted: commits, clock step, power domains (R183 steps 3 to 5). -/
def betweenTicks (s : State) (x : TickInputs) : State :=
  portsCarry (stepPower (stepClock (applyCommits s)) x.bist)

/-- The rest of the boundary that opens tick t, once the tick before has closed: R183 steps 3 to 5, regions, streams, the twin's heartbeat (R366),
the forecast and the source TICK. -/
def afterClose (x : TickInputs) (s : State) (t : Nat) : State :=
  let s := startRegions (betweenTicks s x) t
  raiseSource (sendVout (sendForecast (sendHb (stepStreams s x.reads)))) 30

/-- What happens at the boundary that closes tick t, up to the opening of the next. -/
def boundary (x : TickInputs) (s : State) (t : Nat) : State :=
  let s := countTick (closeTick s t) t
  let s := (activeUnits s).foldl (endReplayed t) s
  let s := stopRegions s t
  let s := (activeUnits s).foldl endCover s
  afterClose x s (t + 1)

/-- R183: the end of a tick. The tick's remaining cycles pass first; a gated clock has no boundary (R44). -/
def execTickBoundary (x : TickInputs) (s : State) : Host.Outcome State Fault Refusal :=
  .next (if s.clk.gated then s
    else
      let s := restOfTick s
      openTick (boundary x s (tickCount s)) (tickCount s + 1))

end Sys2Proof.Machine
end

