-- ==== Sys2Proof/Machine/Clocks.lean ====
section
/-! DEFINITION. Losses of lock and of the reference, the fallback to 400 MHz and the return from it (R44–R46, R523). -/

namespace Sys2Proof.Machine

/-! ## The restart of the halves (R44) -/

/-- The regions that were running and do not stop for an earlier fault at this boundary. -/
def replayedByLoss (s : State) : List Nat := (activeUnits s).filter fun r => regionRuns s r && (unitOf s r).stopAt = false

/-- The abandoned tick t is taken back in one region: its cores take up the generation that opens it, its tokens and the words it sent are
withdrawn, the replay is counted, and the twin covers its streams. -/
def abandonRegion (t : Nat) (s : State) (r : Nat) : State :=
  let s := coverRegion s r
  let s := (liveCores s r).foldl (fun s c => if coreState s c = csRunning then restoreCore (coreOf s c).newer s c else s) s
  let s := (streamsOf s r).foldl (rollbackStream t) s
  let s := bump s F.REG_UNIT_CNT_REPLAYS r 1
  modUnit s r fun u => { u with outWait := u.outWait.filter fun w => w.1 < t, replayed := true }

/-- Words, results and accesses under way in the abandoned tick are gone. -/
def clearFlight (s : State) (c : Nat) : State :=
  modCore s c fun co => { co with pend := [], ops := [], bundle := [], held := [], inWords := [], deliv := [], taken := false, p7 := [], egress := [], steps := [] }

/-- Both halves restart from their fallback PLLs at 400 MHz. The boundary that opens the restart closes the abandoned tick: it counts, it shows hall
time, and every core copies the restored state. Regions that stop for an earlier fault do so now. -/
def restartHalves (s : State) : State :=
  let t := tickCount s
  let rs := replayedByLoss s
  let s := setStep { s with clk := { s.clk with gated := false } } 3
  let s := rs.foldl (abandonRegion t) s
  let s := sendHeartbeats (eachCore s clearFlight) t []
  let s := rs.foldl (fun s r => (liveCores s r).foldl (fun s c => if coreState s c = csRunning then copyCore (t + 1) s c else s) s) s
  let s := (activeUnits s).foldl faultStop (countTick s t)
  openTick (afterClose ⟨[], []⟩ s (t + 1)) (t + 1)

/-! ## Losses of lock (R44, R45, R523) -/

/-- The lock bit of a half: 0 west, 1 east. -/
def lockField (half : Nat) : Field := if half = 0 then F.TICK_CLK_STATUS_W_LOCK else F.TICK_CLK_STATUS_E_LOCK

def bothLocked (s : State) : Bool := rdB s F.TICK_CLK_STATUS_W_LOCK 0 && rdB s F.TICK_CLK_STATUS_E_LOCK 0

/-- The halves fall back. -/
def fallToFallback (s : State) : State :=
  let s := { s with clk := { s.clk with fallback := true } }
  let s := modPwr (wr s F.TICK_CLK_STATUS_FALLBACK 0 1) fun p => { p with raise := none }
  restartHalves (raiseEngine s .alarm evClockFallback 0 0)

/-- A loss of lock: it counts, and a second one within an hour, on fallback or not, holds both halves at 400 MHz (R45). Halves that run from their main
PLLs fall back. -/
def lossOfLock (s : State) : State :=
  let again : Bool := match s.clk.lossAt with | some h => hallNs s < h + 3600000000000 | none => false
  let s := { s with clk := { s.clk with steady := false, held := s.clk.held || again, lossAt := some (hallNs s) } }
  let s := bump s F.TICK_CLK_STATUS_FALLBACK_CNT 0 1
  if s.clk.gated ∨ s.clk.fallback then s else fallToFallback s

/-- R44: a half's main PLL loses lock. -/
def execPllLockLoss (half : Nat) (s : State) : Host.Outcome State Fault Refusal :=
  .next (if 2 ≤ half ∨ rd s (lockField half) 0 = 0 then s else lossOfLock (wr s (lockField half) 0 0))

/-- R523: REFCLK stops for 1 µs: every PLL goes to the backup oscillator, and both halves follow R44. -/
def execRefclkLoss (s : State) : Host.Outcome State Fault Refusal :=
  .next (if s.clk.refLost then s
    else lossOfLock (wrAll { s with clk := { s.clk with refLost := true } } 0 [(F.TICK_CLK_STATUS_W_LOCK, 0), (F.TICK_CLK_STATUS_E_LOCK, 0)]))

/-- R523: REFCLK has been present for 1 s: the main PLLs may relock from it. -/
def execRefclkRestore (s : State) : Host.Outcome State Fault Refusal := .next { s with clk := { s.clk with refLost := false } }

/-! ## The return (R45) -/

/-- The halves leave their fallback PLLs for the throttle-selected step, at a boundary and after its voltage (R414). -/
def leaveFallback (s : State) : State :=
  let s := { s with clk := { s.clk with fallback := false, steady := false, held := false } }
  requestStep (wr s F.TICK_CLK_STATUS_FALLBACK 0 0) s.pwr.sel

/-- R45: a main PLL locks again. In the start the clock is raised once both have locked (R46). -/
def execPllRelock (half : Nat) (s : State) : Host.Outcome State Fault Refusal :=
  .next (if 2 ≤ half ∨ s.clk.refLost then s
    else
      let s := wr s (lockField half) 0 1
      if bothLocked s ∧ ¬ s.clk.fallback ∧ ¬ s.clk.gated then requestStep s s.pwr.sel else s)

/-- R45: the failed main PLL has held lock for 1 s. Halves that are held wait for the operator. -/
def execClockReturn (s : State) : Host.Outcome State Fault Refusal :=
  .next (if ¬ s.clk.fallback ∨ ¬ bothLocked s ∨ s.clk.refLost then s
    else if s.clk.held then { s with clk := { s.clk with steady := true } }
    else leaveFallback s)

/-- R46: a write of 1 to FALLBACK, which takes effect only in an operator session: it ends the hold (R45). -/
def clearFallback (s : State) (a : Agent) : State :=
  if isOperator s a then
    let s := wr { s with clk := { s.clk with held := false } } F.TICK_CLK_STATUS_FALLBACK 0 0
    if s.clk.fallback ∧ s.clk.steady then leaveFallback s else s
  else noteRefused s F.TICK_COMMIT_WRITE_STATUS 0 stBadHandle

def execClearFallback (a : Agent) (s : State) : Host.Outcome State Fault Refusal := .next (clearFallback s a)

end Sys2Proof.Machine
end

