-- ==== Sys2Proof/Machine/Mctp.lean ====
section
/-! DEFINITION. Management over MCTP (R352) and the SPDM measurements (R509). An answer holds the values that this spec gives and, where it gives none,
a value of Config; the framing of the DMTF standards is left out. -/

namespace Sys2Proof.Machine

/-! ## Answers -/

def modMctp (s : State) (f : MctpSt → MctpSt) : State := { s with keep := { s.keep with mctp := f s.keep.mctp } }

/-- An answer goes to the requester. -/
def answerMctp (s : State) (n : Nat) (m : MctpMsg) (body : List Byte) : State :=
  modMctp s fun x => { x with answers := ⟨m.port, m.eid, n, body⟩ :: x.answers }

/-- The hash negotiated on a port. -/
def mctpHash (s : State) (port : Nat) (b : List Byte) : List Byte :=
  if tget s.keep.mctp.hashes port 0 = 0 then sha384 b else sponge 72 0x06 64 b

/-- Byte i of a request. -/
def argAt (m : MctpMsg) (i : Nat) : Nat := numAt m.body i 1

/-! ## MCTP control: messages 0 to 4 -/

def doSetEndpointId (m : MctpMsg) (s : State) : State :=
  answerMctp (modMctp s fun x => { x with eids := tset x.eids m.port (argAt m 0) }) 0 m (bytesOf 1 (argAt m 0))

def doGetEndpointId (m : MctpMsg) (s : State) : State := answerMctp s 1 m (bytesOf 1 (tget s.keep.mctp.eids m.port 0))

def doGetEndpointUuid (m : MctpMsg) (s : State) : State := answerMctp s 2 m (Config.mctpValue 2 [])

def doGetMctpVersionSupport (m : MctpMsg) (s : State) : State := answerMctp s 3 m (Config.mctpValue 3 m.body)

/-- The types of R352: MCTP control, SPDM and PLDM, by their numbers in MctpMsg. -/
def doGetMessageTypeSupport (m : MctpMsg) (s : State) : State := answerMctp s 4 m [0, 1, 2]

/-! ## SPDM: messages 5 to 11 (R352, R509) -/

/-- SPDM 1.2. -/
def doGetVersion (m : MctpMsg) (s : State) : State := answerMctp s 5 m [1, 2]

/-- The messages that the responder supports. -/
def doGetCapabilities (m : MctpMsg) (s : State) : State := answerMctp s 6 m [5, 6, 7, 8, 9, 10, 11]

/-- One of the offered hashes that the responder supports is negotiated; which of two is not given. -/
def doNegotiateAlgorithms (m : MctpMsg) (s : State) : State :=
  let both := (m.body.map (·.toNat)).filter (· ≤ 1)
  if both = [] then answerMctp s 7 m []
  else
    let (i, s) := draw s both.length
    let h := both.getD i 0
    answerMctp (modMctp s fun x => { x with hashes := tset x.hashes m.port h }) 7 m (bytesOf 1 h)

def doGetDigests (m : MctpMsg) (s : State) : State := answerMctp s 8 m (mctpHash s m.port Config.certChain)

/-- Slot 0 holds the identity certificate chain; the other slots are empty. -/
def doGetCertificate (m : MctpMsg) (s : State) : State :=
  answerMctp s 9 m (if argAt m 0 = 0 then (Config.certChain.drop (numAt m.body 1 2)).take (numAt m.body 3 2) else [])

/-- Signed with the identity key, over the request and the digest of the chain. -/
def doSpdmChallenge (m : MctpMsg) (s : State) : State :=
  let d := mctpHash s m.port Config.certChain
  answerMctp s 10 m (if argAt m 0 = 0 then d ++ identitySign (m.body ++ d) else [])

/-- The bytes of a table of numbers. -/
def tableBytes (t : Table Word) : List Byte := t.flatMap fun e => bytesOf 8 e.1 ++ bytesOf 8 e.2.toNat

/-- The bytes of map entries. -/
def tileBytes (l : List (Nat × Nat × Nat)) : List Byte := l.flatMap fun e => bytesOf 1 e.1 ++ bytesOf 1 e.2.1 ++ bytesOf 1 e.2.2

/-- Measurement i (R509): a digest, or raw. -/
def measurement (s : State) (port i : Nat) : List Byte :=
  let h (b : List Byte) : List Byte := mctpHash s port b
  let r := bootRecord s
  match i with
  | 1 => h Config.romImage
  | 2 => h (slotImg s s.keep.boot.running).manifest
  | 3 => bytesOf 1 r.active ++ bytesOf 1 (bit r.trial) ++ bytesOf 4 r.minSvn
  | 4 => h (tableBytes (settingsOf s))
  | 5 => h (tileBytes s.keep.boot.factory ++ tileBytes (s.keep.boot.overlay.map (·.tile)))
  | 6 => h (Config.familyDigest (planSetNow s))
  | 7 => bytesOf 8 (regWord s F.KEEP_ID_DEVICE 0).toNat
  | 8 => h (s.keep.owners.flatMap fun e => bytesOf 2 e.1 ++ e.2)
  | 9 => h ((List.range 4).flatMap fun k => bytesOf 8 (regWord s F.SEC_KEYS_PRESENT k).toNat)
  | 10 => bytesOf 4 (bootCount s) ++ bytesOf 1 (rd s F.KEEP_STATUS_CAUSE 0)
  | _ => []

/-- The measurements asked for, signed with the identity key. -/
def doGetMeasurements (m : MctpMsg) (s : State) : State :=
  let l := if argAt m 0 = 0xFF then (List.range 10).map (· + 1) else [argAt m 0]
  let b := l.flatMap (measurement s m.port)
  answerMctp s 11 m (b ++ identitySign (m.body ++ b))

/-! ## PLDM: messages 12 to 20 -/

def doGetTid (m : MctpMsg) (s : State) : State := answerMctp s 12 m (Config.mctpValue 12 [])

def doGetPldmVersion (m : MctpMsg) (s : State) : State := answerMctp s 13 m (Config.mctpValue 13 m.body)

/-- Base and monitoring. -/
def doGetPldmTypes (m : MctpMsg) (s : State) : State := answerMctp s 14 m [0, 1]

/-- The messages of R352 of the type asked for. -/
def doGetPldmCommands (m : MctpMsg) (s : State) : State :=
  answerMctp s 15 m (if argAt m 0 = 0 then [12, 13, 14, 15] else [16, 17, 18, 19, 20])

def doGetPdrRepositoryInfo (m : MctpMsg) (s : State) : State := answerMctp s 16 m (Config.mctpValue 16 [])

def doGetPdr (m : MctpMsg) (s : State) : State := answerMctp s 17 m (Config.mctpValue 17 m.body)

/-- The numeric sensors: channel values, the temperature maxima, the flow, and the PMBus readings (R415, R461). -/
def sensorValue (s : State) (n : Nat) : List Byte :=
  if n < 16 then bytesOf 4 (rd s F.CHAN_VAL_VALUE n)
  else match n with
    | 16 => bytesOf 2 (rd s F.THM_STATUS_TJ_MAX 0)
    | 17 => bytesOf 2 (rd s F.THM_STATUS_THBM_MAX 0)
    | 18 => bytesOf 4 (rd s F.THM_STATUS_FLOW 0)
    | 19 => bytesOf 4 (rd s F.PWR_TELEM_POWER 0)
    | 20 => bytesOf 2 (rd s F.PWR_TELEM_BUSBAR 0)
    | 21 => bytesOf 2 (rd s F.PWR_TELEM_AUX33 0)
    | _ => []

def doGetSensorReading (m : MctpMsg) (s : State) : State := answerMctp s 18 m (sensorValue s (numAt m.body 0 2))

/-- The state sensors: the STATE of each channel. -/
def doGetStateSensorReadings (m : MctpMsg) (s : State) : State :=
  let n := numAt m.body 0 2
  answerMctp s 19 m (if n < 16 then bytesOf 1 (rd s F.CHAN_VAL_STATE n) else [])

def doSetEventReceiver (m : MctpMsg) (s : State) : State :=
  answerMctp (modMctp s fun x => { x with receiver := some (m.port, argAt m 0) }) 20 m []

/-- Any other message gets its type's unsupported-command completion. -/
def doUnsupportedMessage (m : MctpMsg) (s : State) : State := answerMctp s 21 m (bytesOf 1 (argAt m 0))

/-! ## Requests (R352, R509) -/

/-- A request is taken on a port whose link is up. -/
def onMctp (m : MctpMsg) (s : State) (k : State → State) : State := if (pcieOf s m.port).up then k s else s

/-- The SPDM responder is there from the end of phase IDENTITY on, but not in the recovery ROM. -/
def spdmHere (s : State) : Bool := rdB s F.SEC_STATUS_IDENTITY 0 && bootPhase s ≠ phRecovery

/-- An SPDM or PLDM request that arrives while the Keep restarts waits for the end of the restart. -/
def unlessRestart (n : Nat) (m : MctpMsg) (s : State) (k : State → State) : State :=
  onMctp m s fun s =>
    if bootPhase s = phKeepRestart then modMctp s fun x => { x with deferred := x.deferred ++ [(n, m)] } else k s

def onSpdm (n : Nat) (m : MctpMsg) (s : State) (k : State → State) : State :=
  unlessRestart n m s fun s => if spdmHere s then k s else s

def execSetEndpointId (m : MctpMsg) (s : State) : Host.Outcome State Fault Refusal := .next (onMctp m s (doSetEndpointId m))
def execGetEndpointId (m : MctpMsg) (s : State) : Host.Outcome State Fault Refusal := .next (onMctp m s (doGetEndpointId m))
def execGetEndpointUuid (m : MctpMsg) (s : State) : Host.Outcome State Fault Refusal := .next (onMctp m s (doGetEndpointUuid m))
def execGetMctpVersionSupport (m : MctpMsg) (s : State) : Host.Outcome State Fault Refusal := .next (onMctp m s (doGetMctpVersionSupport m))
def execGetMessageTypeSupport (m : MctpMsg) (s : State) : Host.Outcome State Fault Refusal := .next (onMctp m s (doGetMessageTypeSupport m))
def execGetVersion (m : MctpMsg) (s : State) : Host.Outcome State Fault Refusal := .next (onSpdm 5 m s (doGetVersion m))
def execGetCapabilities (m : MctpMsg) (s : State) : Host.Outcome State Fault Refusal := .next (onSpdm 6 m s (doGetCapabilities m))
def execNegotiateAlgorithms (m : MctpMsg) (s : State) : Host.Outcome State Fault Refusal := .next (onSpdm 7 m s (doNegotiateAlgorithms m))
def execGetDigests (m : MctpMsg) (s : State) : Host.Outcome State Fault Refusal := .next (onSpdm 8 m s (doGetDigests m))
def execGetCertificate (m : MctpMsg) (s : State) : Host.Outcome State Fault Refusal := .next (onSpdm 9 m s (doGetCertificate m))
def execSpdmChallenge (m : MctpMsg) (s : State) : Host.Outcome State Fault Refusal := .next (onSpdm 10 m s (doSpdmChallenge m))
def execGetMeasurements (m : MctpMsg) (s : State) : Host.Outcome State Fault Refusal := .next (onSpdm 11 m s (doGetMeasurements m))
def execGetTid (m : MctpMsg) (s : State) : Host.Outcome State Fault Refusal := .next (unlessRestart 12 m s (doGetTid m))
def execGetPldmVersion (m : MctpMsg) (s : State) : Host.Outcome State Fault Refusal := .next (unlessRestart 13 m s (doGetPldmVersion m))
def execGetPldmTypes (m : MctpMsg) (s : State) : Host.Outcome State Fault Refusal := .next (unlessRestart 14 m s (doGetPldmTypes m))
def execGetPldmCommands (m : MctpMsg) (s : State) : Host.Outcome State Fault Refusal := .next (unlessRestart 15 m s (doGetPldmCommands m))
def execGetPdrRepositoryInfo (m : MctpMsg) (s : State) : Host.Outcome State Fault Refusal :=
  .next (unlessRestart 16 m s (doGetPdrRepositoryInfo m))
def execGetPdr (m : MctpMsg) (s : State) : Host.Outcome State Fault Refusal := .next (unlessRestart 17 m s (doGetPdr m))
def execGetSensorReading (m : MctpMsg) (s : State) : Host.Outcome State Fault Refusal := .next (unlessRestart 18 m s (doGetSensorReading m))
def execGetStateSensorReadings (m : MctpMsg) (s : State) : Host.Outcome State Fault Refusal :=
  .next (unlessRestart 19 m s (doGetStateSensorReadings m))
def execSetEventReceiver (m : MctpMsg) (s : State) : Host.Outcome State Fault Refusal := .next (unlessRestart 20 m s (doSetEventReceiver m))

/-- An unsupported control message is answered at once; an SPDM or PLDM one as its type. -/
def execUnsupportedMessage (m : MctpMsg) (s : State) : Host.Outcome State Fault Refusal :=
  .next (match argAt m 0 with
    | 0 => onMctp m s (doUnsupportedMessage m)
    | 1 => onSpdm 21 m s (doUnsupportedMessage m)
    | _ => unlessRestart 21 m s (doUnsupportedMessage m))

/-- One request that waited for the end of a Keep restart is answered. -/
def answerDeferred (s : State) (e : Nat × MctpMsg) : State :=
  let m := e.2
  let spdm (k : State → State) : State := if spdmHere s then k s else s
  match e.1 with
  | 5 => spdm (doGetVersion m)
  | 6 => spdm (doGetCapabilities m)
  | 7 => spdm (doNegotiateAlgorithms m)
  | 8 => spdm (doGetDigests m)
  | 9 => spdm (doGetCertificate m)
  | 10 => spdm (doSpdmChallenge m)
  | 11 => spdm (doGetMeasurements m)
  | 12 => doGetTid m s
  | 13 => doGetPldmVersion m s
  | 14 => doGetPldmTypes m s
  | 15 => doGetPldmCommands m s
  | 16 => doGetPdrRepositoryInfo m s
  | 17 => doGetPdr m s
  | 18 => doGetSensorReading m s
  | 19 => doGetStateSensorReadings m s
  | 20 => doSetEventReceiver m s
  | _ => doUnsupportedMessage m s

/-- Every request that waited is answered, the oldest first. -/
def answerAllDeferred (s : State) : State :=
  s.keep.mctp.deferred.foldl answerDeferred (modMctp s fun x => { x with deferred := [] })

end Sys2Proof.Machine
end

