-- ==== Sys2Proof/Machine/Restart.lean ====
section
/-! DEFINITION. Watchdogs, self-tests and scrubs of the Keep (R466–R468), and Keep restarts (R350, R367, R486, R511, R512, R514). -/

namespace Sys2Proof.Machine

/-! ## Unplanned restarts (R514) -/

def causeWatchdog : Nat := 1
def causeSram : Nat := 2
def causeSelftest : Nat := 3

/-- The engine enters FENCED, with the fence marker written, and starts warm (R379, R514). -/
def fencedStart (s : State) : State :=
  let s := modTwin (stopQueues s) fun t => { t with marker := true }
  beginStart (raiseEngine (setTwin s twFenced) .alarm evTwinFenced 0 0) .warm

/-- The Keep reloads, with the halves gated; the streams and regions stay as they stand. -/
def beginReload (s : State) : State :=
  let s := enterPhase (wrAll s 0 [(F.KEEP_STATUS_OK, 0), (F.KEEP_STATUS_PLANNED_RESTART, 0)]) phKeepRestart
  modBoot s fun b => { b with kind := .keepOnly, origin := s.clk.hall, rerun := [], planned := false }

/-- Another unplanned restart came less than 10 min ago. -/
def restartedLately (s : State) : Bool := s.keep.boot.restarts.any fun h => hallNs s < h + 600000000000

/-- How the restart goes on: by a fall-back during a trial (R512), by a takeover when the engine is joined to its twin, by a start when one was in
progress or when the Keep restarts again too soon, and else by a reload. -/
def afterCrash (s : State) (lately : Bool) : State :=
  let r := bootRecord s
  let inStart : Bool := bootPhase s ≠ phReady && bootPhase s ≠ phKeepRestart
  let onTrial : Bool := r.trial && r.fallback ≠ none
  let s := if onTrial then endTrial s else s
  let kind := s.keep.boot.trialKind
  if ¬ inStart ∧ journaled s then fencedStart s
  else if onTrial ∧ kind ≠ .keepOnly then beginStart (storedCal s) kind
  else if inStart then beginStart s (if s.keep.boot.kind = .keepOnly then .warm else s.keep.boot.kind)
  else if lately then beginStart s .warm
  else beginReload s

/-- An unplanned Keep restart: the halves are gated, the events raised, the cause recorded, requests lost with RESTARTED set, sessions closed
(R507), and sources held by management cores pending again (R486). -/
def unplannedRestart (s : State) (cause : Nat) : State :=
  let s := { s with clk := { s.clk with gated := true } }
  let s := if cause = causeWatchdog then raiseEngine s .alarm evKeepWdt 0 0 else s
  let s := countRestart (raiseEngine s .report evKeepRestart 0 0) cause
  let s := belfryKeepRestart (dropRequests (closeSessions s fun _ => true))
  let lately := restartedLately s
  afterCrash (modBoot s fun b => { b with restarts := hallNs s :: b.restarts }) lately

/-- R514: an unplanned Keep restart with its cause: 1 watchdog, 2 SRAM, 3 self-test. -/
def execKeepRestart (cause : Nat) (s : State) : Host.Outcome State Fault Refusal :=
  .next (if 1 ≤ cause ∧ cause ≤ 3 then unplannedRestart s cause else s)

/-! ## What leads to one (R466–R468) -/

/-- R466: PERIOD of an enabled watchdog has lapsed without a kick: stage 1 with source WDT_m, then stage 2 with a restart. The watchdog of a held core is
stopped. -/
def execWatchdogStage (m : Nat) (s : State) : Host.Outcome State Fault Refusal :=
  .next (if 8 ≤ m ∨ s.keep.boot.heldMcs.contains m ∨ ¬ rdB s F.KEEP_WDT_EN m then s
    else match rd s F.KEEP_WDT_STAGE m with
      | 0 => raiseSource (wr s F.KEEP_WDT_STAGE m 1) (m + 1)
      | 1 => unplannedRestart (noteKeepOk (wr s F.KEEP_WDT_STAGE m 2)) causeWatchdog
      | _ => s)

/-- The stand-in of a management core (R465). -/
def standIn (m : Nat) : Nat := [7, 3, 6, 1, 5, 4, 2, 0].getD m 0

/-- The sources that target a core target its stand-in (R465). -/
def passRoles (s : State) (m : Nat) : State :=
  (List.range 1024).foldl (fun s n =>
    let k := rd s F.BELFRY_SRC_CFG_MASK n
    if k.testBit m then wr s F.BELFRY_SRC_CFG_MASK n ((k - 2 ^ m) ||| 2 ^ standIn m) else s) s

/-- A core that fails its self-test is held in reset (R467). -/
def holdCore (s : State) (m : Nat) : State :=
  if 8 ≤ m ∨ s.keep.boot.heldMcs.contains m then s
  else
    let s := modBoot s fun b => { b with heldMcs := m :: b.heldMcs }
    passRoles (bump (wr s F.KEEP_STATUS_MC_DOWN 0 (rd s F.KEEP_STATUS_MC_DOWN 0 ||| 2 ^ m)) F.KEEP_CNT_SELFTEST_FAIL 0 1) m

/-- R467: every running core has run its self-test; fails: those whose result differs. A second core held restarts the Keep. -/
def execKeepSelftest (fails : List Nat) (s : State) : Host.Outcome State Fault Refusal :=
  let t := noteKeepOk (fails.foldl holdCore s)
  .next (if s.keep.boot.heldMcs.length < t.keep.boot.heldMcs.length ∧ 2 ≤ t.keep.boot.heldMcs.length then unplannedRestart t causeSelftest else t)

/-- R468: the SRAM scrub corrects single-bit errors; an uncorrectable error restarts the Keep. -/
def execSramScrub (corr : Nat) (uncorr : Bool) (s : State) : Host.Outcome State Fault Refusal :=
  let s := bump s F.KEEP_CNT_SRAM_CORR 0 corr
  .next (if uncorr then unplannedRestart s causeSram else s)

/-! ## The end of a restart (R350, R511, R514) -/

/-- Every core runs again, its watchdog in stage 0 (R466, R467). -/
def freshCores (s : State) : State :=
  (List.range 8).foldl (fun s m => wr s F.KEEP_WDT_STAGE m 0) (modBoot (wr s F.KEEP_STATUS_MC_DOWN 0 0) fun b => { b with heldMcs := [] })

/-- The engine is READY again, and SPDM and PLDM requests that waited are answered. -/
def resumeReady (s : State) : State :=
  answerAllDeferred (noteKeepOk (enterPhase (wr (freshCores s) F.KEEP_STATUS_PLANNED_RESTART 0 0) phReady))

/-- R350, R511, R514: a Keep restart ends. After a planned one the regions that ran run again; after another the halves restart at 400 MHz and the
regions replay, where the rails are on. -/
def execKeepRestartComplete (s : State) : Host.Outcome State Fault Refusal :=
  let b := s.keep.boot
  .next (if bootPhase s ≠ phKeepRestart ∨ (b.planned ∧ b.rerun.any (regionRuns s)) then s
    else
    let s := belfryRunning s
    if b.planned then
      let s := resumeReady s
      b.rerun.foldl armRun (modBoot s fun b => { b with rerun := [] })
    else if s.pwr.rails ∧ ¬ rdB s F.PWR_STATUS_SPIRE_FAULT 0 then restartHalves (resumeReady s)
    else resumeReady s)

end Sys2Proof.Machine
end

