-- ==== Sys2Proof/Machine/Registers.lean ====
section
/-! DEFINITION. The register commands: COMMIT (R20), REGISTER_WRITE (R17, R21–R23), READ_CLEAR (R18) and DEBUG_ROW_GO (R103). A write or a read of a
register that has a row of its own acts as that row (R471, R482, R483, R496 and the block maps). -/

namespace Sys2Proof.Machine

/-! ## Access shape (R17, R464) -/

/-- A naturally aligned 64-bit access. -/
def whole64 (addr width : Nat) : Bool := width = 8 && addr % 8 = 0

/-- The host port whose channel and windows an agent sees. -/
def portOf (a : Agent) : Option Nat :=
  match a with
  | .host p => if p < 2 then some p else none
  | _ => none

/-! ## The mailbox windows (R471, R490) -/

/-- KEEP_MBOX_CTL as it reads. -/
def mboxCtlWord (m : Mailbox) : Word :=
  BitVec.ofNat 64 ((if m.done then m.rsp.length else 0) * 2 ^ 32 + m.reqLen * 2 ^ 16 + bit m.restarted * 8 + bit m.done * 4 +
    bit m.busy.isSome * 2)

/-- A write of KEEP_MBOX_CTL: REQ_LEN, RESTARTED and GO. -/
def writeMboxCtl (s : State) (p : Nat) (v : Word) : State :=
  let m := mboxOf s p
  let s := setMbox s p { m with reqLen := v.toNat / 2 ^ 16 % 2 ^ 16, restarted := m.restarted && !v.getLsbD 3 }
  if v.getLsbD 0 then mboxGo s p else s

/-- A word of a request window. -/
def writeMboxReq (s : State) (p i : Nat) (v : Word) : State :=
  let m := mboxOf s p
  setMbox s p { m with window := tset m.window i v }

/-! ## The MSI-X structures (R318, R481) -/

/-- A write of one 8-byte word of a port's MSI-X table. An entry's mask is bit 32 of its second word; a pending vector that becomes unmasked is
sent. -/
def writeMsix (s : State) (p i : Nat) (v : Word) : State :=
  let port := pcieOf s p
  let port := { port with table := tset port.table i v }
  let n := i / 2
  if i % 2 = 0 then { s with pcie := tset s.pcie p port }
  else if v.getLsbD 32 then { s with pcie := tset s.pcie p { port with masked := (port.masked.filter (· ≠ n)) ++ [n] } }
  else
    let s := { s with pcie := tset s.pcie p { port with masked := port.masked.filter (· ≠ n), pba := port.pba.filter (· ≠ n) } }
    if port.pba.contains n then (sendMsi s p n).1 else s

/-- The pending bits of 64 vectors. -/
def pbaWord (port : Pcie) (i : Nat) : Word := BitVec.ofNat 64 ((List.range 64).foldl (fun w b => w + bit (port.pba.contains (64 * i + b)) * 2 ^ b) 0)

/-- A word of the MSI-X table, with its entry's mask as it stands. -/
def msixWord (port : Pcie) (i : Nat) : Word :=
  let w := tget port.table i 0
  if i % 2 = 1 ∧ port.masked.contains (i / 2) then w ||| 0x100000000#64 else w

/-! ## The staging area (R319) -/

/-- The byte of the staging area that a host access names: BAR2 of a port follows BAR0 in the addresses of its commands, from 2^32 on (assumption 108).
None where the settings enable no BAR2, and beyond its end. -/
def stagingPlace (s : State) (a : Agent) (addr width : Nat) : Option Nat :=
  match portOf a with
  | some p =>
    if 2 ^ 32 ≤ addr ∧ (pcieOf s p).bar2.isSome ∧ portExists s p ∧ addr - 2 ^ 32 + width ≤ bar2Len s then some (p * 2 ^ 29 + (addr - 2 ^ 32)) else none
  | none => none

/-- The host's bytes in the staging area. -/
def writeStaging (s : State) (off width : Nat) (v : Word) : State :=
  { s with store := { s.store with staging := ((bytesOf 8 v.toNat).take width).zipIdx.foldl (fun t b =>
    if b.1 = 0 then tdel t (off + b.2) else tset t (off + b.2) b.1) s.store.staging } }

/-! ## The event log window (R476) -/

/-- Word i of the event log: record n stands at 32 × (n mod 4,096). -/
def eventWord (s : State) (i : Nat) : Word :=
  match s.events.find? fun r => r.seq % 4096 = i / 4 with
  | some r => BitVec.ofNat 64 (numAt (recordBytes r) (8 * (i % 4)) 8)
  | none => 0

/-! ## Writes -/

/-- A write of BELFRY_THRESH: the threshold of the writer's own target; no session is needed (R489). -/
def writeThresh (s : State) (a : Agent) (v : Word) : State :=
  match targetOf a with
  | some t => evalAll (wr s F.BELFRY_TGT_THRESH t (v.toNat % 16))
  | none => s

/-- Places of BAR0 that hold no register of the tables: mailbox, claim registers and MSI-X structures. -/
def writePlace (s : State) (a : Agent) (key : Nat) (v : Word) : Host.Outcome State Fault Refusal :=
  if key = 0x10100018 then (if v.toNat < 1024 then execBelfryComplete a v.toNat s else .next (bump s F.BELFRY_CNT_BAD_COMPLETE 0 1))
  else if key = 0x10100020 then .next (writeThresh s a v)
  else match portOf a with
    | none => .next s
    | some p =>
      if key = 0x10004000 then .next (writeMboxCtl s p v)
      else if 0x10005000 ≤ key ∧ key < 0x10006000 then .next (writeMboxReq s p ((key - 0x10005000) / 8) v)
      else if 0x13F00000 ≤ key ∧ key < 0x13F08000 ∧ (key - 0x13F00000) / 16 < portVectors s then
        .next (writeMsix s p ((key - 0x13F00000) / 8) v)
      else .next s

/-- A write of REG_UNIT_CTL (R269, R271). -/
def writeUnitCtl (s : State) (a : Agent) (r : Nat) (v : Word) : Host.Outcome State Fault Refusal :=
  let plan := getF F.REG_UNIT_CTL_PLAN_ID v
  let autorun : Bool := getF F.REG_UNIT_CTL_AUTORUN v = 1
  let keep : Bool := getF F.REG_UNIT_CTL_KEEP_LEES v = 1
  match getF F.REG_UNIT_CTL_CMD v with
  | 0 => .next s
  | 1 => execBind a r plan autorun keep s
  | 2 => execRegionRun a r s
  | 3 => execRegionStop a r s
  | 4 => execUnbind a r s
  | 5 => execRelease a r s
  | 6 => execRebind a r plan (getF F.REG_UNIT_CTL_TENANT v) autorun keep s
  | n => .next (if cmdBusy s r then refuseBusy s r n else if mayDrive s a r = false then refuseCmd s r n stBadHandle else refuseCmd s r n stInternal)

/-- A write of CASK_OP (R296). The bytes that a DMA or a READ brings are still to come, and whether the bytes that VERIFY reads match is a free value. -/
def writeCaskOp (s : State) (a : Agent) (v : Word) : Host.Outcome State Fault Refusal :=
  match getF F.CASK_OP_CMD v with
  | 1 => execStoreHost a none s
  | 2 => execFetchHall a s
  | 3 => execCaskDelete a s
  | 4 => let (n, s) := draw s 2; execCaskVerify a (decide (n = 1)) s
  | _ => .next (caskOp a s fun s _ => endOp s stInternal 0)

/-- A write of CASK_RACK (R307, R308). Whether the twin's rack is LOADED is a free value here. -/
def writeRack (s : State) (a : Agent) (v : Word) : Host.Outcome State Fault Refusal :=
  match getF F.CASK_RACK_CMD v with
  | 1 => execRackLoad a (getF F.CASK_RACK_REGION v) (getF F.CASK_RACK_PLAN_ID v) s
  | 2 => let (n, s) := draw s 2; execRackFlip a (decide (n = 1)) s
  | 3 => execRackAbort a s
  | _ => .next (rackCommand a s fun s => rackStatus s stInternal)

/-- A write of BOOT_RESTART (R515). -/
def writeRestart (s : State) (a : Agent) (v : Word) : Host.Outcome State Fault Refusal :=
  match getF F.BOOT_RESTART_CMD v with
  | 1 => execRestartKeepOnly a s
  | 2 => execRestartWarm a s
  | 3 => execRestartCold a s
  | _ => .next (if isOperator s a then wr s F.BOOT_RESTART_STATUS 0 stInternal else s)

/-- A register of the tables is written. -/
def writeReg (s : State) (a : Agent) (g : Reg) (i : Nat) (v : Word) : Host.Outcome State Fault Refusal :=
  if perCore g.blk then .next (writeCoreReg s a g i v)
  else if isCommitReg g then .next (if v.getLsbD 0 then commitBlock s a g.blk i else s)
  else if isReg g F.REG_UNIT_CTL_CMD then writeUnitCtl s a i v
  else if isReg g F.REG_UNIT_MBOX_WORD then execUnitMboxWrite a i v s
  else if isReg g F.REG_TENANT_CTL_RECLAIM then (if getF F.REG_TENANT_CTL_RECLAIM v = 1 then execReclaim a i s else .next s)
  else if isReg g F.CASK_OP_CMD then writeCaskOp s a v
  else if isReg g F.CASK_RACK_CMD then writeRack s a v
  else if isReg g F.TWIN_FENCE_CONFIRM then (if getF F.TWIN_FENCE_CONFIRM v = 1 then execFenceConfirm a s else .next s)
  else if isReg g F.BOOT_RESTART_CMD then writeRestart s a v
  else
    let t := writeFields s a g i v
    if isReg g F.KEEP_WDT_KICK then (if getF F.KEEP_WDT_KICK v = 1 then execKick a i t else .next t)
    else if isReg g F.BELFRY_SRC_CFG_FORCE then (if getF F.BELFRY_SRC_CFG_FORCE v = 1 then execBelfryForce a i t else .next t)
    else if isReg g F.PWR_CTL_VMIN_RST then .next (if getF F.PWR_CTL_VMIN_RST v = 0 then t
      else if isOperator s a then restartVmin t else noteRefused t F.PWR_COMMIT_WRITE_STATUS 0 stBadHandle)
    else if isReg g F.THM_CTL_LEAK_ACT then .next (if isOperator s a then endLeakHold t else t)
    else if isReg g F.TICK_CLK_STATUS_FALLBACK then .next (if getF F.TICK_CLK_STATUS_FALLBACK v = 1 then clearFallback s a else s)
    else .next t

/-! ## Reads -/

/-- What a window that holds no register of the tables reads as. -/
def readPlace (s : State) (a : Agent) (key : Nat) : Host.Outcome State Fault Refusal :=
  if key = 0x10100010 then execBelfryClaim a s
  else if key = 0x10100020 then .next (returned s (match targetOf a with | some t => BitVec.ofNat 64 (rd s F.BELFRY_TGT_THRESH t) | none => 0))
  else if 0x10020000 ≤ key ∧ key < 0x10040000 then .next (returned s (if isOperator s a then eventWord s ((key - 0x10020000) / 8) else 0))
  else match portOf a with
    | none => .next (returned s 0)
    | some p =>
      let m := mboxOf s p
      .next (returned s
        (if key = 0x10004000 then mboxCtlWord m
        else if 0x10005000 ≤ key ∧ key < 0x10006000 then tget m.window ((key - 0x10005000) / 8) 0
        else if 0x10006000 ≤ key ∧ key < 0x10007000 then BitVec.ofNat 64 (numAt m.rsp (key - 0x10006000) 8)
        else if 0x13F00000 ≤ key ∧ key < 0x13F08000 then msixWord (pcieOf s p) ((key - 0x13F00000) / 8)
        else if 0x13F80000 ≤ key ∧ key < 0x13F80100 then pbaWord (pcieOf s p) ((key - 0x13F80000) / 8)
        else 0))

/-! ## The commands -/

/-- R20: a write of 1 to the COMMIT register at an address captures the block's shadow copy. -/
def execCommit (a : Agent) (addr : Nat) (s : State) : Host.Outcome State Fault Refusal :=
  .next (match findReg a addr with
    | some (g, i) => if isCommitReg g then commitBlock s a g.blk i else s
    | none => s)

/-- R17, R21: a register write. A narrower or misaligned one is discarded. BAR2 takes any (R319). -/
def execRegisterWrite (a : Agent) (addr width : Nat) (value : Word) (s : State) : Host.Outcome State Fault Refusal :=
  match stagingPlace s a addr width with
  | some off => .next (writeStaging s off width value)
  | none =>
    if whole64 addr width = false then .next s
    else match findReg a addr with
      | some (g, i) => writeReg s a g i value
      | none => writePlace s a (keyOf a addr) value

/-- R17, R18: a register read returns its value and clears its RC fields. A narrower or misaligned one returns all ones. BAR2 gives its bytes (R319). -/
def execReadClear (a : Agent) (addr width : Nat) (s : State) : Host.Outcome State Fault Refusal :=
  match stagingPlace s a addr width with
  | some off => .next (returned s (BitVec.ofNat 64 (natOfBytes (stagingBytes s off width))))
  | none =>
    if whole64 addr width = false then .next (returned s (BitVec.allOnes 64))
    else match findReg a addr with
      | some (g, i) =>
        if isReg g F.REG_UNIT_MBOX_WORD then execUnitMboxRead a i s
        else .next (returned (readReg s a g i).2 (readReg s a g i).1)
      | none => readPlace s a (keyOf a addr)

/-- R103: GO of the debug window reads one row through P7. -/
def execDebugRowGo (a : Agent) (c row : Nat) (s : State) : Host.Outcome State Fault Refusal := onCore c s fun s => debugRow s a c row

end Sys2Proof.Machine
end

