-- ==== Sys2Proof/Machine/Dispatch.lean ====
section
/-! DEFINITION. One arm per command: the meaning it calls. -/

namespace Sys2Proof.Machine

def exec (i : Instr) (s : State) : Host.Outcome State Fault Refusal :=
  match i with
  | .tickBoundary x => Sys2Proof.Machine.execTickBoundary x s
  | .twinHeartbeatTimer => Sys2Proof.Machine.execTwinHeartbeatTimer s
  | .nop c sl rsv => Sys2Proof.Machine.execNop c sl rsv s
  | .br c f => Sys2Proof.Machine.execBr c f s
  | .call c f => Sys2Proof.Machine.execCall c f s
  | .ret c f => Sys2Proof.Machine.execRet c f s
  | .loop c f => Sys2Proof.Machine.execLoop c f s
  | .twait c f => Sys2Proof.Machine.execTwait c f s
  | .idle c f => Sys2Proof.Machine.execIdle c f s
  | .beat c f => Sys2Proof.Machine.execBeat c f s
  | .stat c f => Sys2Proof.Machine.execStat c f s
  | .msend c f => Sys2Proof.Machine.execMsend c f s
  | .mrecv c f => Sys2Proof.Machine.execMrecv c f s
  | .trap c f => Sys2Proof.Machine.execTrap c f s
  | .add c f => Sys2Proof.Machine.execAdd c f s
  | .sub c f => Sys2Proof.Machine.execSub c f s
  | .mul c f => Sys2Proof.Machine.execMul c f s
  | .and c f => Sys2Proof.Machine.execAnd c f s
  | .or c f => Sys2Proof.Machine.execOr c f s
  | .xor c f => Sys2Proof.Machine.execXor c f s
  | .shift c f => Sys2Proof.Machine.execShift c f s
  | .cmp c f => Sys2Proof.Machine.execCmp c f s
  | .addi c f => Sys2Proof.Machine.execAddi c f s
  | .li c f => Sys2Proof.Machine.execLi c f s
  | .lane c f => Sys2Proof.Machine.execLane c f s
  | .movr c f => Sys2Proof.Machine.execMovr c f s
  | .send c f => Sys2Proof.Machine.execSend c f s
  | .recv c f => Sys2Proof.Machine.execRecv c f s
  | .senda c f => Sys2Proof.Machine.execSenda c f s
  | .recva c f => Sys2Proof.Machine.execRecva c f s
  | .sendc c f => Sys2Proof.Machine.execSendc c f s
  | .recvc c f => Sys2Proof.Machine.execRecvc c f s
  | .sends c f => Sys2Proof.Machine.execSends c f s
  | .recvs c f => Sys2Proof.Machine.execRecvs c f s
  | .mm4 c f => Sys2Proof.Machine.execMm4 c f s
  | .mm8 c f => Sys2Proof.Machine.execMm8 c f s
  | .mmbf c f => Sys2Proof.Machine.execMmbf c f s
  | .mclr c f => Sys2Proof.Machine.execMclr c f s
  | .mdrain c f => Sys2Proof.Machine.execMdrain c f s
  | .mget c f => Sys2Proof.Machine.execMget c f s
  | .mput c f => Sys2Proof.Machine.execMput c f s
  | .mcnt c f => Sys2Proof.Machine.execMcnt c f s
  | .vld c f => Sys2Proof.Machine.execVld c f s
  | .vst c f => Sys2Proof.Machine.execVst c f s
  | .vmov c f => Sys2Proof.Machine.execVmov c f s
  | .vbcst c f => Sys2Proof.Machine.execVbcst c f s
  | .viota c f => Sys2Proof.Machine.execViota c f s
  | .vperm c f => Sys2Proof.Machine.execVperm c f s
  | .vlog c f => Sys2Proof.Machine.execVlog c f s
  | .vadd c f => Sys2Proof.Machine.execVadd c f s
  | .vsub c f => Sys2Proof.Machine.execVsub c f s
  | .vmul c f => Sys2Proof.Machine.execVmul c f s
  | .vfma c f => Sys2Proof.Machine.execVfma c f s
  | .vmax c f => Sys2Proof.Machine.execVmax c f s
  | .vcmp c f => Sys2Proof.Machine.execVcmp c f s
  | .vsel c f => Sys2Proof.Machine.execVsel c f s
  | .vcvt c f => Sys2Proof.Machine.execVcvt c f s
  | .vred c f => Sys2Proof.Machine.execVred c f s
  | .vfun c f => Sys2Proof.Machine.execVfun c f s
  | .vqnt c f => Sys2Proof.Machine.execVqnt c f s
  | .vdq c f => Sys2Proof.Machine.execVdq c f s
  | .vsmx c f => Sys2Proof.Machine.execVsmx c f s
  | .vsnrm c f => Sys2Proof.Machine.execVsnrm c f s
  | .vlse c f => Sys2Proof.Machine.execVlse c f s
  | .vnrm c f => Sys2Proof.Machine.execVnrm c f s
  | .vshr c f => Sys2Proof.Machine.execVshr c f s
  | .cdot c f => Sys2Proof.Machine.execCdot c f s
  | .cadd c f => Sys2Proof.Machine.execCadd c f s
  | .cscl c f => Sys2Proof.Machine.execCscl c f s
  | .cup c f => Sys2Proof.Machine.execCup c f s
  | .cmov c f => Sys2Proof.Machine.execCmov c f s
  | .tskip c rsv => Sys2Proof.Machine.execTskip c rsv s
  | .resultLanding c => Sys2Proof.Machine.execResultLanding c s
  | .routerForward c x => Sys2Proof.Machine.execRouterForward c x s
  | .ingressWrite c => Sys2Proof.Machine.execIngressWrite c s
  | .heldEntryLand c => Sys2Proof.Machine.execHeldEntryLand c s
  | .egressRead c => Sys2Proof.Machine.execEgressRead c s
  | .hbShort h => Sys2Proof.Machine.execHbShort h s
  | .hbLong h => Sys2Proof.Machine.execHbLong h s
  | .lanternSummaryDeadline f => Sys2Proof.Machine.execLanternSummaryDeadline f s
  | .summary m => Sys2Proof.Machine.execSummary m s
  | .heartbeatMiss c => Sys2Proof.Machine.execHeartbeatMiss c s
  | .coreStatusTimeout c => Sys2Proof.Machine.execCoreStatusTimeout c s
  | .lanternSilent f => Sys2Proof.Machine.execLanternSilent f s
  | .stopPacket p => Sys2Proof.Machine.execStopPacket p s
  | .regRd p => Sys2Proof.Machine.execRegRd p s
  | .regWr p => Sys2Proof.Machine.execRegWr p s
  | .regRsp p => Sys2Proof.Machine.execRegRsp p s
  | .mboxWord p => Sys2Proof.Machine.execMboxWord p s
  | .debugPacket p => Sys2Proof.Machine.execDebugPacket p s
  | .reportPacket p => Sys2Proof.Machine.execReportPacket p s
  | .rowRepair c row mismatch => Sys2Proof.Machine.execRowRepair c row mismatch s
  | .regionReplay r => Sys2Proof.Machine.execRegionReplay r s
  | .substitution f row col => Sys2Proof.Machine.execSubstitution f row col s
  | .regionRecovery r => Sys2Proof.Machine.execRegionRecovery r s
  | .pllLockLoss half => Sys2Proof.Machine.execPllLockLoss half s
  | .clockReturn => Sys2Proof.Machine.execClockReturn s
  | .refclkLoss => Sys2Proof.Machine.execRefclkLoss s
  | .refclkRestore => Sys2Proof.Machine.execRefclkRestore s
  | .clearFallback a => Sys2Proof.Machine.execClearFallback a s
  | .commit a addr => Sys2Proof.Machine.execCommit a addr s
  | .registerWrite a addr width value => Sys2Proof.Machine.execRegisterWrite a addr width value s
  | .readClear a addr width => Sys2Proof.Machine.execReadClear a addr width s
  | .debugRowGo a c row => Sys2Proof.Machine.execDebugRowGo a c row s
  | .bind a r plan autorun keepLees => Sys2Proof.Machine.execBind a r plan autorun keepLees s
  | .regionRun a r => Sys2Proof.Machine.execRegionRun a r s
  | .regionStop a r => Sys2Proof.Machine.execRegionStop a r s
  | .unbind a r => Sys2Proof.Machine.execUnbind a r s
  | .release a r => Sys2Proof.Machine.execRelease a r s
  | .rebind a r plan tenant autorun keepLees => Sys2Proof.Machine.execRebind a r plan tenant autorun keepLees s
  | .holdExpiry r => Sys2Proof.Machine.execHoldExpiry r s
  | .loadCode c h words linkOk => Sys2Proof.Machine.execLoadCode c h words linkOk s
  | .loadRoute c h words linkOk => Sys2Proof.Machine.execLoadRoute c h words linkOk s
  | .loadRows c h words linkOk => Sys2Proof.Machine.execLoadRows c h words linkOk s
  | .loadReg c h words linkOk => Sys2Proof.Machine.execLoadReg c h words linkOk s
  | .loadEnd c h linkOk => Sys2Proof.Machine.execLoadEnd c h linkOk s
  | .sweepComplete c => Sys2Proof.Machine.execSweepComplete c s
  | .unitMboxWrite a r value => Sys2Proof.Machine.execUnitMboxWrite a r value s
  | .unitMboxRead a r => Sys2Proof.Machine.execUnitMboxRead a r s
  | .reclaim a t => Sys2Proof.Machine.execReclaim a t s
  | .storeHost a data => Sys2Proof.Machine.execStoreHost a data s
  | .fetchHall a => Sys2Proof.Machine.execFetchHall a s
  | .imageArrival data => Sys2Proof.Machine.execImageArrival data s
  | .caskDelete a => Sys2Proof.Machine.execCaskDelete a s
  | .caskVerify a mismatch => Sys2Proof.Machine.execCaskVerify a mismatch s
  | .caskScrub bad copies => Sys2Proof.Machine.execCaskScrub bad copies s
  | .rackLoad a r plan => Sys2Proof.Machine.execRackLoad a r plan s
  | .rackFlip a peerLoaded => Sys2Proof.Machine.execRackFlip a peerLoaded s
  | .rackAbort a => Sys2Proof.Machine.execRackAbort a s
  | .drainDeadline r => Sys2Proof.Machine.execDrainDeadline r s
  | .qpEnable a qp => Sys2Proof.Machine.execQpEnable a qp s
  | .qpDisable a qp => Sys2Proof.Machine.execQpDisable a qp s
  | .ledgerNop id => Sys2Proof.Machine.execLedgerNop id s
  | .openStream id => Sys2Proof.Machine.execOpenStream id s
  | .append id => Sys2Proof.Machine.execAppend id s
  | .generate id => Sys2Proof.Machine.execGenerate id s
  | .truncate id => Sys2Proof.Machine.execTruncate id s
  | .fork id => Sys2Proof.Machine.execFork id s
  | .park id => Sys2Proof.Machine.execPark id s
  | .resume id => Sys2Proof.Machine.execResume id s
  | .closeStream id => Sys2Proof.Machine.execCloseStream id s
  | .query id => Sys2Proof.Machine.execQuery id s
  | .sampleToken h logits drafts => Sys2Proof.Machine.execSampleToken h logits drafts s
  | .seating h => Sys2Proof.Machine.execSeating h s
  | .unseat h => Sys2Proof.Machine.execUnseat h s
  | .sealCellarWrite h layer block => Sys2Proof.Machine.execSealCellarWrite h layer block s
  | .spill => Sys2Proof.Machine.execSpill s
  | .reprefill h => Sys2Proof.Machine.execReprefill h s
  | .flr port => Sys2Proof.Machine.execFlr port s
  | .pcieLinkDown port ide => Sys2Proof.Machine.execPcieLinkDown port ide s
  | .perst port => Sys2Proof.Machine.execPerst port s
  | .pairEnSet => Sys2Proof.Machine.execPairEnSet s
  | .pairEnClear => Sys2Proof.Machine.execPairEnClear s
  | .offerTimer => Sys2Proof.Machine.execOfferTimer s
  | .offer m => Sys2Proof.Machine.execOffer m s
  | .keyx m => Sys2Proof.Machine.execKeyx m s
  | .syncComplete => Sys2Proof.Machine.execSyncComplete s
  | .twinHeartbeat m => Sys2Proof.Machine.execTwinHeartbeat m s
  | .twinHeartbeatMiss => Sys2Proof.Machine.execTwinHeartbeatMiss s
  | .fenceResend => Sys2Proof.Machine.execFenceResend s
  | .fenceConfirm a => Sys2Proof.Machine.execFenceConfirm a s
  | .fenceWaitExpiry => Sys2Proof.Machine.execFenceWaitExpiry s
  | .handover => Sys2Proof.Machine.execHandover s
  | .journal recs => Sys2Proof.Machine.execJournal recs s
  | .ack m => Sys2Proof.Machine.execAck m s
  | .nak m => Sys2Proof.Machine.execNak m s
  | .fence m => Sys2Proof.Machine.execFence m s
  | .fenceAck m => Sys2Proof.Machine.execFenceAck m s
  | .hello m => Sys2Proof.Machine.execHello m s
  | .gorlaWrite m => Sys2Proof.Machine.execGorlaWrite m s
  | .readReq m => Sys2Proof.Machine.execReadReq m s
  | .readResp m => Sys2Proof.Machine.execReadResp m s
  | .gorlaSend m => Sys2Proof.Machine.execGorlaSend m s
  | .neighborSolicitation port target => Sys2Proof.Machine.execNeighborSolicitation port target s
  | .echoRequest port target => Sys2Proof.Machine.execEchoRequest port target s
  | .ptpMessage m => Sys2Proof.Machine.execPtpMessage m s
  | .discardedFrame port why => Sys2Proof.Machine.execDiscardedFrame port why s
  | .portLinkDown port => Sys2Proof.Machine.execPortLinkDown port s
  | .portLinkUp port => Sys2Proof.Machine.execPortLinkUp port s
  | .portModeChange port => Sys2Proof.Machine.execPortModeChange port s
  | .helloTimer => Sys2Proof.Machine.execHelloTimer s
  | .reorderWaitExpiry msg => Sys2Proof.Machine.execReorderWaitExpiry msg s
  | .rtoExpiry path => Sys2Proof.Machine.execRtoExpiry path s
  | .pathProbe path => Sys2Proof.Machine.execPathProbe path s
  | .messageTimeout msg => Sys2Proof.Machine.execMessageTimeout msg s
  | .ackTimer dst => Sys2Proof.Machine.execAckTimer dst s
  | .ptpParentLoss => Sys2Proof.Machine.execPtpParentLoss s
  | .holdoverExpiry => Sys2Proof.Machine.execHoldoverExpiry s
  | .pmbusPoll m => Sys2Proof.Machine.execPmbusPoll m s
  | .pmbAlert => Sys2Proof.Machine.execPmbAlert s
  | .stepRaiseSettle => Sys2Proof.Machine.execStepRaiseSettle s
  | .spireFault => Sys2Proof.Machine.execSpireFault s
  | .buttressFail f b => Sys2Proof.Machine.execButtressFail f b s
  | .droopWarn f mv => Sys2Proof.Machine.execDroopWarn f mv s
  | .droopCrit f mv => Sys2Proof.Machine.execDroopCrit f mv s
  | .droopMarginExpiry f => Sys2Proof.Machine.execDroopMarginExpiry f s
  | .vminRst => Sys2Proof.Machine.execVminRst s
  | .fieldShort f => Sys2Proof.Machine.execFieldShort f s
  | .isolationFail q => Sys2Proof.Machine.execIsolationFail q s
  | .sagLock => Sys2Proof.Machine.execSagLock s
  | .sagRelease => Sys2Proof.Machine.execSagRelease s
  | .aux12Fail => Sys2Proof.Machine.execAux12Fail s
  | .capEvaluation => Sys2Proof.Machine.execCapEvaluation s
  | .calibrationReplace kind item value => Sys2Proof.Machine.execCalibrationReplace kind item value s
  | .hibernate f => Sys2Proof.Machine.execHibernate f s
  | .wake f => Sys2Proof.Machine.execWake f s
  | .admitWaitExpiry => Sys2Proof.Machine.execAdmitWaitExpiry s
  | .channelSample cs => Sys2Proof.Machine.execChannelSample cs s
  | .tempRead m => Sys2Proof.Machine.execTempRead m s
  | .throttleStepDown => Sys2Proof.Machine.execThrottleStepDown s
  | .throttleStepUp => Sys2Proof.Machine.execThrottleStepUp s
  | .flowEvaluation => Sys2Proof.Machine.execFlowEvaluation s
  | .flowStageEnd => Sys2Proof.Machine.execFlowStageEnd s
  | .flowStop => Sys2Proof.Machine.execFlowStop s
  | .flowRestored => Sys2Proof.Machine.execFlowRestored s
  | .hardLimit => Sys2Proof.Machine.execHardLimit s
  | .tj110 => Sys2Proof.Machine.execTj110 s
  | .leak cable => Sys2Proof.Machine.execLeak cable s
  | .dewAlarm => Sys2Proof.Machine.execDewAlarm s
  | .dewLimit => Sys2Proof.Machine.execDewLimit s
  | .valvePumpControl => Sys2Proof.Machine.execValvePumpControl s
  | .thermalCycleCount => Sys2Proof.Machine.execThermalCycleCount s
  | .cycleLogWrite => Sys2Proof.Machine.execCycleLogWrite s
  | .clampSenseOpen => Sys2Proof.Machine.execClampSenseOpen s
  | .clampSenseClosed => Sys2Proof.Machine.execClampSenseClosed s
  | .stackLost st => Sys2Proof.Machine.execStackLost st s
  | .rimLost seg => Sys2Proof.Machine.execRimLost seg s
  | .watchdogStage m => Sys2Proof.Machine.execWatchdogStage m s
  | .kick a m => Sys2Proof.Machine.execKick a m s
  | .keepSelftest fails => Sys2Proof.Machine.execKeepSelftest fails s
  | .sramScrub corr uncorr => Sys2Proof.Machine.execSramScrub corr uncorr s
  | .keepRestart cause => Sys2Proof.Machine.execKeepRestart cause s
  | .mboxGo port => Sys2Proof.Machine.execMboxGo port s
  | .ping q => Sys2Proof.Machine.execPing q s
  | .info q => Sys2Proof.Machine.execInfo q s
  | .eventRead q => Sys2Proof.Machine.execEventRead q s
  | .sourceEvent src => Sys2Proof.Machine.execSourceEvent src s
  | .coalesceTimeout src => Sys2Proof.Machine.execCoalesceTimeout src s
  | .belfryClaim a => Sys2Proof.Machine.execBelfryClaim a s
  | .belfryComplete a src => Sys2Proof.Machine.execBelfryComplete a src s
  | .belfryForce a src => Sys2Proof.Machine.execBelfryForce a src s
  | .belfryClockRestart => Sys2Proof.Machine.execBelfryClockRestart s
  | .aux12Rise => Sys2Proof.Machine.execAux12Rise s
  | .startPhaseComplete m => Sys2Proof.Machine.execStartPhaseComplete m s
  | .flashDiscoveryRetry fl0 fl1 => Sys2Proof.Machine.execFlashDiscoveryRetry fl0 fl1 s
  | .readyWaitExpiry => Sys2Proof.Machine.execReadyWaitExpiry s
  | .restartKeepOnly a => Sys2Proof.Machine.execRestartKeepOnly a s
  | .restartWarm a => Sys2Proof.Machine.execRestartWarm a s
  | .restartCold a => Sys2Proof.Machine.execRestartCold a s
  | .sessionChallenge q => Sys2Proof.Machine.execSessionChallenge q s
  | .sessionOpen q => Sys2Proof.Machine.execSessionOpen q s
  | .sessionClose q => Sys2Proof.Machine.execSessionClose q s
  | .sessionSelect q => Sys2Proof.Machine.execSessionSelect q s
  | .sessionExpiry h => Sys2Proof.Machine.execSessionExpiry h s
  | .challengeLockoutExpiry ch => Sys2Proof.Machine.execChallengeLockoutExpiry ch s
  | .keySet q => Sys2Proof.Machine.execKeySet q s
  | .keyRevoke q => Sys2Proof.Machine.execKeyRevoke q s
  | .keyInit q => Sys2Proof.Machine.execKeyInit q s
  | .ownerKeySet q => Sys2Proof.Machine.execOwnerKeySet q s
  | .identity q => Sys2Proof.Machine.execIdentity q s
  | .settingsSave q => Sys2Proof.Machine.execSettingsSave q s
  | .defectMapRestore q => Sys2Proof.Machine.execDefectMapRestore q s
  | .updateBegin q => Sys2Proof.Machine.execUpdateBegin q s
  | .updateData q => Sys2Proof.Machine.execUpdateData q s
  | .updateFetch q data => Sys2Proof.Machine.execUpdateFetch q data s
  | .updateEnd q => Sys2Proof.Machine.execUpdateEnd q s
  | .updateAbort q => Sys2Proof.Machine.execUpdateAbort q s
  | .activate q => Sys2Proof.Machine.execActivate q s
  | .updateConfirm q => Sys2Proof.Machine.execUpdateConfirm q s
  | .rollback q => Sys2Proof.Machine.execRollback q s
  | .setEndpointId m => Sys2Proof.Machine.execSetEndpointId m s
  | .getEndpointId m => Sys2Proof.Machine.execGetEndpointId m s
  | .getEndpointUuid m => Sys2Proof.Machine.execGetEndpointUuid m s
  | .getMctpVersionSupport m => Sys2Proof.Machine.execGetMctpVersionSupport m s
  | .getMessageTypeSupport m => Sys2Proof.Machine.execGetMessageTypeSupport m s
  | .getVersion m => Sys2Proof.Machine.execGetVersion m s
  | .getCapabilities m => Sys2Proof.Machine.execGetCapabilities m s
  | .negotiateAlgorithms m => Sys2Proof.Machine.execNegotiateAlgorithms m s
  | .getDigests m => Sys2Proof.Machine.execGetDigests m s
  | .getCertificate m => Sys2Proof.Machine.execGetCertificate m s
  | .spdmChallenge m => Sys2Proof.Machine.execSpdmChallenge m s
  | .getMeasurements m => Sys2Proof.Machine.execGetMeasurements m s
  | .getTid m => Sys2Proof.Machine.execGetTid m s
  | .getPldmVersion m => Sys2Proof.Machine.execGetPldmVersion m s
  | .getPldmTypes m => Sys2Proof.Machine.execGetPldmTypes m s
  | .getPldmCommands m => Sys2Proof.Machine.execGetPldmCommands m s
  | .getPdrRepositoryInfo m => Sys2Proof.Machine.execGetPdrRepositoryInfo m s
  | .getPdr m => Sys2Proof.Machine.execGetPdr m s
  | .getSensorReading m => Sys2Proof.Machine.execGetSensorReading m s
  | .getStateSensorReadings m => Sys2Proof.Machine.execGetStateSensorReadings m s
  | .setEventReceiver m => Sys2Proof.Machine.execSetEventReceiver m s
  | .unsupportedMessage m => Sys2Proof.Machine.execUnsupportedMessage m s
  | .pllRelock half => Sys2Proof.Machine.execPllRelock half s
  | .keepOkWaitExpiry => Sys2Proof.Machine.execKeepOkWaitExpiry s
  | .keepRestartComplete => Sys2Proof.Machine.execKeepRestartComplete s
  | .pcieLinkUp port bifurcated bme masked bar2 => Sys2Proof.Machine.execPcieLinkUp port bifurcated bme masked bar2 s
  | .mgmtLinkChange up => Sys2Proof.Machine.execMgmtLinkChange up s
  | .neighborAdvertisement port target mac => Sys2Proof.Machine.execNeighborAdvertisement port target mac s
  | .pfcFrame port quanta => Sys2Proof.Machine.execPfcFrame port quanta s
  | .ctlTimeout a addr => Sys2Proof.Machine.execCtlTimeout a addr s
  | .belfryClockStop => Sys2Proof.Machine.execBelfryClockStop s
  | .spirePresence low => Sys2Proof.Machine.execSpirePresence low s
  | .busbarReturn => Sys2Proof.Machine.execBusbarReturn s

end Sys2Proof.Machine
end

