-- ==== Sys2Proof/WellFormed.lean ====
section
/-! DEFINITION. The commands whose operands name things that the engine has: cores, fields, regions, tenants, ports, sources and rows in range, and
packets whose payload is as long as their header says. The decoded formats need no check: their fields have the widths of their tables. -/

namespace Sys2Proof

/-- A logical core (R33). -/
def coreOk (c : Nat) : Bool := c < 14592
/-- A field, or the stack or buttress that shares its number (R31). -/
def fieldOk (f : Nat) : Bool := f < 48
/-- A region ID (R256). -/
def regionOk (r : Nat) : Bool := r < 4096
/-- A tenant (R280). -/
def tenantOk (t : Nat) : Bool := t < 256
/-- A PCIe port (R316). -/
def pcieOk (p : Nat) : Bool := p < 2
/-- A network port (R383). -/
def netPortOk (p : Nat) : Bool := p < 64
/-- A Belfry source; 0 names none (R478). -/
def sourceOk (n : Nat) : Bool := 0 < n && n < 1024
/-- A host port, a management core or a session. -/
def agentOk (a : Agent) : Bool :=
  match a with
  | .host p => pcieOk p
  | .mc m => m < 8
  | .session _ => true
/-- The width of a register access in bytes (R17). -/
def widthOk (w : Nat) : Bool := w = 1 || w = 2 || w = 4 || w = 8
/-- A packet carries as many payload flits as its LEN says (R211). -/
def packetOk (p : CtlPacket) : Bool := p.flits.length = p.len.toNat
/-- A load header names at most the words that its N field holds (R264). -/
def loadOk (h : LoadHdr) : Bool := h.n < 8192
/-- A mailbox request on one of the five channels (R470). -/
def requestOk (q : Req) : Bool := q.chan < 5

/-- A rim word comes on a rim link of an edge core, for a region (R188, R205, R256). -/
def rimWordOk (c : Nat) (w : RimWord) : Bool :=
  ((w.port = 0 && c / 152 = 0) || (w.port = 1 && c % 152 = 151) || (w.port = 2 && c / 152 = 95) || (w.port = 3 && c % 152 = 0)) &&
    0 < w.region && regionOk w.region

/-- A well-formed command. -/
def wellFormed : Instr → Bool
  | .tickBoundary _ => true
  | .twinHeartbeatTimer => true
  | .nop c _ _ => coreOk c
  | .br c _ => coreOk c
  | .call c _ => coreOk c
  | .ret c _ => coreOk c
  | .loop c _ => coreOk c
  | .twait c _ => coreOk c
  | .idle c _ => coreOk c
  | .beat c _ => coreOk c
  | .stat c _ => coreOk c
  | .msend c _ => coreOk c
  | .mrecv c _ => coreOk c
  | .trap c _ => coreOk c
  | .add c _ => coreOk c
  | .sub c _ => coreOk c
  | .mul c _ => coreOk c
  | .and c _ => coreOk c
  | .or c _ => coreOk c
  | .xor c _ => coreOk c
  | .shift c _ => coreOk c
  | .cmp c _ => coreOk c
  | .addi c _ => coreOk c
  | .li c _ => coreOk c
  | .lane c _ => coreOk c
  | .movr c _ => coreOk c
  | .send c _ => coreOk c
  | .recv c _ => coreOk c
  | .senda c _ => coreOk c
  | .recva c _ => coreOk c
  | .sendc c _ => coreOk c
  | .recvc c _ => coreOk c
  | .sends c _ => coreOk c
  | .recvs c _ => coreOk c
  | .mm4 c _ => coreOk c
  | .mm8 c _ => coreOk c
  | .mmbf c _ => coreOk c
  | .mclr c _ => coreOk c
  | .mdrain c _ => coreOk c
  | .mget c _ => coreOk c
  | .mput c _ => coreOk c
  | .mcnt c _ => coreOk c
  | .vld c _ => coreOk c
  | .vst c _ => coreOk c
  | .vmov c _ => coreOk c
  | .vbcst c _ => coreOk c
  | .viota c _ => coreOk c
  | .vperm c _ => coreOk c
  | .vlog c _ => coreOk c
  | .vadd c _ => coreOk c
  | .vsub c _ => coreOk c
  | .vmul c _ => coreOk c
  | .vfma c _ => coreOk c
  | .vmax c _ => coreOk c
  | .vcmp c _ => coreOk c
  | .vsel c _ => coreOk c
  | .vcvt c _ => coreOk c
  | .vred c _ => coreOk c
  | .vfun c _ => coreOk c
  | .vqnt c _ => coreOk c
  | .vdq c _ => coreOk c
  | .vsmx c _ => coreOk c
  | .vsnrm c _ => coreOk c
  | .vlse c _ => coreOk c
  | .vnrm c _ => coreOk c
  | .vshr c _ => coreOk c
  | .cdot c _ => coreOk c
  | .cadd c _ => coreOk c
  | .cscl c _ => coreOk c
  | .cup c _ => coreOk c
  | .cmov c _ => coreOk c
  | .tskip c _ => coreOk c
  | .resultLanding c => coreOk c
  | .routerForward c i => coreOk c && i.rim.all (rimWordOk c)
  | .ingressWrite c => coreOk c
  | .heldEntryLand c => coreOk c
  | .egressRead c => coreOk c
  | .hbShort h => coreOk h.core
  | .hbLong h => coreOk h.core
  | .lanternSummaryDeadline f => fieldOk f
  | .summary m => fieldOk m.field
  | .heartbeatMiss c => coreOk c
  | .coreStatusTimeout c => coreOk c
  | .lanternSilent f => fieldOk f
  | .stopPacket p => packetOk p
  | .regRd p => packetOk p
  | .regWr p => packetOk p
  | .regRsp p => packetOk p
  | .mboxWord p => packetOk p
  | .debugPacket p => packetOk p
  | .reportPacket p => packetOk p
  | .rowRepair c row _ => coreOk c && decide (row < 131072)
  | .regionReplay r => regionOk r
  | .substitution f row col => fieldOk f && decide (row < 16) && decide (col < 20)
  | .regionRecovery r => regionOk r
  | .pllLockLoss half => decide (half < 2)
  | .clockReturn => true
  | .refclkLoss => true
  | .refclkRestore => true
  | .clearFallback a => agentOk a
  | .commit a _ => agentOk a
  | .registerWrite a _ width _ => agentOk a && widthOk width
  | .readClear a _ width => agentOk a && widthOk width
  | .debugRowGo a c row => agentOk a && coreOk c && decide (row < 131072)
  | .bind a r plan _ _ => agentOk a && regionOk r && decide (plan < 2 ^ 32)
  | .regionRun a r => agentOk a && regionOk r
  | .regionStop a r => agentOk a && regionOk r
  | .unbind a r => agentOk a && regionOk r
  | .release a r => agentOk a && regionOk r
  | .rebind a r plan tenant _ _ => agentOk a && regionOk r && decide (plan < 2 ^ 32) && tenantOk tenant
  | .holdExpiry r => regionOk r
  | .loadCode c h _ _ => coreOk c && loadOk h
  | .loadRoute c h _ _ => coreOk c && loadOk h
  | .loadRows c h _ _ => coreOk c && loadOk h
  | .loadReg c h _ _ => coreOk c && loadOk h
  | .loadEnd c h _ => coreOk c && loadOk h
  | .sweepComplete c => coreOk c
  | .unitMboxWrite a r _ => agentOk a && regionOk r
  | .unitMboxRead a r => agentOk a && regionOk r
  | .reclaim a t => agentOk a && tenantOk t
  | .storeHost a _ => agentOk a
  | .fetchHall a => agentOk a
  | .imageArrival _ => true
  | .caskDelete a => agentOk a
  | .caskVerify a _ => agentOk a
  | .caskScrub _ _ => true
  | .rackLoad a r plan => agentOk a && regionOk r && decide (plan < 2 ^ 32)
  | .rackFlip a _ => agentOk a
  | .rackAbort a => agentOk a
  | .drainDeadline r => regionOk r
  | .qpEnable a qp => agentOk a && decide (qp < 64)
  | .qpDisable a qp => agentOk a && decide (qp < 64)
  | .ledgerNop _ => true
  | .openStream _ => true
  | .append _ => true
  | .generate _ => true
  | .truncate _ => true
  | .fork _ => true
  | .park _ => true
  | .resume _ => true
  | .closeStream _ => true
  | .query _ => true
  | .sampleToken _ _ _ => true
  | .seating _ => true
  | .unseat _ => true
  | .sealCellarWrite _ _ _ => true
  | .spill => true
  | .reprefill _ => true
  | .flr port => pcieOk port
  | .pcieLinkDown port _ => pcieOk port
  | .perst port => pcieOk port
  | .pairEnSet => true
  | .pairEnClear => true
  | .offerTimer => true
  | .offer _ => true
  | .keyx _ => true
  | .syncComplete => true
  | .twinHeartbeat _ => true
  | .twinHeartbeatMiss => true
  | .fenceResend => true
  | .fenceConfirm a => agentOk a
  | .fenceWaitExpiry => true
  | .handover => true
  | .journal _ => true
  | .ack _ => true
  | .nak _ => true
  | .fence m => netPortOk m.port
  | .fenceAck m => netPortOk m.port
  | .hello m => netPortOk m.port
  | .gorlaWrite m => netPortOk m.port
  | .readReq m => netPortOk m.port
  | .readResp m => netPortOk m.port
  | .gorlaSend m => netPortOk m.port
  | .neighborSolicitation port _ => netPortOk port
  | .echoRequest port _ => netPortOk port
  | .ptpMessage m => netPortOk m.port
  | .discardedFrame port _ => netPortOk port
  | .portLinkDown port => netPortOk port
  | .portLinkUp port => netPortOk port
  | .portModeChange port => netPortOk port
  | .helloTimer => true
  | .reorderWaitExpiry _ => true
  | .rtoExpiry _ => true
  | .pathProbe _ => true
  | .messageTimeout _ => true
  | .ackTimer _ => true
  | .ptpParentLoss => true
  | .holdoverExpiry => true
  | .pmbusPoll _ => true
  | .pmbAlert => true
  | .stepRaiseSettle => true
  | .spireFault => true
  | .buttressFail f b => fieldOk f && decide (b < 64)
  | .droopWarn f _ => fieldOk f
  | .droopCrit f _ => fieldOk f
  | .droopMarginExpiry f => fieldOk f
  | .vminRst => true
  | .fieldShort f => fieldOk f
  | .isolationFail q => decide (q < 4)
  | .sagLock => true
  | .sagRelease => true
  | .aux12Fail => true
  | .capEvaluation => true
  | .calibrationReplace _ _ _ => true
  | .hibernate f => fieldOk f
  | .wake f => fieldOk f
  | .admitWaitExpiry => true
  | .channelSample _ => true
  | .tempRead _ => true
  | .throttleStepDown => true
  | .throttleStepUp => true
  | .flowEvaluation => true
  | .flowStageEnd => true
  | .flowStop => true
  | .flowRestored => true
  | .hardLimit => true
  | .tj110 => true
  | .leak cable => decide (cable < 2)
  | .dewAlarm => true
  | .dewLimit => true
  | .valvePumpControl => true
  | .thermalCycleCount => true
  | .cycleLogWrite => true
  | .clampSenseOpen => true
  | .clampSenseClosed => true
  | .stackLost st => fieldOk st
  | .rimLost seg => decide (seg < 4)
  | .watchdogStage m => decide (m < 8)
  | .kick a m => agentOk a && decide (m < 8)
  | .keepSelftest _ => true
  | .sramScrub _ _ => true
  | .keepRestart _ => true
  | .mboxGo port => pcieOk port
  | .ping q => requestOk q
  | .info q => requestOk q
  | .eventRead q => requestOk q
  | .sourceEvent src => sourceOk src
  | .coalesceTimeout src => sourceOk src
  | .belfryClaim a => agentOk a
  | .belfryComplete a src => agentOk a && sourceOk src
  | .belfryForce a src => agentOk a && sourceOk src
  | .belfryClockRestart => true
  | .aux12Rise => true
  | .startPhaseComplete _ => true
  | .flashDiscoveryRetry _ _ => true
  | .readyWaitExpiry => true
  | .restartKeepOnly a => agentOk a
  | .restartWarm a => agentOk a
  | .restartCold a => agentOk a
  | .sessionChallenge q => requestOk q
  | .sessionOpen q => requestOk q
  | .sessionClose q => requestOk q
  | .sessionSelect q => requestOk q
  | .sessionExpiry _ => true
  | .challengeLockoutExpiry ch => decide (ch < 5)
  | .keySet q => requestOk q
  | .keyRevoke q => requestOk q
  | .keyInit q => requestOk q
  | .ownerKeySet q => requestOk q
  | .identity q => requestOk q
  | .settingsSave q => requestOk q
  | .defectMapRestore q => requestOk q
  | .updateBegin q => requestOk q
  | .updateData q => requestOk q
  | .updateFetch q _ => requestOk q
  | .updateEnd q => requestOk q
  | .updateAbort q => requestOk q
  | .activate q => requestOk q
  | .updateConfirm q => requestOk q
  | .rollback q => requestOk q
  | .setEndpointId m => pcieOk m.port
  | .getEndpointId m => pcieOk m.port
  | .getEndpointUuid m => pcieOk m.port
  | .getMctpVersionSupport m => pcieOk m.port
  | .getMessageTypeSupport m => pcieOk m.port
  | .getVersion m => pcieOk m.port
  | .getCapabilities m => pcieOk m.port
  | .negotiateAlgorithms m => pcieOk m.port
  | .getDigests m => pcieOk m.port
  | .getCertificate m => pcieOk m.port
  | .spdmChallenge m => pcieOk m.port
  | .getMeasurements m => pcieOk m.port
  | .getTid m => pcieOk m.port
  | .getPldmVersion m => pcieOk m.port
  | .getPldmTypes m => pcieOk m.port
  | .getPldmCommands m => pcieOk m.port
  | .getPdrRepositoryInfo m => pcieOk m.port
  | .getPdr m => pcieOk m.port
  | .getSensorReading m => pcieOk m.port
  | .getStateSensorReadings m => pcieOk m.port
  | .setEventReceiver m => pcieOk m.port
  | .unsupportedMessage m => pcieOk m.port
  | .pllRelock half => decide (half < 2)
  | .keepOkWaitExpiry => true
  | .keepRestartComplete => true
  | .pcieLinkUp port _ _ _ _ => pcieOk port
  | .mgmtLinkChange _ => true
  | .neighborAdvertisement port _ _ => netPortOk port
  | .pfcFrame port _ => netPortOk port
  | .ctlTimeout a _ => agentOk a
  | .belfryClockStop => true
  | .spirePresence _ => true
  | .busbarReturn => true

end Sys2Proof
end

