-- ==== Sys2Proof/Safety.lean ====
section
/-! DEFINITION. What a safe run is: one whose steps all answer a next state. A command stops the machine only where it names a core that the engine
does not have. -/

namespace Sys2Proof.Machine

/-- The outcome is a next state. -/
def completes (o : Host.Outcome State Fault Refusal) : Bool :=
  match o with
  | .next _ => true
  | .fault _ => false
  | .refused _ => false

/-- Every command of a queue is well formed. -/
def queueOk (s : State) : Bool := s.pending.all wellFormed

/-- n steps, none of which stops. -/
def safeFor : Nat → State → Bool
  | 0, _ => true
  | n + 1, s =>
    match step s with
    | .next t => safeFor n t
    | .fault _ => false
    | .refused _ => false

end Sys2Proof.Machine
end

