-- ==== Sys2Proof/Certificates/Slice0/Obligations.lean ====
section
/-! DEFINITION. The statements for the provers, with the few predicates they are written in. -/

namespace Sys2Proof.Claims

open Sys2Proof.Machine

/-- The outcome is a next state of which P holds. -/
def After (o : Host.Outcome State Fault Refusal) (P : State → Prop) : Prop := ∃ t, o = .next t ∧ P t

/-- The newest event of t's log is the one that raising it in s records (R476). -/
def Logged (s t : State) (kind : EvKind) (code tenant region unit : Nat) (data : Word) : Prop :=
  t.events.head? = some ⟨hallNs s, rd s F.KEEP_EV_SEQ_SEQ 0 + 1, code, kind.code, tenant, region, unit, data⟩

/-- A slot of core c's bundle issues in this cycle with nothing in its way: the core exists and issues (R115, R131, R132, R187), no other slot of
the bundle names one of its destinations (R120), no register it reads awaits a result, and none of its results would land with or before
an older one (R122). -/
structure Ready (s : State) (c : Nat) (reads : List RegName) (writes : List (RegName × Nat)) : Prop where
  present : c < nCores
  issues : canIssue s c (coreOf s c) = true
  alone : clashes (coreOf s c) (writes.map (·.1)) = []
  arrived : reads.any (awaits (coreOf s c) s.clk.cyc) = false
  ordered : (writes.filter fun w => realDest w.1 && landsTooEarly (coreOf s c) s.clk.cyc (s.clk.cyc + w.2 - 1) w.1) = []

/-- Sequential issue does not run past address 4,095 (R120). -/
def Onward (s : State) (c : Nat) : Prop := runsPast (coreOf s c).seq = false

/-- The state after a slot has issued: the bundle lists it with its destinations, each effect is in flight with the cycle it lands in, and the units
it starts are at work. Nothing else differs from s. -/
def issued (s : State) (c : Nat) (sl : Slot) (writes : List (RegName × Nat)) (effs : List (Nat × Eff)) (ops : List UnitOp) : State :=
  setCore s c { coreOf s c with
    bundle := (coreOf s c).bundle ++ [(sl, writes.map (·.1))]
    pend := (coreOf s c).pend ++ effs.map fun e => ⟨sl, s.clk.cyc, (coreOf s c).seq.pc, s.clk.cyc + e.1, e.2⟩
    ops := (coreOf s c).ops ++ ops }

/-- Instruction i, wherever it is ready to issue, only issues: with these destinations, effects and units. -/
def Issues (i : Instr) (s : State) (c : Nat) (sl : Slot) (reads : List RegName) (writes : List (RegName × Nat))
    (effs : List (Nat × Eff)) (ops : List UnitOp) : Prop :=
  Ready s c reads writes → exec i s = .next (issued s c sl writes effs ops)

/-- A scalar result x for s[rd] in flight from the control/scalar slot, landing n cycles after issue (R125). -/
def ScalarResult (i : Instr) (s : State) (c : Nat) (reads : List Nat) (rd n : Nat) (x : Word) : Prop :=
  Onward s c → Issues i s c .ctl (reads.map .s) [(.s rd, n + 1)] [(n, .setS rd x)] []

/-- A vector instruction on the registers its reads list names, with lane values g under the mask, lands lat cycles after issue (R161). -/
def LaneResult (i : Instr) (s : State) (c : Nat) (f : FmtVR) (use : VrUse) (types : LaneTy → Bool) (readsVd : Bool) (lat : Nat)
    (g : LaneTy → Nat → Nat) : Prop :=
  vrOk f use types = true →
    Issues i s c .vec
      ((if use.va then [RegName.v f.va.toNat] else []) ++ (if use.vb then [RegName.v f.vb.toNat] else []) ++ (if use.sa then [RegName.s f.sa.toNat] else []) ++
        [RegName.m f.msk.toNat] ++ (if readsVd then [RegName.v f.vd.toNat] else []))
      [(.v f.vd.toNat, lat)] [maskedEff (coreOf s c).regs f (tyOf f) (lat - 1) (g (tyOf f))] []

/-- A branch is in force after the slot has issued (R128): the bundle and its two delay bundles end, then the sequencer goes to the target. -/
def branched (s : State) (c tg : Nat) (pops : Bool) (calls : List Nat) : State :=
  modCore (issued s c .ctl [] [] []) c fun co =>
    { co with seq := { co.seq with delay := 3, target := some tg, pops := pops, calls := calls } }

/-- The state after the slot has issued and its bundle has faulted with an event (R145). -/
def issuedFault (s : State) (c ev : Nat) (halts : Bool) : State :=
  recordFault (modCore (issued s c .ctl [] [] []) c fun co => { co with seq := { co.seq with halted := co.seq.halted || halts } })
    c ev (coreOf s c).seq.pc s.clk.cyc 0 false

/-- The newest record of t's journal is the completion of command c (R345, R346, R361). -/
def Completes (t : State) (c : LCmd) (handle status detail next aux : Nat) : Prop :=
  ∃ r, t.strm.journal.ring.getLast? = some r ∧ r.type = 4 ∧ r.qp = c.qp ∧ r.body = completionBytes handle status detail c.tag next aux

/-- A port takes the frame for this node: its operation belongs there, and where it comes from the twin its tag verifies (R386, R391, R405). -/
def FrameOk (s : State) (m : GFrame) (op : Nat) (twinPort : Bool) : Prop :=
  portCarries s m.port = true ∧ m.hdr.ver = 1 ∧ m.hdr.op.toNat = op ∧
    (twinShut s m.port = false ∨ (twinPort = true ∧ m.hdr.src.toNat = twinNode s)) ∧ m.hdr.dst.toNat = ownNode s ∧ isProvisional s = false ∧
    (isTwin s m.hdr.src.toNat = true → m.hdr.auth = true ∧ m.tagOk = true)

/-- A response to request q with a status and a body has left on its channel (R470–R472). -/
def Answered (t : State) (q : Req) (status : Nat) (body : List Byte) : Prop :=
  let b := bytesOf 2 q.cmd.toNat ++ bytesOf 2 body.length ++ bytesOf 4 q.tag.toNat ++ bytesOf 4 status ++ bytesOf 4 0 ++ body
  if q.chan < 2 then (mboxOf t q.chan).rsp = b ∧ (mboxOf t q.chan).done = true ∧ (mboxOf t q.chan).busy = none
  else t.keep.responses.head? = some ⟨q.chan, q.node, b⟩

/-- The command cmd of row input q serves request r, which is well-formed and names no session, or session x with its tag where the channel carries
one (R472, R505, R507). -/
def Admitted (s : State) (q : Req) (cmd : Nat) (r : Req) (x : Option Session) : Prop :=
  served s q cmd = some r ∧ r.len + 16 = r.frameLen ∧
    match x with
    | none => r.session = 0
    | some x => r.session ≠ 0 ∧ sessionOf s r.session.toNat = some x ∧ (r.chan < 2 ∨ tagGood x r = true)

/-- The megabyte of the Keep's address map that an address lies in, the cores' blocks and their networks' as one (R463). -/
def megabyteOf (k : Nat) : Nat := if k < 0x20000000 then k / 0x100000 else 0x200

/-- Outside the register blocks in these megabytes s and t hold the same registers (R463). -/
def OnlyBlocks (bs : List Nat) (s t : State) : Prop := ∀ k, megabyteOf k ∉ bs → tget? t.regs k = tget? s.regs k

end Sys2Proof.Claims

open Sys2Proof Sys2Proof.Machine Sys2Proof.Claims

/-! ## The core's instructions -/

/-- R125, R126: the scalar table. Each instruction that is ready issues with its result in flight: the value of the table, for s[rd], landing at the
end of the issue cycle, or of the second cycle after it for MUL and the next for a vector LANE. Nothing else changes. A write to s0 or m0 is discarded,
and no instruction waits for it. -/
def Obligations.ScalarSlotResults : Prop :=
  ∀ (s : State) (c : Nat),
    (∀ f : FmtA, f.rsv = 0 →
      let a := rdS (coreOf s c).regs f.ra.toNat
      let b := rdS (coreOf s c).regs f.rb.toNat
      let R (i : Instr) (n : Nat) (x : Word) : Prop := ScalarResult i s c [f.ra.toNat, f.rb.toNat] f.rd.toNat n x
      R (.add c f) 0 (a + b) ∧ R (.sub c f) 0 (a - b) ∧ R (.mul c f) 2 (a * b) ∧ R (.and c f) 0 (a &&& b) ∧ R (.or c f) 0 (a ||| b) ∧
      R (.xor c f) 0 (a ^^^ b) ∧
      (f.fn = 0 → R (.shift c f) 0 (a <<< (b.toNat % 64))) ∧ (f.fn = 1 → R (.shift c f) 0 (a >>> (b.toNat % 64))) ∧
      (f.fn = 2 → R (.shift c f) 0 (a.sshiftRight (b.toNat % 64))) ∧
      (f.fn = 0 → R (.cmp c f) 0 (if a = b then 1 else 0)) ∧ (f.fn = 1 → R (.cmp c f) 0 (if a = b then 0 else 1)) ∧
      (f.fn = 2 → R (.cmp c f) 0 (if a.toInt < b.toInt then 1 else 0)) ∧ (f.fn = 3 → R (.cmp c f) 0 (if a.toNat < b.toNat then 1 else 0)) ∧
      (f.fn = 4 → R (.cmp c f) 0 (if a.toInt ≤ b.toInt then 1 else 0)) ∧ (f.fn = 5 → R (.cmp c f) 0 (if a.toNat ≤ b.toNat then 1 else 0))) ∧
    (∀ f : FmtI, f.rsv = 0 →
      ScalarResult (.addi c f) s c [f.ra.toNat] f.rd.toNat 0 (rdS (coreOf s c).regs f.ra.toNat + f.imm.signExtend 64)) ∧
    (∀ f : FmtW, f.rsv = 0 →
      ScalarResult (.li c f) s c [] f.rd.toNat 0 (if f.h = 1 then f.imm.signExtend 64 <<< 16 else f.imm.signExtend 64)) ∧
    (∀ f : FmtV, f.rsv = 0 → Onward s c →
      let r := (coreOf s c).regs
      (f.fn = 0 → Issues (.lane c f) s c .ctl [.v f.vm.toNat] [(.s f.rs.toNat, 2)]
        [(1, .setS f.rs.toNat ((rdV r f.vm.toNat).extractLsb' (64 * f.lane.toNat) 64))] []) ∧
      (f.fn = 1 → Issues (.lane c f) s c .ctl [.s f.rs.toNat] [(.v f.vm.toNat, 2)]
        [mergeLanes 1 f.vm.toNat 64 fun i => if i = f.lane.toNat then some (rdS r f.rs.toNat).toNat else none] []) ∧
      (f.fn = 0 → f.vm.toNat < 8 → Issues (.movr c f) s c .ctl [.m f.vm.toNat] [(.s f.rs.toNat, 1)]
        [(0, .setS f.rs.toNat (rdM r f.vm.toNat))] []) ∧
      (f.fn = 1 → f.vm.toNat < 8 → Issues (.movr c f) s c .ctl [.s f.rs.toNat] [(.m f.vm.toNat, 1)]
        [(0, .setM f.vm.toNat (rdS r f.rs.toNat))] [])) ∧
    (∀ (r : RegFiles) (x : Word), wrS r 0 x = r ∧ wrM r 0 x = r) ∧ realDest (.s 0) = false ∧ realDest (.m 0) = false

/-- R128–R132, R135, R136: sequencing. Each instruction that is ready changes the sequencer, the heartbeat's tag or DONE as its rule says; a full or
empty stack, a loop whose body is no body or no inner one, and open loops or calls at a TWAIT fault. -/
def Obligations.SequencingEffects : Prop :=
  ∀ (s : State) (c : Nat) (sl : Slot) (f : FmtJ), let q := (coreOf s c).seq
    let x := rdS (coreOf s c).regs f.ra.toNat
    let next (i : Instr) (reads : List RegName) (t : State) : Prop := Ready s c reads [] → exec i s = .next t
    let clean : Prop := f.rsv1 = 0 ∧ f.rsv2 = 0 ∧ f.cond ≠ 7
    let seqOk : Prop := clean ∧ q.delay = 0 ∧ Onward s c
    ((sl = .ctl → Onward s c) → next (.nop c sl 0) [] (issued s c sl [] [] [])) ∧
    (seqOk → nearLoopEnd q = false → f.cond = 0 ∨ condHolds f.cond.toNat x = true →
      next (.br c f) (if f.cond = 0 then [] else [.s f.ra.toNat]) (branched s c f.target.toNat true q.calls)) ∧
    (seqOk → nearLoopEnd q = false → condHolds f.cond.toNat x = false → next (.br c f) [.s f.ra.toNat]
      (modCore (issued s c .ctl [] [] []) c fun co => { co with seq := { co.seq with delay := 3, target := none } })) ∧
    (seqOk → nearLoopEnd q = false → f.cond = 0 → q.calls.length < 4 →
      next (.call c f) [] (branched s c f.target.toNat false ((q.pc + 3) :: q.calls))) ∧
    (seqOk → nearLoopEnd q = false → f.cond = 0 → 4 ≤ q.calls.length → next (.call c f) [] (issuedFault s c evSeqStack true)) ∧
    (seqOk → nearLoopEnd q = false → f.cond = 0 ∧ f.ra = 0 ∧ f.imm = 0 ∧ f.target = 0 → ∀ a rest, q.calls = a :: rest → a < 4096 →
      next (.ret c f) [] (branched s c a false rest)) ∧
    (seqOk → nearLoopEnd q = false → f.cond = 0 ∧ f.ra = 0 ∧ f.imm = 0 ∧ f.target = 0 → q.calls = [] →
      next (.ret c f) [] (issuedFault s c evSeqStack true)) ∧
    (let n := x.toNat % 2 ^ 32 + f.imm.toNat
     let inner : Prop := ∀ l rest, q.loops = l :: rest → f.target.toNat < l.fin
     seqOk → nearLoopEnd q = false →
      (q.loops.length < 4 ∧ q.pc < f.target.toNat ∧ inner → 0 < n → next (.loop c f) [.s f.ra.toNat]
        (modCore (issued s c .ctl [] [] []) c fun co => { co with seq := { co.seq with loops := ⟨q.pc + 1, f.target.toNat, n⟩ :: q.loops } })) ∧
      (q.loops.length < 4 ∧ q.pc < f.target.toNat ∧ inner → n = 0 → next (.loop c f) [.s f.ra.toNat]
        (modCore (issued s c .ctl [] [] []) c fun co => { co with seq := { co.seq with idle := 2, jump := some (f.target.toNat + 1) } })) ∧
      (4 ≤ q.loops.length ∨ f.target.toNat ≤ q.pc ∨ ¬ inner → next (.loop c f) [.s f.ra.toNat] (issuedFault s c evSeqStack true))) ∧
    (clean → q.delay = 0 →
      let t := modCore (issued s c .ctl [] [] []) c fun co =>
        { co with done := true, seq := { co.seq with waiting := true, resume := f.target.toNat } }
      (q.loops = [] ∧ q.calls = [] → next (.twait c f) [] t) ∧
      (q.loops ≠ [] ∨ q.calls ≠ [] → next (.twait c f) [] (recordFault t c evSeqStack q.pc s.clk.cyc 0 false))) ∧
    (clean → Onward s c →
      next (.idle c f) [] (modCore (issued s c .ctl [] [] []) c fun co => { co with seq := { co.seq with idle := f.imm.toNat } }) ∧
      next (.beat c f) [] (modCore (issued s c .ctl [] [] []) c fun co => { co with beat := f.imm.setWidth 8 })) ∧
    (clean → Onward s c →
      (condHolds f.cond.toNat x = true → next (.trap c f) (if f.cond = 0 then [] else [.s f.ra.toNat]) (issuedFault s c evTrap false)) ∧
      (condHolds f.cond.toNat x = false → next (.trap c f) [.s f.ra.toNat] (issued s c .ctl [] [] [])))

/-- R134, R137–R140: STAT's items and the selectors that are not accepted, a mailbox word sent in time to a core of the same region or to the region's unit mailbox, EV_MBOX_FAULT for any
other destination, and the oldest inbox word with its sender, or zero and all ones. -/
def Obligations.StatusAndMailboxEffects : Prop :=
  ∀ (s : State) (c : Nat) (f : FmtA), f.rsv = 0 → Onward s c →
    let co := coreOf s c
    let stat (fn : BitVec 3) (x : Nat) : Prop :=
      f.fn = fn → Issues (.stat c f) s c .ctl [] [(.s f.rd.toNat, 1)] [(0, .setS f.rd.toNat (BitVec.ofNat 64 x))] []
    (stat 0 c ∧ stat 1 (c % 152 + 65536 * (c / 152)) ∧ stat 2 s.clk.cyc ∧ stat 3 (rd s F.TICK_CTL_K 0) ∧ stat 4 co.inbox.length) ∧
    (5 ≤ f.fn.toNat → c < nCores → canIssue s c co = true → exec (.stat c f) s =
      .next (recordFault (setCore s c { co with bundle := co.bundle ++ [(.ctl, [])] }) c evIllegalBundle co.seq.pc s.clk.cyc 0 false)) ∧
    (let d := rdS co.regs f.ra.toNat
     let w := rdS co.regs f.rb.toNat
     let region := rd s F.CORE_STATUS_REGION c
     let sent (e : Eff) : Prop := Ready s c [.s f.ra.toNat, .s f.rb.toNat] [] →
       exec (.msend c f) s = .next (modCore (issued s c .ctl [] [(0, e)] []) c fun co => { co with lastMsend := some s.clk.cyc })
     (∀ l, co.lastMsend = some l → l + 8 ≤ s.clk.cyc) → s.clk.cyc ≤ 2 ^ tickK s - 1024 →
      (d = 0x3FFF → sent (.mail (0x7000 + region) w)) ∧
      (d ≠ 0x3FFF → d.toNat < nCores → rd s F.CORE_STATUS_REGION d.toNat = region → sent (.mail d.toNat w)) ∧
      (d ≠ 0x3FFF → (nCores ≤ d.toNat ∨ rd s F.CORE_STATUS_REGION d.toNat ≠ region) → sent (.fault evMboxFault 0))) ∧
    (let n := f.rd.toNat
     n % 2 = 0 → 2 ≤ n →
      (∀ m rest, co.inbox = m :: rest → Issues (.mrecv c f) s c .ctl [] [(.s n, 1), (.s (n + 1), 1)]
        [(0, .setS n m.word), (0, .setS (n + 1) (BitVec.ofNat 64 m.sender)), (0, .popInbox)] []) ∧
      (co.inbox = [] → Issues (.mrecv c f) s c .ctl [] [(.s n, 1), (.s (n + 1), 1)]
        [(0, .setS n 0), (0, .setS (n + 1) (BitVec.allOnes 64))] []))

/-- R141–R144: each send hands one word to the router at the end of its issue cycle: a vector register, eight accumulators in transfer form (cleared
with CLR), 32 ca registers, or 16 scalar registers. Each receive takes the word delivered in its issue cycle; where none is, EV_XFER_SLOT and a word of
zeros. RECVA writes or adds lanes into eight accumulators and keeps their block counts. -/
def Obligations.TransferEffects : Prop :=
  (∀ (s : State) (c : Nat) (f : FmtX), f.rsv = 0 →
     let r := (coreOf s c).regs
     let g := f.reg.toNat
     (f.fn = 0 → Issues (.send c f) s c .xfer [.v g] [] [(0, .sendWord (rdV r g))] []) ∧
     (f.fn = 0 → g < 16 → Issues (.senda c f) s c .xfer ((groupAcc g).map .acc) []
       [(0, .taste (2 ^ (g / 2)) none 0), (0, .sendWord (accWord r (8 * g)))] []) ∧
     (f.fn = 1 → g < 16 → Issues (.senda c f) s c .xfer ((groupAcc g).map .acc) ((groupAcc g).map fun a => (.acc a, 1))
       ([(0, .taste (2 ^ (g / 2)) none 0), (0, .sendWord (accWord r (8 * g)))] ++ (groupAcc g).map fun a => (0, .setAcc a ⟨0, 0⟩)) []) ∧
     (f.fn = 0 → g < 4 → Issues (.sendc c f) s c .xfer ((groupCa g).map .ca) []
       [(0, .sendWord (packLanes 32 ((groupCa g).map fun n => (rdCa r n).toNat)))] []) ∧
     (f.fn = 0 → g < 2 → Issues (.sends c f) s c .xfer ((groupS g).map .s) []
       [(0, .sendWord (packLanes 64 ((groupS g).map fun n => (rdS r n).toNat)))] [])) ∧
  (∀ (s : State) (c : Nat) (f : FmtX) (w : NetWord) (e : Eff), f.rsv = 0 →
     (delivered s c = some w ∧ e = .took) ∨ (delivered s c = none ∧ w = 0 ∧ e = .fault evXferSlot 0) →
     let r := (coreOf s c).regs
     let g := f.reg.toNat
     let la (i : Nat) : La112 := BitVec.ofNat 112 (laneOf 128 w i)
     (f.fn = 0 → Issues (.recv c f) s c .xfer [] [(.v g, 1)] [(0, e), (0, .setV g w)] []) ∧
     (f.fn = 0 → g < 16 → Issues (.recva c f) s c .xfer [] ((groupAcc g).map fun a => (.acc a, 1))
       ((0, e) :: (0, .taste (2 ^ (g / 2)) none 0) :: (List.range 8).map fun i =>
         (0, .setAcc (8 * g + i) ⟨la i, (rdAcc r (8 * g + i)).cnt⟩)) []) ∧
     (f.fn = 1 → g < 16 → Issues (.recva c f) s c .xfer ((groupAcc g).map .acc) ((groupAcc g).map fun a => (.acc a, 2))
       ((0, e) :: (0, .taste (2 ^ (g / 2)) none 0) :: (List.range 8).map fun i =>
         (1, .setAcc (8 * g + i) ⟨(rdAcc r (8 * g + i)).la + la i, (rdAcc r (8 * g + i)).cnt⟩)) []) ∧
     (f.fn = 0 → g < 4 → badLanes w = 0 → Issues (.recvc c f) s c .xfer [] ((groupCa g).map fun n => (.ca n, 1))
       ((0, e) :: (List.range 32).map fun i => (0, .setCa (32 * g + i) (BitVec.ofNat 32 (laneOf 32 w i)))) []) ∧
     (f.fn = 0 → g < 2 → Issues (.recvs c f) s c .xfer [] ((groupS g).map fun n => (.s n, 1))
       ((0, e) :: (List.range 16).map fun i => (0, .setS (16 * g + i) (BitVec.ofNat 64 (laneOf 64 w i)))) []))

/-- R150, R155–R158: a product on streams inside the scratchpad, with the unit free and block counts that allow it, starts the unit and lands in every
accumulator of its rows (of all rows with CLR, which also opens a drain group) u × blocks + 4 cycles after issue. -/
def Obligations.ProductIssue : Prop :=
  ∀ (s : State) (c : Nat),
    let r := (coreOf s c).regs
    let starts (i : Instr) (sw sx u nb nr : Nat) (clr : Bool) (kind : UnitKind) (wLast xLast : Nat) : Prop :=
      let blocks := nb + 1
      let lat := u * blocks + 5
      let adds := (List.range 128).filter fun n => n / 16 ≤ nr
      let dests := if clr then List.range 128 else adds
      matrixBusy s c = false → streamOk (rdS r sw) wLast = true → streamOk (rdS r sx) xLast = true →
      (clr = false → ∀ n ∈ adds, (rdAcc r n).cnt + blocks ≤ 2 ^ 27) →
      Issues i s c .mx ([RegName.s sw, RegName.s sx] ++ (if clr then [] else adds.map RegName.acc)) (dests.map fun n => (RegName.acc n, lat))
        ((if clr then [(0, Eff.taste 255 none 0), (0, Eff.opening)] else []) ++ [(lat - 1, Eff.prodCounts)] ++ dests.map fun n => (lat - 1, Eff.prod n))
        [⟨.mx, s.clk.cyc, (coreOf s c).seq.pc, lat, kind, (rdS r sw).toNat, (rdS r sx).toNat, []⟩]
    (∀ f : FmtMM, f.rsv = 0 → f.wf.toNat < 4 →
      starts (.mm4 c f) f.sw.toNat f.sx.toNat 1 f.nb.toNat f.nr.toNat (f.clr = 1) (.mm4 f)
        (wLast4 (fmt4 f.wf.toNat) f.nb.toNat) (xLast4 f.nb.toNat)) ∧
    (∀ f : FmtM8, f.rsv = 0 → f.wf.toNat < 3 → f.xf.toNat < 3 →
      starts (.mm8 c f) f.sw.toNat f.sx.toNat 4 f.nb.toNat f.nr.toNat (f.clr = 1) (.mm8 f)
        (wLast8 (f.s = 1) f.nb.toNat) (xLast8 (f.s = 1) f.nb.toNat)) ∧
    (∀ f : FmtM8, f.rsv = 0 → f.wf = 0 → f.xf = 0 → f.s = 0 →
      starts (.mmbf c f) f.sw.toNat f.sx.toNat 16 f.nb.toNat f.nr.toNat (f.clr = 1) (.mmbf f)
        ((16 * (f.nb.toNat + 1) - 1) / 2) ((16 * (f.nb.toNat + 1) - 1) / 4))

/-- R154, R158, R159: MCLR clears the masked rows; MGET, MPUT and MCNT move accumulators and counts; MDRAIN rounds rows of accumulators with a finite
tensor scale into a vector register and counts what saturated. -/
def Obligations.AccumulatorMoves : Prop :=
  ∀ (s : State) (c : Nat), matrixBusy s c = false →
    let r := (coreOf s c).regs
    (∀ f : FmtMC, f.rsv = 0 →
      let accs := (List.range 128).filter fun n => f.rm.toNat.testBit (n / 16)
      Issues (.mclr c f) s c .mx [] (accs.map fun n => (RegName.acc n, 1))
        ([(0, Eff.taste f.rm.toNat none 0)] ++ (if f.rm.toNat = 255 then [(0, Eff.opening)] else []) ++ accs.map fun n => (0, Eff.setAcc n ⟨0, 0⟩)) []) ∧
    (∀ f : FmtMG, f.rsv = 0 →
      let a := f.a.toNat
      let accs := (List.range 8).map (a + ·)
      (a % 8 = 0 → f.f = 0 → Issues (.mget c f) s c .mx (accs.map RegName.acc) [(RegName.v f.r.toNat, 2)]
        [(0, Eff.taste (2 ^ (a / 16)) none 0), (1, Eff.setV f.r.toNat (accWord r a))] []) ∧
      (a % 8 = 0 → f.f = 1 → Issues (.mget c f) s c .mx (accs.map RegName.acc) ((RegName.v f.r.toNat, 2) :: accs.map fun n => (RegName.acc n, 1))
        ([(0, Eff.taste (2 ^ (a / 16)) none 0), (1, Eff.setV f.r.toNat (accWord r a))] ++ accs.map fun n => (0, Eff.setAcc n ⟨0, 0⟩)) []) ∧
      (a % 8 = 0 → f.f = 0 → Issues (.mput c f) s c .mx [RegName.v f.r.toNat] (accs.map fun n => (RegName.acc n, 1))
        ((0, Eff.taste (2 ^ (a / 16)) none 0) :: (List.range 8).map fun i =>
          (0, Eff.setAcc (a + i) ⟨BitVec.ofNat 112 (laneOf 128 (rdV r f.r.toNat) i), (rdAcc r (a + i)).cnt⟩)) []) ∧
      (a % 8 = 0 → f.f = 1 → Issues (.mput c f) s c .mx (RegName.v f.r.toNat :: accs.map RegName.acc) (accs.map fun n => (RegName.acc n, 2))
        ((0, Eff.taste (2 ^ (a / 16)) none 0) :: (List.range 8).map fun i =>
          (1, Eff.setAcc (a + i) ⟨(rdAcc r (a + i)).la + BitVec.ofNat 112 (laneOf 128 (rdV r f.r.toNat) i), (rdAcc r (a + i)).cnt⟩)) []) ∧
      (f.f = 0 → Issues (.mcnt c f) s c .mx [RegName.acc a] [(RegName.s f.r.toNat, 1)] [(0, Eff.setS f.r.toNat (BitVec.ofNat 64 (rdAcc r a).cnt))] [])) ∧
    (∀ (f : FmtMD) (t : DrainFmt), f.rsv = 0 → drainFmt f.fmt.toNat = some t → f.m0.toNat % t.rows = 0 →
      let code := (rdS r f.st.toNat).toNat % 2 ^ 32
      let accs := (List.range (16 * t.rows)).map (16 * f.m0.toNat + ·)
      let out (n : Nat) : Nat × Bool := drainRound t (drainExact (rdAcc r n).la (valOf fp32 code)
        (if f.y = 1 then valOf fp32 (rdCa r n).toNat else .fin false 0 0))
      let sats := accs.countP fun n => (out n).2
      (valOf fp32 code).isFin = true → (rdB s F.CORE_NUM_CTL_SAT_TRAP c = false ∨ sats = 0) →
      Ready s c ([RegName.s f.st.toNat] ++ accs.map RegName.acc ++ (if f.y = 1 then accs.map RegName.ca else []))
        ((RegName.v f.vd.toNat, 4) :: (if f.z = 1 then accs.map fun n => (RegName.acc n, 4) else [])) →
      After (exec (.mdrain c f) s) fun t' => ∀ e ∈ [Eff.setV f.vd.toNat (packLanes t.width (accs.map fun n => (out n).1)), .count .clamp sats] ++
          (if f.z = 1 then accs.map fun n => .setAcc n ⟨0, 0⟩ else []),
        (⟨.mx, s.clk.cyc, (coreOf s c).seq.pc, s.clk.cyc + 3, e⟩ : Pend) ∈ (coreOf t' c).pend)

/-- R162, R163: the lane-wise instructions on registers. Each that is ready issues with its lanes in flight: under the mask, lane i takes the value of
the table, in the word's lane type, two cycles' latency but for VMUL (3), VFMA and VNRM (4). -/
def Obligations.LaneWiseResults : Prop :=
  ∀ (s : State) (c : Nat) (f : FmtVR),
    let r := (coreOf s c).regs
    let a (t : LaneTy) (i : Nat) : Nat := laneOf t.width (rdV r f.va.toNat) i
    let b (t : LaneTy) (i : Nat) : Nat := laneOf t.width (rdV r f.vb.toNat) i
    let d (t : LaneTy) (i : Nat) : Nat := laneOf t.width (rdV r f.vd.toNat) i
    let x := (rdS r f.sa.toNat).toNat
    let arith (i : Instr) (lat : Nat) (op : FFmt → Nat → Nat → Nat) (iop : Int → Int → Int) : Prop :=
      LaneResult i s c f ⟨true, true, true, 1, false, false⟩ anyTy false lat fun t j => match t.ffmt with
        | some g => op g (a t j) (b t j)
        | none => wrapInt t.width (iop (sInt t.width (a t j)) (sInt t.width (b t j)))
    LaneResult (.vmov c f) s c f ⟨true, false, true, 1, false, false⟩ anyTy false 2 a ∧
    LaneResult (.vbcst c f) s c f ⟨false, false, true, 1, true, false⟩ anyTy false 2 (fun t _ => x % 2 ^ t.width) ∧
    LaneResult (.viota c f) s c f ⟨false, false, true, 1, true, false⟩ intTy false 2 (fun t i => (x + i) % 2 ^ t.width) ∧
    LaneResult (.vperm c f) s c f ⟨true, true, true, 1, false, false⟩ anyTy false 2 (fun t i => a t (b t i % t.lanes)) ∧
    LaneResult (.vlog c f) s c f ⟨true, true, true, 4, false, false⟩ anyTy false 2 (fun t i =>
      if f.fn = 0 then a t i &&& b t i else if f.fn = 1 then a t i ||| b t i else if f.fn = 2 then a t i ^^^ b t i
      else a t i - (a t i &&& b t i)) ∧
    arith (.vadd c f) 2 fAdd (· + ·) ∧ arith (.vsub c f) 2 fSub (· - ·) ∧ arith (.vmul c f) 3 fMul (· * ·) ∧
    LaneResult (.vfma c f) s c f ⟨true, true, true, 1, false, false⟩ anyTy true 4 (fun t i => match t.ffmt with
      | some g => fFma g (a t i) (b t i) (d t i)
      | none => wrapInt t.width (sInt t.width (a t i) * sInt t.width (b t i) + sInt t.width (d t i))) ∧
    LaneResult (.vmax c f) s c f ⟨true, true, true, 2, false, false⟩ anyTy false 2 (fun t i => match t.ffmt with
      | some g => fMaxMin g (f.fn = 1) (a t i) (b t i)
      | none => wrapInt t.width (if f.fn = 1 then min (sInt t.width (a t i)) (sInt t.width (b t i))
          else max (sInt t.width (a t i)) (sInt t.width (b t i)))) ∧
    LaneResult (.vnrm c f) s c f ⟨true, true, true, 1, false, false⟩ fpTy true 4 (fun t i =>
      fMul3 (t.ffmt.getD fp32) (a t i) (b t i) (d t i)) ∧
    LaneResult (.vshr c f) s c f ⟨true, true, true, 3, false, false⟩ intTy false 2 (fun t i =>
      let n := b t i % t.width
      if f.fn = 0 then a t i * 2 ^ n % 2 ^ t.width else if f.fn = 1 then a t i / 2 ^ n
      else wrapInt t.width (sInt t.width (a t i) / 2 ^ n))

/-- R163–R167: loads and stores start their unit on rows inside the scratchpad (a store only outside the cask window, R101); VCMP's mask word, VSEL's
lanes, VRED's segments and VCVT's lanes are in flight with their latency. -/
def Obligations.VectorMemoryAndSelectResults : Prop :=
  ∀ (s : State) (c : Nat), let r := (coreOf s c).regs
    (∀ f : FmtVM, f.rsv = 0 → f.hh ≠ 3 →
      let a := rdS r f.sa.toNat + f.off.setWidth 64
      streamOk a (vmLast f) = true →
      Issues (.vld c f) s c .vec [.s f.sa.toNat] [(.v f.v.toNat, 3)] [(2, .load f.v.toNat)]
        [⟨.vec, s.clk.cyc, (coreOf s c).seq.pc, 3, .vld f, a.toNat, 0, []⟩] ∧
      ((∀ k, k ≤ vmLast f → inWindow s c (streamRow a.toNat k) = false) →
        Issues (.vst c f) s c .vec [.s f.sa.toNat, .v f.v.toNat] [] []
          [⟨.vec, s.clk.cyc, (coreOf s c).seq.pc, 0, .vst f (rdV r f.v.toNat), a.toNat, 0, []⟩])) ∧
    (∀ f : FmtVR,
      (vrOk f ⟨true, true, true, 4, false, false⟩ anyTy = true → f.vd.toNat < 8 →
        Issues (.vcmp c f) s c .vec [.v f.va.toNat, .v f.vb.toNat, .m f.msk.toNat] [(.m f.vd.toNat, 2)]
          [(1, .setM f.vd.toNat (vcmpWord r f))] []) ∧
      (vrOk f ⟨true, true, true, 1, false, false⟩ anyTy = true →
        Issues (.vsel c f) s c .vec [.v f.va.toNat, .v f.vb.toNat, .m f.msk.toNat] [(.v f.vd.toNat, 2)]
          [(1, .setV f.vd.toNat (packLanes (tyOf f).width ((List.range (tyOf f).lanes).map fun i =>
            if maskBit (rdM r f.msk.toNat) (tyOf f) i then la r f (tyOf f) i else lb r f (tyOf f) i)))] []) ∧
      (vrOk f ⟨true, false, true, 4, true, false⟩ anyTy = true → 1 ≤ f.sa.toNat → 2 ^ f.sa.toNat ≤ (tyOf f).lanes →
        Issues (.vred c f) s c .vec [.v f.va.toNat, .m f.msk.toNat] [(.v f.vd.toNat, 6)]
          [maskedEff r f (tyOf f) 5 (vredLane r f (tyOf f))] []) ∧
      (∀ dw conv, vrOk f ⟨true, false, true, 32, false, true⟩ anyTy = true → cvtDest f.fn.toNat = some (dw, conv) →
        (f.fn.toNat < 8 ∨ tyOf f = .i8) →
        let sw := (tyOf f).width
        let n := min (1024 / sw) (1024 / dw)
        let value (i : Nat) : Nat := conv (cvtSource (tyOf f) f.fn.toNat (laneOf sw (rdV r f.va.toNat) i))
        f.h.toNat < (if sw < dw then dw / sw else sw / dw) →
        Issues (.vcvt c f) s c .vec [.v f.va.toNat, .m f.msk.toNat] [(.v f.vd.toNat, 2)]
          [mergeLanes 1 f.vd.toNat dw fun i =>
            if cvtMask (rdM r f.msk.toNat) dw i = false then none
            else if sw ≤ dw then some (value (n * f.h.toNat + i))
            else if n * f.h.toNat ≤ i ∧ i < n * f.h.toNat + n then some (value (i - n * f.h.toNat)) else none] []))

/-- R168–R171: the function pipeline's lanes land eight cycles after issue. VQNT's codes and scales land in their places of the two destinations, and
VDQ's values in their FP32 lanes, on every word that R170 accepts; with L = 1 a block's 16 codes are 64-bit lane idx, and its scale byte 16·bpos + idx.
The counts advance with the landing, which is the model's choice of cycle (assumption 85). -/
def Obligations.FunctionAndQuantiseResults : Prop :=
  ∀ (s : State) (c : Nat), let r := (coreOf s c).regs
    (∀ f : FmtVR,
      let t := tyOf f
      let g := t.ffmt.getD fp32
      let lands (h : Nat → Nat → Nat) : Nat × Eff := mergeLanes 7 f.vd.toNat t.width fun i =>
        if pipeSel r f t i then some (h (laneOf t.width (rdV r f.va.toNat) i) (laneOf t.width (rdV r f.vb.toNat) i)) else none
      let two (i : Instr) (fns : Nat) (h : Nat → Nat → Nat) (more : List (Nat × Eff)) : Prop := pipeOk f true fns = true →
        Issues i s c .vec [RegName.v f.va.toNat, RegName.v f.vb.toNat, RegName.m f.msk.toNat] [(RegName.v f.vd.toNat, 8)] (lands h :: more) []
      (pipeOk f false 11 = true → Issues (.vfun c f) s c .vec [RegName.v f.va.toNat, RegName.m f.msk.toNat] [(RegName.v f.vd.toNat, 8)]
        [lands fun a _ => vfun g f.fn.toNat a] []) ∧
      two (.vsmx c f) 1 (vsmxLane g) [] ∧ two (.vlse c f) 1 (vlseLane g) [] ∧
      (f.fn = 0 → two (.vsnrm c f) 2 (fGuardDiv g) []) ∧
      (f.fn = 1 → two (.vsnrm c f) 2 (fGuardDiv g)
        [(0, .empty ((List.range t.lanes).countP fun i => pipeSel r f t i && (valOf g (laneOf t.width (rdV r f.vb.toNat) i)).isZero))])) ∧
    (∀ f : FmtVQ, vqOk f = true →
      (f.vd ≠ f.vs → f.sr = 1 ∨ (f.sstep = 0 ∧ f.sidx = 0) →
        let blocks := vqntBlocks s c f
        let lands (codes codeBits scales scaleBits : NetWord) : Prop :=
          Issues (.vqnt c f) s c .vec
            ([RegName.v f.va.toNat, RegName.s f.sg.toNat] ++ (if f.sr = 1 then [RegName.s f.sstep.toNat, RegName.s f.sidx.toNat] else []))
            [(RegName.v f.vd.toNat, 4), (RegName.v f.vs.toNat, 4)]
            [(3, Eff.mergeV f.vd.toNat codes codeBits), (3, Eff.mergeV f.vs.toNat scales scaleBits),
              (3, Eff.count .qsat (blocks.countP fun b => b.2.1.2.2)), (3, Eff.count .nanOp (blocks.map fun b => b.2.2).sum)] []
        lands (vqntCodes f blocks id) (vqntCodes f blocks fun _ => 255) (vqntScales blocks id) (vqntScales blocks fun _ => 255) ∧
        (f.l = 1 → ∃ codes scales : NetWord,
          lands codes (BitVec.ofNat 1024 ((2 ^ 64 - 1) * 2 ^ (64 * f.idx.toNat))) scales
            (BitVec.ofNat 1024 (255 * 2 ^ (8 * (16 * f.bpos.toNat + f.idx.toNat)))) ∧
          ∀ b, blocks = [b] →
            (∀ e x, b.2.1.1[e]? = some x → codes.extractLsb' (64 * f.idx.toNat + 4 * e) 4 = BitVec.ofNat 4 x) ∧
            scales.extractLsb' (8 * (16 * f.bpos.toNat + f.idx.toNat)) 8 = BitVec.ofNat 8 b.2.1.2.1)) ∧
      (f.sr = 0 → f.sstep = 0 → f.sidx = 0 →
        let elems := vdqElems r f
        Issues (.vdq c f) s c .vec [RegName.v f.va.toNat, RegName.v f.vs.toNat, RegName.s f.sg.toNat] [(RegName.v f.vd.toNat, 3)]
          [mergeLanes 2 f.vd.toNat 32 fun i => (elems.find? fun x => x.1 = i).map (·.2.1),
            (2, Eff.count .resCode (elems.countP fun x => x.2.2))] []))

/-- R172–R174, R177: the correction lane, free, starts CDOT and CUP on streams inside the scratchpad and lands CADD, CSCL and CMOV; TSKIP is pending
from its issue on. -/
def Obligations.CorrectionLaneResults : Prop :=
  ∀ (s : State) (c : Nat), laneBusy s c = false → let r := (coreOf s c).regs
    (∀ f : FmtCD, f.rsv = 0 →
      let len := f.ni.toNat + 1
      let nregs := f.ni.toNat / 64 + 1
      let xs := (List.range len).map fun i => laneOf 16 (rdV r (f.vx.toNat + i / 64)) (i % 64)
      f.vx.toNat + nregs ≤ 32 → streamOk (rdS r f.sv.toNat) (if f.uf = 1 then f.ni.toNat else f.ni.toNat / 2) = true →
      Issues (.cdot c f) s c .vec
        (RegName.s f.sv.toNat :: (List.range nregs).map (fun i => .v (f.vx.toNat + i)) ++ (if f.z = 1 then [] else (groupCa f.g.toNat).map RegName.ca))
        ((groupCa f.g.toNat).map fun n => (RegName.ca n, len + 3))
        (nanEffs s c (xs.countP fun x => !(valOf bf16 x).isFin) ++ (groupCa f.g.toNat).map fun n => (len + 2, Eff.laneSum n))
        [⟨.vec, s.clk.cyc, (coreOf s c).seq.pc, len + 3, .cdot f xs, (rdS r f.sv.toNat).toNat, 0, []⟩]) ∧
    (∀ f : FmtCU, f.rsv = 0 →
      let rank := 8 * 2 ^ f.rk.toNat
      let per := (rank + 31) / 32
      let xs := (List.range 2).flatMap fun m => (List.range rank).map fun j => laneOf 32 (rdV r (f.vt.toNat + m * per + j / 32)) (j % 32)
      f.vt.toNat + 2 * per ≤ 32 → streamOk (rdS r f.su.toNat) (if f.uf = 1 then (rank - 1) / 2 else (rank - 1) / 4) = true →
      Issues (.cup c f) s c .vec (RegName.s f.su.toNat :: (List.range (2 * per)).map (fun i => .v (f.vt.toNat + i)))
        ((groupCa f.g.toNat).map fun n => (RegName.ca n, rank + 3))
        (nanEffs s c (xs.countP fun x => !(valOf fp32 x).isFin) ++ (groupCa f.g.toNat).map fun n => (rank + 2, Eff.laneSum n))
        [⟨.vec, s.clk.cyc, (coreOf s c).seq.pc, rank + 3, .cup f xs, (rdS r f.su.toNat).toNat, 0, []⟩]) ∧
    (∀ f : FmtCA, f.rsv = 0 →
      let out (l : Nat) : Nat × Bool := laneAdd (rdCa r (32 * f.ga.toNat + l)).toNat (valOf fp32 (rdCa r (32 * f.gb.toNat + l)).toNat)
      Issues (.cadd c f) s c .vec ((groupCa f.ga.toNat).map RegName.ca ++ (groupCa f.gb.toNat).map RegName.ca)
        ((groupCa f.ga.toNat).map fun n => (RegName.ca n, 2))
        ((List.range 32).map (fun l => (1, Eff.setCa (32 * f.ga.toNat + l) (BitVec.ofNat 32 (out l).1))) ++
          [(1, Eff.count .clamp ((List.range 32).countP fun l => (out l).2))]) []) ∧
    (∀ f : FmtCS, f.rsv = 0 →
      let x (l : Nat) : Nat := laneOf 32 (rdV r f.vc.toNat) l
      let out (l : Nat) : Nat × Bool := laneMul (rdCa r (32 * f.g.toNat + l)).toNat (if (valOf fp32 (x l)).isFin then x l else 0)
      Issues (.cscl c f) s c .vec (RegName.v f.vc.toNat :: (groupCa f.g.toNat).map RegName.ca) [(RegName.v f.vd.toNat, 3)]
        (nanEffs s c ((List.range 32).countP fun l => !(valOf fp32 (x l)).isFin) ++
          [(2, Eff.setV f.vd.toNat (packLanes 32 ((List.range 32).map fun l => (out l).1))),
            (2, Eff.count .clamp ((List.range 32).countP fun l => (out l).2))]) []) ∧
    (∀ f : FmtCM, f.rsv = 0 →
      let x (l : Nat) : Nat := laneOf 32 (rdV r f.v.toNat) l
      (f.dir = 0 → Issues (.cmov c f) s c .vec ((groupCa f.g.toNat).map RegName.ca) [(RegName.v f.v.toNat, 2)]
        [(1, Eff.setV f.v.toNat (packLanes 32 ((groupCa f.g.toNat).map fun n => (rdCa r n).toNat)))] []) ∧
      (f.dir = 1 → Issues (.cmov c f) s c .vec [RegName.v f.v.toNat] ((groupCa f.g.toNat).map fun n => (RegName.ca n, 2))
        (nanEffs s c ((List.range 32).countP fun l => !(valOf fp32 (x l)).isFin) ++ (List.range 32).map fun l =>
          (1, Eff.setCa (32 * f.g.toNat + l) (BitVec.ofNat 32 (if (valOf fp32 (x l)).isFin then x l else 0)))) [])) ∧
    (Ready s c [] [] → exec (.tskip c 0) s = .next (modCore (issued s c .vec [] [] []) c fun co =>
      { co with taster := { co.taster with skip := true } }))

/-- R119, R120, R122: where a slot's word is not accepted (a NOP with bits set, a scalar word with reserved bits set), it acts as NOP with
EV_ILLEGAL_BUNDLE; where an ADD reads a register that awaits a result, it acts as NOP with EV_HAZARD; where it names a destination of another slot of
its bundle, both act as NOP with EV_ILLEGAL_BUNDLE. -/
def Obligations.RefusedSlotsActAsNop : Prop :=
  ∀ (s : State) (c : Nat), c < nCores → canIssue s c (coreOf s c) = true →
    let co := coreOf s c
    let faults (i : Instr) (t : State) (ev : Nat) : Prop := exec i s = .next (recordFault t c ev co.seq.pc s.clk.cyc 0 false)
    (∀ (sl : Slot) (rsv : BitVec 58), rsv ≠ 0 → (sl = .ctl → Onward s c) →
      faults (.nop c sl rsv) (setCore s c { co with bundle := co.bundle ++ [(sl, [])] }) evIllegalBundle) ∧
    (∀ f : FmtA, f.rsv = 0 → Onward s c → clashes co [RegName.s f.rd.toNat] = [] →
      (awaits co s.clk.cyc (.s f.ra.toNat) = true ∨ awaits co s.clk.cyc (.s f.rb.toNat) = true) →
      faults (.add c f) (issued s c .ctl [(.s f.rd.toNat, 1)] [] []) evHazard) ∧
    (∀ f : FmtA, f.rsv = 0 → Onward s c → clashes co [.s f.rd.toNat] ≠ [] →
      faults (.add c f)
        (setCore s c { co with
          bundle := co.bundle ++ [(.ctl, [.s f.rd.toNat])]
          pend := co.pend.filter fun p => !(p.issue = s.clk.cyc && (clashes co [.s f.rd.toNat]).contains p.slot)
          ops := co.ops.filter fun o => !(o.issue = s.clk.cyc && (clashes co [.s f.rd.toNat]).contains o.slot) }) evIllegalBundle) ∧
    (∀ f : FmtA, f.rsv ≠ 0 → Onward s c →
      ∀ i ∈ [Instr.add c f, .sub c f, .mul c f, .and c f, .or c f, .xor c f, .shift c f, .cmp c f],
        faults i (setCore s c { co with bundle := co.bundle ++ [(.ctl, [])] }) evIllegalBundle)

/-! ## The parts of a core's cycle -/

/-- R98, R121, R194, R206, R207: the parts of core c's cycle, while its clock runs and the tick is in its scheduled cycles. A register result that is
due lands; a word on one input of the router is delivered to the transfer slot that selects it, a cycle later, or reaches the
neighbour after the hop's cost; the lower row of an ingress word is
written through a free bank; a held entry whose bank is free lands; an egress word whose halves are read enters the router and the ring moves on. -/
def Obligations.CyclePartsAct : Prop :=
  ∀ (s : State) (c : Nat), c < nCores → clocked s = true →
    let co := coreOf s c
    let t := s.clk.cyc
    let kept (o : UnitOp) : Bool := t < o.issue + o.lat - 1 ∨ t < o.issue + lastAccess o
    let lands (e : Eff) (r : RegFiles) : Prop := ∀ (sl : Slot) (i pc d : Nat), d ≤ t → co.pend = [⟨sl, i, pc, d, e⟩] →
      exec (.resultLanding c) s = .next (setCore s c { co with regs := r, pend := [], ops := co.ops.filter kept })
    (co.steps.contains .ports = true →
      (∀ n x, lands (.setS n x) (wrS co.regs n x)) ∧ (∀ n x, lands (.setV n x) (wrV co.regs n x)) ∧
      (∀ n x, lands (.setM n x) (wrM co.regs n x)) ∧ (∀ n x, lands (.setAcc n x) (wrAcc co.regs n x)) ∧
      (∀ n x, lands (.setCa n x) (wrCa co.regs n x)) ∧
      (∀ p, t < p.due → co.pend = [p] → exec (.resultLanding c) s = .next (setCore s c { co with ops := co.ops.filter kept }))) ∧
    (∀ p r w, co.steps.contains .egress = true → co.steps.contains .router = false → co.inWords = [⟨p, t, false, r, w⟩] →
      s.net.rimHeld = [] ∧ s.net.rimRepeat = [] ∧ s.net.streams = [] ∧ ctlAt s c = blankCtl →
      let here : Core := { co with inWords := [], steps := .router :: co.steps }
      (outputsFor (routeEntry s c t) p = [4] → entryIng (routeEntry s c t) = false →
        exec (.routerForward c ⟨[], [], []⟩) s = .next (setCore s c { here with deliv := co.deliv ++ [(t + 1, w)] })) ∧
      (∀ o d, o < 4 → outputsFor (routeEntry s c t) p = [o] → (entryIng (routeEntry s c t) = false ∨ selOf (routeEntry s c t) 4 = 0) →
        neighbour c o = some d → isBypass s c d = false → linkOf s c o ∉ s.net.deadLinks →
        After (exec (.routerForward c ⟨[], [], []⟩) s) fun u => coreOf u c = here ∧
          coreOf u d = { coreOf s d with inWords := (coreOf s d).inWords ++ [⟨backPort o, t + hopCost c d, false, r, w⟩] })) ∧
    (∀ w, co.steps.contains .ingress = false → co.p7 = [w] → w.lowDone = false → w.first ≤ t → co.held = [] → bankOf w.row ∉ co.egrBanks →
      bankBusy co t (bankOf w.row) = false →
      exec (.ingressWrite c) s = .next (setCore s c { putRow co w.row (w.word.setWidth 512) with
        p7 := [{ w with lowDone := true, first := t }], steps := .ingress :: co.steps })) ∧
    (∀ h, co.steps.contains .held = false → t ≠ lastCycle s → co.held = [h] → h.landed = false → h.cyc < t →
      bankBusy co t (bankOf h.row) = false →
      exec (.heldEntryLand c) s = .next (setCore s c { putRow co h.row h.data with
        held := [{ h with landed := true }], steps := .held :: co.steps })) ∧
    (∀ row lo hi, co.steps.contains .egress = false → 0 < t → egressAt s c (t + 4) = false → rd s F.NET_EGR_RING_LEN c ≠ 0 →
      co.egress = [⟨t, row, some lo, some hi⟩] →
      exec (.egressRead c) s = .next (setCore
        (wr s F.NET_RING_POS_EGR c ((rd s F.NET_RING_POS_EGR c + 2) % rd s F.NET_EGR_RING_LEN c)) c { co with
          egress := [], inWords := co.inWords ++ [⟨5, t, false, rd s F.CORE_STATUS_REGION c, BitVec.ofNat 1024 (lo.toNat + hi.toNat * 2 ^ 512)⟩],
          steps := .egress :: co.steps }))

/-! ## Boundaries and the control network -/

/-- R44, R180, R184, R212–R214: at a boundary of a running clock the tick's cycle is 0 again and TICK_STAMP shows hall time; where the tick's cycles have
passed before, TICK_COUNT is one more. While the clock is gated there is no boundary. A heartbeat of a core that the lantern expects, in its tick and
its first, joins the others; the field's summary goes when all have come, or at its deadline, as the packets of R214; a powered field silent for three
ticks is lost, its bit set and its lantern gone. -/
def Obligations.BoundariesHeartbeatsAndSummaries : Prop :=
  (∀ (s : State) (x : TickInputs),
     (s.clk.gated = true → exec (.tickBoundary x) s = .next s) ∧
     (s.clk.gated = false → After (exec (.tickBoundary x) s) fun t =>
       t.clk.cyc = 0 ∧ rd t F.TICK_STAMP_HALL 0 = hallNs t % 2 ^ 64 ∧
       (lastCycle s < s.clk.cyc → rd t F.TICK_COUNT_COUNT 0 = (rd s F.TICK_COUNT_COUNT 0 + 1) % 2 ^ 64))) ∧
  (∀ (s : State),
     (∀ h : Hb, h.core < nCores →
       let f := fieldOf h.core
       let l := lanternOf s f
       let joins (g : Hb) (t : State) : Prop :=
         let all : Bool := l.expect.all fun c => (l.hbs ++ [g]).any fun x => x.core = c
         lanternOf t f = { l with hbs := l.hbs ++ [g], sent := all, silent := if all then 0 else l.silent } ∧
         t.net.sumOut = (if all then (summaryPackets f { l with hbs := l.hbs ++ [g] }).reverse else []) ++ s.net.sumOut
       l.sent = false → h.core ∈ l.expect → h.tick = BitVec.ofNat 8 l.tick → (∀ g ∈ l.hbs, g.core ≠ h.core) →
       (hbClean h = true → After (exec (.hbShort h) s) (joins { h with tag := 0 })) ∧
       (hbClean h = false → After (exec (.hbLong h) s) (joins h))) ∧
     (∀ f, f < 48 → fieldLost s f = false → (lanternOf s f).sent = false →
       After (exec (.lanternSummaryDeadline f) s) fun t =>
         lanternOf t f = { lanternOf s f with sent := true, silent := 0 } ∧
         t.net.sumOut = (summaryPackets f (lanternOf s f)).reverse ++ s.net.sumOut) ∧
     (∀ f, f < 48 → fieldLost s f = false → fieldOff s f = false → 3 ≤ (lanternOf s f).silent →
       After (exec (.lanternSilent f) s) fun t => fieldLost t f = true ∧ lanternOf t f = blankLantern))

/-- R111, R148, R537: a core listed as missing, or whose heartbeat has not come, gets EV_HEARTBEAT_MISS and a read of its CORE_STATUS; one that does not
answer is dead; a stop packet sets the tick after which its core issues no more. -/
def Obligations.MissingCoresAreReadAndStopped : Prop :=
  ∀ (s : State),
    (let asks (c : Nat) (t : State) : Prop :=
       Logged s t .report evHeartbeatMiss (regionTenant s (regionOfCore s c)) (regionOfCore s c) c
         (putF F.CORE_FAULT_EVENT (regWord s F.CORE_FAULT_EVENT c) 0) ∧
       t.net.missed = (c, false) :: s.net.missed ∧
       t.ctlSent = ⟨5, 2, 1, 0, BitVec.ofNat 16 c, BitVec.ofNat 16 (0x6000 + c % 152 / 19), 0, [0x8]⟩ :: s.ctlSent
     (∀ c, c < nCores → (∀ m ∈ s.net.missed, m.1 ≠ c) → c ∈ (lanternOf s (fieldOf c)).expect →
       (∀ h ∈ (lanternOf s (fieldOf c)).hbs, h.core ≠ c) → After (exec (.heartbeatMiss c) s) (asks c)) ∧
     (∀ (m : Summary) (e : SumEntry), m.field < 48 → m.tick = BitVec.ofNat 16 (lanternOf s m.field).tick → m.allField = false → m.last = false →
       m.entries = [e] → e.core < nCores → e.missed = true → (∀ x ∈ s.net.missed, x.1 ≠ e.core) → After (exec (.summary m) s) (asks e.core))) ∧
    (∀ c, c < nCores → (∃ a, (c, a) ∈ s.net.missed) → coreState s c ≠ csDead → regionOfCore s c = 0 → ownerOf s c = 0 →
      After (exec (.coreStatusTimeout c) s) fun t => coreState t c = csDead ∧ Logged s t .alarm evCoreDead (regionTenant s 0) 0 c 0 ∧
        ∀ a, (c, a) ∉ t.net.missed) ∧
    (∀ p : CtlPacket, Machine.packetOk p = true → p.type = 4 → p.flits.length = p.len.toNat → p.dest.toNat < nCores →
      coreState s p.dest.toNat = csRunning →
      exec (.stopPacket p) s = .next (modCore (takeIn s p) p.dest.toNat fun co => { co with stopping := some (p.flits.getD 0 0).toNat }))

/-- R140, R211, R284, R464: packets at their receivers. Register requests to a core that answers get a reply with the value, or zeros off the list, or
the write's status; a response, a debug row and a report are kept; a mailbox word in its tick joins what arrives at its core or waits in its
region's unit mailbox; an access to a core's block without a reply counts CTL_TIMEOUT. The packet leaves those that have arrived. -/
def Obligations.ControlPacketsAct : Prop :=
  ∀ (s : State) (p : CtlPacket), p.flits.length = p.len.toNat → Machine.packetOk p = true → addressOk p.dest.toNat = true →
    let d := p.dest.toNat
    let q := { s with net := { s.net with ctlIn := s.net.ctlIn.erase p } }
    let w : Word := BitVec.ofNat 64 ((p.flits.getD 0 0).toNat + (p.flits.getD 1 0).toNat * 2 ^ 32)
    (p.type = 5 → answers s d = true →
      (packetReg d (p.flits.getD 0 0).toNat = none → exec (.regRd p) s = .next (sendCtl q ⟨7, 2, 2, 0, p.src, p.dest, p.tag, [0, 0]⟩)) ∧
      (∀ g i, packetReg d (p.flits.getD 0 0).toNat = some (g, i) →
        let v := (readReg q (.mc 0) g i).1
        After (exec (.regRd p) s) fun t =>
          t.ctlSent.head? = some ⟨7, 2, 2, 0, p.src, p.dest, p.tag, [v.setWidth 32, (v >>> 32).setWidth 32]⟩)) ∧
    (p.type = 6 → answers s d = true →
      let v : Word := BitVec.ofNat 64 ((p.flits.getD 1 0).toNat + (p.flits.getD 2 0).toNat * 2 ^ 32)
      (packetReg d (p.flits.getD 0 0).toNat = none → exec (.regWr p) s = .next (sendCtl q ⟨7, 2, 1, 0, p.src, p.dest, p.tag, [0]⟩)) ∧
      (∀ g i, packetReg d (p.flits.getD 0 0).toNat = some (g, i) → After (exec (.regWr p) s) fun t =>
        t.ctlSent.head? = some ⟨7, 2, 1, 0, p.src, p.dest, p.tag, [BitVec.ofNat 32 (writeStatus q (.mc 0) g i v)]⟩)) ∧
    (p.type = 7 → (∀ m ∈ s.net.missed, m.1 ≠ p.src.toNat) →
      exec (.regRsp p) s = .next { q with net := { q.net with regReads := p :: s.net.regReads } }) ∧
    (p.type = 8 → p.tag.toNat % 256 = tickCount s % 256 →
      (d < nCores → coreState s d = csRunning →
        exec (.mboxWord p) s = .next (modCore q d fun co => { co with arrived := co.arrived ++ [⟨p.src.toNat, w⟩] })) ∧
      (∀ r, d = 0x7000 + r → 1 ≤ r → (unitOf s r).closedTick < tickCount s →
        exec (.mboxWord p) s = .next (modUnit q r fun u => { u with outWait := u.outWait ++ [(tickCount s, p.src.toNat, w)] }))) ∧
    (p.type = 9 → exec (.debugPacket p) s = .next { q with net := { q.net with debugRows := p :: s.net.debugRows } }) ∧
    (p.type = 10 → exec (.reportPacket p) s = .next { q with net := { q.net with reports := p :: s.net.reports } }) ∧
    (∀ a addr g i, findReg a addr = some (g, i) → perCore g.blk = true →
      exec (.ctlTimeout a addr) s = .next (bump s F.KEEP_CNT_CTL_TIMEOUT 0 1))

/-! ## Repair, replay, substitution and recovery -/

/-- R38, R93, R148, R538, R539: a failed row of a region that waits for its replay, with no row export outstanding, is restored from its cask's master or,
where its generation does not mark it, from the pager's copy of its page, and is watched; a row that the replay writes before it reads needs neither,
and a row with no copy sends its region to recovery. A region alone in its fate group runs again from its older generation, or from its sweep, at the
next boundary; a dead tile joins the overlay with its signature. -/
def Obligations.RepairReplayRecovery : Prop :=
  ∀ (s : State),
    (∀ c row, c < nCores → row ∈ (coreOf s c).detects → (unitOf s (regionOfCore s c)).await = .replay → s.strm.exports = [] →
      let co := coreOf s c
      let r := regionOfCore s c
      let done (rows : Table Row) (t : State) : Prop :=
        (coreOf t c).rows = rows ∧ (coreOf t c).detects = co.detects.filter (· ≠ row) ∧ row ∈ (coreOf t c).repaired
      let restored (d : RowData) : Table Row := storeRow co.rows row ⟨d, rowCode d row, true, true⟩
      let marked : Bool := if co.newer.valid && co.newer.tick = replayTick s r then (rowAt co row).mark1 else (rowAt co row).mark0
      (∀ m i, inCaskWindow s c row = true → rowMaster s c row = some (m, i) → m.bad = false →
        After (exec (.rowRepair c row false) s) (done (restored (caskPayload m.image i)))) ∧
      (∀ d bad, inCaskWindow s c row = false → marked = false → frameCopy s c row = some d →
        After (exec (.rowRepair c row bad) s) (done (restored d))) ∧
      (∀ bad, inCaskWindow s c row = false → marked = true → After (exec (.rowRepair c row bad) s) (done co.rows)) ∧
      (∀ bad, inCaskWindow s c row = false → marked = false → frameCopy s c row = none → fateGroup s r = [r] →
        After (exec (.rowRepair c row bad) s) fun t => (unitOf t r).await = .recovery ∧ regionState t r = rsBinding)) ∧
    (∀ r, fateGroup s r = [r] → (unitOf s r).await = .replay → (∀ c ∈ liveCores s r, (coreOf s c).detects = []) →
      After (exec (.regionReplay r) s) fun t => (unitOf t r).runAt = true ∧ (unitOf t r).await = .none ∧ (unitOf t r).faults = [] ∧
        rd t F.REG_UNIT_FAULT_REPLAY r = 1) ∧
    (∀ r, fateGroup s r = [r] → (unitOf s r).await = .recovery → regionRuns s r = false → (unitOf s r).dead = [] →
      (missingOf s (boundPlan s r)).any (noSource s) = false →
      After (exec (.regionRecovery r) s) fun t => (unitOf t r).runAt = true ∧ (unitOf t r).faults = [] ∧ (unitOf t r).outWait = []) ∧
    (∀ f row col, f < 48 → row < 16 → col < 20 → fieldLost s f = false → deadCol s f row = none → sagLocked s = false →
      (∀ j, j < 19 → regionRuns s (regionOfCore s (coreAt (19 * (f % 8) + j) (16 * (f / 8) + row))) = false) →
      After (exec (.substitution f row col) s) fun t => t.keep.boot.overlay =
        s.keep.boot.overlay ++ [⟨(f, row, col), identitySign (bytesOf 1 f ++ bytesOf 1 row ++ bytesOf 1 col)⟩])

/-! ## Clocks and registers -/

/-- R44–R46, R523: a loss of lock clears the half's lock and counts; a loss of the reference does both. Either is dated, and a second within an hour holds
the halves on their fallback PLLs; where the clock still runs from its own, the halves restart in step, at a boundary. The restore, a relock without its reference pair, the return
that a hold keeps waiting, and the operator's end of the hold. -/
def Obligations.ClockLossAndReturn : Prop :=
  ∀ (s : State),
    (let lost (x : Clk) : Clk :=
       { x with steady := false, lossAt := some (hallNs s)
                held := x.held || (match s.clk.lossAt with | some h => decide (hallNs s < h + 3600000000000) | none => false) }
     let counted (t : State) : Prop :=
       rd t F.TICK_CLK_STATUS_FALLBACK_CNT 0 = min (rd s F.TICK_CLK_STATUS_FALLBACK_CNT 0 + 1) (2 ^ F.TICK_CLK_STATUS_FALLBACK_CNT.width - 1)
     (∀ half, half < 2 → rd s (lockField half) 0 ≠ 0 →
       (s.clk.fallback = true ∨ s.clk.gated = true → After (exec (.pllLockLoss half) s) fun t =>
         rd t (lockField half) 0 = 0 ∧ t.clk = lost s.clk ∧ counted t) ∧
       (s.clk.fallback = false → s.clk.gated = false → After (exec (.pllLockLoss half) s) fun t =>
         t.clk.cyc = 0 ∧ rd t F.TICK_STAMP_HALL 0 = hallNs t % 2 ^ 64)) ∧
     (s.clk.refLost = false → s.clk.fallback = true →
       After (exec .refclkLoss s) fun t => t.clk = { lost s.clk with refLost := true } ∧ counted t ∧
         rd t F.TICK_CLK_STATUS_W_LOCK 0 = 0 ∧ rd t F.TICK_CLK_STATUS_E_LOCK 0 = 0)) ∧
    exec .refclkRestore s = .next { s with clk := { s.clk with refLost := false } } ∧
    (∀ half, half < 2 → s.clk.refLost = false → (s.clk.fallback = true ∨ s.clk.gated = true) →
      exec (.pllRelock half) s = .next (wr s (lockField half) 0 1)) ∧
    (s.clk.fallback = true → bothLocked s = true → s.clk.refLost = false →
      (s.clk.held = true → exec .clockReturn s = .next { s with clk := { s.clk with steady := true } }) ∧
      (s.clk.held = false → After (exec .clockReturn s) fun t => t.clk.fallback = false ∧ rd t F.TICK_CLK_STATUS_FALLBACK 0 = 0)) ∧
    (∀ a, isOperator s a = true → After (exec (.clearFallback a) s) fun t =>
      t.clk.held = false ∧ rd t F.TICK_CLK_STATUS_FALLBACK 0 = 0 ∧ (s.clk.fallback = true → s.clk.steady = true → t.clk.fallback = false))

/-- R17: of a host's access to the register window that is narrower than 64 bits or misaligned, a write is discarded and a read returns all ones. -/
def Obligations.NarrowAccessesAreDiscarded : Prop :=
  ∀ (s : State) (port addr width : Nat) (v : Word), (width ≠ 8 ∨ addr % 8 ≠ 0) → addr < 2 ^ 32 →
    exec (.registerWrite (.host port) addr width v) s = .next s ∧
      exec (.readClear (.host port) addr width) s = .next (returned s 0xFFFFFFFFFFFFFFFF)

/-- R18, R20, R21: an operator's write of TICK_CTL.K, a staged field, changes the shadow copy and not the live value while nothing runs; a read returns
the register's value; COMMIT captures its block. -/
def Obligations.RegisterCommandsAct : Prop :=
  ∀ (s : State) (a : Agent),
    (∀ m v, anyRunning s = false → getF F.TICK_CTL_K v ≠ getF F.TICK_CTL_K (shadowWord s F.TICK_CTL_K 0) →
      After (exec (.registerWrite (.mc m) 0x10400000 8 v) s) fun t =>
        rd t F.TICK_CTL_K 0 = rd s F.TICK_CTL_K 0 ∧ getF F.TICK_CTL_K (shadowWord t F.TICK_CTL_K 0) = getF F.TICK_CTL_K v) ∧
    (∀ addr g i, addr % 8 = 0 → findReg a addr = some (g, i) → isReg g F.REG_UNIT_MBOX_WORD = false →
      After (exec (.readClear a addr 8) s) fun t => t.keep.reads.head? = some (readReg s a g i).1) ∧
    (∀ addr g i, addr % 8 = 0 → findReg a addr = some (g, i) → isCommitReg g = true → perCore g.blk = false → mayCommit s a g.blk i = true →
      exec (.commit a addr) s = .next (captureBlock s g.blk i))

/-- R103: one read of the debug window, of an agent with the right to it, on a core that takes writes at all (R117): only while the core is BOUND, FAULTED,
or IDLE with LEES set do the data registers take the row as stored, with BAD exactly where it fails its code; in any other state they take zeros, with
BAD. DONE is set, and nothing but the window's registers and the DEBUG packets that bring the row changes, so no region stops. -/
def Obligations.DebugWindowReads : Prop :=
  ∀ (s : State) (a : Agent) (c row : Nat), c < nCores → row < 131072 → coreShut s c = false → mayDebug s a c = true →
    let x := rowAt (coreOf s c) row
    let may : Prop := coreState s c = csBound ∨ coreState s c = csFaulted ∨ (coreState s c = csIdle ∧ rdB s F.CORE_STATUS_LEES c = true)
    After (exec (.debugRowGo a c row) s) fun t =>
      t = { s with regs := t.regs, ctlSent := t.ctlSent, freeCtr := t.freeCtr, net := { s.net with ctl := t.net.ctl } } ∧
      t.ctlSent = (if debugState s c then (debugPackets c x.data (draw s (2 ^ 512)).1).reverse else []) ++ s.ctlSent ∧
      rd t F.CORE_DBG_ROW_DONE c = 1 ∧ rd t F.CORE_DBG_ROW_ROW c = row ∧
      (may → rd t F.CORE_DBG_ROW_BAD c = (if x.code = rowCode x.data row then 0 else 1) ∧
        ∀ f k, dataFields[k]? = some f → rd t f c = (x.data >>> (64 * k)).toNat % 2 ^ 64) ∧
      (¬ may → rd t F.CORE_DBG_ROW_BAD c = 1 ∧ ∀ f ∈ dataFields, rd t f c = 0)
/-! ## Regions -/

/-- R268–R275: the commands of a plan region r (no composite), by a session that may drive it, with none in progress and no plan above it. Once accepted: RUN arms it, STOP
orders its stop, UNBIND its detachment, and RELEASE empties its mailbox and orders its sweep; a BIND or REBIND that passes its checks with no
stream seated, and whose plan set the machine has or can take, opens the load. LAST_CMD names the command. HOLD_LIMIT's expiry releases a HELD region. -/
def Obligations.RegionCommandsAct : Prop :=
  ∀ (s : State) (a : Agent) (r : Nat),
    let may (cmd : Nat) (states : List Nat) : Prop := underPlan s r = false ∧ cmdBusy s r = false ∧ mayDrive s a r = true ∧ descKind s r ≠ 0 ∧
      isComposite s r = false ∧ regionState s r ∈ states ∧ cmd < 16
    let accepted (c : RCmd) : State := acceptCmd s r c [r]
    (may 2 [rsBound] → (unitOf s r).phase = .none → (∀ d, rdB s F.REG_DESC0_FATE d = false) →
      After (exec (.regionRun a r) s) fun t => (unitOf t r).phase = .run ∧ rd t F.REG_UNIT_STATUS_LAST_CMD r = 2) ∧
    (may 3 [rsRunning] → (unitOf s r).await = .none → After (exec (.regionStop a r) s) fun t =>
      (unitOf t r).phase = .stop ∧ rd t F.REG_UNIT_STATUS_LAST_CMD r = 3) ∧
    (may 4 [rsBound, rsFaulted] → After (exec (.unbind a r) s) fun t => (unitOf t r).phase = .detach ∧ rd t F.REG_UNIT_STATUS_LAST_CMD r = 4) ∧
    (may 5 [rsDefined, rsHeld, rsBound, rsFaulted, rsLost] → After (exec (.release a r) s) fun t =>
      (unitOf t r).phase = .sweepStart ∧ (unitOf t r).inq = [] ∧ (unitOf t r).outq = [] ∧ (unitOf t r).outWait = []) ∧
    (∀ plan autorun keepLees, may 1 [rsDefined] → bindable s r = true →
      let c : RCmd := ⟨1, plan, regionTenant s r, autorun, keepLees⟩
      let s' := accepted c
      planStatus s' plan (regionTenant s r) = stOk → missingOf s' (tget s'.store.plans plan []) = [] →
      bindStatus s' r plan (regionTenant s r) false = stOk → seatedOf s' r = [] →
      (adoptSet (endAwait s' r) (tget s'.store.plans plan [])).isSome = true →
      After (exec (.bind a r plan autorun keepLees) s) fun t => (unitOf t r).phase = .begin ∧ (unitOf t r).cmd = some c) ∧
    (∀ plan autorun, may 6 [rsBound] → bindable s r = true → rackCovers s r = false →
      let c : RCmd := ⟨6, plan, regionTenant s r, autorun, true⟩
      let s' := accepted c
      planStatus s' plan (regionTenant s r) = stOk → missingOf s' (tget s'.store.plans plan []) = [] →
      bindStatus s' r plan (regionTenant s r) true = stOk → seatedOf s' r = [] → regionTenant s r < 256 →
      (adoptSet (setLees (endAwait s' r) r) (tget s'.store.plans plan [])).isSome = true →
      After (exec (.rebind a r plan (regionTenant s r) autorun true) s) fun t => (unitOf t r).phase = .begin ∧ (unitOf t r).cmd = some c) ∧
    (regionState s r = rsHeld → rd s F.REG_CTL_HOLD_LIMIT 0 ≠ 0 → cmdBusy s r = false → (unitOf s r).phase = .none →
      After (exec (.holdExpiry r) s) fun t => (unitOf t r).phase = .sweepStart ∧ (unitOf t r).inq = [] ∧ (unitOf t r).outq = [])

/-- R84, R264, R265, R271, R298: the headers of a core's load, past their checks, in the region that loads it: bundles, route entries and rows stand at
their places, rows with their codes; a register is staged; a run of cask rows takes them from the masters; END after the last run counts the core;
NONE changes nothing; each header moves SEQ on. A header for a core whose region runs is refused as FROZEN. -/
def Obligations.LoadHeadersAct : Prop :=
  ∀ (s : State) (c : Nat) (h : LoadHdr) (words : List NetWord), c < nCores →
    let lo := h.dest.toNat
    let ws := words.take h.n
    (∀ r, loader s c = some r → rackLoading s r = none → endsWithEnd (loadImage s r) c = true →
      let place := tget (unitOf s r).seqs c 0
      h.seq.toNat = place % 65536 →
      let moved (t : State) : Prop := tget (unitOf t r).seqs c 0 = place + 1
      (h.kind = 0 → exec (.loadCode c h words true) s =
        .next (modUnit s r fun u => { u with seqs := tset u.seqs c (place + 1) })) ∧
      (h.kind = 1 → lo + (ws.flatMap wordBundles).length ≤ 4096 → After (exec (.loadCode c h words true) s) fun t => moved t ∧
        ∀ i b, (ws.flatMap wordBundles)[i]? = some b → tget (coreOf t c).code (lo + i) 0 = b) ∧
      (h.kind = 2 → lo + (wordRoutes ws).length ≤ 8192 → (∀ e ∈ wordRoutes ws, routeEntryOk e = true) →
        (lo + (wordRoutes ws).length ≤ rd s F.NET_RP_BASE c ∨ rd s F.NET_RP_BASE c + rd s F.NET_RP_LEN c ≤ lo) →
        After (exec (.loadRoute c h words true) s) fun t => moved t ∧
          ∀ i e, (wordRoutes ws)[i]? = some e → tget (coreOf t c).routes (lo + i) 0 = e) ∧
      (h.kind = 3 → place < planHeaders s r c → lo + (wordRows ws h.odd).length ≤ 131072 →
        (∀ i, i < (wordRows ws h.odd).length → inWindow s c (lo + i) = false) →
        After (exec (.loadRows c h words true) s) fun t => moved t ∧ ∀ i d, (wordRows ws h.odd)[i]? = some d →
          (rowAt (coreOf t c) (lo + i)).data = d ∧ (rowAt (coreOf t c) (lo + i)).code = rowCode d (lo + i)) ∧
      (let n := 2 * h.n - (if h.odd then 1 else 0)
       h.kind = 3 → planHeaders s r c ≤ place → (caskRuns s r c)[place - planHeaders s r c]? = some (lo, n) →
        After (exec (.loadRows c h words true) s) fun t => moved t ∧
          ∀ i e m, i < n → entryAt s (loadEntries s r c) (lo + i) = some (e, m) →
            (rowAt (coreOf t c) (lo + i)).data = caskPayload m.image (lo + i - e.row)) ∧
      (h.kind = 4 → ∀ g w rest, loadReg? lo = some g → words = w :: rest → After (exec (.loadReg c h words true) s) fun t => moved t ∧
        tget t.shadow (g.base + g.stride * c) 0 = (w >>> 128).setWidth 64) ∧
      (h.kind = 5 → routeProgramOk s c = true → place = planHeaders s r c + (caskRuns s r c).length →
        After (exec (.loadEnd c h true) s) fun t => moved t ∧ c ∈ (unitOf t r).ended)) ∧
    (loader s c = none → regionOfCore s c ≠ 0 → regionState s (regionOfCore s c) = rsRunning →
      h.kind = 1 ∨ h.kind = 3 ∨ h.kind = 4 →
      exec (.loadCode c h words true) s = .next (noteRefused s F.CORE_COMMIT_WRITE_STATUS c stFrozen))

/-- R102, R277, R280, R284: the FULL sweep of a core that no region sweeps leaves it IDLE with every row and register zero; a word written to the unit
mailbox by a session that may drive the region joins IN, and a read pops the oldest word of OUT, with the counts shown; without the session, or
for a region under a plan region, the read gives 0. -/
def Obligations.SweepAndUnitMailbox : Prop :=
  ∀ (s : State),
    (∀ c, c < nCores → coreState s c = csSweeping → sweeper s c = none → After (exec (.sweepComplete c) s) fun t =>
      coreState t c = csIdle ∧ (coreOf t c).rows = [] ∧ (coreOf t c).regs = blankRegs ∧ rd t F.CORE_STATUS_LEES c = 0) ∧
    (∀ a r v, underPlan s r = false → mayDrive s a r = true → let h := headOf s r
      (unitOf s h).inq.length < 16 → After (exec (.unitMboxWrite a r v) s) fun t =>
        (unitOf t h).inq = (unitOf s h).inq ++ [v] ∧ rd t F.REG_UNIT_STATUS_IN_COUNT h = (unitOf s h).inq.length + 1) ∧
    (∀ a r w rest, underPlan s r = false → mayDrive s a r = true → let h := headOf s r
      (unitOf s h).outq = w :: rest → After (exec (.unitMboxRead a r) s) fun t =>
        t.keep.reads = w :: s.keep.reads ∧ (unitOf t h).outq = rest ∧ rd t F.REG_UNIT_STATUS_OUT_COUNT h = rest.length % 32) ∧
    (∀ a r, underPlan s r = true ∨ mayDrive s a r = false → exec (.unitMboxRead a r) s = .next (returned s 0))

/-! ## The cask store and racks -/

/-- R262, R296, R302–R304, R319, R397: a store operation of a session on an idle store. STORE_HOST without its data keeps BUSY; data that pass the arrival
checks, from the host or from BAR2, enter the store as a plan image or a cask's master and the operation ends with OK. FETCH_HALL keeps BUSY behind
its READ, and ends without a source where none leaves. DELETE takes an unused plan image out; VERIFY of a good plan image or master ends with OK. An
image that arrives ends its operation, or repairs the BAD master whose fetch brought it; a scrub pass that is on is counted. -/
def Obligations.CaskStoreOperations : Prop :=
  ∀ (s : State),
    let ended (st cause : Nat) (t : State) : Prop :=
      t.store.op = none ∧ rd t F.CASK_OP_STATUS 0 = st ∧ rd t F.CASK_OP_CAUSE 0 = cause ∧ rd t F.CASK_OP_BUSY 0 = 0
    let fresh (b : List Byte) : Prop := (isPlan b = true ∧ tget? s.store.plans (planId b) = none ∨
      isPlan b = false ∧ masterAt s (caskPlan b) (caskTarget b) (caskVersion b) = none) ∧ storeRoom s b.length = true
    let entered (b : List Byte) (k : Nat) (src : Option Nat) (t : State) : Prop :=
      if isPlan b then t.store.plans = tset s.store.plans (planId b) b
      else (⟨caskPlan b, caskTarget b, caskVersion b, b, k, src, false, false, 0⟩ : Master) ∈ t.store.masters
    (∀ (a : Agent) (k : Nat), rightsOf s a = some k → rdB s F.CASK_OP_BUSY 0 = false →
      let addr := rd s F.CASK_OP_ADDR_ADDR 0
      let len := rd s F.CASK_OP_LEN_LEN 0
      let key := rd s F.CASK_OP_KEY_PLAN_ID 0
      let target := rd s F.CASK_OP_KEY_TARGET 0
      let version := rd s F.CASK_OP_KEY_VERSION 0
      (bar2Place s addr = none → After (exec (.storeHost a none) s) fun t =>
        t.store.op = some ⟨false, addr, len, k, 1, none⟩ ∧ rd t F.CASK_OP_BUSY 0 = 1) ∧
      (∀ d b, (bar2Place s addr = none ∧ d = some b ∨ ∃ off, bar2Place s addr = some off ∧ b = stagingBytes s off len) →
        arrivalCause s b len = 0 → fresh b → After (exec (.storeHost a d) s) fun t => ended stOk 0 t ∧ entered b k none t) ∧
      (let sent := sendMessage s (addr / 2 ^ 48) 3 1 k (addr % 2 ^ 48) [] len .caskOp
       (sent.1 = true → After (exec (.fetchHall a) s) fun t =>
          t.store.op = some ⟨true, addr, len, k, 1, none⟩ ∧ rd t F.CASK_OP_BUSY 0 = 1 ∧ t.fab = sent.2.fab) ∧
       (sent.1 = false → After (exec (.fetchHall a) s) (ended stInternal causeNoSource))) ∧
      (target = 0xFFFF ∧ version = 0 → k = 0 → (tget? s.store.plans key).isSome = true → planInUse s key = false →
        After (exec (.caskDelete a) s) fun t => ended stOk 0 t ∧ t.store.plans = tdel s.store.plans key) ∧
      (target = 0xFFFF ∧ version = 0 → ∀ b, tget? s.store.plans key = some b → planDigestOk b = true →
        After (exec (.caskVerify a false) s) (ended stOk 0)) ∧
      (target ≠ 0xFFFF ∨ version ≠ 0 → ∀ m, masterAt s key target version = some m → m.bad = false →
        After (exec (.caskVerify a false) s) (ended stOk 0))) ∧
    (∀ o b, s.store.op = some o → o.verify = none → arrivalCause s b o.len = 0 → fresh b →
      After (exec (.imageArrival b) s) fun t => ended stOk 0 t ∧ entered b o.tenant (if o.hall then some o.addr else none) t) ∧
    (∀ b f m, s.store.op = none → isPlan b = false → fetchOf s (caskPlan b, caskTarget b, caskVersion b) = some f →
      masterAt s (caskPlan b) (caskTarget b) (caskVersion b) = some m → m.bad = true → arrivalCause s b b.length = 0 →
      caskDigest b = caskDigest m.image →
      After (exec (.imageArrival b) s) fun t =>
        masterAt t (caskPlan b) (caskTarget b) (caskVersion b) = some { m with image := b, bad := false, tries := 0 } ∧
        rd t F.CASK_CNT_REPAIRS 0 = min (rd s F.CASK_CNT_REPAIRS 0 + 1) (2 ^ F.CASK_CNT_REPAIRS.width - 1)) ∧
    (rd s F.CASK_SCRUB_THR_SCRUB_BW 0 ≠ 0 → After (exec (.caskScrub [] []) s) fun t =>
      rd t F.CASK_CNT_SCRUB_PASSES 0 = min (rd s F.CASK_CNT_SCRUB_PASSES 0 + 1) (2 ^ F.CASK_CNT_SCRUB_PASSES.width - 1))

/-- R307–R309: rack commands of an operator. LOAD of a successor that passes its checks for a BOUND region opens the rack in LOADING; FLIP and ABORT
act in LOADED; the drain's deadline shows no second left. A session without the right is noted and nothing else. -/
def Obligations.RackCommandsAct : Prop :=
  ∀ (s : State) (a : Agent),
    (isOperator s a = true →
      (∀ r p plan, s.store.rack = none → cmdBusy s r = false →
        (partsOf s r).find? (fun p => hasPlan s p && successorOk s p plan) = some p → wholeFates s r = true → regionState s p = rsBound →
        planStatus s plan (regionTenant s p) = stOk → missingOf s (tget s.store.plans plan []) = [] →
        bindStatus s p plan (regionTenant s p) true = stOk →
        After (exec (.rackLoad a r plan) s) fun t => t.store.rack = some ⟨r, plan, rd s F.REG_PLAN_PLAN_ID p, false, false, 0⟩ ∧
          (unitOf t p).phase = .begin ∧ rd t F.CASK_RACK_STATUS_PHASE 0 = 1 ∧ rd t F.CASK_RACK_STATUS_CMD_STATUS 0 = stAccepted) ∧
      (∀ k, s.store.rack = some k → rd s F.CASK_RACK_STATUS_PHASE 0 = 2 → k.flipReq = false →
        (∀ peer, (twState s = twPaired → peer = true) → After (exec (.rackFlip a peer) s) fun t =>
          t.store.rack = some { k with flipReq := true } ∧ rd t F.CASK_RACK_STATUS_CMD_STATUS 0 = stAccepted) ∧
        After (exec (.rackAbort a) s) fun t => t.store.rack = none ∧ rd t F.CASK_RACK_STATUS_CMD_STATUS 0 = stOk ∧
          rd t F.CASK_RACK_STATUS_PHASE 0 = 0)) ∧
    (isOperator s a = false → rd s F.CASK_COMMIT_WRITE_STATUS 0 = 0 → ∀ peer,
      exec (.rackFlip a peer) s = .next (wr s F.CASK_COMMIT_WRITE_STATUS 0 stBadHandle) ∧
      exec (.rackAbort a) s = .next (wr s F.CASK_COMMIT_WRITE_STATUS 0 stBadHandle)) ∧
    (∀ r k, s.store.rack = some k → k.flip = true → k.region = r → rd s F.CASK_CTL_DRAIN_S 0 ≠ 0 → oldStreams s k = [] →
      After (exec (.drainDeadline r) s) fun t => rd t F.CASK_RACK_STATUS_DRAIN_LEFT 0 = 0 ∧ t.store.rack = none)

/-! ## PCIe ports -/

/-- R53, R316, R317, R499, R521: a reset of a port that exists leaves its function without Bus Master Enable; link down and PERST_N also take its link
down; a link that trains takes what its configuration leaves, unless the north segment is lost. -/
def Obligations.PciePortsAct : Prop :=
  ∀ (s : State) (p : Nat), portExists s p = true →
    (After (exec (.flr p) s) fun t => (pcieOf t p).bme = false) ∧
    (After (exec (.perst p) s) fun t => (pcieOf t p).bme = false ∧ (pcieOf t p).up = false) ∧
    (∀ ide, After (exec (.pcieLinkDown p ide) s) fun t => (pcieOf t p).bme = false ∧ (pcieOf t p).up = false) ∧
    (∀ two bme masked bar2, p = 0 →
      (0 ∉ s.pwr.lostRims → After (exec (.pcieLinkUp p two bme masked bar2) s) fun t => t.bifurcated = two ∧
        pcieOf t p = { pcieOf s p with up := true, bme := bme, masked := masked, bar2 := bar2 }) ∧
      (0 ∈ s.pwr.lostRims → exec (.pcieLinkUp p two bme masked bar2) s = .next { s with bifurcated := two }))
/-! ## Streams -/

/-- R320, R328, R331, R336, R338, R339: commands of the ledger that are ready, and have a right to what they ask. NOP and QUERY only complete, QUERY with
the stream's state, version, tier and length, or, where its stream was closed or is lost, with the status that says so. OPEN takes a free slot for a
stream with no position; FORK takes one for a copy of a parent that is not parked, with its full pages shared, the others copied into the cellar, and
its tail record; CLOSE frees the slot and moves its generation on. Each completes with OK. -/
def Obligations.StreamsOpenForkClose : Prop :=
  ∀ (s : State) (id : Nat) (c : LCmd), c.discard = false →
    let k := slotOf c.handle
    let x := streamAt s k
    (readyCmd s id 0 = some c → After (exec (.ledgerNop id) s) fun t => Completes t c c.handle stOk 0 0 0 ∧ t.strm.slots = s.strm.slots) ∧
    (readyCmd s id 9 = some c → runCheck s c = none → After (exec (.query id) s) fun t =>
      Completes t c c.handle stOk 0 (nextIndex x) (stateCode x.state + x.version * 2 ^ 4 + oldestTier s x * 2 ^ 20 + x.log.length * 2 ^ 32) ∧
      t.strm.slots = s.strm.slots) ∧
    (∀ st, readyCmd s id 9 = some c → runCheck s c = some st → After (exec (.query id) s) fun t =>
      Completes t c c.handle st 0 (nextOf s c) 0 ∧ t.strm.slots = s.strm.slots) ∧
    (∀ slot s', readyCmd s id 1 = some c → takeSlot s = some (slot, s') →
      let tn := rd s F.STRM_QP_CFG_TENANT c.qp
      let r := numAt c.entry 24 2
      let v := if numAt c.entry 26 2 = 0 then liveVersion s r else numAt c.entry 26 2
      slotQuotaOk s tn = true → regionCheck s r tn = none → unitState s r ≠ rsBinding → unitState s r ≠ rsSweeping →
      versionRetired s r v = false →
      After (exec (.openStream id) s) fun t =>
        streamAt t slot = { blankStream with gen := (streamAt s slot).gen, tenant := tn, qp := c.qp, region := r, version := v,
                                             seed := numAt c.entry 16 8, state := .opened, idleTick := tickCount s } ∧
        Completes t c (handleOf slot (streamAt s slot).gen) stOk 0 0 0) ∧
    (∀ slot s', readyCmd s id 5 = some c → runCheck s c = none → x.redo = false → x.state ≠ .parked → takeSlot s = some (slot, s') →
      regionWaits s x.region = false → s.strm.journal.full = false → slotQuotaOk s x.tenant = true → regionCheck s x.region x.tenant = none →
      versionRetired s x.region x.version = false → fetchQuotaOk s x (x.pages.filter fun p => !shareable s p).length = true →
      (∀ e ∈ s.strm.exports, e.slot ≠ k) → (∀ p ∈ x.pages, p < s.strm.nextPage) →
      After (exec (.fork id) s) fun t =>
        let y := streamAt t slot
        y.log = x.log ∧ y.built = x.built ∧ y.region = x.region ∧ y.version = x.version ∧ y.epoch = x.epoch ∧ y.gen = (streamAt s slot).gen ∧
        y.seat = none ∧ y.tail = tailRecord s k ∧ y.seed = (if numAt c.entry 16 8 = 0 then x.seed else numAt c.entry 16 8) ∧
        y.state = (if x.log = [] then .opened else .ready) ∧ y.pages.length = x.pages.length ∧
        (∀ i p q : Nat, x.pages[i]? = some p → y.pages[i]? = some q →
          if shareable s p then q = p else pageOf t q = { pageOf s p with hall := false, place := none, fetching := false }) ∧
        Completes t c c.handle stOk 0 (nextIndex x) (handleOf slot y.gen)) ∧
    (readyCmd s id 8 = some c → runCheck s c = none → regionPaused s x.region = false → After (exec (.closeStream id) s) fun t =>
      streamAt t k = { blankStream with gen := nextGen x.gen, tenant := x.tenant } ∧ Completes t c c.handle stOk 0 (nextIndex x) 0)

/-- R230, R332, R333, R335, R337, R340, R341: commands of the ledger that are ready on a stream whose region serves and whose context stands. APPEND on a
seated stream presents the positions to the end of the open block, or its last, in one step word, and is PREFILL until that is done; GENERATE starts
and presents the stream's last position, with the drafts of a verification pass; TRUNCATE to a position keeps what lies before it, opens the next
epoch, and says whether the open block is to be re-prefilled; PARK takes the seat away; RESUME gives a free one, filled. All but an APPEND with
positions left, and GENERATE, complete with OK. -/
def Obligations.StreamsWorkAndRest : Prop :=
  ∀ (s : State) (id : Nat) (c : LCmd), c.discard = false →
    let k := slotOf c.handle
    let x := streamAt s k
    let done (t : State) : Prop := Completes t c c.handle stOk 0 (nextIndex (streamAt t k)) 0
    let presents (t : State) (kind pos count first : Nat) (tokens : List Nat) : Prop := ∃ w, t.strm.stepWords = w :: s.strm.stepWords ∧
      w.kind = kind ∧ w.pos = pos ∧ w.count = count - 1 ∧ w.first = first ∧ w.handle = handleOf k x.gen ∧ w.tokens = tokens
    runCheck s c = none → regionWaits s x.region = false → s.strm.journal.full = false →
    (∀ p, readyCmd s id 2 = some c → (qpOf s c.qp).stalled = false → x.redo = false → regionCheck s x.region x.tenant = none →
      let ws := appendWords c
      let plan := servingPlan s x.region
      (x.state = .prefill ∨ ((numAt c.entry 20 1 = 2 ∨ ∀ w ∈ ws, w % 2 ^ 18 < Config.vocab plan) ∧ x.log.length + ws.length ≤ largestSpan s ∧
        fetchQuotaOk s x (pagesShort x (x.log.length + ws.length)) = true)) →
      x.seat = some p → seatHolds s p (x.log.length + (ws.length - x.appended)) = true → x.built ≤ x.log.length →
      let upto := min (16 * (x.built / 16 + 1)) (x.log.length + (ws.length - x.appended))
      let new := ((ws.drop x.appended).take (upto - x.log.length)).map (hideByToken plan)
      pagesShort x upto = 0 →
      After (exec (.append id) s) fun t => let y := streamAt t k
        y.log = x.log ++ new ∧ y.built = upto ∧ presents t 2 p (upto - x.built) x.built (logTokens y x.built (upto - x.built)) ∧
        (if x.appended + new.length < ws.length then y.state = .prefill ∧ y.appended = x.appended + new.length
         else y.state = .ready ∧ y.appended = 0 ∧ done t)) ∧
    (∀ p, readyCmd s id 3 = some c → (qpOf s c.qp).stalled = false → x.run = none → x.redo = false → regionCheck s x.region x.tenant = none →
      (∀ w ∈ stopTokens c, w < Config.vocab (servingPlan s x.region)) → fetchQuotaOk s x 0 = true → c.emitted = 0 → c.ended = none →
      x.seat = some p → seatHolds s p (x.log.length + 1) = true →
      let ds := draftsFor s x c []
      let first := x.log.length - 1
      After (exec (.generate id) s) fun t =>
        streamAt t k = { x with state := .generating, qp := c.qp, run := some ⟨c.id, 0, false, true, ds, false, none⟩ } ∧
        presents t (if ds = [] then 2 else 3) p (ds.length + 1) first (logTokens x first 1 ++ ds)) ∧
    (let n := numAt c.entry 16 4
     readyCmd s id 4 = some c → numAt c.entry 20 4 = x.epoch → x.epoch ≠ 2 ^ 32 - 1 → fetchQuotaOk s x (bit (cutCopies s x n)) = true →
      x.state ≠ .parked → After (exec (.truncate id) s) fun t => let y := streamAt t k
        y.log = x.log.take n ∧ y.epoch = x.epoch + 1 ∧ y.withhold = none ∧ done t ∧
        (x.seat = none → n < x.built → n < x.log.length →
          y.built = (if cutNeedsPrefill x n then 16 * (n / 16) else n) ∧ y.redo = cutNeedsPrefill x n)) ∧
    (readyCmd s id 6 = some c → x.state ≠ .parked → After (exec (.park id) s) fun t =>
      (streamAt t k).state = .parked ∧ (streamAt t k).seat = none ∧ (streamAt t k).parkedAt = hallNs s ∧ (streamAt t k).log = x.log ∧ done t) ∧
    (∀ p, readyCmd s id 7 = some c → x.state = .parked → x.seat = none → unitState s x.region = rsRunning →
      fetchQuotaOk s x 0 = true → earlierWants s c = false → sheddingDemanded s = false → hallPages s x = 0 → freeSeat s (max 1 x.log.length) = some p → (seatPages s k p).isSome = true →
      After (exec (.resume id) s) fun t =>
        streamAt t k = { x with seat := some p, waiting := false, wants := false, idleTick := tickCount s,
                                state := if x.log = [] then .opened else .ready } ∧ done t ∧
        presents t 1 p 0 0 [])

/-- R232, R282, R334, R342, R344: of a running GENERATE whose step is in flight. The token that the sampler chooses, where it is not the first draft, is
the last of its pass: it joins the stream's log and is counted, or, where it needs a page above the quota, ends the run; with no token permitted the
run ends with NO_TOKEN; an interrupted run discards the token of its step. -/
def Obligations.SampledTokensJoinTheLog : Prop :=
  ∀ (s : State) (h : BitVec 32) (z : List (BitVec 32)) (rest : List (List (BitVec 32))) (drafts : List Nat) (r : Run) (c : LCmd),
    let k := slotOf h.toNat
    let x := streamAt s k
    let ends (st d : Nat) (t : State) : Prop := (streamAt t k).log = x.log ∧ (streamAt t k).sampled = x.sampled ∧
      (streamAt t k).run = some { r with inFlight := false, ended := some (st, d) }
    x.run = some r → s.strm.cmds.find? (fun c => c.id = r.cmd) = some c → genOf h.toNat = x.gen → r.inFlight = true →
    (r.interrupted = true → After (exec (.sampleToken h (z :: rest) drafts) s) fun t =>
      (streamAt t k).log = x.log ∧ (streamAt t k).sampled = x.sampled ∧ (streamAt t k).run = some { r with inFlight := false }) ∧
    (r.interrupted = false →
      let pick := sampleOne (sampleCfg c) x.seed (nextIndex x) x.log (z.map (·.toNat))
      let room := pageQuotaOk s x.tenant (pagesShort x (x.log.length + 1))
      (∀ tok lp, pick = some (tok, lp) → r.drafts.head? ≠ some tok → room = true →
        After (exec (.sampleToken h (z :: rest) drafts) s) fun t =>
          (streamAt t k).log = x.log ++ [hideByToken (servingPlan s x.region) tok] ∧
          (streamAt t k).run.map (·.emitted) = some (r.emitted + 1) ∧ (streamAt t k).sampled.length = x.sampled.length + 1) ∧
      (pick.isSome = true → room = false → After (exec (.sampleToken h (z :: rest) drafts) s) (ends stQuota 0)) ∧
      (pick = none → After (exec (.sampleToken h (z :: rest) drafts) s) (ends stOk 4)))

/-- R230, R246–R250: the pager's work on the live stream in slot k. Seating, in a region that runs, takes a free position and fills its
frames and tail; without a position the stream wants one, and without a free frame it waits, with one event. UNSEAT of a stream that is not at work takes the seat and keeps the rows of its
open block. A sealed block's rows, exported before, reach the cellar copy of its page. The only page of the only parked stream goes to hall
memory when it is due. A re-prefill step presents the positions to the end of the open block; the last ends the rebuild, with one event. -/
def Obligations.PagerMovesStreams : Prop :=
  ∀ (s : State) (h : BitVec 32) (k : Nat), liveSlot s h = some k →
    let x := streamAt s k
    let n := max 1 x.log.length
    let presents (t : State) (kind pos count first : Nat) (tokens : List Nat) : Prop := ∃ w, t.strm.stepWords = w :: s.strm.stepWords ∧
      w.kind = kind ∧ w.pos = pos ∧ w.count = count - 1 ∧ w.first = first ∧ w.handle = handleOf k x.gen ∧ w.tokens = tokens
    (x.seat.isSome = true ∨ unitState s x.region ≠ rsRunning → exec (.seating h) s = .next s) ∧
    (x.seat = none → unitState s x.region = rsRunning → hallPages s x = 0 →
      (freeSeat s n = none → idleSeat s n = none → exec (.seating h) s = .next (setStream s k { x with wants := true })) ∧
      (∀ p, freeSeat s n = some p → seatPages s k p = none → x.waiting = false → After (exec (.seating h) s) fun t =>
        streamAt t k = { x with waiting := true } ∧ Logged s t .report evKvFrameWait (regionTenant s x.region) x.region 0 0) ∧
      (∀ p, freeSeat s n = some p → (seatPages s k p).isSome = true → sheddingDemanded s = false → After (exec (.seating h) s) fun t =>
        (streamAt t k).seat = some p ∧ (streamAt t k).log = x.log ∧ presents t 1 p 0 0 [])) ∧
    (∀ p, x.seat = some p → x.state ≠ .generating → x.state ≠ .prefill → (∀ e ∈ s.strm.exports, e.slot ≠ k) →
      After (exec (.unseat h) s) fun t => (streamAt t k).seat = none ∧ (streamAt t k).log = x.log ∧ presents t 4 p 0 0 [] ∧
        ∀ layer, layer < (kvNow s).layers → tget? (streamAt t k).tail layer = some (readTail s p layer x.cur)) ∧
    (∀ layer block e, s.strm.exports.find? (fun e => e.slot = k && e.layer = layer && e.block = block) = some e →
      After (exec (.sealCellarWrite h layer block) s) fun t =>
        let p := x.pages.getD (block / 4) 0
        pageImage (kvNow s) (pageOf t p) layer = setRows (pageImage (kvNow s) (pageOf s p) layer) e.rows ∧
        t.strm.exports = s.strm.exports.filter fun d => d ≠ e) ∧
    (∀ layer block, s.strm.exports.find? (fun e => e.slot = k && e.layer = layer && e.block = block) = none →
      exec (.sealCellarWrite h layer block) s = .next s) ∧
    (∀ p e s', (s.strm.slots.filter fun e => e.2.state = .parked) = [(k, x)] → spillDue s x = true → pinned s (handleOf k x.gen) = false →
      x.pages = [p] → pageHolders s p ≤ 1 → (pageOf s p).hall = false →
      let data := pageBytes s (pageOf s p)
      (poolExtents s).find? (fun e => extentEnd s e + data.length ≤ rd s F.NET_POOL_B_LEN e) = some e →
      sendMessage s (rd s F.NET_POOL_A_NODE e) 2 1 (pageOf s p).tenant (rd s F.NET_POOL_A_OFFSET e + extentEnd s e) data data.length (.spill e p) =
        (true, s') →
      After (exec .spill s) fun t => pageOf t p =
        { pageOf s p with hall := true, fetching := false, check := pageCheck s' (pageOf s p), place := some (e, extentEnd s e) }) ∧
    (x.redo = false → exec (.reprefill h) s = .next s) ∧
    (∀ p, x.redo = true → x.mirror = false → unitState s x.region = rsRunning → s.strm.journal.full = false → x.seat = some p → x.built ≤ x.log.length →
      let upto := min (16 * (x.built / 16 + 1)) x.log.length
      pagesShort x upto = 0 → After (exec (.reprefill h) s) fun t => let y := streamAt t k
        y.log = x.log ∧ y.built = upto ∧ presents t 2 p (upto - x.built) x.built (logTokens x x.built (upto - x.built)) ∧
        y.redo = decide (upto < x.log.length) ∧
        (x.log.length ≤ upto → Logged s t .report evKvReprefill (regionTenant s x.region) x.region 0 0))

/-- R283, R320: RECLAIM by an operator, where the tenant's use meets its quota, or no stream of it can go, says so; a session that may bind a queue
pair captures it with EN set or cleared, and the streams do not change. -/
def Obligations.ReclaimAndQueuePairs : Prop :=
  ∀ (s : State) (a : Agent),
    (∀ tn, isOperator s a = true → 0 < tn → tn < 256 → rdB s F.REG_TENANT_CTL_RECLAIM_BUSY tn = false →
      (pageUse s tn ≤ rd s F.REG_TENANT_LIM_B_PAGES tn → After (exec (.reclaim a tn) s) fun t =>
        rd t F.REG_TENANT_CTL_RECLAIM_STATUS tn = stOk ∧ t.strm = s.strm) ∧
      (rd s F.REG_TENANT_LIM_B_PAGES tn < pageUse s tn → oldestOf s tn .parked = [] →
        (oldestOf s tn .ready).filter (fun k => (streamAt s k).seat.isSome) = [] →
        After (exec (.reclaim a tn) s) fun t => rd t F.REG_TENANT_CTL_RECLAIM_STATUS tn = stQuota ∧ t.strm = s.strm)) ∧
    (∀ qp, mayBindQp s a qp = true →
      (rdB s F.STRM_QP_CFG_EN qp = false → After (exec (.qpEnable a qp) s) fun t =>
        getF F.STRM_QP_CFG_EN (tget t.captured (fkey F.STRM_QP_CFG_EN qp) 0) = 1 ∧
        tget t.captured (fkey F.STRM_QP_LEDGER_ADDR qp) 0 = shadowWord s F.STRM_QP_LEDGER_ADDR qp ∧
        rd t F.STRM_QP_CFG_TENANT qp = (rightsOf s a).getD 0 % 2 ^ F.STRM_QP_CFG_TENANT.width ∧ t.strm = s.strm) ∧
      (rdB s F.STRM_QP_CFG_EN qp = true → After (exec (.qpDisable a qp) s) fun t =>
        getF F.STRM_QP_CFG_EN (tget t.captured (fkey F.STRM_QP_CFG_EN qp) 0) = 0 ∧ t.strm = s.strm))

/-! ## Twin pairing -/

/-- R357–R359, R381, R391: from UNPAIRED to PAIRED. PAIR_EN starts the offers; an offer goes out with a fresh nonce; a received one that fails a
check shows its CAUSE, and one that passes all settles the role and starts the key exchange; the pair key opens SYNCING with a new journal, in
which each owned stream is to be copied; the end of SYNCING, once every copy is complete, is PAIRED, or HANDBACK where one engine carries the other's
streams. -/
def Obligations.TwinsPair : Prop :=
  ∀ (s : State), s.strm.emits = [] →
    (rdB s F.TWIN_CTL_PAIR_EN 0 = true → twState s = twUnpaired → After (exec .pairEnSet s) fun t => twState t = twOffering ∧
      (twinPortsUp s ≠ 0 → rd t F.TWIN_STATUS_CAUSE 0 = 0)) ∧
    ((twState s = twOffering ∨ twState s = twCarrying) → twinPortsUp s ≠ 0 → After (exec .offerTimer s) fun t =>
      t.twin.sent = .offer (ownOffer t) :: s.twin.sent ∧ t.twin.peerNonce = s.twin.peerNonce ∧ t.freeCtr = s.freeCtr + 1 ∧ twState t = twState s) ∧
    (∀ m, twState s = twOffering → (pairingCause s m ≠ 0 → After (exec (.offer m) s) fun t =>
        rd t F.TWIN_STATUS_CAUSE 0 = pairingCause s m ∧ t.twin.checked = false ∧ t.twin.slow = true) ∧
      (pairingCause s m = 0 → s.twin.checked = false → After (exec (.offer m) s) fun t =>
        t.twin.checked = true ∧ t.twin.sent = .keyx :: s.twin.sent ∧ t.twin.peerNonce = m.nonce ∧ t.twin.peerBoot = m.boot ∧
        rd t F.TWIN_STATUS_CAUSE 0 = 0 ∧ rd t F.TWIN_STATUS_ROLE 0 = settleRole s m % 2)) ∧
    (∀ m : KeyxMsg, m.sigOk = true → s.twin.checked = true → twState s = twOffering → After (exec (.keyx m) s) fun t =>
      t.twin.pairKey = some (pairKeyOf s m.shared) ∧ twState t = twSyncing ∧ t.twin.resyncAll = ownedStreams s ∧
      (ownsStreams s = false → s.strm.qps = [] → t.strm.journal.next = 1 ∧ t.strm.journal.ring = [])) ∧
    (twState s = twSyncing → s.twin.resync = [] → ((s.twin.carrying = true ∨ s.twin.peerCarrying = true) → After (exec .syncComplete s) fun t => twState t = twHandback) ∧
      (s.twin.carrying = false → s.twin.peerCarrying = false → After (exec .syncComplete s) fun t => twState t = twPaired ∧ Logged s t .report evTwinPaired 0 0 0 0))

/-- R361, R362, R366–R368: while joined. The heartbeat timer sends this engine's heartbeat; a heartbeat with KEEP_OK is kept and ends a series of
misses, and tells a rejoining engine that its partner is PAIRED; the third miss in a row, or a planned restart that does not end in time, declares the twin lost: the state is FENCING and a FENCE with
the next number goes out. A journal record in turn is kept and acknowledged. -/
def Obligations.TwinsStayJoined : Prop :=
  ∀ (s : State), journaled s = true → s.strm.emits = [] →
    let lost (t : State) : Prop := twState t = twFencing ∧ t.twin.sent = .fence (s.twin.fenceNum + 1) :: s.twin.sent ∧ rd t F.TWIN_FENCE_REQ 0 = 1 ∧
      t.twin.misses = 0
    (twinPortsUp s ≠ 0 → rdB s F.PWR_STATUS_SPIRE_FAULT 0 = false → After (exec .twinHeartbeatTimer s) fun t =>
      t.twin.hbSent = ownHb s false :: s.twin.hbSent) ∧
    (∀ m : TwinHb, m.keepOk = true → After (exec (.twinHeartbeat m) s) fun t =>
      t.twin.lastHb = some m ∧ t.twin.misses = 0 ∧ rd t F.TWIN_STATUS_PEER_KEEP 0 = 1 ∧
      twState t = if twState s = twHandback ∧ s.twin.carrying = false ∧ m.state.toNat = twPaired then twPaired else twState s) ∧
    (s.twin.misses + 1 < 3 → After (exec .twinHeartbeatMiss s) fun t => t.twin.misses = s.twin.misses + 1 ∧ twState t = twState s) ∧
    (3 ≤ s.twin.misses + 1 → After (exec .twinHeartbeatMiss s) lost) ∧
    (s.twin.hbWait = true → After (exec .keepOkWaitExpiry s) lost) ∧
    (∀ r : JRec, r.jsn = s.strm.journal.partnerNext → r.checkOk = true → 1 ≤ r.type.toNat → r.type.toNat ≤ 8 →
      ringBytes s.strm.journal.partner + recSize r ≤ 2 ^ 30 → After (exec (.journal [r]) s) fun t =>
        t.strm.journal.partner = s.strm.journal.partner ++ [r] ∧ t.strm.journal.partnerNext = r.jsn + 1 ∧
        t.twin.sent.head? = some (.ack r.jsn))

/-- R368–R370, R391: fencing. A FENCE is sent again with its number; the host's confirmation or the partner's FENCE_ACK of this very fence begins
the takeover, in which no live stream stays a mirror and the partner's whole commands go on here, accepted ones from the tokens they have, and which is
complete at once where the partner had no queue pair; without a confirmation the engine is HOLDING, with an alarm; a message without its tag counts. A FENCE of the pair with this boot count and a higher number fences this engine. -/
def Obligations.TwinsFence : Prop :=
  ∀ (s : State),
    let taken (t : State) : Prop := twState t = twCarrying ∧ t.twin.carrying = true ∧ t.twin.fencedBoot = some s.twin.peerBoot ∧
      (∀ k, (streamAt t k).state ≠ .closed → (streamAt t k).mirror = false) ∧ t.twin.mcmds = [] ∧ t.twin.owed = [] ∧
      (∀ c ∈ s.twin.mcmds, c.phase ≠ .fetched → ∃ d ∈ t.strm.cmds, d.op = c.op ∧ d.handle = c.handle ∧ d.entry = c.entry ∧ d.emitted = c.emitted ∧
        d.phase = if c.phase = .accepted then .accepted else .mirrored) ∧ Logged s t .alarm evTwinTakeover 0 0 0 0
    ((twState s = twFencing ∨ twState s = twHolding) → s.twin.mirrorQps = [] → s.twin.adopted = [] →
      exec .fenceResend s = .next (sendTwin s (.fence s.twin.fenceNum)) ∧
      (∀ a, isOperator s a = true → After (exec (.fenceConfirm a) s) taken) ∧
      (∀ m : FenceMsg, s.twin.pairKey ≠ none → m.tagOk = true → m.num = s.twin.fenceNum → m.boot = s.twin.peerBoot →
        After (exec (.fenceAck m) s) taken)) ∧
    (twState s = twFencing → After (exec .fenceWaitExpiry s) fun t => twState t = twHolding ∧ Logged s t .alarm evTwinFenceFail 0 0 0 0) ∧
    (∀ m : FenceMsg, s.twin.pairKey ≠ none → (m.tagOk = false → exec (.fenceAck m) s = .next (bump s F.NET_FAB_CNT_AUTH_FAIL 0 1)) ∧
      ((journaled s = true ∨ twState s = twCarrying) → rd s F.NET_PORT_MODE m.port ≠ pmTwin → m.tagOk = true → m.boot = bootCount s →
        s.twin.lastFence < m.num → After (exec (.fence m) s) fun t => twState t = twFenced ∧ t.twin.marker = true ∧ t.twin.lastFence = m.num ∧
          t.twin.sent = .fenceAck (bootCount s) m.num :: s.twin.sent ∧ Logged s t .alarm evTwinFenced 0 0 0 0))

/-- R375, R379: a planned handover of a PAIRED engine announces itself in its heartbeat, sets the fence marker, and leaves each of its live streams a
mirror without a seat; it offers pairing again only while PAIR_EN is set. Clearing PAIR_EN does it too, and ends in UNPAIRED. -/
def Obligations.TwinsHandOver : Prop :=
  ∀ (s : State), s.strm.emits = [] →
    let given (t : State) : Prop := t.twin.marker = true ∧ t.twin.hbSent.head?.map (·.handover) = some true ∧
      ∀ k, (streamAt t k).state ≠ .closed → (streamAt t k).mirror = true ∧ (streamAt t k).seat = none
    (twState s = twPaired → After (exec .handover s) fun t => given t ∧
      twState t = if rdB s F.TWIN_CTL_PAIR_EN 0 then twOffering else twUnpaired) ∧
    (rdB s F.TWIN_CTL_PAIR_EN 0 = false →
      (twState s = twPaired → After (exec .pairEnClear s) fun t => given t ∧ twState t = twUnpaired) ∧
      (twState s = twOffering → exec .pairEnClear s = .next (setTwin s twUnpaired)))

/-! ## The fabric -/

/-- R386, R390, R395, R401, R475: a frame of one segment that a port accepts for this node, new to it. A WRITE of the twin into an exported window is
held byte by byte, and a READ_REQ of the twin is taken; both are acknowledged as complete; from another node each is answered with NAK ACCESS. A
READ_RESP completes its READ_REQ with its data, and a spilled page it carries is whole again. A SEND of a host or the
twin joins the queue, or is answered with INTERNAL where it is malformed or names no command. -/
def Obligations.GorlaFramesArrive : Prop :=
  ∀ (s : State) (m : GFrame),
    let src := m.hdr.src.toNat
    let access : State := sendNak s src nakAccess m.hdr.msg.toNat [] 0 0
    let acked (t : State) : Prop := ∃ es, t.fab.acks.head? = some (src, es) ∧ AckEntry.complete (BitVec.ofNat 32 m.hdr.msg.toNat) ∈ es
    m.hdr.seg = 0 → m.hdr.last = true → rxOf s (rxKey m.hdr) = none →
    (FrameOk s m 2 true → (isTwin s src = false → exec (.gorlaWrite m) s = .next access) ∧
      (isTwin s src = true → exported s true m.hdr.offset.toNat m.payload.length = true → After (exec (.gorlaWrite m) s) fun t => acked t ∧
        ∀ i b, m.payload[i]? = some b → tget t.fab.window (m.hdr.offset.toNat + i) 0 = b)) ∧
    (FrameOk s m 3 true → (isTwin s src = false → exec (.readReq m) s = .next access) ∧
      (isTwin s src = true → exported s false m.hdr.offset.toNat m.hdr.mlen.toNat = true → After (exec (.readReq m) s) acked)) ∧
    (FrameOk s m 4 true → ∀ x, (s.fab.msgs.find? fun x => x.key = src * 2 ^ 32 + m.hdr.msg.toNat && x.op = 3) = some x →
      After (exec (.readResp m) s) fun t => t.fab.reads = m.payload :: s.fab.reads ∧
        ∀ slot p n, x.user = .fetch slot p n → natOfBytes (shake128 m.payload 8) = (pageOf s p).check →
          pageOf t p = { pageOf s p with hall := false, place := none, fetching := false, cells := fillCells s m.payload }) ∧
    (FrameOk s m 5 false → (isTwin s src = true ∨ isHostNode s src = true) → s.keep.sends.length < 256 → let e := (m.hdr.src, m.payload)
      let q := sendRequest e
      After (exec (.gorlaSend m) s) fun t => acked t ∧
        (requestGood q = true → t.keep.sends = s.keep.sends ++ [e]) ∧
        (requestGood q = false → t.keep.sends = s.keep.sends ∧
          t.keep.responses.head? = some ⟨4, m.hdr.src, responseBytes q stInternal []⟩))

/-- R398, R400, R401: acknowledgement and loss. An ACK of a message takes it off the table, one of a path ends its series of expiries; NAK SEG counts one
retransmission of the missing segment, NAK BUSY makes the message wait, and NAK ACCESS asks nothing; an expired RTO doubles, up to 1 ms, and the
third in a row closes the path; a probe opens it with a window of 1; a message that may fail is given up, and its page stays in the
cellar; the ACK timer and REORDER_WAIT send what they owe. -/
def Obligations.GorlaRetransmission : Prop :=
  ∀ (s : State),
    (∀ (m : AckMsg), m.jsn = none →
      (∀ msg x, m.entries = [.complete msg] → let k := m.src.toNat * 2 ^ 32 + msg.toNat
        msgOf s k = some x → x.op ≠ 3 → (∀ h n, x.user ≠ .mirror h n) → (∀ h, x.user ≠ .mirrorLog h) → After (exec (.ack m) s) fun t => msgOf t k = none) ∧
      (∀ p psn q, m.entries = [.path p psn] → let k := m.src.toNat * 256 + p % 256
        tget? s.fab.paths k = some q → After (exec (.ack m) s) fun t => (tget? t.fab.paths k).map (·.expiries) = some 0)) ∧
    (∀ (m : NakMsg) (x : GMsg), m.jsn = none → let k := m.src.toNat * 2 ^ 32 + m.msg.toNat
      s.fab.msgs = [x] → x.key = k →
      (∀ i, m.code = 5 → m.missing = [i] → i < x.segs → mayFail s x = false → After (exec (.nak m) s) fun t =>
        (msgOf t k).map (fun y => tget y.retx i 0) = some (tget x.retx i 0 + 1)) ∧
      (m.code = 2 → After (exec (.nak m) s) fun t => (msgOf t k).map (·.busy) = some true) ∧
      (m.code = 1 → exec (.nak m) s = .next s)) ∧
    (∀ k p, tget? s.fab.paths k = some p →
      (p.flight ≠ [] → After (exec (.rtoExpiry k) s) fun t =>
        (tget? t.fab.paths k).map (fun q => (q.rto, q.expiries, q.closed)) =
          some (min 1000000 (2 * p.rto), p.expiries + 1, (decide (3 ≤ p.expiries + 1) || p.closed))) ∧
      (p.closed = true → After (exec (.pathProbe k) s) fun t =>
        (tget? t.fab.paths k).map (fun q => (q.closed, q.expiries, q.win)) = some (false, 0, 1))) ∧
    (∀ key x, msgOf s key = some x → mayFail s x = true → (∀ slot p n, x.user ≠ .fetch slot p n) → x.user ≠ .caskOp →
      (∀ plan target version, x.user ≠ .cask plan target version) → After (exec (.messageTimeout key) s) fun t =>
      msgOf t key = none ∧ ∀ e p, x.user = .spill e p → (pageOf t p).hall = false ∧ e ∈ t.fab.shut) ∧
    (∀ key r, rxOf s key = some r → r.done = false → After (exec (.reorderWaitExpiry key) s) fun t =>
      t.fab.naks.head?.map (fun n => (n.1, n.2.code, n.2.missing)) =
        some (key / 2 ^ 32 % 65536, 5, (rxMissing r).filter fun i => i < (rxMissing r).headD 0 + 256)) ∧
    (∀ dst, tget s.fab.owed dst.toNat 0 ≠ 0 → After (exec (.ackTimer dst) s) fun t =>
      tget t.fab.owed dst.toNat 0 = 0 ∧ t.fab.acks.head?.map (·.1) = some dst.toNat)

/-- R53, R355, R383–R387, R392: ports and neighbours. A link that goes down is shown and its port carries nothing; the first loss of a POD port is an alarm;
one that comes up on a port that is not OFF, in a rim domain that is not lost, is shown, and sends a HELLO unless it is a twin port; a captured mode applies; a HELLO makes its sender
known and a unicast one is answered; the timer sends a HELLO on every POD port; questions for this engine's addresses are answered; the
gateway's address is learnt; a PFC frame pauses its class for its quanta; what a port does not accept is counted. -/
def Obligations.PortsAndNeighbours : Prop :=
  ∀ (s : State) (p : Nat), p < 64 →
    (rdB s F.NET_PORT_UP p = true → After (exec (.portLinkDown p) s) fun t => rd t F.NET_PORT_UP p = 0 ∧ t.fab.carry = s.fab.carry.filter (· ≠ p) ∧
      (portMode s p = pmPod → p ∉ s.fab.downSeen → Logged s t .alarm evPortDown 0 0 p 0)) ∧
    (rdB s F.NET_PORT_UP p = false → s.pwr.lostRims.contains (p / 16) = true → exec (.portLinkUp p) s = .next s) ∧
    (rdB s F.NET_PORT_UP p = false → portMode s p ≠ pmOff → s.pwr.lostRims.contains (p / 16) = false → After (exec (.portLinkUp p) s) fun t => rd t F.NET_PORT_UP p = 1 ∧
      (portMode s p ≠ pmTwin → t.fab.hellos = ⟨p, none, helloPayload t p⟩ :: s.fab.hellos)) ∧
    (∀ w, tget? s.captured (fkey F.NET_PORT_MODE p) = some w → getF F.NET_PORT_MODE w ≠ pmTwin → portMode s p ≠ pmTwin →
      After (exec (.portModeChange p) s) fun t => portMode t p = getF F.NET_PORT_MODE w) ∧
    (∀ m : HelloMsg, m.port = p → portUp s p = true → twinShut s p = false → (m.node.toNat ≠ ownNode s ∨ m.keyFp = fingerprint) →
      After (exec (.hello m) s) fun t => tget? t.fab.nodes m.node.toNat = some ⟨m⟩ ∧ rd t F.NET_PORT_PEER_NODE p = m.node.toNat ∧
        (m.unicast = true → t.fab.hellos.head? = some ⟨p, some m.node.toNat, helloPayload t p⟩)) ∧
    (portUp s p = true → portMode s p = pmPod → After (exec .helloTimer s) fun t => ⟨p, none, helloPayload s p⟩ ∈ t.fab.hellos) ∧
    (portCarries s p = true →
      (∀ x, twinShut s p = false → isOwnAddress s x = true → isProvisional s = false →
        exec (.neighborSolicitation p x) s = .next (modFab s fun f => { f with icmp := ⟨p, 0, x⟩ :: f.icmp }) ∧
        exec (.echoRequest p x) s = .next (modFab s fun f => { f with icmp := ⟨p, 1, x⟩ :: f.icmp })) ∧
      (∀ x mac, portMode s p = pmSwitched → rd s F.NET_FAB_GW_GATEWAY 0 ≠ 0 → x = hallAddress s (rd s F.NET_FAB_GW_GATEWAY 0) →
        After (exec (.neighborAdvertisement p x mac) s) fun t => tget? t.fab.macs p = some mac)) ∧
    (∀ tc q, (tc = 2 ∨ tc = 3) → portUp s p = true → rdB s F.NET_FAB_CTL_PFC_EN 0 = true → After (exec (.pfcFrame p [(tc, q)]) s) fun t =>
      tget t.fab.paused (4 * p + tc) 0 = s.clk.hall + q * 5376 / 100) ∧
    exec (.discardedFrame p .frame) s = .next (bump s F.NET_FAB_CNT_DISCARD 0 1) ∧
    exec (.discardedFrame p .auth) s = .next (bump s F.NET_FAB_CNT_AUTH_FAIL 0 1) ∧
    exec (.discardedFrame p .pause) s = .next (bump (bump s F.NET_FAB_CNT_DISCARD 0 1) F.NET_PORT_CNT_PAUSE p 1) ∧
    exec (.discardedFrame p .fcs) s = .next (bump (bump s F.NET_FAB_CNT_DISCARD 0 1) F.NET_PORT_CNT_FCS_ERR p 1) ∧
    After (exec (.discardedFrame p .fec) s) fun t =>
      rd t F.NET_PORT_CNT_FEC_UNCORR p = min (rd s F.NET_PORT_CNT_FEC_UNCORR p + 1) (2 ^ F.NET_PORT_CNT_FEC_UNCORR.width - 1)

/-- R406, R407: a PTP message of the domain that the comparison selects gives the engine a parent: LOCKED and VALID, one step further, with the servo's
offset; one that it does not select leaves an engine without a parent as grandmaster. A lost parent ends LOCKED and not VALID; the end of
holdover ends VALID. -/
def Obligations.HallTimeFollowsItsParent : Prop :=
  ∀ (s : State),
    (∀ m : PtpMsg, portCarries s m.port = true → portMode s m.port ≠ pmTwin → m.domain.toNat = rd s F.NET_PTP_DOMAIN 0 →
      (m.better = true → After (exec (.ptpMessage m) s) fun t => t.fab.parent = true ∧ rd t F.NET_PTP_LOCKED 0 = 1 ∧ rd t F.NET_PTP_VALID 0 = 1 ∧
        rd t F.NET_PTP_GM 0 = 0 ∧ rd t F.NET_PTP_STEPS 0 = min 15 (m.steps.toNat + 1) ∧ rd t F.NET_PTP_TRACEABLE 0 = bit m.traceable ∧
        (s.fab.everLocked = true → t.clk.hall = s.clk.hall ∧ t.clk.slew = -(m.offsetNs * 84))) ∧
      (m.better = false → s.fab.parent = false → After (exec (.ptpMessage m) s) fun t => rd t F.NET_PTP_GM 0 = 1 ∧ rd t F.NET_PTP_STEPS 0 = 0)) ∧
    (s.fab.parent = true → After (exec .ptpParentLoss s) fun t => t.fab.parent = false ∧ rd t F.NET_PTP_LOCKED 0 = 0 ∧
      rd t F.NET_PTP_VALID 0 = rd s F.NET_PTP_VALID 0) ∧
    (s.fab.parent = false → rdB s F.NET_PTP_VALID 0 = true → After (exec .holdoverExpiry s) fun t => rd t F.NET_PTP_VALID 0 = 0)

/-! ## Power -/

/-- R415, R420, R421, R428–R430, R437, R440: what the Spire reports. A poll's readings stand in the telemetry; an alert raises PMB_ALERT; a buttress that
fails is recorded, the fifth derates and the sixth drops the field; a field that is on and falls below WARN or CRIT is reported or aborts its
tick, once per tick; the margin ends, and the minima restart; the cap's demand follows the power. -/
def Obligations.PowerReports : Prop :=
  ∀ (s : State),
    (∀ m : PmbusReading, After (exec (.pmbusPoll m) s) fun t => t.pwr.poll = some m ∧ t.pwr.powers = (m.powerW :: s.pwr.powers).take 40 ∧
      rd t F.PWR_TELEM_BUSBAR 0 = m.busbar10mV % 65536 ∧ rd t F.PWR_TELEM_AUX33 0 = m.aux33mV % 65536) ∧
    exec .pmbAlert s = .next (raiseSource s 17) ∧
    (∀ f b, f < 48 → b < 64 → (rd s F.PWR_BUTT_FAILED f).testBit b = false → After (exec (.buttressFail f b) s) fun t =>
      rd t F.PWR_BUTT_FAILED f = rd s F.PWR_BUTT_FAILED f + 2 ^ b ∧ rd t F.PWR_FIELD_FAILED f = (rd s F.PWR_FIELD_FAILED f + 1) % 128 ∧
      (rd s F.PWR_FIELD_FAILED f = 4 → rd t F.PWR_STATUS_DERATE 0 = 1) ∧ (rd s F.PWR_FIELD_FAILED f = 5 → f ∈ t.pwr.drop) ∧
      (rd s F.PWR_FIELD_FAILED f ≠ 4 → Logged s t .alarm evButtressFail 0 0 f 0)) ∧
    (∀ f mv, f < 48 → f ∈ s.pwr.on →
      (mv + (droopLimits s).1 < setpoint s f → tget s.pwr.warnTick f 0 ≠ tickCount s + 1 → After (exec (.droopWarn f mv) s) fun t =>
        tget t.pwr.warnTick f 0 = tickCount s + 1 ∧ Logged s t .report evDroop 0 0 f 0) ∧
      (mv + (droopLimits s).2 < setpoint s f → tget s.pwr.critTick f 0 ≠ tickCount s + 1 → After (exec (.droopCrit f mv) s) fun t =>
        tget t.pwr.critTick f 0 = tickCount s + 1 ∧ (tget t.pwr.crits f []).head? = some (hallNs s) ∧
        rd t F.PWR_CNT_DROOP_ABORT 0 = min (rd s F.PWR_CNT_DROOP_ABORT 0 + 1) (2 ^ F.PWR_CNT_DROOP_ABORT.width - 1))) ∧
    (∀ f, After (exec (.droopMarginExpiry f) s) fun t => f ∉ t.pwr.margin ∧ t = { s with pwr := t.pwr }) ∧
    (After (exec .vminRst s) fun t => ∀ f, f < 48 → rd t F.PWR_VMIN_VMIN f = 0xFFF) ∧
    (let u := 2 ^ (tickK s - 6)
     let p := rd s F.PWR_TELEM_POWER 0
     (∀ c, capOf s = some c → c < p → After (exec .capEvaluation s) fun t => t.pwr.capDemand = min (2 ^ tickK s) (s.pwr.capDemand + u)) ∧
     (∀ c, capOf s = some c → p ≤ c → 95 * c ≤ 100 * p → exec .capEvaluation s = .next s) ∧
     (capOf s = none → After (exec .capEvaluation s) fun t => t.pwr.capDemand = s.pwr.capDemand - u))

/-- R413, R414, R422–R427, R431–R438, R441, R460: domains and rails. A raised clock step applies; a field asked to hibernate or to wake starts its ramp,
or the commit is FROZEN; waiting switch-ons are forced; a short loses the field; failed isolation takes the rails off; SPIRE_FAULT_N gates the
clocks; the sag lock comes and goes with what it deferred; a retrained value ends its item's provisional use. -/
def Obligations.DomainsAndRails : Prop :=
  ∀ (s : State),
    (∀ n, s.pwr.raise = some n → s.pwr.ramps = [] → s.clk.fallback = false → After (exec .stepRaiseSettle s) fun t =>
      t.clk = { s.clk with nextStep := some n } ∧ t.pwr.raise = none) ∧
    (∀ f, f < 48 →
      ((rd s F.PWR_HIB_REQ 0).testBit f = false →
        (mayHibernate s f = true → After (exec (.hibernate f) s) fun t => rd t F.PWR_HIB_REQ 0 = rd s F.PWR_HIB_REQ 0 + 2 ^ f ∧
          rd t F.PWR_COMMIT_COMMIT_STATUS 0 = stOk ∧ (f ∈ s.pwr.on → tget? t.pwr.ramps f = some ⟨.down 0, 2, false, false⟩)) ∧
        (mayHibernate s f = false → exec (.hibernate f) s = .next (wr s F.PWR_COMMIT_COMMIT_STATUS 0 stFrozen))) ∧
      ((rd s F.PWR_HIB_REQ 0).testBit f = true →
        (mayWake s = true → After (exec (.wake f) s) fun t => rd t F.PWR_HIB_REQ 0 = rd s F.PWR_HIB_REQ 0 - 2 ^ f ∧
          rd t F.PWR_COMMIT_COMMIT_STATUS 0 = stOk ∧ (fieldLost s f = false → tget? s.pwr.ramps f = none → f ∉ s.pwr.on →
            tget? t.pwr.ramps f = some ⟨.wait, 3, false, false⟩)) ∧
        (mayWake s = false → exec (.wake f) s = .next (wr s F.PWR_COMMIT_COMMIT_STATUS 0 stFrozen)))) ∧
    (∀ f r, tget? s.pwr.ramps f = some r → r.phase = .wait → After (exec .admitWaitExpiry s) fun t =>
      tget? t.pwr.ramps f = some { r with forced := true }) ∧
    (∀ f, f < 48 → fieldLost s f = false → After (exec (.fieldShort f) s) fun t => f ∉ t.pwr.on ∧ tget? t.pwr.ramps f = none ∧
      tget? t.net.lanterns f = none ∧ ∀ c, c < nCores → fieldOf c = f → coreOf t c = blankCore) ∧
    (∀ q, q < 4 → After (exec (.isolationFail q) s) fun t => rd t F.PWR_STATUS_ENG_FAULT 0 = 1 ∧ t.pwr.rails = false ∧ t.pwr.on = [] ∧
      t.cores = [] ∧ t.strm = StreamSt.initial ∧ t.clk.gated = true ∧ t.alarmFlash = s.alarmFlash) ∧
    (After (exec .spireFault s) fun t => t.clk = { s.clk with gated := true } ∧ t.pwr.ramps = [] ∧ rd t F.PWR_STATUS_SPIRE_FAULT 0 = 1 ∧
      Logged s t .alarm evSpireFault 0 0 0 0) ∧
    (sagLocked s = false → After (exec .sagLock s) fun t => sagLocked t = true ∧ Logged s t .report evSagNvlock 0 0 0 0) ∧
    (sagLocked s = true → After (exec .sagRelease s) fun t => sagLocked t = false ∧ t.alarmsDeferred = [] ∧
      t.alarmFlash = s.alarmsDeferred.reverse ++ s.alarmFlash ∧ t.keep.boot.overlay = s.keep.boot.overlay ++ s.pwr.heldOverlay ∧
      t.pwr.heldOverlay = []) ∧
    (After (exec .aux12Fail s) fun t => t.alarmsDeferred = [] ∧ t.events = [] ∧ t.pwr.heldOverlay = [] ∧ t.alarmFlash = s.alarmFlash) ∧
    (∀ kind item value, s.pwr.prov.contains (kind, item) = true → After (exec (.calibrationReplace kind item value) s) fun t =>
      t.pwr.cal = ⟨kind, item, itemLoad s kind item, itemTemp s kind item, value, false⟩ :: s.pwr.cal ∧ t.pwr.prov.contains (kind, item) = false)

/-! ## Cooling -/

/-- R444, R446–R451, R457–R459: measurement. A clean sample of a channel that is not in fault stands in its registers; the third in one fault condition
puts it in fault; a reading gives the highest temperatures; the throttle goes a step down when due and a step up when cool; the flow is shown, or the
lack of it, and a low one is a warning that ends with its cause; outputs hold their fixed values in mode FIXED; every field's cycles are
searched, and the counts go to flash. -/
def Obligations.CoolingMeasures : Prop :=
  ∀ (s : State),
    (∀ x : ChanSample, x.chan < 16 → rdB s F.CHAN_CFG_EN x.chan = true → chanFaulty s x.chan = false →
      (x.cond = 0 → After (exec (.channelSample [x]) s) fun t => rd t F.CHAN_VAL_STATE x.chan = (if x.outOfSpan then 5 else 1) ∧
        BitVec.ofNat 32 (rd t F.CHAN_VAL_VALUE x.chan) = BitVec.ofInt 32 x.value) ∧
      (2 ≤ x.cond → x.cond ≤ 4 → tget s.thm.bad x.chan 0 = 16 * x.cond + 2 → After (exec (.channelSample [x]) s) fun t =>
        rd t F.CHAN_VAL_STATE x.chan = x.cond)) ∧
    (∀ m : TempReading, After (exec (.tempRead m) s) fun t => t.thm.tj = maxInt ((m.fields.map maxInt) ++ m.rims.map maxInt) ∧
      t.thm.thbm = maxInt m.hbm ∧ rd t F.THM_STATUS_TJ_MAX 0 = tempField t.thm.tj ∧
      t.thm.overLim = (if tjLimit s ≤ t.thm.tj ∨ thbmLimit s ≤ t.thm.thbm then s.thm.overLim + 1 else 0)) ∧
    (stepDownDue s = true → s.pwr.sel < 3 → After (exec .throttleStepDown s) fun t => t.pwr.sel = s.pwr.sel + 1 ∧
      Logged s t .report evThermThrottle 0 0 0 0) ∧
    (s.thm.tj < 4 * ((curve s).1 : Int) - 12 → s.thm.thbm < 4 * ((curve s).2.2.1 : Int) - 12 → 0 < s.pwr.sel →
      After (exec .throttleStepUp s) fun t => t.pwr.sel = s.pwr.sel - 1) ∧
    (flowNow s = none → keepDown s = false → After (exec .flowEvaluation s) fun t => t.thm.noFlow = true ∧ rd t F.THM_STATUS_FLOW 0 = 0xFFF) ∧
    (∀ n, flowNow s = some n → keepDown s = false →
      (After (exec .flowEvaluation s) fun t => t.thm.noFlow = false ∧ rd t F.THM_STATUS_FLOW 0 = min 0xFFE (n / 10) ∧
        (n < 100 * rd s F.THM_THR_FLOW_WARN 0 → t.thm.warn = true ∧ t.thm.flowCap = some (657 * n / 100)) ∧
        (n < 100 * rd s F.THM_THR_FLOW_SHED 0 → t.thm.shedFlow = true)) ∧
      (100 * rd s F.THM_THR_FLOW_WARN 0 ≤ n → 100 * rd s F.THM_THR_FLOW_SHED 0 ≤ n → After (exec .flowStageEnd s) fun t =>
        t.thm.warn = false ∧ t.thm.shedFlow = false ∧ t.thm.flowCap = none)) ∧
    (outputsHeld s = false →
      (s.thm.leakHold = true → After (exec .valvePumpControl s) fun t => t.thm.valve = 4000 ∧ t.thm.pump = 0) ∧
      (s.thm.leakHold = false → s.thm.stopped = false → rd s F.THM_CTL_CTRL 0 = 0 → After (exec .valvePumpControl s) fun t =>
        t.thm.valve = max 4000 (min 20000 (rd s F.CHAN_CFG_FIXED 11)) ∧ t.thm.pump = min 1000 (rd s F.CHAN_CFG_FIXED 12))) ∧
    (After (exec .thermalCycleCount s) fun t => ∀ f, f < 48 →
      tget? t.thm.turns f = some (turn (tget? s.thm.turns f) (tempOf s F.THM_FIELD_TEMP f)).1) ∧
    (After (exec .cycleLogWrite s) fun t => t.thm.snaps.head? = some (hallNs s, cycleCounts s) ∧
      (sagLocked s = false → t.thm.flashed = cycleCounts s) ∧ (sagLocked s = true → t.thm.flashed = s.thm.flashed ∧ t.pwr.logsDue = true))

/-- R53, R376, R452–R456, R535: what cooling ends. A flow stop opens valve and pump; the flow's return ends it; a hard limit, a junction at 110 °C or a
clamp that opens under power asserts ENG_FAULT_N and takes the rails off; a leak and the dew point act as LEAK_ACT says; a lost stack's masters
are BAD, and a lost rim domain is off,
with its stacks, ports, samplers and pagers. -/
def Obligations.CoolingLimits : Prop :=
  ∀ (s : State),
    let down (t : State) : Prop := t.thm.limit = true ∧ t.pwr.rails = false ∧ t.cores = [] ∧ rd t F.PWR_STATUS_ENG_FAULT 0 = 1 ∧
      rd t F.THM_STATUS_STAGE 0 = 4
    (s.thm.stopped = false → s.thm.leakHold = false → s.thm.limit = false → After (exec .flowStop s) fun t =>
      t.thm.stopped = true ∧ t.thm.valve = 20000 ∧ t.thm.pump = 1000) ∧
    (∀ n, flowNow s = some n → s.thm.stopped = true → s.thm.leakHold = false → s.thm.limit = false → 100 * rd s F.THM_THR_FLOW_WARN 0 ≤ n →
      After (exec .flowRestored s) fun t => t.thm.stopped = false) ∧
    (2 ≤ s.thm.overLim → s.thm.limit = false → After (exec .hardLimit s) down) ∧
    (After (exec .tj110 s) down) ∧
    (s.pwr.rails = true → After (exec .clampSenseOpen s) fun t => down t ∧ t.pwr.clamped = false) ∧
    (s.pwr.rails = false → exec .clampSenseOpen s = .next (modPwr s fun p => { p with clamped := false })) ∧
    exec .clampSenseClosed s = .next (modPwr s fun p => { p with clamped := true }) ∧
    (let act := rd s F.THM_CTL_LEAK_ACT 0
     let acts (t : State) : Prop := (act = 2 → t.thm.leakHold = true ∧ t.thm.pump = 0 ∧ t.thm.valve = 4000)
     (∀ cable, wet s (8 + cable) = true → 8 + cable ∉ s.thm.wasWet → After (exec (.leak cable) s) fun t => 8 + cable ∈ t.thm.wasWet ∧ (act = 1 → t.thm.leakShed = true) ∧ acts t ∧
       (act ≠ 2 → Logged s t .alarm evLeak 0 0 (8 + cable) 0)) ∧
     (belowDew s 0 = true → After (exec .dewLimit s) fun t => (act = 1 → t.thm.dewShed = true) ∧ acts t)) ∧
    (belowDew s (rd s F.THM_THR_DEW_MARGIN 0) = true → s.thm.dewLow = false → After (exec .dewAlarm s) fun t => t.thm.dewLow = true ∧
      Logged s t .alarm evDew 0 0 0 0) ∧
    (∀ st, st < 48 → st ∉ s.pwr.lostStacks → After (exec (.stackLost st) s) fun t => t.pwr.lostStacks = st :: s.pwr.lostStacks ∧
      (∀ m ∈ t.store.masters, Config.masterStack m.plan m.target m.version % 48 = st → m.bad = true) ∧
      (journaled s = true → (∀ m ∈ s.store.masters, Config.masterStack m.plan m.target m.version % 48 ≠ st) → Logged s t .alarm evStackLost 0 0 st 0)) ∧
    (∀ seg, seg < 4 → seg ∉ s.pwr.lostRims → After (exec (.rimLost seg) s) fun t => seg ∈ t.pwr.lostRims ∧ seg ∉ t.pwr.rims ∧
      (∀ n, n < 16 → 16 * seg + n ∈ t.pwr.lostSamplers ∧ rdB t F.NET_PORT_UP (16 * seg + n) = false) ∧ (∀ n, n < 6 → 6 * seg + n ∈ t.pwr.lostPagers) ∧
      ∀ st, 12 * seg ≤ st → st < 12 * seg + 12 → st ∈ t.pwr.lostStacks)

/-! ## The mailbox, sessions and keys -/

/-- R470–R474, R505, R507: GO of a host port's channel notes a well-formed request and raises nothing else of it; one that is malformed, or names no
command, is answered with INTERNAL; while a request is in progress GO counts. PING, INFO and IDENTITY are answered to anyone; EVENT_READ returns
what the session may see; a command that needs a session is refused without one. -/
def Obligations.MailboxCommandsAnswer : Prop :=
  ∀ (s : State),
    (∀ p, (p = 0 ∨ (p = 1 ∧ s.bifurcated = true)) → let m := mboxOf s p
      let q := requestOf p m.reqLen (windowBytes m)
      (∀ b, m.busy = some b → exec (.mboxGo p) s = .next (bump s F.KEEP_CNT_MBOX_BUSY 0 1)) ∧
      (m.busy = none → q.len + 16 = q.frameLen → knownCmd q.cmd.toNat = true → After (exec (.mboxGo p) s) fun t =>
        mboxOf t p = { m with busy := some q, done := false, rsp := [] }) ∧
      (m.busy = none → (q.len + 16 ≠ q.frameLen ∨ knownCmd q.cmd.toNat = false) → After (exec (.mboxGo p) s) fun t => Answered t q stInternal [])) ∧
    (∀ q r, Admitted s q 0x0000 r none → After (exec (.ping q) s) fun t => Answered t r stOk []) ∧
    (∀ q r, Admitted s q 0x0001 r none → After (exec (.info q) s) fun t => Answered t r stOk
      (bytesOf 8 (regWord s F.KEEP_ID_DEVICE 0).toNat ++ bytesOf 8 (regWord s F.KEEP_STATUS_OK 0).toNat ++ bytesOf 8 (hallNs s))) ∧
    (∀ q r, Admitted s q 0x0120 r none → After (exec (.identity q) s) fun t => Answered t r stOk (identityPub ++ fingerprint ++ Config.certChain)) ∧
    (∀ q r x, Admitted s q 0x0010 r (some x) → let first := numAt r.body 0 8
      let most := numAt r.body 8 2
      let seen := s.events.reverse.filter fun e => first ≤ e.seq && (x.key = 0 || e.tenant = x.key)
      1 ≤ most → most ≤ 127 → seen.length ≤ most → After (exec (.eventRead q) s) fun t =>
        Answered t r stOk (seen.flatMap recordBytes ++ bytesOf 8 (max first (rd s F.KEEP_EV_SEQ_SEQ 0 + 1)))) ∧
    (∀ q, ∀ e ∈ [(Instr.eventRead q, 0x0010), (.sessionClose q, 0x0102), (.sessionSelect q, 0x0103), (.keySet q, 0x0110), (.keyRevoke q, 0x0111),
        (.ownerKeySet q, 0x0113), (.settingsSave q, 0x0121), (.defectMapRestore q, 0x0122), (.activate q, 0x0205), (.updateConfirm q, 0x0206),
        (.rollback q, 0x0207)],
      ∀ r, Admitted s q e.2 r none → exec e.1 s = .next (respond s r stBadHandle []))

/-- R504–R508: a challenge is drawn with the context of its key and channel, or refused while the channel is locked out; the right response,
under a key that can be unsealed, opens a session of that key for LIFE minutes, a wrong one is an event and refused; a session that closes, or
expires, is gone; SELECT makes it the one of its port; the end of a lockout lifts it. -/
def Obligations.SessionsOpenAndClose : Prop :=
  ∀ (s : State),
    (∀ q r, Admitted s q 0x0100 r none → uartShut s r.chan = false →
      (hallNs s < tget s.keep.refused r.chan 0 → exec (.sessionChallenge q) s = .next (respond s r stFrozen [])) ∧
      (tget s.keep.refused r.chan 0 ≤ hallNs s → After (exec (.sessionChallenge q) s) fun t => ∃ c, t.keep.challenges = c :: s.keep.challenges ∧
        c.key = numAt r.body 0 1 ∧ c.chan = r.chan ∧ c.context = challengeContext s c.key c.chan ∧ c.made = hallNs s ∧
        Answered t r stOk (c.nonce ++ bytesOf 4 c.id ++ c.context))) ∧
    (∀ q r c key, Admitted s q 0x0101 r none → uartShut s r.chan = false → unsealedKey s c.key = some key →
      (s.keep.challenges.find? fun c => c.id = numAt r.body 0 4 && c.chan = r.chan && hallNs s ≤ c.made + 10000000000) = some c →
      let right := kmac256 key (c.nonce ++ c.context) (ascii "QB48-OPEN") 32
      ((r.body.drop 4).take 32 = right → s.keep.sessions.length < 64 → After (exec (.sessionOpen q) s) fun t => ∃ x,
        t.keep.sessions = x :: s.keep.sessions ∧ x.key = c.key ∧ x.chan = r.chan ∧
        x.skey = kmac256 key (c.nonce ++ c.context) (ascii "QB48-SKEY") 32 ∧
        x.expires = hallNs s + min 1440 (max 1 (rd s F.SEC_CTL_LIFE 0)) * 60000000000 ∧
        Answered t r stOk (bytesOf 4 x.handle ++ bytesOf 8 x.expires)) ∧
      ((r.body.drop 4).take 32 ≠ right → After (exec (.sessionOpen q) s) fun t => t.keep.sessions = s.keep.sessions ∧
        Logged s t .report evSessionFail 0 0 0 0 ∧ Answered t r stBadHandle [])) ∧
    (∀ q r x, Admitted s q 0x0102 r (some x) → After (exec (.sessionClose q) s) fun t => (∀ y ∈ t.keep.sessions, y.handle ≠ x.handle) ∧
      Answered t r stOk []) ∧
    (∀ q r x, Admitted s q 0x0103 r (some x) → r.chan < 2 → After (exec (.sessionSelect q) s) fun t =>
      rd t F.SEC_PORT_SESSION_SESSION r.chan = x.handle % 2 ^ F.SEC_PORT_SESSION_SESSION.width ∧ Answered t r stOk []) ∧
    (∀ h, After (exec (.sessionExpiry h) s) fun t => t.keep.sessions = s.keep.sessions.filter fun x => !(x.handle = h.toNat)) ∧
    (∀ ch, After (exec (.challengeLockoutExpiry ch) s) fun t => tget? t.keep.refused ch = none)

/-- R290, R498, R502, R504, R505: commands of an operator session that write flash, while the sag lock does not hold; while it holds each is FROZEN. A
key is set, unwrapped, or revoked, and every session opened with it closes; KEY_INIT sets the operator key once, over the UART; the owner table,
the settings and a signed factory map are stored. -/
def Obligations.KeysAndSettingsAreKept : Prop :=
  ∀ (s : State) (q r : Req),
    (∀ x, x.key = 0 → sagLocked s = true → ∀ e ∈ [(Instr.keySet q, 0x0110), (.keyRevoke q, 0x0111), (.ownerKeySet q, 0x0113), (.settingsSave q, 0x0121),
      (.defectMapRestore q, 0x0122)], Admitted s q e.2 r (some x) → After (exec e.1 s) fun t => Answered t r stFrozen [] ∧ t.keep.keys = s.keep.keys ∧
        t.keep.owners = s.keep.owners ∧ t.keep.boot = s.keep.boot) ∧
    (sagLocked s = false → ∀ n, numAt r.body 0 1 = n →
      let closed (k : Nat) (t : State) : Prop := Answered t r stOk [] ∧ ∀ y ∈ t.keep.sessions, y.key ≠ k
      (Admitted s q 0x0112 r none → r.chan = 3 → tget? s.keep.keys 0 = none → 32 ≤ r.body.length → After (exec (.keyInit q) s) fun t =>
        tget? t.keep.keys 0 = some (r.body.take 32) ∧ closed 0 t) ∧
      ∀ x, x.key = 0 →
        (Admitted s q 0x0110 r (some x) → 33 ≤ r.body.length → After (exec (.keySet q) s) fun t => closed n t ∧
          tget? t.keep.keys n = some (List.zipWith (· ^^^ ·) ((r.body.drop 1).take 32)
            (kmac256 x.skey (ascii "QB48-WRAP" ++ bytesOf 4 r.tag.toNat) [] 32))) ∧
        (Admitted s q 0x0111 r (some x) → n ≠ 0 → After (exec (.keyRevoke q) s) fun t => closed n t ∧ tget? t.keep.keys n = none) ∧
        (Admitted s q 0x0113 r (some x) → n < 32 → ((r.body.drop 1).take 57).length = 57 → After (exec (.ownerKeySet q) s) fun t =>
          Answered t r stOk [] ∧ tget? t.keep.owners n =
            if ((r.body.drop 1).take 57).all (· = 0) then none else some ((r.body.drop 1).take 57)) ∧
        (Admitted s q 0x0121 r (some x) → After (exec (.settingsSave q) s) fun t => t.keep.boot.settings = some (settingsOf s) ∧
          t.keep.boot.startList = ((boundRegions s).map fun g => (g, rd s F.REG_PLAN_PLAN_ID g)).take 64 ∧ Answered t r stOk []) ∧
        (Admitted s q 0x0122 r (some x) → Config.mapSigOk r.body = true → After (exec (.defectMapRestore q) s) fun t =>
          t.keep.boot.factory = Config.mapEntries r.body ∧ Answered t r stOk []))

/-! ## The Belfry -/

/-- R466, R478–R489: an event of a listed source that no host takes counts in PENDING, or waits in its latch while the clock is stopped; its TIME makes
it due; FORCE raises one event. A claim returns the best source with its count and holds it; with none it is spurious. The clock stops in deep idle and starts with its latches taken. -/
def Obligations.BelfrySourcesAndClaims : Prop :=
  ∀ (s : State),
    (∀ n, sourceListed n = true → exec (.sourceEvent n) s = .next (raiseSource s n) ∧
      (∀ a, mayForce s a = true → exec (.belfryForce a n) s = .next (raiseSource s n)) ∧
      (s.bel.stopped = true → n ∈ (raiseSource s n).bel.latches) ∧
      (s.bel.stopped = false → rd s F.BELFRY_SRC_CFG_MASK n < 256 → rd s F.BELFRY_SRC_STATUS_PENDING n < 255 →
        rd (raiseSource s n) F.BELFRY_SRC_STATUS_PENDING n = rd s F.BELFRY_SRC_STATUS_PENDING n + 1)) ∧
    (∀ n, 0 < rd s F.BELFRY_SRC_STATUS_PENDING n → 0 < (coalLimits s n).2 →
      (s.bel.stopped = true → After (exec (.coalesceTimeout n) s) fun t => t.bel.forced = n :: s.bel.forced.filter (· ≠ n) ∧ t.regs = s.regs) ∧
      (s.bel.stopped = false → rd s F.BELFRY_SRC_CFG_MASK n < 256 → After (exec (.coalesceTimeout n) s) fun t =>
        rd t F.BELFRY_SRC_STATUS_DUE n = 1)) ∧
    (∀ a k, targetOf a = some k →
      (bestSource s (candidates s k) = none → exec (.belfryClaim a) s = .next (returned (bump s F.BELFRY_CNT_SPURIOUS 0 1) 0)) ∧
      (∀ n, bestSource s (candidates s k) = some n → After (exec (.belfryClaim a) s) fun t =>
        t.keep.reads.head? = some (BitVec.ofNat 64 (rd s F.BELFRY_SRC_CFG_PRIO n * 2 ^ 18 + rd s F.BELFRY_SRC_STATUS_PENDING n * 2 ^ 10 + n)) ∧
        rd t F.BELFRY_SRC_STATUS_ACTIVE n = 1 ∧ rd t F.BELFRY_SRC_STATUS_CLAIMER n = k)) ∧
    (After (exec .belfryClockRestart s) fun t => t.bel.stopped = false ∧ t.bel.latches = []) ∧
    (rdB s F.KEEP_CTL_DEEP_IDLE 0 = true → exec .belfryClockStop s = .next { s with bel := { s.bel with stopped := true } }) ∧
    (∀ up, After (exec (.mgmtLinkChange up) s) fun t => t.keep.mgmtUp = up) ∧
    (∀ m, m < 8 → exec (.kick (.mc m) m) s = .next (wr s F.KEEP_WDT_STAGE m 0) ∧ ∀ a, a ≠ .mc m → exec (.kick a m) s = .next s)

/-- R483: a completion of an ACTIVE source by its claimer clears ACTIVE. Where AUTO does not act on the source (R484 sends one that is due at once), its
PENDING stays, and if that makes it due it is deliverable again to a management core whose threshold it exceeds. Any other completion changes nothing
but BAD_COMPLETE. -/
def Obligations.BelfryCompletions : Prop :=
  ∀ (s : State) (a : Agent) (k n : Nat), targetOf a = some k →
    let own : Prop := n < 1024 ∧ rd s F.BELFRY_SRC_STATUS_ACTIVE n = 1 ∧ rd s F.BELFRY_SRC_STATUS_CLAIMER n = k
    (own → After (exec (.belfryComplete a n) s) fun t =>
      rd t F.BELFRY_SRC_STATUS_ACTIVE n = 0 ∧
      (rdB s F.BELFRY_SRC_CFG_AUTO n = false ∨ rd s F.BELFRY_SRC_CFG_MASK n % 256 ≠ 0 →
        rd t F.BELFRY_SRC_STATUS_PENDING n = rd s F.BELFRY_SRC_STATUS_PENDING n ∧
        (srcDue s n = true → ∀ j, j < 8 → (rd s F.BELFRY_SRC_CFG_MASK n).testBit j = true →
          max (rd t F.BELFRY_TGT_THRESH j) (rd t F.BELFRY_TGT_RUNNING j) < rd s F.BELFRY_SRC_CFG_PRIO n → deliverable t n j = true))) ∧
    (¬ own → exec (.belfryComplete a n) s = .next (bump s F.BELFRY_CNT_BAD_COMPLETE 0 1))

/-! ## Restarts, the start and updates -/

/-- R350, R466–R468, R511, R514, R515: an enabled watchdog goes to stage 1 and then restarts the Keep, as an uncorrectable SRAM error and a failed core
do: the halves are gated, no session stays, and the time of the restart is noted. One failed core is held. The end of a Keep restart is READY with
every core running. An operator's restart is of the kind asked for, or FROZEN. -/
def Obligations.KeepRestarts : Prop :=
  ∀ (s : State),
    let crashed (t : State) : Prop := t.clk.gated = true ∧ t.keep.sessions = [] ∧ t.keep.boot.restarts = hallNs s :: s.keep.boot.restarts
    (∀ m, m < 8 → m ∉ s.keep.boot.heldMcs → rdB s F.KEEP_WDT_EN m = true →
      (rd s F.KEEP_WDT_STAGE m = 0 → After (exec (.watchdogStage m) s) fun t => rd t F.KEEP_WDT_STAGE m = 1) ∧
      (rd s F.KEEP_WDT_STAGE m = 1 → After (exec (.watchdogStage m) s) crashed)) ∧
    (∀ m, m < 8 → s.keep.boot.heldMcs = [] → After (exec (.keepSelftest [m]) s) fun t => t.keep.boot.heldMcs = [m] ∧
      (rd t F.KEEP_STATUS_MC_DOWN 0).testBit m = true ∧ rd t F.KEEP_CNT_SELFTEST_FAIL 0 =
        min (rd s F.KEEP_CNT_SELFTEST_FAIL 0 + 1) (2 ^ F.KEEP_CNT_SELFTEST_FAIL.width - 1)) ∧
    (∀ n, exec (.sramScrub n false) s = .next (bump s F.KEEP_CNT_SRAM_CORR 0 n) ∧ After (exec (.sramScrub n true) s) crashed) ∧
    (∀ cause, 1 ≤ cause → cause ≤ 3 → After (exec (.keepRestart cause) s) crashed) ∧
    (bootPhase s = phKeepRestart → ((s.keep.boot.planned = true ∧ s.keep.boot.rerun = []) ∨ (s.keep.boot.planned = false ∧ s.pwr.rails = false)) →
      After (exec .keepRestartComplete s) fun t => bootPhase t = phReady ∧ t.keep.boot.heldMcs = [] ∧ t.keep.mctp.deferred = []) ∧
    (∀ a, isOperator s a = true → mayRestart s = true →
      (regionsBusy s = false → After (exec (.restartKeepOnly a) s) fun t => t.keep.boot.kind = .keepOnly ∧ t.keep.boot.planned = true ∧
        t.keep.sessions = s.keep.sessions) ∧
      (regionsBusy s = true → exec (.restartKeepOnly a) s = .next (wr s F.BOOT_RESTART_STATUS 0 stFrozen)) ∧
      (pairingForbids s = false →
        (After (exec (.restartWarm a) s) fun t => t.keep.boot.kind = .warm ∧ bootPhase t = phKeep ∧ t.cores = [] ∧ t.keep.sessions = []) ∧
        (After (exec (.restartCold a) s) fun t => t.keep.boot.kind = .cold ∧ bootPhase t = phKeep ∧ t.strm = StreamSt.initial ∧ t.keep.sessions = [])) ∧
      (pairingForbids s = true → exec (.restartWarm a) s = .next (wr s F.BOOT_RESTART_STATUS 0 stFrozen) ∧
        exec (.restartCold a) s = .next (wr s F.BOOT_RESTART_STATUS 0 stFrozen)))

/-- R454, R491–R503, R512, R516, R528: each phase of a start, with what it needs, leads to the next, KEEP, IDENTITY, MANIFEST, SETTINGS, RAILS, CELLAR,
FIELDS, JOURNAL after a warm start, PLANS and READY; without flash the recovery ROM takes over and without a map the start halts. AUX12's rise and
the busbar's return begin a cold start; a trial that does not reach READY falls back. -/
def Obligations.StartPhasesFollow : Prop :=
  ∀ (s : State),
    (∀ m : PhaseResult,
      (bootPhase s = phKeep → ((m.flash0 = true ∨ m.flash1 = true) → After (exec (.startPhaseComplete m) s) fun t => bootPhase t = phIdentity ∧
          t.keep.boot.fl0 = m.flash0 ∧ t.keep.boot.fl1 = m.flash1) ∧
        (m.flash0 = false → m.flash1 = false → After (exec (.startPhaseComplete m) s) fun t => bootPhase t = phRecovery ∧
          rd t F.BOOT_STATUS_CAUSE 0 = 4)) ∧
      (bootPhase s = phIdentity → m.pufOk = true → m.identityOk = true → After (exec (.startPhaseComplete m) s) fun t => bootPhase t = phManifest ∧
        bootCount t = (bootCount s + 1) % 2 ^ F.BOOT_COUNT_COUNT.width) ∧
      (bootPhase s = phManifest → m.recordOk = true → s.keep.boot.record ≠ none → m.activeOk = true → slotMayRun s (bootRecord s).active = true →
        After (exec (.startPhaseComplete m) s) fun t => bootPhase t = phSettings ∧ t.keep.boot.running = (bootRecord s).active) ∧
      (bootPhase s = phSettings → ((m.mapOkFirst = true ∨ m.mapOkSecond = true) → After (exec (.startPhaseComplete m) s) fun t => bootPhase t = phRails) ∧
        (m.mapOkFirst = false → m.mapOkSecond = false → After (exec (.startPhaseComplete m) s) fun t => bootPhase t = phHalted ∧
          rd t F.BOOT_STATUS_CAUSE 0 = 3)) ∧
      (bootPhase s = phRails → (s.pwr.present = true → s.pwr.clamped = true → m.railsReady = true → s.thm.limit = false →
          After (exec (.startPhaseComplete m) s) fun t => bootPhase t = phCellar ∧ t.pwr.rails = true ∧ t.pwr.rims = [0, 1, 2, 3] ∧
            t.clk.gated = false) ∧
        (s.pwr.clamped = false → exec (.startPhaseComplete m) s = .next s)) ∧
      (bootPhase s = phCellar → After (exec (.startPhaseComplete m) s) fun t => bootPhase t = phFields ∧
        rd t F.KEEP_ID_STACK_GIB 0 = m.stackGib.toNat) ∧
      (bootPhase s = phFields → s.thm.stopped = false → s.keep.boot.startList = [] → After (exec (.startPhaseComplete m) s) fun t =>
        bootPhase t = if s.keep.boot.kind = .warm then phJournal else phPlans) ∧
      (bootPhase s = phJournal → s.keep.boot.startList = [] → After (exec (.startPhaseComplete m) s) fun t => bootPhase t = phPlans ∧
        t.twin.marker = false ∧ t.strm.journal.next = 1 ∧ t.strm.journal.ring = []) ∧
      (bootPhase s = phPlans → plansBusy s = false → After (exec (.startPhaseComplete m) s) fun t => bootPhase t = phReady)) ∧
    (After (exec .aux12Rise s) fun t => t.keep.boot.kind = .cold ∧ bootPhase t = phKeep ∧ t.clk.hall = 0 ∧ t.events = [] ∧ t.cores = [] ∧
      t.keep.sessions = []) ∧
    (s.pwr.rails = false → bootPhase s = phReady → After (exec .busbarReturn s) fun t => t.keep.boot.kind = .cold ∧ bootPhase t = phKeep) ∧
    (∀ low, exec (.spirePresence low) s = .next { s with pwr := { s.pwr with present := low } }) ∧
    (∀ a b, bootPhase s = phRecovery → rd s F.BOOT_STATUS_CAUSE 0 = 4 → s.keep.boot.fl0 = false → s.keep.boot.fl1 = false → (a = true ∨ b = true) →
      After (exec (.flashDiscoveryRetry a b) s) fun t => t.keep.boot.fl0 = a ∧ t.keep.boot.fl1 = b ∧ rd t F.SEC_STATUS_IDENTITY 0 = 1) ∧
    (∀ n, (bootRecord s).trial = true → (bootRecord s).fallback = some n → bootPhase s ≠ phReady → After (exec .readyWaitExpiry s) fun t =>
      (bootRecord t).active = n ∧ (bootRecord t).trial = false ∧ (bootRecord t).fallback = none)

/-- R510–R512, R517: updates by an operator session, with the firmware running and no sag lock. BEGIN opens an empty slot for a signed manifest; DATA
and FETCH program pieces that fit; END verifies the slot, ABORT empties it; ACTIVATE makes it ACTIVE on trial with the old one as fall-back;
CONFIRM ends the trial and raises the minimum SVN; ROLLBACK makes the old slot ACTIVE again. -/
def Obligations.UpdatesGoThroughATrial : Prop :=
  ∀ (s : State) (q r : Req) (x : Session), x.key = 0 → bootPhase s ≠ phRecovery → sagLocked s = false →
    let n := stagingSlot s
    let old := slotImg s n
    let may (cmd : Nat) : Prop := Admitted s q cmd r (some x)
    let fits (i off len : Nat) : Prop := updState s = updStaging ∧ i < compCount old.manifest ∧ off + len ≤ compLength old.manifest i
    (may 0x0200 → updState s ≠ updStaging → updState s ≠ updTrial → Config.manifestSigOk r.body = true → svnOk s r.body = true →
      slotPresent s n = true → After (exec (.updateBegin q) s) fun t => slotImg t n = ⟨r.body, [], false⟩ ∧ updState t = updStaging ∧
        Answered t r stOk []) ∧
    (may 0x0201 → 8 ≤ r.body.length → r.body.length ≤ 4008 → fits (numAt r.body 0 4) (numAt r.body 4 4) (r.body.length - 8) →
      After (exec (.updateData q) s) fun t => Answered t r stOk [] ∧
        slotImg t n = { old with chunks := (numAt r.body 0 4, numAt r.body 4 4, r.body.drop 8) :: old.chunks }) ∧
    (∀ b, may 0x0202 → fits (numAt r.body 0 4) 0 b.length → After (exec (.updateFetch q (some b)) s) fun t => Answered t r stOk [] ∧
      slotImg t n = { old with chunks := (numAt r.body 0 4, 0, b) :: old.chunks }) ∧
    (may 0x0203 → updState s = updStaging → svnOk s old.manifest = true → digestsOk old = true → After (exec (.updateEnd q) s) fun t =>
      slotImg t n = { old with verified := true } ∧ updState t = updStaged ∧ Answered t r stOk []) ∧
    (may 0x0204 → (updState s = updStaging ∨ updState s = updStaged) → After (exec (.updateAbort q) s) fun t =>
      slotImg t n = { old with chunks := [], verified := false } ∧ updState t = updIdle ∧ Answered t r stOk []) ∧
    (may 0x0205 → updState s = updStaged → mayRestart s = true → regionsBusy s = false → pairingForbids s = false →
      After (exec (.activate q) s) fun t => (bootRecord t).active = 1 - (bootRecord s).active ∧ (bootRecord t).fallback = some (bootRecord s).active ∧
        (bootRecord t).trial = true ∧ (t.keep.boot.kind = .keepOnly ∨ t.keep.boot.kind = .warm) ∧ t.keep.boot.trialKind = t.keep.boot.kind) ∧
    ((bootRecord s).trial = true →
      (may 0x0206 → updState s = updTrial → After (exec (.updateConfirm q) s) fun t => (bootRecord t).trial = false ∧ updState t = updIdle ∧
        (bootRecord t).minSvn = Config.manifestField (slotImg s (bootRecord s).active).manifest 0 ∧ Answered t r stOk []) ∧
      (∀ k, may 0x0207 → (bootRecord s).fallback = some k → After (exec (.rollback q) s) fun t => (bootRecord t).active = k ∧
        (bootRecord t).trial = false ∧ Answered t r stOk []))

/-! ## Management messages -/

/-- R352, R509: on a port whose link is up each message of the table is answered to its endpoint: MCTP control at any time, SPDM where its responder is
there and PLDM while the Keep does not restart; during a Keep restart both wait. -/
def Obligations.ManagementAnswers : Prop :=
  ∀ (s : State) (m : MctpMsg), (pcieOf s m.port).up = true →
    let ans (n : Nat) (body : List Byte) (t : State) : Prop := t.keep.mctp.answers = ⟨m.port, m.eid, n, body⟩ :: s.keep.mctp.answers
    let d := mctpHash s m.port Config.certChain
    let spdm : List (Instr × Nat × List Byte) :=
      [(.getVersion m, 5, [1, 2]), (.getCapabilities m, 6, [5, 6, 7, 8, 9, 10, 11]), (.getDigests m, 8, d),
       (.getCertificate m, 9, if argAt m 0 = 0 then (Config.certChain.drop (numAt m.body 1 2)).take (numAt m.body 3 2) else []),
       (.spdmChallenge m, 10, if argAt m 0 = 0 then d ++ identitySign (m.body ++ d) else []),
       (.getMeasurements m, 11, let b := (if argAt m 0 = 0xFF then (List.range 10).map (· + 1) else [argAt m 0]).flatMap (measurement s m.port)
          b ++ identitySign (m.body ++ b))]
    let pldm : List (Instr × Nat × List Byte) :=
      [(.getTid m, 12, Config.mctpValue 12 []), (.getPldmVersion m, 13, Config.mctpValue 13 m.body), (.getPldmTypes m, 14, [0, 1]),
       (.getPldmCommands m, 15, if argAt m 0 = 0 then [12, 13, 14, 15] else [16, 17, 18, 19, 20]),
       (.getPdrRepositoryInfo m, 16, Config.mctpValue 16 []), (.getPdr m, 17, Config.mctpValue 17 m.body),
       (.getSensorReading m, 18, sensorValue s (numAt m.body 0 2)),
       (.getStateSensorReadings m, 19, if numAt m.body 0 2 < 16 then bytesOf 1 (rd s F.CHAN_VAL_STATE (numAt m.body 0 2)) else [])]
    (∀ e ∈ [(Instr.getEndpointId m, 1, bytesOf 1 (tget s.keep.mctp.eids m.port 0)), (.getEndpointUuid m, 2, Config.mctpValue 2 []),
        (.getMctpVersionSupport m, 3, Config.mctpValue 3 m.body), (.getMessageTypeSupport m, 4, [0, 1, 2])],
      After (exec e.1 s) (ans e.2.1 e.2.2)) ∧
    (After (exec (.setEndpointId m) s) fun t => ans 0 (bytesOf 1 (argAt m 0)) t ∧ tget t.keep.mctp.eids m.port 0 = argAt m 0) ∧
    (argAt m 0 = 0 → After (exec (.unsupportedMessage m) s) (ans 21 (bytesOf 1 0))) ∧
    (bootPhase s ≠ phKeepRestart →
      (∀ e ∈ pldm, After (exec e.1 s) (ans e.2.1 e.2.2)) ∧
      (After (exec (.setEventReceiver m) s) fun t => ans 20 [] t ∧ t.keep.mctp.receiver = some (m.port, argAt m 0)) ∧
      (spdmHere s = true → (∀ e ∈ spdm, After (exec e.1 s) (ans e.2.1 e.2.2)) ∧
        ∀ h : BitVec 8, h.toNat ≤ 1 → m.body = [h] → After (exec (.negotiateAlgorithms m) s) fun t => ans 7 (bytesOf 1 h.toNat) t ∧
          tget t.keep.mctp.hashes m.port 0 = h.toNat)) ∧
    (bootPhase s = phKeepRestart → ∀ e ∈ spdm ++ pldm, After (exec e.1 s) fun t =>
      t.keep.mctp.deferred = s.keep.mctp.deferred ++ [(e.2.1, m)] ∧ t.keep.mctp.answers = s.keep.mctp.answers)


/-! ## The machine as a whole -/

/-- A step takes the command at the front of the queue and is its effect on the state with the queue's rest; with no command waiting one cycle of the
arithmetic clock passes. The queue and the idle step are the model's choice (assumption 1). -/
def Obligations.StepRunsFrontCommand : Prop :=
  (∀ (c : Instr) (s : State) (rest : List Instr), step { s with pending := c :: rest } = exec c { s with pending := rest }) ∧
    ∀ s : State, step { s with pending := [] } = .next (idleCycle { s with pending := [] })

/-- R18 with the reset columns of the register tables: after reset every register reads its table's value in each of its instances, but for tenant
0's limits and the root's descriptor, whose own reset values the tables give; and nothing is staged, logged, sent or at work. The arithmetic clock is gated and
the cores are blank, their scratchpads in canonical form (the latter two by the model's choice, assumptions 5 and 56). -/
def Obligations.ResetState : Prop :=
  (∀ g ∈ F.allRegs, ∀ f ∈ g.fields, ∀ i, i < g.count → (f.base = 0x10501000 ∨ f.base = 0x10501008 ∨ f.base = 0x10510000 → 0 < i) →
    rd State.reset f i = getF f (BitVec.ofNat 64 f.regRst)) ∧
  rd State.reset F.REG_TENANT_LIM_A_CORES 0 = 0x3FFF ∧ rd State.reset F.REG_TENANT_LIM_A_SLOTS 0 = 0x3FFFF ∧
  rd State.reset F.REG_TENANT_LIM_B_PAGES 0 = 0x3FFFFFF ∧ rd State.reset F.REG_TENANT_LIM_B_FABRIC 0 = 0xFF ∧
  rd State.reset F.REG_DESC0_KIND 0 = 2 ∧
  State.reset.shadow = [] ∧ State.reset.captured = [] ∧ State.reset.events = [] ∧ State.reset.pending = [] ∧ clocked State.reset = false ∧
  ∀ c, coreOf State.reset c = blankCore ∧ rowsWf (coreOf State.reset c).rows = true

/-- R118, R119 and the formats of the four slots: the decoder of a slot reads back every instruction that the encoder writes, with every value of every
field, reserved bits among them. -/
def Obligations.SlotWordsRoundTrip : Prop :=
  ∀ (i : Instr) (sl : Slot) (w : BitVec 64), encodeSlot i = some (sl, w) → ∃ c, decodeSlot c sl w = some i

/-- R86, R91, R129, R130: in every core the scratchpad's table keeps its canonical form and at most four calls and four loops are open. The four calls
and loops are kept by every instruction of a core, by every part of a core's cycle, and by a whole cycle that passes with no command waiting. -/
def Obligations.CoresStayCanonical : Prop :=
  let ok (s : State) : Prop := ∀ c, rowsWf (coreOf s c).rows = true ∧ (coreOf s c).seq.calls.length ≤ 4 ∧ (coreOf s c).seq.loops.length ≤ 4
  ∀ (s t : State), ok s → step s = .next t →
    (s.pending = [] ∨ ∃ i rest, s.pending = i :: rest ∧
      ((∃ c sl w, decodeSlot c sl w = some i) ∨
        ∃ c l, i ∈ [.resultLanding c, .routerForward c l, .ingressWrite c, .heldEntryLand c, .egressRead c])) →
    ok t

/-- R33: a command stops the machine only where it names a core that the logical array does not have; a well-formed command never does. -/
def Obligations.OnlyMissingCoresStop : Prop :=
  ∀ (i : Instr) (s : State),
    (wellFormed i = true → After (exec i s) fun _ => True) ∧
    ((∃ t, exec i s = .next t) ∨ ∃ c, nCores ≤ c ∧ exec i s = .fault (.noSuchCore c))

/-! ## What commands leave alone -/

/-- R114, R120–R122, R145: the issue of a slot, accepted or not, changes one core: its sequencer, what it has in flight, the bundle in progress, its
heartbeat, TSKIP and the fault flag. Its register files, scratchpad, inbox and router stay as they are until results land, and so do all other cores;
the only register that can change is that core's CORE_FAULT. -/
def Obligations.CoreCommandsFrame : Prop :=
  ∀ (s t : State) (c : Nat) (sl : Slot) (w : BitVec 64) (i : Instr), decodeSlot c sl w = some i → exec i s = .next t →
    t = { s with regs := t.regs, cores := t.cores } ∧
    (∀ d, d ≠ c → coreOf t d = coreOf s d) ∧
    (∀ k, k ≠ fkey F.CORE_FAULT_VALID c → tget? t.regs k = tget? s.regs k) ∧
    coreOf t c = { coreOf s c with
      seq := (coreOf t c).seq, done := (coreOf t c).done, beat := (coreOf t c).beat, faulted := (coreOf t c).faulted,
      pend := (coreOf t c).pend, ops := (coreOf t c).ops, bundle := (coreOf t c).bundle, lastMsend := (coreOf t c).lastMsend,
      taster := (coreOf t c).taster }

/-- R43, R429–R460, R463, R470–R515: what the commands of the management side leave alone. Protocol answers change the Keep alone; mailbox commands the Keep, the
Belfry and the log; Belfry commands the Belfry; power, clock and cooling commands their own blocks. Scratchpads, streams and the fabric stay as
they are under all of them. -/
def Obligations.ManagementFrames : Prop :=
  ∀ (s t : State) (a : Agent) (q : Req) (x y n : Nat) (b d : Bool) (img : Option (List Byte)) (h : BitVec 32) (m : MctpMsg)
    (pm : PmbusReading) (tr : TempReading) (cs : List ChanSample),
    (∀ i ∈ [Instr.challengeLockoutExpiry x, .setEndpointId m, .getEndpointId m, .getEndpointUuid m, .getMctpVersionSupport m,
        .getMessageTypeSupport m, .getVersion m, .getCapabilities m, .negotiateAlgorithms m, .getDigests m, .getCertificate m, .spdmChallenge m,
        .getMeasurements m, .getTid m, .getPldmVersion m, .getPldmTypes m, .getPldmCommands m, .getPdrRepositoryInfo m, .getPdr m,
        .getSensorReading m, .getStateSensorReadings m, .setEventReceiver m, .unsupportedMessage m],
      exec i s = .next t → t = { s with keep := t.keep, freeCtr := t.freeCtr }) ∧
    (∀ i ∈ [Instr.mboxGo x, .ping q, .info q, .eventRead q, .belfryClaim a, .sessionChallenge q, .sessionOpen q, .sessionClose q, .sessionSelect q,
        .sessionExpiry h, .keySet q, .keyRevoke q, .keyInit q, .ownerKeySet q, .identity q, .settingsSave q, .defectMapRestore q, .updateBegin q,
        .updateData q, .updateFetch q img, .updateAbort q, .updateConfirm q, .flashDiscoveryRetry b d, .mgmtLinkChange b],
      exec i s = .next t → OnlyBlocks [0x100, 0x101, 0x102, 0x103] s t ∧
        t = { s with regs := t.regs, bel := t.bel, pcie := t.pcie, keep := t.keep, events := t.events, alarmFlash := t.alarmFlash,
                     alarmsDeferred := t.alarmsDeferred, freeCtr := t.freeCtr }) ∧
    (∀ i ∈ [Instr.pmbAlert, .sourceEvent x, .coalesceTimeout x, .belfryComplete a x, .belfryForce a x, .belfryClockStop, .belfryClockRestart],
      exec i s = .next t → OnlyBlocks [0x101] s t ∧ t = { s with regs := t.regs, bel := t.bel, pcie := t.pcie }) ∧
    (∀ i ∈ [Instr.droopMarginExpiry x, .capEvaluation, .admitWaitExpiry, .clampSenseClosed, .spirePresence b, .stepRaiseSettle, .throttleStepUp,
        .cycleLogWrite, .pmbusPoll pm, .droopCrit x y, .calibrationReplace x y n, .hibernate x, .wake x, .vminRst, .clockReturn, .clearFallback a,
        .pllRelock x, .refclkRestore],
      exec i s = .next t → OnlyBlocks [0x104, 0x109] s t ∧ t = { s with regs := t.regs, clk := t.clk, pwr := t.pwr, thm := t.thm }) ∧
    (∀ i ∈ [Instr.buttressFail x y, .droopWarn x y, .spireFault, .throttleStepDown, .sagLock],
      exec i s = .next t → OnlyBlocks [0x100, 0x101, 0x109, 0x10A] s t ∧
        t = { s with regs := t.regs, clk := t.clk, pwr := t.pwr, bel := t.bel, pcie := t.pcie, events := t.events, alarmFlash := t.alarmFlash,
                     alarmsDeferred := t.alarmsDeferred }) ∧
    (∀ i ∈ [Instr.thermalCycleCount, .flowRestored, .valvePumpControl, .flowEvaluation, .channelSample cs, .tempRead tr, .dewAlarm],
      exec i s = .next t → OnlyBlocks [0x100, 0x101, 0x109, 0x10A, 0x10B] s t ∧
        t = { s with regs := t.regs, pwr := t.pwr, thm := t.thm, bel := t.bel, pcie := t.pcie, events := t.events, alarmFlash := t.alarmFlash,
                     alarmsDeferred := t.alarmsDeferred, freeCtr := t.freeCtr })

/-- R205, R211–R214, R235, R300–R320, R377–R411: what the commands of the store, the streams, the fabric, the twins and the lanterns leave alone. A Ledger
command, a pairing message and a journal record leave the regions' units and the store as they are, the ports' and neighbours' commands the
streams and the cores too, and the management side's sessions and keys stay under all of them. -/
def Obligations.DataPathFrames : Prop :=
  ∀ (s t : State) (a : Agent) (x y r : Nat) (b : Bool) (v : Word) (img : Option (List Byte)) (bytes : List Byte) (h : BitVec 32)
    (ws : List NetWord) (lh : LoadHdr) (g : GFrame) (hb : Hb) (sm : Summary) (hm : HelloMsg) (pm : PtpMsg)
    (om : OfferMsg) (km : KeyxMsg) (fm : FenceMsg) (am : AckMsg) (nm : NakMsg) (js : List JRec) (ip : BitVec 128) (mac : BitVec 48) (why : DropCause)
    (logits : List (List (BitVec 32))) (pauses : List (Nat × Nat)) (finds : List ScrubFind) (dst : BitVec 16)
    (drafts copies : List Nat),
    (∀ i ∈ [Instr.hbShort hb, .hbLong hb, .lanternSummaryDeadline x], exec i s = .next t → t = { s with net := t.net }) ∧
    (∀ i ∈ [Instr.heartbeatMiss x, .coreStatusTimeout x],
      exec i s = .next t → OnlyBlocks [0x100, 0x101, 0x105, 0x200] s t ∧
        t = { s with regs := t.regs, net := t.net, ctlSent := t.ctlSent, units := t.units, bel := t.bel, pcie := t.pcie, events := t.events,
                     alarmFlash := t.alarmFlash, alarmsDeferred := t.alarmsDeferred }) ∧
    (exec (.summary sm) s = .next t → OnlyBlocks [0x100, 0x101, 0x105, 0x107, 0x108, 0x200] s t ∧
        t = { s with regs := t.regs, net := t.net, ctlSent := t.ctlSent, units := t.units, store := t.store, strm := t.strm, twin := t.twin,
                     bel := t.bel, pcie := t.pcie, events := t.events, alarmFlash := t.alarmFlash, alarmsDeferred := t.alarmsDeferred }) ∧
    (∀ i ∈ [Instr.regionRun a r, .regionStop a r, .unitMboxWrite a r v, .unitMboxRead a r],
      exec i s = .next t → OnlyBlocks [0x100, 0x101, 0x105] s t ∧
        t = { s with regs := t.regs, units := t.units, net := t.net, ctlSent := t.ctlSent, keep := t.keep, bel := t.bel, pcie := t.pcie,
                     events := t.events, alarmFlash := t.alarmFlash, alarmsDeferred := t.alarmsDeferred }) ∧
    (∀ i ∈ [Instr.loadCode x lh ws b, .loadRoute x lh ws b, .loadRows x lh ws b, .loadEnd x lh b, .sweepComplete x],
      exec i s = .next t → OnlyBlocks [0x100, 0x101, 0x105, 0x106, 0x200] s t ∧
        t = { s with regs := t.regs, shadow := t.shadow, cores := t.cores, units := t.units, store := t.store, strm := t.strm, net := t.net,
                     bel := t.bel, pcie := t.pcie, events := t.events, alarmFlash := t.alarmFlash, alarmsDeferred := t.alarmsDeferred }) ∧
    (∀ i ∈ [Instr.storeHost a img, .fetchHall a, .imageArrival bytes, .caskDelete a, .caskVerify a b, .caskScrub finds copies, .rackFlip a b, .rackAbort a],
      exec i s = .next t → OnlyBlocks [0x100, 0x101, 0x106, 0x10C] s t ∧
        t = { s with regs := t.regs, cores := t.cores, units := t.units, store := t.store, fab := t.fab, bel := t.bel, pcie := t.pcie,
                     events := t.events, alarmFlash := t.alarmFlash, alarmsDeferred := t.alarmsDeferred }) ∧
    (∀ i ∈ [Instr.ledgerNop x, .openStream x, .append x, .generate x, .fork x, .park x, .resume x, .query x, .sampleToken h logits drafts, .seating h,
        .unseat h, .sealCellarWrite h x y, .spill, .reprefill h, .reclaim a x],
      exec i s = .next t → OnlyBlocks [0x100, 0x101, 0x105, 0x107, 0x10C] s t ∧
        t = { s with regs := t.regs, cores := t.cores, strm := t.strm, fab := t.fab, bel := t.bel, pcie := t.pcie, events := t.events,
                     alarmFlash := t.alarmFlash, alarmsDeferred := t.alarmsDeferred, freeCtr := t.freeCtr }) ∧
    (∀ i ∈ [Instr.nak nm, .rtoExpiry x, .messageTimeout x, .readResp g],
      exec i s = .next t → OnlyBlocks [0x100, 0x101, 0x105, 0x106, 0x107, 0x10C] s t ∧
        t = { s with regs := t.regs, cores := t.cores, units := t.units, store := t.store, strm := t.strm, fab := t.fab, bel := t.bel,
                     pcie := t.pcie, events := t.events, alarmFlash := t.alarmFlash, alarmsDeferred := t.alarmsDeferred }) ∧
    (∀ i ∈ [Instr.ack am, .gorlaWrite g, .readReq g, .ackTimer dst, .flr x, .pcieLinkDown x b, .perst x],
      exec i s = .next t → OnlyBlocks [0x100, 0x101, 0x107, 0x108, 0x10C] s t ∧
        t = { s with regs := t.regs, strm := t.strm, twin := t.twin, fab := t.fab, bel := t.bel, pcie := t.pcie, events := t.events,
                     alarmFlash := t.alarmFlash, alarmsDeferred := t.alarmsDeferred, freeCtr := t.freeCtr }) ∧
    (∀ i ∈ [Instr.helloTimer, .reorderWaitExpiry x, .pathProbe x, .hello hm, .neighborSolicitation x ip, .echoRequest x ip,
        .neighborAdvertisement x ip mac, .pfcFrame x pauses, .portModeChange x, .discardedFrame x why, .holdoverExpiry, .ptpParentLoss, .ptpMessage pm,
        .portLinkUp x, .portLinkDown x],
      exec i s = .next t → OnlyBlocks [0x100, 0x101, 0x108, 0x10C] s t ∧
        t = { s with regs := t.regs, fab := t.fab, clk := t.clk, bel := t.bel, pcie := t.pcie, events := t.events, alarmFlash := t.alarmFlash,
                     alarmsDeferred := t.alarmsDeferred }) ∧
    (∀ i ∈ [Instr.keyx km, .pairEnClear, .handover],
      exec i s = .next t → OnlyBlocks [0x100, 0x101, 0x105, 0x107, 0x108, 0x10C] s t ∧
        t = { s with regs := t.regs, twin := t.twin, strm := t.strm, fab := t.fab, bel := t.bel, pcie := t.pcie, events := t.events,
                     alarmFlash := t.alarmFlash, alarmsDeferred := t.alarmsDeferred, freeCtr := t.freeCtr }) ∧
    (∀ i ∈ [Instr.pairEnSet, .offerTimer, .offer om, .syncComplete, .twinHeartbeatTimer, .fenceResend, .fenceConfirm a,
        .fenceWaitExpiry, .fenceAck fm],
      exec i s = .next t → OnlyBlocks [0x100, 0x101, 0x105, 0x107, 0x108, 0x10C] s t ∧
        t = { s with regs := t.regs, twin := t.twin, strm := t.strm, bel := t.bel, pcie := t.pcie, events := t.events,
                     alarmFlash := t.alarmFlash, alarmsDeferred := t.alarmsDeferred, freeCtr := t.freeCtr }) ∧
    (exec (.journal js) s = .next t → OnlyBlocks [0x100, 0x101, 0x105, 0x107, 0x108, 0x10C] s t ∧
        t = { s with regs := t.regs, twin := t.twin, strm := t.strm, cores := t.cores, fab := t.fab, bel := t.bel, pcie := t.pcie,
                     events := t.events, alarmFlash := t.alarmFlash, alarmsDeferred := t.alarmsDeferred, freeCtr := t.freeCtr })
end

