-- ==== Sys2Proof/Laws/State.lean ====
section
/-! SUPPORT. What each named update of State leaves and what it sets, one lemma per field, true by unfolding: no later proof opens a record
update. -/

namespace Sys2Proof.Machine

/-! ## wr -/

@[simp] theorem wr_regs (s : State) (f : Field) (i v : Nat) : (wr s f i v).regs = tset s.regs (fkey f i) (putF f (regWord s f i) v) := rfl
@[simp] theorem wr_shadow (s : State) (f : Field) (i v : Nat) : (wr s f i v).shadow = s.shadow := rfl
@[simp] theorem wr_captured (s : State) (f : Field) (i v : Nat) : (wr s f i v).captured = s.captured := rfl
@[simp] theorem wr_clk (s : State) (f : Field) (i v : Nat) : (wr s f i v).clk = s.clk := rfl
@[simp] theorem wr_cores (s : State) (f : Field) (i v : Nat) : (wr s f i v).cores = s.cores := rfl
@[simp] theorem wr_events (s : State) (f : Field) (i v : Nat) : (wr s f i v).events = s.events := rfl
@[simp] theorem wr_alarmFlash (s : State) (f : Field) (i v : Nat) : (wr s f i v).alarmFlash = s.alarmFlash := rfl
@[simp] theorem wr_alarmsDeferred (s : State) (f : Field) (i v : Nat) : (wr s f i v).alarmsDeferred = s.alarmsDeferred := rfl
@[simp] theorem wr_bel (s : State) (f : Field) (i v : Nat) : (wr s f i v).bel = s.bel := rfl
@[simp] theorem wr_pcie (s : State) (f : Field) (i v : Nat) : (wr s f i v).pcie = s.pcie := rfl
@[simp] theorem wr_bifurcated (s : State) (f : Field) (i v : Nat) : (wr s f i v).bifurcated = s.bifurcated := rfl
@[simp] theorem wr_keep (s : State) (f : Field) (i v : Nat) : (wr s f i v).keep = s.keep := rfl
@[simp] theorem wr_ctlSent (s : State) (f : Field) (i v : Nat) : (wr s f i v).ctlSent = s.ctlSent := rfl
@[simp] theorem wr_net (s : State) (f : Field) (i v : Nat) : (wr s f i v).net = s.net := rfl
@[simp] theorem wr_units (s : State) (f : Field) (i v : Nat) : (wr s f i v).units = s.units := rfl
@[simp] theorem wr_store (s : State) (f : Field) (i v : Nat) : (wr s f i v).store = s.store := rfl
@[simp] theorem wr_strm (s : State) (f : Field) (i v : Nat) : (wr s f i v).strm = s.strm := rfl
@[simp] theorem wr_twin (s : State) (f : Field) (i v : Nat) : (wr s f i v).twin = s.twin := rfl
@[simp] theorem wr_fab (s : State) (f : Field) (i v : Nat) : (wr s f i v).fab = s.fab := rfl
@[simp] theorem wr_pwr (s : State) (f : Field) (i v : Nat) : (wr s f i v).pwr = s.pwr := rfl
@[simp] theorem wr_thm (s : State) (f : Field) (i v : Nat) : (wr s f i v).thm = s.thm := rfl
@[simp] theorem wr_freeCtr (s : State) (f : Field) (i v : Nat) : (wr s f i v).freeCtr = s.freeCtr := rfl
@[simp] theorem wr_pending (s : State) (f : Field) (i v : Nat) : (wr s f i v).pending = s.pending := rfl

/-! ## bump -/

@[simp] theorem bump_shadow (s : State) (f : Field) (i n : Nat) : (bump s f i n).shadow = s.shadow := rfl
@[simp] theorem bump_captured (s : State) (f : Field) (i n : Nat) : (bump s f i n).captured = s.captured := rfl
@[simp] theorem bump_clk (s : State) (f : Field) (i n : Nat) : (bump s f i n).clk = s.clk := rfl
@[simp] theorem bump_cores (s : State) (f : Field) (i n : Nat) : (bump s f i n).cores = s.cores := rfl
@[simp] theorem bump_events (s : State) (f : Field) (i n : Nat) : (bump s f i n).events = s.events := rfl
@[simp] theorem bump_alarmFlash (s : State) (f : Field) (i n : Nat) : (bump s f i n).alarmFlash = s.alarmFlash := rfl
@[simp] theorem bump_alarmsDeferred (s : State) (f : Field) (i n : Nat) : (bump s f i n).alarmsDeferred = s.alarmsDeferred := rfl
@[simp] theorem bump_bel (s : State) (f : Field) (i n : Nat) : (bump s f i n).bel = s.bel := rfl
@[simp] theorem bump_pcie (s : State) (f : Field) (i n : Nat) : (bump s f i n).pcie = s.pcie := rfl
@[simp] theorem bump_bifurcated (s : State) (f : Field) (i n : Nat) : (bump s f i n).bifurcated = s.bifurcated := rfl
@[simp] theorem bump_keep (s : State) (f : Field) (i n : Nat) : (bump s f i n).keep = s.keep := rfl
@[simp] theorem bump_ctlSent (s : State) (f : Field) (i n : Nat) : (bump s f i n).ctlSent = s.ctlSent := rfl
@[simp] theorem bump_net (s : State) (f : Field) (i n : Nat) : (bump s f i n).net = s.net := rfl
@[simp] theorem bump_units (s : State) (f : Field) (i n : Nat) : (bump s f i n).units = s.units := rfl
@[simp] theorem bump_store (s : State) (f : Field) (i n : Nat) : (bump s f i n).store = s.store := rfl
@[simp] theorem bump_strm (s : State) (f : Field) (i n : Nat) : (bump s f i n).strm = s.strm := rfl
@[simp] theorem bump_twin (s : State) (f : Field) (i n : Nat) : (bump s f i n).twin = s.twin := rfl
@[simp] theorem bump_fab (s : State) (f : Field) (i n : Nat) : (bump s f i n).fab = s.fab := rfl
@[simp] theorem bump_pwr (s : State) (f : Field) (i n : Nat) : (bump s f i n).pwr = s.pwr := rfl
@[simp] theorem bump_thm (s : State) (f : Field) (i n : Nat) : (bump s f i n).thm = s.thm := rfl
@[simp] theorem bump_freeCtr (s : State) (f : Field) (i n : Nat) : (bump s f i n).freeCtr = s.freeCtr := rfl
@[simp] theorem bump_pending (s : State) (f : Field) (i n : Nat) : (bump s f i n).pending = s.pending := rfl

/-! ## setRegionState -/

@[simp] theorem setRegionState_shadow (s : State) (r st : Nat) : (setRegionState s r st).shadow = s.shadow := rfl
@[simp] theorem setRegionState_captured (s : State) (r st : Nat) : (setRegionState s r st).captured = s.captured := rfl
@[simp] theorem setRegionState_clk (s : State) (r st : Nat) : (setRegionState s r st).clk = s.clk := rfl
@[simp] theorem setRegionState_cores (s : State) (r st : Nat) : (setRegionState s r st).cores = s.cores := rfl
@[simp] theorem setRegionState_events (s : State) (r st : Nat) : (setRegionState s r st).events = s.events := rfl
@[simp] theorem setRegionState_alarmFlash (s : State) (r st : Nat) : (setRegionState s r st).alarmFlash = s.alarmFlash := rfl
@[simp] theorem setRegionState_alarmsDeferred (s : State) (r st : Nat) : (setRegionState s r st).alarmsDeferred = s.alarmsDeferred := rfl
@[simp] theorem setRegionState_bel (s : State) (r st : Nat) : (setRegionState s r st).bel = s.bel := rfl
@[simp] theorem setRegionState_pcie (s : State) (r st : Nat) : (setRegionState s r st).pcie = s.pcie := rfl
@[simp] theorem setRegionState_bifurcated (s : State) (r st : Nat) : (setRegionState s r st).bifurcated = s.bifurcated := rfl
@[simp] theorem setRegionState_keep (s : State) (r st : Nat) : (setRegionState s r st).keep = s.keep := rfl
@[simp] theorem setRegionState_ctlSent (s : State) (r st : Nat) : (setRegionState s r st).ctlSent = s.ctlSent := rfl
@[simp] theorem setRegionState_net (s : State) (r st : Nat) : (setRegionState s r st).net = s.net := rfl
@[simp] theorem setRegionState_units (s : State) (r st : Nat) : (setRegionState s r st).units = s.units := rfl
@[simp] theorem setRegionState_store (s : State) (r st : Nat) : (setRegionState s r st).store = s.store := rfl
@[simp] theorem setRegionState_strm (s : State) (r st : Nat) : (setRegionState s r st).strm = s.strm := rfl
@[simp] theorem setRegionState_twin (s : State) (r st : Nat) : (setRegionState s r st).twin = s.twin := rfl
@[simp] theorem setRegionState_fab (s : State) (r st : Nat) : (setRegionState s r st).fab = s.fab := rfl
@[simp] theorem setRegionState_pwr (s : State) (r st : Nat) : (setRegionState s r st).pwr = s.pwr := rfl
@[simp] theorem setRegionState_thm (s : State) (r st : Nat) : (setRegionState s r st).thm = s.thm := rfl
@[simp] theorem setRegionState_freeCtr (s : State) (r st : Nat) : (setRegionState s r st).freeCtr = s.freeCtr := rfl
@[simp] theorem setRegionState_pending (s : State) (r st : Nat) : (setRegionState s r st).pending = s.pending := rfl

/-! ## setCoreState -/

@[simp] theorem setCoreState_shadow (s : State) (c st : Nat) : (setCoreState s c st).shadow = s.shadow := rfl
@[simp] theorem setCoreState_captured (s : State) (c st : Nat) : (setCoreState s c st).captured = s.captured := rfl
@[simp] theorem setCoreState_clk (s : State) (c st : Nat) : (setCoreState s c st).clk = s.clk := rfl
@[simp] theorem setCoreState_cores (s : State) (c st : Nat) : (setCoreState s c st).cores = s.cores := rfl
@[simp] theorem setCoreState_events (s : State) (c st : Nat) : (setCoreState s c st).events = s.events := rfl
@[simp] theorem setCoreState_alarmFlash (s : State) (c st : Nat) : (setCoreState s c st).alarmFlash = s.alarmFlash := rfl
@[simp] theorem setCoreState_alarmsDeferred (s : State) (c st : Nat) : (setCoreState s c st).alarmsDeferred = s.alarmsDeferred := rfl
@[simp] theorem setCoreState_bel (s : State) (c st : Nat) : (setCoreState s c st).bel = s.bel := rfl
@[simp] theorem setCoreState_pcie (s : State) (c st : Nat) : (setCoreState s c st).pcie = s.pcie := rfl
@[simp] theorem setCoreState_bifurcated (s : State) (c st : Nat) : (setCoreState s c st).bifurcated = s.bifurcated := rfl
@[simp] theorem setCoreState_keep (s : State) (c st : Nat) : (setCoreState s c st).keep = s.keep := rfl
@[simp] theorem setCoreState_ctlSent (s : State) (c st : Nat) : (setCoreState s c st).ctlSent = s.ctlSent := rfl
@[simp] theorem setCoreState_net (s : State) (c st : Nat) : (setCoreState s c st).net = s.net := rfl
@[simp] theorem setCoreState_units (s : State) (c st : Nat) : (setCoreState s c st).units = s.units := rfl
@[simp] theorem setCoreState_store (s : State) (c st : Nat) : (setCoreState s c st).store = s.store := rfl
@[simp] theorem setCoreState_strm (s : State) (c st : Nat) : (setCoreState s c st).strm = s.strm := rfl
@[simp] theorem setCoreState_twin (s : State) (c st : Nat) : (setCoreState s c st).twin = s.twin := rfl
@[simp] theorem setCoreState_fab (s : State) (c st : Nat) : (setCoreState s c st).fab = s.fab := rfl
@[simp] theorem setCoreState_pwr (s : State) (c st : Nat) : (setCoreState s c st).pwr = s.pwr := rfl
@[simp] theorem setCoreState_thm (s : State) (c st : Nat) : (setCoreState s c st).thm = s.thm := rfl
@[simp] theorem setCoreState_freeCtr (s : State) (c st : Nat) : (setCoreState s c st).freeCtr = s.freeCtr := rfl
@[simp] theorem setCoreState_pending (s : State) (c st : Nat) : (setCoreState s c st).pending = s.pending := rfl

/-! ## setCore -/

@[simp] theorem setCore_regs (s : State) (c : Nat) (co : Core) : (setCore s c co).regs = s.regs := rfl
@[simp] theorem setCore_shadow (s : State) (c : Nat) (co : Core) : (setCore s c co).shadow = s.shadow := rfl
@[simp] theorem setCore_captured (s : State) (c : Nat) (co : Core) : (setCore s c co).captured = s.captured := rfl
@[simp] theorem setCore_clk (s : State) (c : Nat) (co : Core) : (setCore s c co).clk = s.clk := rfl
@[simp] theorem setCore_cores (s : State) (c : Nat) (co : Core) : (setCore s c co).cores = tset s.cores c co := rfl
@[simp] theorem setCore_events (s : State) (c : Nat) (co : Core) : (setCore s c co).events = s.events := rfl
@[simp] theorem setCore_alarmFlash (s : State) (c : Nat) (co : Core) : (setCore s c co).alarmFlash = s.alarmFlash := rfl
@[simp] theorem setCore_alarmsDeferred (s : State) (c : Nat) (co : Core) : (setCore s c co).alarmsDeferred = s.alarmsDeferred := rfl
@[simp] theorem setCore_bel (s : State) (c : Nat) (co : Core) : (setCore s c co).bel = s.bel := rfl
@[simp] theorem setCore_pcie (s : State) (c : Nat) (co : Core) : (setCore s c co).pcie = s.pcie := rfl
@[simp] theorem setCore_bifurcated (s : State) (c : Nat) (co : Core) : (setCore s c co).bifurcated = s.bifurcated := rfl
@[simp] theorem setCore_keep (s : State) (c : Nat) (co : Core) : (setCore s c co).keep = s.keep := rfl
@[simp] theorem setCore_ctlSent (s : State) (c : Nat) (co : Core) : (setCore s c co).ctlSent = s.ctlSent := rfl
@[simp] theorem setCore_net (s : State) (c : Nat) (co : Core) : (setCore s c co).net = s.net := rfl
@[simp] theorem setCore_units (s : State) (c : Nat) (co : Core) : (setCore s c co).units = s.units := rfl
@[simp] theorem setCore_store (s : State) (c : Nat) (co : Core) : (setCore s c co).store = s.store := rfl
@[simp] theorem setCore_strm (s : State) (c : Nat) (co : Core) : (setCore s c co).strm = s.strm := rfl
@[simp] theorem setCore_twin (s : State) (c : Nat) (co : Core) : (setCore s c co).twin = s.twin := rfl
@[simp] theorem setCore_fab (s : State) (c : Nat) (co : Core) : (setCore s c co).fab = s.fab := rfl
@[simp] theorem setCore_pwr (s : State) (c : Nat) (co : Core) : (setCore s c co).pwr = s.pwr := rfl
@[simp] theorem setCore_thm (s : State) (c : Nat) (co : Core) : (setCore s c co).thm = s.thm := rfl
@[simp] theorem setCore_freeCtr (s : State) (c : Nat) (co : Core) : (setCore s c co).freeCtr = s.freeCtr := rfl
@[simp] theorem setCore_pending (s : State) (c : Nat) (co : Core) : (setCore s c co).pending = s.pending := rfl

/-! ## modCore -/

@[simp] theorem modCore_regs (s : State) (c : Nat) (f : Core → Core) : (modCore s c f).regs = s.regs := rfl
@[simp] theorem modCore_shadow (s : State) (c : Nat) (f : Core → Core) : (modCore s c f).shadow = s.shadow := rfl
@[simp] theorem modCore_captured (s : State) (c : Nat) (f : Core → Core) : (modCore s c f).captured = s.captured := rfl
@[simp] theorem modCore_clk (s : State) (c : Nat) (f : Core → Core) : (modCore s c f).clk = s.clk := rfl
@[simp] theorem modCore_cores (s : State) (c : Nat) (f : Core → Core) : (modCore s c f).cores = tset s.cores c (f (coreOf s c)) := rfl
@[simp] theorem modCore_events (s : State) (c : Nat) (f : Core → Core) : (modCore s c f).events = s.events := rfl
@[simp] theorem modCore_alarmFlash (s : State) (c : Nat) (f : Core → Core) : (modCore s c f).alarmFlash = s.alarmFlash := rfl
@[simp] theorem modCore_alarmsDeferred (s : State) (c : Nat) (f : Core → Core) : (modCore s c f).alarmsDeferred = s.alarmsDeferred := rfl
@[simp] theorem modCore_bel (s : State) (c : Nat) (f : Core → Core) : (modCore s c f).bel = s.bel := rfl
@[simp] theorem modCore_pcie (s : State) (c : Nat) (f : Core → Core) : (modCore s c f).pcie = s.pcie := rfl
@[simp] theorem modCore_bifurcated (s : State) (c : Nat) (f : Core → Core) : (modCore s c f).bifurcated = s.bifurcated := rfl
@[simp] theorem modCore_keep (s : State) (c : Nat) (f : Core → Core) : (modCore s c f).keep = s.keep := rfl
@[simp] theorem modCore_ctlSent (s : State) (c : Nat) (f : Core → Core) : (modCore s c f).ctlSent = s.ctlSent := rfl
@[simp] theorem modCore_net (s : State) (c : Nat) (f : Core → Core) : (modCore s c f).net = s.net := rfl
@[simp] theorem modCore_units (s : State) (c : Nat) (f : Core → Core) : (modCore s c f).units = s.units := rfl
@[simp] theorem modCore_store (s : State) (c : Nat) (f : Core → Core) : (modCore s c f).store = s.store := rfl
@[simp] theorem modCore_strm (s : State) (c : Nat) (f : Core → Core) : (modCore s c f).strm = s.strm := rfl
@[simp] theorem modCore_twin (s : State) (c : Nat) (f : Core → Core) : (modCore s c f).twin = s.twin := rfl
@[simp] theorem modCore_fab (s : State) (c : Nat) (f : Core → Core) : (modCore s c f).fab = s.fab := rfl
@[simp] theorem modCore_pwr (s : State) (c : Nat) (f : Core → Core) : (modCore s c f).pwr = s.pwr := rfl
@[simp] theorem modCore_thm (s : State) (c : Nat) (f : Core → Core) : (modCore s c f).thm = s.thm := rfl
@[simp] theorem modCore_freeCtr (s : State) (c : Nat) (f : Core → Core) : (modCore s c f).freeCtr = s.freeCtr := rfl
@[simp] theorem modCore_pending (s : State) (c : Nat) (f : Core → Core) : (modCore s c f).pending = s.pending := rfl

/-! ## setUnit -/

@[simp] theorem setUnit_regs (s : State) (r : Nat) (x : Region) : (setUnit s r x).regs = s.regs := rfl
@[simp] theorem setUnit_shadow (s : State) (r : Nat) (x : Region) : (setUnit s r x).shadow = s.shadow := rfl
@[simp] theorem setUnit_captured (s : State) (r : Nat) (x : Region) : (setUnit s r x).captured = s.captured := rfl
@[simp] theorem setUnit_clk (s : State) (r : Nat) (x : Region) : (setUnit s r x).clk = s.clk := rfl
@[simp] theorem setUnit_cores (s : State) (r : Nat) (x : Region) : (setUnit s r x).cores = s.cores := rfl
@[simp] theorem setUnit_events (s : State) (r : Nat) (x : Region) : (setUnit s r x).events = s.events := rfl
@[simp] theorem setUnit_alarmFlash (s : State) (r : Nat) (x : Region) : (setUnit s r x).alarmFlash = s.alarmFlash := rfl
@[simp] theorem setUnit_alarmsDeferred (s : State) (r : Nat) (x : Region) : (setUnit s r x).alarmsDeferred = s.alarmsDeferred := rfl
@[simp] theorem setUnit_bel (s : State) (r : Nat) (x : Region) : (setUnit s r x).bel = s.bel := rfl
@[simp] theorem setUnit_pcie (s : State) (r : Nat) (x : Region) : (setUnit s r x).pcie = s.pcie := rfl
@[simp] theorem setUnit_bifurcated (s : State) (r : Nat) (x : Region) : (setUnit s r x).bifurcated = s.bifurcated := rfl
@[simp] theorem setUnit_keep (s : State) (r : Nat) (x : Region) : (setUnit s r x).keep = s.keep := rfl
@[simp] theorem setUnit_ctlSent (s : State) (r : Nat) (x : Region) : (setUnit s r x).ctlSent = s.ctlSent := rfl
@[simp] theorem setUnit_net (s : State) (r : Nat) (x : Region) : (setUnit s r x).net = s.net := rfl
@[simp] theorem setUnit_units (s : State) (r : Nat) (x : Region) : (setUnit s r x).units = tset s.units r x := rfl
@[simp] theorem setUnit_store (s : State) (r : Nat) (x : Region) : (setUnit s r x).store = s.store := rfl
@[simp] theorem setUnit_strm (s : State) (r : Nat) (x : Region) : (setUnit s r x).strm = s.strm := rfl
@[simp] theorem setUnit_twin (s : State) (r : Nat) (x : Region) : (setUnit s r x).twin = s.twin := rfl
@[simp] theorem setUnit_fab (s : State) (r : Nat) (x : Region) : (setUnit s r x).fab = s.fab := rfl
@[simp] theorem setUnit_pwr (s : State) (r : Nat) (x : Region) : (setUnit s r x).pwr = s.pwr := rfl
@[simp] theorem setUnit_thm (s : State) (r : Nat) (x : Region) : (setUnit s r x).thm = s.thm := rfl
@[simp] theorem setUnit_freeCtr (s : State) (r : Nat) (x : Region) : (setUnit s r x).freeCtr = s.freeCtr := rfl
@[simp] theorem setUnit_pending (s : State) (r : Nat) (x : Region) : (setUnit s r x).pending = s.pending := rfl

/-! ## modUnit -/

@[simp] theorem modUnit_regs (s : State) (r : Nat) (f : Region → Region) : (modUnit s r f).regs = s.regs := rfl
@[simp] theorem modUnit_shadow (s : State) (r : Nat) (f : Region → Region) : (modUnit s r f).shadow = s.shadow := rfl
@[simp] theorem modUnit_captured (s : State) (r : Nat) (f : Region → Region) : (modUnit s r f).captured = s.captured := rfl
@[simp] theorem modUnit_clk (s : State) (r : Nat) (f : Region → Region) : (modUnit s r f).clk = s.clk := rfl
@[simp] theorem modUnit_cores (s : State) (r : Nat) (f : Region → Region) : (modUnit s r f).cores = s.cores := rfl
@[simp] theorem modUnit_events (s : State) (r : Nat) (f : Region → Region) : (modUnit s r f).events = s.events := rfl
@[simp] theorem modUnit_alarmFlash (s : State) (r : Nat) (f : Region → Region) : (modUnit s r f).alarmFlash = s.alarmFlash := rfl
@[simp] theorem modUnit_alarmsDeferred (s : State) (r : Nat) (f : Region → Region) : (modUnit s r f).alarmsDeferred = s.alarmsDeferred := rfl
@[simp] theorem modUnit_bel (s : State) (r : Nat) (f : Region → Region) : (modUnit s r f).bel = s.bel := rfl
@[simp] theorem modUnit_pcie (s : State) (r : Nat) (f : Region → Region) : (modUnit s r f).pcie = s.pcie := rfl
@[simp] theorem modUnit_bifurcated (s : State) (r : Nat) (f : Region → Region) : (modUnit s r f).bifurcated = s.bifurcated := rfl
@[simp] theorem modUnit_keep (s : State) (r : Nat) (f : Region → Region) : (modUnit s r f).keep = s.keep := rfl
@[simp] theorem modUnit_ctlSent (s : State) (r : Nat) (f : Region → Region) : (modUnit s r f).ctlSent = s.ctlSent := rfl
@[simp] theorem modUnit_net (s : State) (r : Nat) (f : Region → Region) : (modUnit s r f).net = s.net := rfl
@[simp] theorem modUnit_units (s : State) (r : Nat) (f : Region → Region) : (modUnit s r f).units = tset s.units r (f (unitOf s r)) := rfl
@[simp] theorem modUnit_store (s : State) (r : Nat) (f : Region → Region) : (modUnit s r f).store = s.store := rfl
@[simp] theorem modUnit_strm (s : State) (r : Nat) (f : Region → Region) : (modUnit s r f).strm = s.strm := rfl
@[simp] theorem modUnit_twin (s : State) (r : Nat) (f : Region → Region) : (modUnit s r f).twin = s.twin := rfl
@[simp] theorem modUnit_fab (s : State) (r : Nat) (f : Region → Region) : (modUnit s r f).fab = s.fab := rfl
@[simp] theorem modUnit_pwr (s : State) (r : Nat) (f : Region → Region) : (modUnit s r f).pwr = s.pwr := rfl
@[simp] theorem modUnit_thm (s : State) (r : Nat) (f : Region → Region) : (modUnit s r f).thm = s.thm := rfl
@[simp] theorem modUnit_freeCtr (s : State) (r : Nat) (f : Region → Region) : (modUnit s r f).freeCtr = s.freeCtr := rfl
@[simp] theorem modUnit_pending (s : State) (r : Nat) (f : Region → Region) : (modUnit s r f).pending = s.pending := rfl

/-! ## stage -/

@[simp] theorem stage_regs (s : State) (f : Field) (i v : Nat) : (stage s f i v).regs = s.regs := rfl
@[simp] theorem stage_captured (s : State) (f : Field) (i v : Nat) : (stage s f i v).captured = s.captured := rfl
@[simp] theorem stage_clk (s : State) (f : Field) (i v : Nat) : (stage s f i v).clk = s.clk := rfl
@[simp] theorem stage_cores (s : State) (f : Field) (i v : Nat) : (stage s f i v).cores = s.cores := rfl
@[simp] theorem stage_events (s : State) (f : Field) (i v : Nat) : (stage s f i v).events = s.events := rfl
@[simp] theorem stage_alarmFlash (s : State) (f : Field) (i v : Nat) : (stage s f i v).alarmFlash = s.alarmFlash := rfl
@[simp] theorem stage_alarmsDeferred (s : State) (f : Field) (i v : Nat) : (stage s f i v).alarmsDeferred = s.alarmsDeferred := rfl
@[simp] theorem stage_bel (s : State) (f : Field) (i v : Nat) : (stage s f i v).bel = s.bel := rfl
@[simp] theorem stage_pcie (s : State) (f : Field) (i v : Nat) : (stage s f i v).pcie = s.pcie := rfl
@[simp] theorem stage_bifurcated (s : State) (f : Field) (i v : Nat) : (stage s f i v).bifurcated = s.bifurcated := rfl
@[simp] theorem stage_keep (s : State) (f : Field) (i v : Nat) : (stage s f i v).keep = s.keep := rfl
@[simp] theorem stage_ctlSent (s : State) (f : Field) (i v : Nat) : (stage s f i v).ctlSent = s.ctlSent := rfl
@[simp] theorem stage_net (s : State) (f : Field) (i v : Nat) : (stage s f i v).net = s.net := rfl
@[simp] theorem stage_units (s : State) (f : Field) (i v : Nat) : (stage s f i v).units = s.units := rfl
@[simp] theorem stage_store (s : State) (f : Field) (i v : Nat) : (stage s f i v).store = s.store := rfl
@[simp] theorem stage_strm (s : State) (f : Field) (i v : Nat) : (stage s f i v).strm = s.strm := rfl
@[simp] theorem stage_twin (s : State) (f : Field) (i v : Nat) : (stage s f i v).twin = s.twin := rfl
@[simp] theorem stage_fab (s : State) (f : Field) (i v : Nat) : (stage s f i v).fab = s.fab := rfl
@[simp] theorem stage_pwr (s : State) (f : Field) (i v : Nat) : (stage s f i v).pwr = s.pwr := rfl
@[simp] theorem stage_thm (s : State) (f : Field) (i v : Nat) : (stage s f i v).thm = s.thm := rfl
@[simp] theorem stage_freeCtr (s : State) (f : Field) (i v : Nat) : (stage s f i v).freeCtr = s.freeCtr := rfl
@[simp] theorem stage_pending (s : State) (f : Field) (i v : Nat) : (stage s f i v).pending = s.pending := rfl

/-! ## capture1 -/

@[simp] theorem capture1_regs (s : State) (f : Field) (i : Nat) : (capture1 s f i).regs = s.regs := rfl
@[simp] theorem capture1_shadow (s : State) (f : Field) (i : Nat) : (capture1 s f i).shadow = s.shadow := rfl
@[simp] theorem capture1_clk (s : State) (f : Field) (i : Nat) : (capture1 s f i).clk = s.clk := rfl
@[simp] theorem capture1_cores (s : State) (f : Field) (i : Nat) : (capture1 s f i).cores = s.cores := rfl
@[simp] theorem capture1_events (s : State) (f : Field) (i : Nat) : (capture1 s f i).events = s.events := rfl
@[simp] theorem capture1_alarmFlash (s : State) (f : Field) (i : Nat) : (capture1 s f i).alarmFlash = s.alarmFlash := rfl
@[simp] theorem capture1_alarmsDeferred (s : State) (f : Field) (i : Nat) : (capture1 s f i).alarmsDeferred = s.alarmsDeferred := rfl
@[simp] theorem capture1_bel (s : State) (f : Field) (i : Nat) : (capture1 s f i).bel = s.bel := rfl
@[simp] theorem capture1_pcie (s : State) (f : Field) (i : Nat) : (capture1 s f i).pcie = s.pcie := rfl
@[simp] theorem capture1_bifurcated (s : State) (f : Field) (i : Nat) : (capture1 s f i).bifurcated = s.bifurcated := rfl
@[simp] theorem capture1_keep (s : State) (f : Field) (i : Nat) : (capture1 s f i).keep = s.keep := rfl
@[simp] theorem capture1_ctlSent (s : State) (f : Field) (i : Nat) : (capture1 s f i).ctlSent = s.ctlSent := rfl
@[simp] theorem capture1_net (s : State) (f : Field) (i : Nat) : (capture1 s f i).net = s.net := rfl
@[simp] theorem capture1_units (s : State) (f : Field) (i : Nat) : (capture1 s f i).units = s.units := rfl
@[simp] theorem capture1_store (s : State) (f : Field) (i : Nat) : (capture1 s f i).store = s.store := rfl
@[simp] theorem capture1_strm (s : State) (f : Field) (i : Nat) : (capture1 s f i).strm = s.strm := rfl
@[simp] theorem capture1_twin (s : State) (f : Field) (i : Nat) : (capture1 s f i).twin = s.twin := rfl
@[simp] theorem capture1_fab (s : State) (f : Field) (i : Nat) : (capture1 s f i).fab = s.fab := rfl
@[simp] theorem capture1_pwr (s : State) (f : Field) (i : Nat) : (capture1 s f i).pwr = s.pwr := rfl
@[simp] theorem capture1_thm (s : State) (f : Field) (i : Nat) : (capture1 s f i).thm = s.thm := rfl
@[simp] theorem capture1_freeCtr (s : State) (f : Field) (i : Nat) : (capture1 s f i).freeCtr = s.freeCtr := rfl
@[simp] theorem capture1_pending (s : State) (f : Field) (i : Nat) : (capture1 s f i).pending = s.pending := rfl

/-! ## setStream -/

@[simp] theorem setStream_regs (s : State) (n : Nat) (x : Stream) : (setStream s n x).regs = s.regs := rfl
@[simp] theorem setStream_shadow (s : State) (n : Nat) (x : Stream) : (setStream s n x).shadow = s.shadow := rfl
@[simp] theorem setStream_captured (s : State) (n : Nat) (x : Stream) : (setStream s n x).captured = s.captured := rfl
@[simp] theorem setStream_clk (s : State) (n : Nat) (x : Stream) : (setStream s n x).clk = s.clk := rfl
@[simp] theorem setStream_cores (s : State) (n : Nat) (x : Stream) : (setStream s n x).cores = s.cores := rfl
@[simp] theorem setStream_events (s : State) (n : Nat) (x : Stream) : (setStream s n x).events = s.events := rfl
@[simp] theorem setStream_alarmFlash (s : State) (n : Nat) (x : Stream) : (setStream s n x).alarmFlash = s.alarmFlash := rfl
@[simp] theorem setStream_alarmsDeferred (s : State) (n : Nat) (x : Stream) : (setStream s n x).alarmsDeferred = s.alarmsDeferred := rfl
@[simp] theorem setStream_bel (s : State) (n : Nat) (x : Stream) : (setStream s n x).bel = s.bel := rfl
@[simp] theorem setStream_pcie (s : State) (n : Nat) (x : Stream) : (setStream s n x).pcie = s.pcie := rfl
@[simp] theorem setStream_bifurcated (s : State) (n : Nat) (x : Stream) : (setStream s n x).bifurcated = s.bifurcated := rfl
@[simp] theorem setStream_keep (s : State) (n : Nat) (x : Stream) : (setStream s n x).keep = s.keep := rfl
@[simp] theorem setStream_ctlSent (s : State) (n : Nat) (x : Stream) : (setStream s n x).ctlSent = s.ctlSent := rfl
@[simp] theorem setStream_net (s : State) (n : Nat) (x : Stream) : (setStream s n x).net = s.net := rfl
@[simp] theorem setStream_units (s : State) (n : Nat) (x : Stream) : (setStream s n x).units = s.units := rfl
@[simp] theorem setStream_store (s : State) (n : Nat) (x : Stream) : (setStream s n x).store = s.store := rfl
@[simp] theorem setStream_twin (s : State) (n : Nat) (x : Stream) : (setStream s n x).twin = s.twin := rfl
@[simp] theorem setStream_fab (s : State) (n : Nat) (x : Stream) : (setStream s n x).fab = s.fab := rfl
@[simp] theorem setStream_pwr (s : State) (n : Nat) (x : Stream) : (setStream s n x).pwr = s.pwr := rfl
@[simp] theorem setStream_thm (s : State) (n : Nat) (x : Stream) : (setStream s n x).thm = s.thm := rfl
@[simp] theorem setStream_freeCtr (s : State) (n : Nat) (x : Stream) : (setStream s n x).freeCtr = s.freeCtr := rfl
@[simp] theorem setStream_pending (s : State) (n : Nat) (x : Stream) : (setStream s n x).pending = s.pending := rfl

/-! ## modStream -/

@[simp] theorem modStream_regs (s : State) (n : Nat) (f : Stream → Stream) : (modStream s n f).regs = s.regs := rfl
@[simp] theorem modStream_shadow (s : State) (n : Nat) (f : Stream → Stream) : (modStream s n f).shadow = s.shadow := rfl
@[simp] theorem modStream_captured (s : State) (n : Nat) (f : Stream → Stream) : (modStream s n f).captured = s.captured := rfl
@[simp] theorem modStream_clk (s : State) (n : Nat) (f : Stream → Stream) : (modStream s n f).clk = s.clk := rfl
@[simp] theorem modStream_cores (s : State) (n : Nat) (f : Stream → Stream) : (modStream s n f).cores = s.cores := rfl
@[simp] theorem modStream_events (s : State) (n : Nat) (f : Stream → Stream) : (modStream s n f).events = s.events := rfl
@[simp] theorem modStream_alarmFlash (s : State) (n : Nat) (f : Stream → Stream) : (modStream s n f).alarmFlash = s.alarmFlash := rfl
@[simp] theorem modStream_alarmsDeferred (s : State) (n : Nat) (f : Stream → Stream) : (modStream s n f).alarmsDeferred = s.alarmsDeferred := rfl
@[simp] theorem modStream_bel (s : State) (n : Nat) (f : Stream → Stream) : (modStream s n f).bel = s.bel := rfl
@[simp] theorem modStream_pcie (s : State) (n : Nat) (f : Stream → Stream) : (modStream s n f).pcie = s.pcie := rfl
@[simp] theorem modStream_bifurcated (s : State) (n : Nat) (f : Stream → Stream) : (modStream s n f).bifurcated = s.bifurcated := rfl
@[simp] theorem modStream_keep (s : State) (n : Nat) (f : Stream → Stream) : (modStream s n f).keep = s.keep := rfl
@[simp] theorem modStream_ctlSent (s : State) (n : Nat) (f : Stream → Stream) : (modStream s n f).ctlSent = s.ctlSent := rfl
@[simp] theorem modStream_net (s : State) (n : Nat) (f : Stream → Stream) : (modStream s n f).net = s.net := rfl
@[simp] theorem modStream_units (s : State) (n : Nat) (f : Stream → Stream) : (modStream s n f).units = s.units := rfl
@[simp] theorem modStream_store (s : State) (n : Nat) (f : Stream → Stream) : (modStream s n f).store = s.store := rfl
@[simp] theorem modStream_twin (s : State) (n : Nat) (f : Stream → Stream) : (modStream s n f).twin = s.twin := rfl
@[simp] theorem modStream_fab (s : State) (n : Nat) (f : Stream → Stream) : (modStream s n f).fab = s.fab := rfl
@[simp] theorem modStream_pwr (s : State) (n : Nat) (f : Stream → Stream) : (modStream s n f).pwr = s.pwr := rfl
@[simp] theorem modStream_thm (s : State) (n : Nat) (f : Stream → Stream) : (modStream s n f).thm = s.thm := rfl
@[simp] theorem modStream_freeCtr (s : State) (n : Nat) (f : Stream → Stream) : (modStream s n f).freeCtr = s.freeCtr := rfl
@[simp] theorem modStream_pending (s : State) (n : Nat) (f : Stream → Stream) : (modStream s n f).pending = s.pending := rfl

/-! ## setQp -/

@[simp] theorem setQp_regs (s : State) (n : Nat) (q : QPair) : (setQp s n q).regs = s.regs := rfl
@[simp] theorem setQp_shadow (s : State) (n : Nat) (q : QPair) : (setQp s n q).shadow = s.shadow := rfl
@[simp] theorem setQp_captured (s : State) (n : Nat) (q : QPair) : (setQp s n q).captured = s.captured := rfl
@[simp] theorem setQp_clk (s : State) (n : Nat) (q : QPair) : (setQp s n q).clk = s.clk := rfl
@[simp] theorem setQp_cores (s : State) (n : Nat) (q : QPair) : (setQp s n q).cores = s.cores := rfl
@[simp] theorem setQp_events (s : State) (n : Nat) (q : QPair) : (setQp s n q).events = s.events := rfl
@[simp] theorem setQp_alarmFlash (s : State) (n : Nat) (q : QPair) : (setQp s n q).alarmFlash = s.alarmFlash := rfl
@[simp] theorem setQp_alarmsDeferred (s : State) (n : Nat) (q : QPair) : (setQp s n q).alarmsDeferred = s.alarmsDeferred := rfl
@[simp] theorem setQp_bel (s : State) (n : Nat) (q : QPair) : (setQp s n q).bel = s.bel := rfl
@[simp] theorem setQp_pcie (s : State) (n : Nat) (q : QPair) : (setQp s n q).pcie = s.pcie := rfl
@[simp] theorem setQp_bifurcated (s : State) (n : Nat) (q : QPair) : (setQp s n q).bifurcated = s.bifurcated := rfl
@[simp] theorem setQp_keep (s : State) (n : Nat) (q : QPair) : (setQp s n q).keep = s.keep := rfl
@[simp] theorem setQp_ctlSent (s : State) (n : Nat) (q : QPair) : (setQp s n q).ctlSent = s.ctlSent := rfl
@[simp] theorem setQp_net (s : State) (n : Nat) (q : QPair) : (setQp s n q).net = s.net := rfl
@[simp] theorem setQp_units (s : State) (n : Nat) (q : QPair) : (setQp s n q).units = s.units := rfl
@[simp] theorem setQp_store (s : State) (n : Nat) (q : QPair) : (setQp s n q).store = s.store := rfl
@[simp] theorem setQp_twin (s : State) (n : Nat) (q : QPair) : (setQp s n q).twin = s.twin := rfl
@[simp] theorem setQp_fab (s : State) (n : Nat) (q : QPair) : (setQp s n q).fab = s.fab := rfl
@[simp] theorem setQp_pwr (s : State) (n : Nat) (q : QPair) : (setQp s n q).pwr = s.pwr := rfl
@[simp] theorem setQp_thm (s : State) (n : Nat) (q : QPair) : (setQp s n q).thm = s.thm := rfl
@[simp] theorem setQp_freeCtr (s : State) (n : Nat) (q : QPair) : (setQp s n q).freeCtr = s.freeCtr := rfl
@[simp] theorem setQp_pending (s : State) (n : Nat) (q : QPair) : (setQp s n q).pending = s.pending := rfl

/-! ## setPage -/

@[simp] theorem setPage_regs (s : State) (p : Nat) (x : Page) : (setPage s p x).regs = s.regs := rfl
@[simp] theorem setPage_shadow (s : State) (p : Nat) (x : Page) : (setPage s p x).shadow = s.shadow := rfl
@[simp] theorem setPage_captured (s : State) (p : Nat) (x : Page) : (setPage s p x).captured = s.captured := rfl
@[simp] theorem setPage_clk (s : State) (p : Nat) (x : Page) : (setPage s p x).clk = s.clk := rfl
@[simp] theorem setPage_cores (s : State) (p : Nat) (x : Page) : (setPage s p x).cores = s.cores := rfl
@[simp] theorem setPage_events (s : State) (p : Nat) (x : Page) : (setPage s p x).events = s.events := rfl
@[simp] theorem setPage_alarmFlash (s : State) (p : Nat) (x : Page) : (setPage s p x).alarmFlash = s.alarmFlash := rfl
@[simp] theorem setPage_alarmsDeferred (s : State) (p : Nat) (x : Page) : (setPage s p x).alarmsDeferred = s.alarmsDeferred := rfl
@[simp] theorem setPage_bel (s : State) (p : Nat) (x : Page) : (setPage s p x).bel = s.bel := rfl
@[simp] theorem setPage_pcie (s : State) (p : Nat) (x : Page) : (setPage s p x).pcie = s.pcie := rfl
@[simp] theorem setPage_bifurcated (s : State) (p : Nat) (x : Page) : (setPage s p x).bifurcated = s.bifurcated := rfl
@[simp] theorem setPage_keep (s : State) (p : Nat) (x : Page) : (setPage s p x).keep = s.keep := rfl
@[simp] theorem setPage_ctlSent (s : State) (p : Nat) (x : Page) : (setPage s p x).ctlSent = s.ctlSent := rfl
@[simp] theorem setPage_net (s : State) (p : Nat) (x : Page) : (setPage s p x).net = s.net := rfl
@[simp] theorem setPage_units (s : State) (p : Nat) (x : Page) : (setPage s p x).units = s.units := rfl
@[simp] theorem setPage_store (s : State) (p : Nat) (x : Page) : (setPage s p x).store = s.store := rfl
@[simp] theorem setPage_twin (s : State) (p : Nat) (x : Page) : (setPage s p x).twin = s.twin := rfl
@[simp] theorem setPage_fab (s : State) (p : Nat) (x : Page) : (setPage s p x).fab = s.fab := rfl
@[simp] theorem setPage_pwr (s : State) (p : Nat) (x : Page) : (setPage s p x).pwr = s.pwr := rfl
@[simp] theorem setPage_thm (s : State) (p : Nat) (x : Page) : (setPage s p x).thm = s.thm := rfl
@[simp] theorem setPage_freeCtr (s : State) (p : Nat) (x : Page) : (setPage s p x).freeCtr = s.freeCtr := rfl
@[simp] theorem setPage_pending (s : State) (p : Nat) (x : Page) : (setPage s p x).pending = s.pending := rfl

/-! ## setLantern -/

@[simp] theorem setLantern_regs (s : State) (f : Nat) (x : Lantern) : (setLantern s f x).regs = s.regs := rfl
@[simp] theorem setLantern_shadow (s : State) (f : Nat) (x : Lantern) : (setLantern s f x).shadow = s.shadow := rfl
@[simp] theorem setLantern_captured (s : State) (f : Nat) (x : Lantern) : (setLantern s f x).captured = s.captured := rfl
@[simp] theorem setLantern_clk (s : State) (f : Nat) (x : Lantern) : (setLantern s f x).clk = s.clk := rfl
@[simp] theorem setLantern_cores (s : State) (f : Nat) (x : Lantern) : (setLantern s f x).cores = s.cores := rfl
@[simp] theorem setLantern_events (s : State) (f : Nat) (x : Lantern) : (setLantern s f x).events = s.events := rfl
@[simp] theorem setLantern_alarmFlash (s : State) (f : Nat) (x : Lantern) : (setLantern s f x).alarmFlash = s.alarmFlash := rfl
@[simp] theorem setLantern_alarmsDeferred (s : State) (f : Nat) (x : Lantern) : (setLantern s f x).alarmsDeferred = s.alarmsDeferred := rfl
@[simp] theorem setLantern_bel (s : State) (f : Nat) (x : Lantern) : (setLantern s f x).bel = s.bel := rfl
@[simp] theorem setLantern_pcie (s : State) (f : Nat) (x : Lantern) : (setLantern s f x).pcie = s.pcie := rfl
@[simp] theorem setLantern_bifurcated (s : State) (f : Nat) (x : Lantern) : (setLantern s f x).bifurcated = s.bifurcated := rfl
@[simp] theorem setLantern_keep (s : State) (f : Nat) (x : Lantern) : (setLantern s f x).keep = s.keep := rfl
@[simp] theorem setLantern_ctlSent (s : State) (f : Nat) (x : Lantern) : (setLantern s f x).ctlSent = s.ctlSent := rfl
@[simp] theorem setLantern_units (s : State) (f : Nat) (x : Lantern) : (setLantern s f x).units = s.units := rfl
@[simp] theorem setLantern_store (s : State) (f : Nat) (x : Lantern) : (setLantern s f x).store = s.store := rfl
@[simp] theorem setLantern_strm (s : State) (f : Nat) (x : Lantern) : (setLantern s f x).strm = s.strm := rfl
@[simp] theorem setLantern_twin (s : State) (f : Nat) (x : Lantern) : (setLantern s f x).twin = s.twin := rfl
@[simp] theorem setLantern_fab (s : State) (f : Nat) (x : Lantern) : (setLantern s f x).fab = s.fab := rfl
@[simp] theorem setLantern_pwr (s : State) (f : Nat) (x : Lantern) : (setLantern s f x).pwr = s.pwr := rfl
@[simp] theorem setLantern_thm (s : State) (f : Nat) (x : Lantern) : (setLantern s f x).thm = s.thm := rfl
@[simp] theorem setLantern_freeCtr (s : State) (f : Nat) (x : Lantern) : (setLantern s f x).freeCtr = s.freeCtr := rfl
@[simp] theorem setLantern_pending (s : State) (f : Nat) (x : Lantern) : (setLantern s f x).pending = s.pending := rfl

/-! ## setCtl -/

@[simp] theorem setCtl_regs (s : State) (c : Nat) (r : CtlRouter) : (setCtl s c r).regs = s.regs := rfl
@[simp] theorem setCtl_shadow (s : State) (c : Nat) (r : CtlRouter) : (setCtl s c r).shadow = s.shadow := rfl
@[simp] theorem setCtl_captured (s : State) (c : Nat) (r : CtlRouter) : (setCtl s c r).captured = s.captured := rfl
@[simp] theorem setCtl_clk (s : State) (c : Nat) (r : CtlRouter) : (setCtl s c r).clk = s.clk := rfl
@[simp] theorem setCtl_cores (s : State) (c : Nat) (r : CtlRouter) : (setCtl s c r).cores = s.cores := rfl
@[simp] theorem setCtl_events (s : State) (c : Nat) (r : CtlRouter) : (setCtl s c r).events = s.events := rfl
@[simp] theorem setCtl_alarmFlash (s : State) (c : Nat) (r : CtlRouter) : (setCtl s c r).alarmFlash = s.alarmFlash := rfl
@[simp] theorem setCtl_alarmsDeferred (s : State) (c : Nat) (r : CtlRouter) : (setCtl s c r).alarmsDeferred = s.alarmsDeferred := rfl
@[simp] theorem setCtl_bel (s : State) (c : Nat) (r : CtlRouter) : (setCtl s c r).bel = s.bel := rfl
@[simp] theorem setCtl_pcie (s : State) (c : Nat) (r : CtlRouter) : (setCtl s c r).pcie = s.pcie := rfl
@[simp] theorem setCtl_bifurcated (s : State) (c : Nat) (r : CtlRouter) : (setCtl s c r).bifurcated = s.bifurcated := rfl
@[simp] theorem setCtl_keep (s : State) (c : Nat) (r : CtlRouter) : (setCtl s c r).keep = s.keep := rfl
@[simp] theorem setCtl_ctlSent (s : State) (c : Nat) (r : CtlRouter) : (setCtl s c r).ctlSent = s.ctlSent := rfl
@[simp] theorem setCtl_units (s : State) (c : Nat) (r : CtlRouter) : (setCtl s c r).units = s.units := rfl
@[simp] theorem setCtl_store (s : State) (c : Nat) (r : CtlRouter) : (setCtl s c r).store = s.store := rfl
@[simp] theorem setCtl_strm (s : State) (c : Nat) (r : CtlRouter) : (setCtl s c r).strm = s.strm := rfl
@[simp] theorem setCtl_twin (s : State) (c : Nat) (r : CtlRouter) : (setCtl s c r).twin = s.twin := rfl
@[simp] theorem setCtl_fab (s : State) (c : Nat) (r : CtlRouter) : (setCtl s c r).fab = s.fab := rfl
@[simp] theorem setCtl_pwr (s : State) (c : Nat) (r : CtlRouter) : (setCtl s c r).pwr = s.pwr := rfl
@[simp] theorem setCtl_thm (s : State) (c : Nat) (r : CtlRouter) : (setCtl s c r).thm = s.thm := rfl
@[simp] theorem setCtl_freeCtr (s : State) (c : Nat) (r : CtlRouter) : (setCtl s c r).freeCtr = s.freeCtr := rfl
@[simp] theorem setCtl_pending (s : State) (c : Nat) (r : CtlRouter) : (setCtl s c r).pending = s.pending := rfl

/-! ## inject -/

@[simp] theorem inject_regs (s : State) (c pri : Nat) (ws : List (BitVec 32)) : (inject s c pri ws).regs = s.regs := rfl
@[simp] theorem inject_shadow (s : State) (c pri : Nat) (ws : List (BitVec 32)) : (inject s c pri ws).shadow = s.shadow := rfl
@[simp] theorem inject_captured (s : State) (c pri : Nat) (ws : List (BitVec 32)) : (inject s c pri ws).captured = s.captured := rfl
@[simp] theorem inject_clk (s : State) (c pri : Nat) (ws : List (BitVec 32)) : (inject s c pri ws).clk = s.clk := rfl
@[simp] theorem inject_cores (s : State) (c pri : Nat) (ws : List (BitVec 32)) : (inject s c pri ws).cores = s.cores := rfl
@[simp] theorem inject_events (s : State) (c pri : Nat) (ws : List (BitVec 32)) : (inject s c pri ws).events = s.events := rfl
@[simp] theorem inject_alarmFlash (s : State) (c pri : Nat) (ws : List (BitVec 32)) : (inject s c pri ws).alarmFlash = s.alarmFlash := rfl
@[simp] theorem inject_alarmsDeferred (s : State) (c pri : Nat) (ws : List (BitVec 32)) : (inject s c pri ws).alarmsDeferred = s.alarmsDeferred := rfl
@[simp] theorem inject_bel (s : State) (c pri : Nat) (ws : List (BitVec 32)) : (inject s c pri ws).bel = s.bel := rfl
@[simp] theorem inject_pcie (s : State) (c pri : Nat) (ws : List (BitVec 32)) : (inject s c pri ws).pcie = s.pcie := rfl
@[simp] theorem inject_bifurcated (s : State) (c pri : Nat) (ws : List (BitVec 32)) : (inject s c pri ws).bifurcated = s.bifurcated := rfl
@[simp] theorem inject_keep (s : State) (c pri : Nat) (ws : List (BitVec 32)) : (inject s c pri ws).keep = s.keep := rfl
@[simp] theorem inject_ctlSent (s : State) (c pri : Nat) (ws : List (BitVec 32)) : (inject s c pri ws).ctlSent = s.ctlSent := rfl
@[simp] theorem inject_units (s : State) (c pri : Nat) (ws : List (BitVec 32)) : (inject s c pri ws).units = s.units := rfl
@[simp] theorem inject_store (s : State) (c pri : Nat) (ws : List (BitVec 32)) : (inject s c pri ws).store = s.store := rfl
@[simp] theorem inject_strm (s : State) (c pri : Nat) (ws : List (BitVec 32)) : (inject s c pri ws).strm = s.strm := rfl
@[simp] theorem inject_twin (s : State) (c pri : Nat) (ws : List (BitVec 32)) : (inject s c pri ws).twin = s.twin := rfl
@[simp] theorem inject_fab (s : State) (c pri : Nat) (ws : List (BitVec 32)) : (inject s c pri ws).fab = s.fab := rfl
@[simp] theorem inject_pwr (s : State) (c pri : Nat) (ws : List (BitVec 32)) : (inject s c pri ws).pwr = s.pwr := rfl
@[simp] theorem inject_thm (s : State) (c pri : Nat) (ws : List (BitVec 32)) : (inject s c pri ws).thm = s.thm := rfl
@[simp] theorem inject_freeCtr (s : State) (c pri : Nat) (ws : List (BitVec 32)) : (inject s c pri ws).freeCtr = s.freeCtr := rfl
@[simp] theorem inject_pending (s : State) (c pri : Nat) (ws : List (BitVec 32)) : (inject s c pri ws).pending = s.pending := rfl

/-! ## sendCtl -/

@[simp] theorem sendCtl_regs (s : State) (p : CtlPacket) : (sendCtl s p).regs = s.regs := by unfold sendCtl; split <;> rfl
@[simp] theorem sendCtl_shadow (s : State) (p : CtlPacket) : (sendCtl s p).shadow = s.shadow := by unfold sendCtl; split <;> rfl
@[simp] theorem sendCtl_captured (s : State) (p : CtlPacket) : (sendCtl s p).captured = s.captured := by unfold sendCtl; split <;> rfl
@[simp] theorem sendCtl_clk (s : State) (p : CtlPacket) : (sendCtl s p).clk = s.clk := by unfold sendCtl; split <;> rfl
@[simp] theorem sendCtl_cores (s : State) (p : CtlPacket) : (sendCtl s p).cores = s.cores := by unfold sendCtl; split <;> rfl
@[simp] theorem sendCtl_events (s : State) (p : CtlPacket) : (sendCtl s p).events = s.events := by unfold sendCtl; split <;> rfl
@[simp] theorem sendCtl_alarmFlash (s : State) (p : CtlPacket) : (sendCtl s p).alarmFlash = s.alarmFlash := by unfold sendCtl; split <;> rfl
@[simp] theorem sendCtl_alarmsDeferred (s : State) (p : CtlPacket) : (sendCtl s p).alarmsDeferred = s.alarmsDeferred := by unfold sendCtl; split <;> rfl
@[simp] theorem sendCtl_bel (s : State) (p : CtlPacket) : (sendCtl s p).bel = s.bel := by unfold sendCtl; split <;> rfl
@[simp] theorem sendCtl_pcie (s : State) (p : CtlPacket) : (sendCtl s p).pcie = s.pcie := by unfold sendCtl; split <;> rfl
@[simp] theorem sendCtl_bifurcated (s : State) (p : CtlPacket) : (sendCtl s p).bifurcated = s.bifurcated := by unfold sendCtl; split <;> rfl
@[simp] theorem sendCtl_keep (s : State) (p : CtlPacket) : (sendCtl s p).keep = s.keep := by unfold sendCtl; split <;> rfl
@[simp] theorem sendCtl_ctlSent (s : State) (p : CtlPacket) : (sendCtl s p).ctlSent = p :: s.ctlSent := by unfold sendCtl; split <;> rfl
@[simp] theorem sendCtl_units (s : State) (p : CtlPacket) : (sendCtl s p).units = s.units := by unfold sendCtl; split <;> rfl
@[simp] theorem sendCtl_store (s : State) (p : CtlPacket) : (sendCtl s p).store = s.store := by unfold sendCtl; split <;> rfl
@[simp] theorem sendCtl_strm (s : State) (p : CtlPacket) : (sendCtl s p).strm = s.strm := by unfold sendCtl; split <;> rfl
@[simp] theorem sendCtl_twin (s : State) (p : CtlPacket) : (sendCtl s p).twin = s.twin := by unfold sendCtl; split <;> rfl
@[simp] theorem sendCtl_fab (s : State) (p : CtlPacket) : (sendCtl s p).fab = s.fab := by unfold sendCtl; split <;> rfl
@[simp] theorem sendCtl_pwr (s : State) (p : CtlPacket) : (sendCtl s p).pwr = s.pwr := by unfold sendCtl; split <;> rfl
@[simp] theorem sendCtl_thm (s : State) (p : CtlPacket) : (sendCtl s p).thm = s.thm := by unfold sendCtl; split <;> rfl
@[simp] theorem sendCtl_freeCtr (s : State) (p : CtlPacket) : (sendCtl s p).freeCtr = s.freeCtr := by unfold sendCtl; split <;> rfl
@[simp] theorem sendCtl_pending (s : State) (p : CtlPacket) : (sendCtl s p).pending = s.pending := by unfold sendCtl; split <;> rfl

/-! ## modPwr -/

@[simp] theorem modPwr_regs (s : State) (f : PowerSt → PowerSt) : (modPwr s f).regs = s.regs := rfl
@[simp] theorem modPwr_shadow (s : State) (f : PowerSt → PowerSt) : (modPwr s f).shadow = s.shadow := rfl
@[simp] theorem modPwr_captured (s : State) (f : PowerSt → PowerSt) : (modPwr s f).captured = s.captured := rfl
@[simp] theorem modPwr_clk (s : State) (f : PowerSt → PowerSt) : (modPwr s f).clk = s.clk := rfl
@[simp] theorem modPwr_cores (s : State) (f : PowerSt → PowerSt) : (modPwr s f).cores = s.cores := rfl
@[simp] theorem modPwr_events (s : State) (f : PowerSt → PowerSt) : (modPwr s f).events = s.events := rfl
@[simp] theorem modPwr_alarmFlash (s : State) (f : PowerSt → PowerSt) : (modPwr s f).alarmFlash = s.alarmFlash := rfl
@[simp] theorem modPwr_alarmsDeferred (s : State) (f : PowerSt → PowerSt) : (modPwr s f).alarmsDeferred = s.alarmsDeferred := rfl
@[simp] theorem modPwr_bel (s : State) (f : PowerSt → PowerSt) : (modPwr s f).bel = s.bel := rfl
@[simp] theorem modPwr_pcie (s : State) (f : PowerSt → PowerSt) : (modPwr s f).pcie = s.pcie := rfl
@[simp] theorem modPwr_bifurcated (s : State) (f : PowerSt → PowerSt) : (modPwr s f).bifurcated = s.bifurcated := rfl
@[simp] theorem modPwr_keep (s : State) (f : PowerSt → PowerSt) : (modPwr s f).keep = s.keep := rfl
@[simp] theorem modPwr_ctlSent (s : State) (f : PowerSt → PowerSt) : (modPwr s f).ctlSent = s.ctlSent := rfl
@[simp] theorem modPwr_net (s : State) (f : PowerSt → PowerSt) : (modPwr s f).net = s.net := rfl
@[simp] theorem modPwr_units (s : State) (f : PowerSt → PowerSt) : (modPwr s f).units = s.units := rfl
@[simp] theorem modPwr_store (s : State) (f : PowerSt → PowerSt) : (modPwr s f).store = s.store := rfl
@[simp] theorem modPwr_strm (s : State) (f : PowerSt → PowerSt) : (modPwr s f).strm = s.strm := rfl
@[simp] theorem modPwr_twin (s : State) (f : PowerSt → PowerSt) : (modPwr s f).twin = s.twin := rfl
@[simp] theorem modPwr_fab (s : State) (f : PowerSt → PowerSt) : (modPwr s f).fab = s.fab := rfl
@[simp] theorem modPwr_pwr (s : State) (f : PowerSt → PowerSt) : (modPwr s f).pwr = f s.pwr := rfl
@[simp] theorem modPwr_thm (s : State) (f : PowerSt → PowerSt) : (modPwr s f).thm = s.thm := rfl
@[simp] theorem modPwr_freeCtr (s : State) (f : PowerSt → PowerSt) : (modPwr s f).freeCtr = s.freeCtr := rfl
@[simp] theorem modPwr_pending (s : State) (f : PowerSt → PowerSt) : (modPwr s f).pending = s.pending := rfl

/-! ## modThm -/

@[simp] theorem modThm_regs (s : State) (f : ThermSt → ThermSt) : (modThm s f).regs = s.regs := rfl
@[simp] theorem modThm_shadow (s : State) (f : ThermSt → ThermSt) : (modThm s f).shadow = s.shadow := rfl
@[simp] theorem modThm_captured (s : State) (f : ThermSt → ThermSt) : (modThm s f).captured = s.captured := rfl
@[simp] theorem modThm_clk (s : State) (f : ThermSt → ThermSt) : (modThm s f).clk = s.clk := rfl
@[simp] theorem modThm_cores (s : State) (f : ThermSt → ThermSt) : (modThm s f).cores = s.cores := rfl
@[simp] theorem modThm_events (s : State) (f : ThermSt → ThermSt) : (modThm s f).events = s.events := rfl
@[simp] theorem modThm_alarmFlash (s : State) (f : ThermSt → ThermSt) : (modThm s f).alarmFlash = s.alarmFlash := rfl
@[simp] theorem modThm_alarmsDeferred (s : State) (f : ThermSt → ThermSt) : (modThm s f).alarmsDeferred = s.alarmsDeferred := rfl
@[simp] theorem modThm_bel (s : State) (f : ThermSt → ThermSt) : (modThm s f).bel = s.bel := rfl
@[simp] theorem modThm_pcie (s : State) (f : ThermSt → ThermSt) : (modThm s f).pcie = s.pcie := rfl
@[simp] theorem modThm_bifurcated (s : State) (f : ThermSt → ThermSt) : (modThm s f).bifurcated = s.bifurcated := rfl
@[simp] theorem modThm_keep (s : State) (f : ThermSt → ThermSt) : (modThm s f).keep = s.keep := rfl
@[simp] theorem modThm_ctlSent (s : State) (f : ThermSt → ThermSt) : (modThm s f).ctlSent = s.ctlSent := rfl
@[simp] theorem modThm_net (s : State) (f : ThermSt → ThermSt) : (modThm s f).net = s.net := rfl
@[simp] theorem modThm_units (s : State) (f : ThermSt → ThermSt) : (modThm s f).units = s.units := rfl
@[simp] theorem modThm_store (s : State) (f : ThermSt → ThermSt) : (modThm s f).store = s.store := rfl
@[simp] theorem modThm_strm (s : State) (f : ThermSt → ThermSt) : (modThm s f).strm = s.strm := rfl
@[simp] theorem modThm_twin (s : State) (f : ThermSt → ThermSt) : (modThm s f).twin = s.twin := rfl
@[simp] theorem modThm_fab (s : State) (f : ThermSt → ThermSt) : (modThm s f).fab = s.fab := rfl
@[simp] theorem modThm_pwr (s : State) (f : ThermSt → ThermSt) : (modThm s f).pwr = s.pwr := rfl
@[simp] theorem modThm_thm (s : State) (f : ThermSt → ThermSt) : (modThm s f).thm = f s.thm := rfl
@[simp] theorem modThm_freeCtr (s : State) (f : ThermSt → ThermSt) : (modThm s f).freeCtr = s.freeCtr := rfl
@[simp] theorem modThm_pending (s : State) (f : ThermSt → ThermSt) : (modThm s f).pending = s.pending := rfl

/-! ## modFab -/

@[simp] theorem modFab_regs (s : State) (f : FabricSt → FabricSt) : (modFab s f).regs = s.regs := rfl
@[simp] theorem modFab_shadow (s : State) (f : FabricSt → FabricSt) : (modFab s f).shadow = s.shadow := rfl
@[simp] theorem modFab_captured (s : State) (f : FabricSt → FabricSt) : (modFab s f).captured = s.captured := rfl
@[simp] theorem modFab_clk (s : State) (f : FabricSt → FabricSt) : (modFab s f).clk = s.clk := rfl
@[simp] theorem modFab_cores (s : State) (f : FabricSt → FabricSt) : (modFab s f).cores = s.cores := rfl
@[simp] theorem modFab_events (s : State) (f : FabricSt → FabricSt) : (modFab s f).events = s.events := rfl
@[simp] theorem modFab_alarmFlash (s : State) (f : FabricSt → FabricSt) : (modFab s f).alarmFlash = s.alarmFlash := rfl
@[simp] theorem modFab_alarmsDeferred (s : State) (f : FabricSt → FabricSt) : (modFab s f).alarmsDeferred = s.alarmsDeferred := rfl
@[simp] theorem modFab_bel (s : State) (f : FabricSt → FabricSt) : (modFab s f).bel = s.bel := rfl
@[simp] theorem modFab_pcie (s : State) (f : FabricSt → FabricSt) : (modFab s f).pcie = s.pcie := rfl
@[simp] theorem modFab_bifurcated (s : State) (f : FabricSt → FabricSt) : (modFab s f).bifurcated = s.bifurcated := rfl
@[simp] theorem modFab_keep (s : State) (f : FabricSt → FabricSt) : (modFab s f).keep = s.keep := rfl
@[simp] theorem modFab_ctlSent (s : State) (f : FabricSt → FabricSt) : (modFab s f).ctlSent = s.ctlSent := rfl
@[simp] theorem modFab_net (s : State) (f : FabricSt → FabricSt) : (modFab s f).net = s.net := rfl
@[simp] theorem modFab_units (s : State) (f : FabricSt → FabricSt) : (modFab s f).units = s.units := rfl
@[simp] theorem modFab_store (s : State) (f : FabricSt → FabricSt) : (modFab s f).store = s.store := rfl
@[simp] theorem modFab_strm (s : State) (f : FabricSt → FabricSt) : (modFab s f).strm = s.strm := rfl
@[simp] theorem modFab_twin (s : State) (f : FabricSt → FabricSt) : (modFab s f).twin = s.twin := rfl
@[simp] theorem modFab_fab (s : State) (f : FabricSt → FabricSt) : (modFab s f).fab = f s.fab := rfl
@[simp] theorem modFab_pwr (s : State) (f : FabricSt → FabricSt) : (modFab s f).pwr = s.pwr := rfl
@[simp] theorem modFab_thm (s : State) (f : FabricSt → FabricSt) : (modFab s f).thm = s.thm := rfl
@[simp] theorem modFab_freeCtr (s : State) (f : FabricSt → FabricSt) : (modFab s f).freeCtr = s.freeCtr := rfl
@[simp] theorem modFab_pending (s : State) (f : FabricSt → FabricSt) : (modFab s f).pending = s.pending := rfl

/-! ## modTwin -/

@[simp] theorem modTwin_regs (s : State) (f : TwinSt → TwinSt) : (modTwin s f).regs = s.regs := rfl
@[simp] theorem modTwin_shadow (s : State) (f : TwinSt → TwinSt) : (modTwin s f).shadow = s.shadow := rfl
@[simp] theorem modTwin_captured (s : State) (f : TwinSt → TwinSt) : (modTwin s f).captured = s.captured := rfl
@[simp] theorem modTwin_clk (s : State) (f : TwinSt → TwinSt) : (modTwin s f).clk = s.clk := rfl
@[simp] theorem modTwin_cores (s : State) (f : TwinSt → TwinSt) : (modTwin s f).cores = s.cores := rfl
@[simp] theorem modTwin_events (s : State) (f : TwinSt → TwinSt) : (modTwin s f).events = s.events := rfl
@[simp] theorem modTwin_alarmFlash (s : State) (f : TwinSt → TwinSt) : (modTwin s f).alarmFlash = s.alarmFlash := rfl
@[simp] theorem modTwin_alarmsDeferred (s : State) (f : TwinSt → TwinSt) : (modTwin s f).alarmsDeferred = s.alarmsDeferred := rfl
@[simp] theorem modTwin_bel (s : State) (f : TwinSt → TwinSt) : (modTwin s f).bel = s.bel := rfl
@[simp] theorem modTwin_pcie (s : State) (f : TwinSt → TwinSt) : (modTwin s f).pcie = s.pcie := rfl
@[simp] theorem modTwin_bifurcated (s : State) (f : TwinSt → TwinSt) : (modTwin s f).bifurcated = s.bifurcated := rfl
@[simp] theorem modTwin_keep (s : State) (f : TwinSt → TwinSt) : (modTwin s f).keep = s.keep := rfl
@[simp] theorem modTwin_ctlSent (s : State) (f : TwinSt → TwinSt) : (modTwin s f).ctlSent = s.ctlSent := rfl
@[simp] theorem modTwin_net (s : State) (f : TwinSt → TwinSt) : (modTwin s f).net = s.net := rfl
@[simp] theorem modTwin_units (s : State) (f : TwinSt → TwinSt) : (modTwin s f).units = s.units := rfl
@[simp] theorem modTwin_store (s : State) (f : TwinSt → TwinSt) : (modTwin s f).store = s.store := rfl
@[simp] theorem modTwin_strm (s : State) (f : TwinSt → TwinSt) : (modTwin s f).strm = s.strm := rfl
@[simp] theorem modTwin_twin (s : State) (f : TwinSt → TwinSt) : (modTwin s f).twin = f s.twin := rfl
@[simp] theorem modTwin_fab (s : State) (f : TwinSt → TwinSt) : (modTwin s f).fab = s.fab := rfl
@[simp] theorem modTwin_pwr (s : State) (f : TwinSt → TwinSt) : (modTwin s f).pwr = s.pwr := rfl
@[simp] theorem modTwin_thm (s : State) (f : TwinSt → TwinSt) : (modTwin s f).thm = s.thm := rfl
@[simp] theorem modTwin_freeCtr (s : State) (f : TwinSt → TwinSt) : (modTwin s f).freeCtr = s.freeCtr := rfl
@[simp] theorem modTwin_pending (s : State) (f : TwinSt → TwinSt) : (modTwin s f).pending = s.pending := rfl

/-! ## setMbox -/

@[simp] theorem setMbox_regs (s : State) (p : Nat) (m : Mailbox) : (setMbox s p m).regs = s.regs := rfl
@[simp] theorem setMbox_shadow (s : State) (p : Nat) (m : Mailbox) : (setMbox s p m).shadow = s.shadow := rfl
@[simp] theorem setMbox_captured (s : State) (p : Nat) (m : Mailbox) : (setMbox s p m).captured = s.captured := rfl
@[simp] theorem setMbox_clk (s : State) (p : Nat) (m : Mailbox) : (setMbox s p m).clk = s.clk := rfl
@[simp] theorem setMbox_cores (s : State) (p : Nat) (m : Mailbox) : (setMbox s p m).cores = s.cores := rfl
@[simp] theorem setMbox_events (s : State) (p : Nat) (m : Mailbox) : (setMbox s p m).events = s.events := rfl
@[simp] theorem setMbox_alarmFlash (s : State) (p : Nat) (m : Mailbox) : (setMbox s p m).alarmFlash = s.alarmFlash := rfl
@[simp] theorem setMbox_alarmsDeferred (s : State) (p : Nat) (m : Mailbox) : (setMbox s p m).alarmsDeferred = s.alarmsDeferred := rfl
@[simp] theorem setMbox_bel (s : State) (p : Nat) (m : Mailbox) : (setMbox s p m).bel = s.bel := rfl
@[simp] theorem setMbox_pcie (s : State) (p : Nat) (m : Mailbox) : (setMbox s p m).pcie = s.pcie := rfl
@[simp] theorem setMbox_bifurcated (s : State) (p : Nat) (m : Mailbox) : (setMbox s p m).bifurcated = s.bifurcated := rfl
@[simp] theorem setMbox_ctlSent (s : State) (p : Nat) (m : Mailbox) : (setMbox s p m).ctlSent = s.ctlSent := rfl
@[simp] theorem setMbox_net (s : State) (p : Nat) (m : Mailbox) : (setMbox s p m).net = s.net := rfl
@[simp] theorem setMbox_units (s : State) (p : Nat) (m : Mailbox) : (setMbox s p m).units = s.units := rfl
@[simp] theorem setMbox_store (s : State) (p : Nat) (m : Mailbox) : (setMbox s p m).store = s.store := rfl
@[simp] theorem setMbox_strm (s : State) (p : Nat) (m : Mailbox) : (setMbox s p m).strm = s.strm := rfl
@[simp] theorem setMbox_twin (s : State) (p : Nat) (m : Mailbox) : (setMbox s p m).twin = s.twin := rfl
@[simp] theorem setMbox_fab (s : State) (p : Nat) (m : Mailbox) : (setMbox s p m).fab = s.fab := rfl
@[simp] theorem setMbox_pwr (s : State) (p : Nat) (m : Mailbox) : (setMbox s p m).pwr = s.pwr := rfl
@[simp] theorem setMbox_thm (s : State) (p : Nat) (m : Mailbox) : (setMbox s p m).thm = s.thm := rfl
@[simp] theorem setMbox_freeCtr (s : State) (p : Nat) (m : Mailbox) : (setMbox s p m).freeCtr = s.freeCtr := rfl
@[simp] theorem setMbox_pending (s : State) (p : Nat) (m : Mailbox) : (setMbox s p m).pending = s.pending := rfl

/-! ## modBoot -/

@[simp] theorem modBoot_regs (s : State) (f : BootSt → BootSt) : (modBoot s f).regs = s.regs := rfl
@[simp] theorem modBoot_shadow (s : State) (f : BootSt → BootSt) : (modBoot s f).shadow = s.shadow := rfl
@[simp] theorem modBoot_captured (s : State) (f : BootSt → BootSt) : (modBoot s f).captured = s.captured := rfl
@[simp] theorem modBoot_clk (s : State) (f : BootSt → BootSt) : (modBoot s f).clk = s.clk := rfl
@[simp] theorem modBoot_cores (s : State) (f : BootSt → BootSt) : (modBoot s f).cores = s.cores := rfl
@[simp] theorem modBoot_events (s : State) (f : BootSt → BootSt) : (modBoot s f).events = s.events := rfl
@[simp] theorem modBoot_alarmFlash (s : State) (f : BootSt → BootSt) : (modBoot s f).alarmFlash = s.alarmFlash := rfl
@[simp] theorem modBoot_alarmsDeferred (s : State) (f : BootSt → BootSt) : (modBoot s f).alarmsDeferred = s.alarmsDeferred := rfl
@[simp] theorem modBoot_bel (s : State) (f : BootSt → BootSt) : (modBoot s f).bel = s.bel := rfl
@[simp] theorem modBoot_pcie (s : State) (f : BootSt → BootSt) : (modBoot s f).pcie = s.pcie := rfl
@[simp] theorem modBoot_bifurcated (s : State) (f : BootSt → BootSt) : (modBoot s f).bifurcated = s.bifurcated := rfl
@[simp] theorem modBoot_ctlSent (s : State) (f : BootSt → BootSt) : (modBoot s f).ctlSent = s.ctlSent := rfl
@[simp] theorem modBoot_net (s : State) (f : BootSt → BootSt) : (modBoot s f).net = s.net := rfl
@[simp] theorem modBoot_units (s : State) (f : BootSt → BootSt) : (modBoot s f).units = s.units := rfl
@[simp] theorem modBoot_store (s : State) (f : BootSt → BootSt) : (modBoot s f).store = s.store := rfl
@[simp] theorem modBoot_strm (s : State) (f : BootSt → BootSt) : (modBoot s f).strm = s.strm := rfl
@[simp] theorem modBoot_twin (s : State) (f : BootSt → BootSt) : (modBoot s f).twin = s.twin := rfl
@[simp] theorem modBoot_fab (s : State) (f : BootSt → BootSt) : (modBoot s f).fab = s.fab := rfl
@[simp] theorem modBoot_pwr (s : State) (f : BootSt → BootSt) : (modBoot s f).pwr = s.pwr := rfl
@[simp] theorem modBoot_thm (s : State) (f : BootSt → BootSt) : (modBoot s f).thm = s.thm := rfl
@[simp] theorem modBoot_freeCtr (s : State) (f : BootSt → BootSt) : (modBoot s f).freeCtr = s.freeCtr := rfl
@[simp] theorem modBoot_pending (s : State) (f : BootSt → BootSt) : (modBoot s f).pending = s.pending := rfl

/-! ## modMctp -/

@[simp] theorem modMctp_regs (s : State) (f : MctpSt → MctpSt) : (modMctp s f).regs = s.regs := rfl
@[simp] theorem modMctp_shadow (s : State) (f : MctpSt → MctpSt) : (modMctp s f).shadow = s.shadow := rfl
@[simp] theorem modMctp_captured (s : State) (f : MctpSt → MctpSt) : (modMctp s f).captured = s.captured := rfl
@[simp] theorem modMctp_clk (s : State) (f : MctpSt → MctpSt) : (modMctp s f).clk = s.clk := rfl
@[simp] theorem modMctp_cores (s : State) (f : MctpSt → MctpSt) : (modMctp s f).cores = s.cores := rfl
@[simp] theorem modMctp_events (s : State) (f : MctpSt → MctpSt) : (modMctp s f).events = s.events := rfl
@[simp] theorem modMctp_alarmFlash (s : State) (f : MctpSt → MctpSt) : (modMctp s f).alarmFlash = s.alarmFlash := rfl
@[simp] theorem modMctp_alarmsDeferred (s : State) (f : MctpSt → MctpSt) : (modMctp s f).alarmsDeferred = s.alarmsDeferred := rfl
@[simp] theorem modMctp_bel (s : State) (f : MctpSt → MctpSt) : (modMctp s f).bel = s.bel := rfl
@[simp] theorem modMctp_pcie (s : State) (f : MctpSt → MctpSt) : (modMctp s f).pcie = s.pcie := rfl
@[simp] theorem modMctp_bifurcated (s : State) (f : MctpSt → MctpSt) : (modMctp s f).bifurcated = s.bifurcated := rfl
@[simp] theorem modMctp_ctlSent (s : State) (f : MctpSt → MctpSt) : (modMctp s f).ctlSent = s.ctlSent := rfl
@[simp] theorem modMctp_net (s : State) (f : MctpSt → MctpSt) : (modMctp s f).net = s.net := rfl
@[simp] theorem modMctp_units (s : State) (f : MctpSt → MctpSt) : (modMctp s f).units = s.units := rfl
@[simp] theorem modMctp_store (s : State) (f : MctpSt → MctpSt) : (modMctp s f).store = s.store := rfl
@[simp] theorem modMctp_strm (s : State) (f : MctpSt → MctpSt) : (modMctp s f).strm = s.strm := rfl
@[simp] theorem modMctp_twin (s : State) (f : MctpSt → MctpSt) : (modMctp s f).twin = s.twin := rfl
@[simp] theorem modMctp_fab (s : State) (f : MctpSt → MctpSt) : (modMctp s f).fab = s.fab := rfl
@[simp] theorem modMctp_pwr (s : State) (f : MctpSt → MctpSt) : (modMctp s f).pwr = s.pwr := rfl
@[simp] theorem modMctp_thm (s : State) (f : MctpSt → MctpSt) : (modMctp s f).thm = s.thm := rfl
@[simp] theorem modMctp_freeCtr (s : State) (f : MctpSt → MctpSt) : (modMctp s f).freeCtr = s.freeCtr := rfl
@[simp] theorem modMctp_pending (s : State) (f : MctpSt → MctpSt) : (modMctp s f).pending = s.pending := rfl

/-! ## returned -/

@[simp] theorem returned_regs (s : State) (x : Word) : (returned s x).regs = s.regs := rfl
@[simp] theorem returned_shadow (s : State) (x : Word) : (returned s x).shadow = s.shadow := rfl
@[simp] theorem returned_captured (s : State) (x : Word) : (returned s x).captured = s.captured := rfl
@[simp] theorem returned_clk (s : State) (x : Word) : (returned s x).clk = s.clk := rfl
@[simp] theorem returned_cores (s : State) (x : Word) : (returned s x).cores = s.cores := rfl
@[simp] theorem returned_events (s : State) (x : Word) : (returned s x).events = s.events := rfl
@[simp] theorem returned_alarmFlash (s : State) (x : Word) : (returned s x).alarmFlash = s.alarmFlash := rfl
@[simp] theorem returned_alarmsDeferred (s : State) (x : Word) : (returned s x).alarmsDeferred = s.alarmsDeferred := rfl
@[simp] theorem returned_bel (s : State) (x : Word) : (returned s x).bel = s.bel := rfl
@[simp] theorem returned_pcie (s : State) (x : Word) : (returned s x).pcie = s.pcie := rfl
@[simp] theorem returned_bifurcated (s : State) (x : Word) : (returned s x).bifurcated = s.bifurcated := rfl
@[simp] theorem returned_ctlSent (s : State) (x : Word) : (returned s x).ctlSent = s.ctlSent := rfl
@[simp] theorem returned_net (s : State) (x : Word) : (returned s x).net = s.net := rfl
@[simp] theorem returned_units (s : State) (x : Word) : (returned s x).units = s.units := rfl
@[simp] theorem returned_store (s : State) (x : Word) : (returned s x).store = s.store := rfl
@[simp] theorem returned_strm (s : State) (x : Word) : (returned s x).strm = s.strm := rfl
@[simp] theorem returned_twin (s : State) (x : Word) : (returned s x).twin = s.twin := rfl
@[simp] theorem returned_fab (s : State) (x : Word) : (returned s x).fab = s.fab := rfl
@[simp] theorem returned_pwr (s : State) (x : Word) : (returned s x).pwr = s.pwr := rfl
@[simp] theorem returned_thm (s : State) (x : Word) : (returned s x).thm = s.thm := rfl
@[simp] theorem returned_freeCtr (s : State) (x : Word) : (returned s x).freeCtr = s.freeCtr := rfl
@[simp] theorem returned_pending (s : State) (x : Word) : (returned s x).pending = s.pending := rfl

/-! ## wrAll -/

/-- Writing fields changes live registers and nothing else. -/
theorem wrAll_eq (s : State) (i : Nat) (l : List (Field × Nat)) : ∃ g, wrAll s i l = { s with regs := g } := by
  induction l generalizing s with
  | nil => exact ⟨s.regs, rfl⟩
  | cons fv l ih =>
    obtain ⟨g, h⟩ := ih (wr s fv.1 i fv.2)
    exact ⟨g, h⟩

@[simp] theorem wrAll_shadow (s : State) (i : Nat) (l : List (Field × Nat)) : (wrAll s i l).shadow = s.shadow := by
  obtain ⟨_, h⟩ := wrAll_eq s i l; rw [h]
@[simp] theorem wrAll_captured (s : State) (i : Nat) (l : List (Field × Nat)) : (wrAll s i l).captured = s.captured := by
  obtain ⟨_, h⟩ := wrAll_eq s i l; rw [h]
@[simp] theorem wrAll_clk (s : State) (i : Nat) (l : List (Field × Nat)) : (wrAll s i l).clk = s.clk := by
  obtain ⟨_, h⟩ := wrAll_eq s i l; rw [h]
@[simp] theorem wrAll_cores (s : State) (i : Nat) (l : List (Field × Nat)) : (wrAll s i l).cores = s.cores := by
  obtain ⟨_, h⟩ := wrAll_eq s i l; rw [h]
@[simp] theorem wrAll_events (s : State) (i : Nat) (l : List (Field × Nat)) : (wrAll s i l).events = s.events := by
  obtain ⟨_, h⟩ := wrAll_eq s i l; rw [h]
@[simp] theorem wrAll_alarmFlash (s : State) (i : Nat) (l : List (Field × Nat)) : (wrAll s i l).alarmFlash = s.alarmFlash := by
  obtain ⟨_, h⟩ := wrAll_eq s i l; rw [h]
@[simp] theorem wrAll_alarmsDeferred (s : State) (i : Nat) (l : List (Field × Nat)) : (wrAll s i l).alarmsDeferred = s.alarmsDeferred := by
  obtain ⟨_, h⟩ := wrAll_eq s i l; rw [h]
@[simp] theorem wrAll_bel (s : State) (i : Nat) (l : List (Field × Nat)) : (wrAll s i l).bel = s.bel := by
  obtain ⟨_, h⟩ := wrAll_eq s i l; rw [h]
@[simp] theorem wrAll_pcie (s : State) (i : Nat) (l : List (Field × Nat)) : (wrAll s i l).pcie = s.pcie := by
  obtain ⟨_, h⟩ := wrAll_eq s i l; rw [h]
@[simp] theorem wrAll_bifurcated (s : State) (i : Nat) (l : List (Field × Nat)) : (wrAll s i l).bifurcated = s.bifurcated := by
  obtain ⟨_, h⟩ := wrAll_eq s i l; rw [h]
@[simp] theorem wrAll_keep (s : State) (i : Nat) (l : List (Field × Nat)) : (wrAll s i l).keep = s.keep := by
  obtain ⟨_, h⟩ := wrAll_eq s i l; rw [h]
@[simp] theorem wrAll_ctlSent (s : State) (i : Nat) (l : List (Field × Nat)) : (wrAll s i l).ctlSent = s.ctlSent := by
  obtain ⟨_, h⟩ := wrAll_eq s i l; rw [h]
@[simp] theorem wrAll_net (s : State) (i : Nat) (l : List (Field × Nat)) : (wrAll s i l).net = s.net := by
  obtain ⟨_, h⟩ := wrAll_eq s i l; rw [h]
@[simp] theorem wrAll_units (s : State) (i : Nat) (l : List (Field × Nat)) : (wrAll s i l).units = s.units := by
  obtain ⟨_, h⟩ := wrAll_eq s i l; rw [h]
@[simp] theorem wrAll_store (s : State) (i : Nat) (l : List (Field × Nat)) : (wrAll s i l).store = s.store := by
  obtain ⟨_, h⟩ := wrAll_eq s i l; rw [h]
@[simp] theorem wrAll_strm (s : State) (i : Nat) (l : List (Field × Nat)) : (wrAll s i l).strm = s.strm := by
  obtain ⟨_, h⟩ := wrAll_eq s i l; rw [h]
@[simp] theorem wrAll_twin (s : State) (i : Nat) (l : List (Field × Nat)) : (wrAll s i l).twin = s.twin := by
  obtain ⟨_, h⟩ := wrAll_eq s i l; rw [h]
@[simp] theorem wrAll_fab (s : State) (i : Nat) (l : List (Field × Nat)) : (wrAll s i l).fab = s.fab := by
  obtain ⟨_, h⟩ := wrAll_eq s i l; rw [h]
@[simp] theorem wrAll_pwr (s : State) (i : Nat) (l : List (Field × Nat)) : (wrAll s i l).pwr = s.pwr := by
  obtain ⟨_, h⟩ := wrAll_eq s i l; rw [h]
@[simp] theorem wrAll_thm (s : State) (i : Nat) (l : List (Field × Nat)) : (wrAll s i l).thm = s.thm := by
  obtain ⟨_, h⟩ := wrAll_eq s i l; rw [h]
@[simp] theorem wrAll_freeCtr (s : State) (i : Nat) (l : List (Field × Nat)) : (wrAll s i l).freeCtr = s.freeCtr := by
  obtain ⟨_, h⟩ := wrAll_eq s i l; rw [h]
@[simp] theorem wrAll_pending (s : State) (i : Nat) (l : List (Field × Nat)) : (wrAll s i l).pending = s.pending := by
  obtain ⟨_, h⟩ := wrAll_eq s i l; rw [h]

end Sys2Proof.Machine
end

