-- ==== Sys2Proof/Laws/Tables.lean ====
section
/-! SUPPORT. What reading an entry of a sparse table says after an entry was set, and that setting an entry keeps the keys rising. -/

namespace Sys2Proof.Machine

variable {α : Type}

/-- The entry just set is read back, whatever the table. -/
@[simp] theorem tget_tset_same (t : Table α) (k : Nat) (x d : α) : tget (tset t k x) k d = x := by
  induction t with
  | nil => simp [tset, tget]
  | cons e t ih =>
    obtain ⟨j, y⟩ := e
    simp only [tset]
    split
    · simp [tget]
    · split
      · simp [tget]
      · next h => simp [tget, Ne.symm h, ih]

/-- Every other entry reads as before. -/
theorem tget_tset_other (t : Table α) {k j : Nat} (x d : α) (h : j ≠ k) : tget (tset t k x) j d = tget t j d := by
  induction t with
  | nil => simp [tset, tget, Ne.symm h]
  | cons e t ih =>
    obtain ⟨i, y⟩ := e
    simp only [tset]
    split
    · simp [tget, Ne.symm h]
    · split
      · next hk => simp [tget, Ne.symm h, ← hk]
      · simp [tget, ih]

/-- Setting an entry twice is setting it to the second value. -/
@[simp] theorem tset_tset (t : Table α) (k : Nat) (x y : α) : tset (tset t k x) k y = tset t k y := by
  induction t with
  | nil => simp [tset]
  | cons e t ih =>
    obtain ⟨j, z⟩ := e
    simp only [tset]
    split
    · simp [tset]
    · split
      · simp [tset]
      · next h1 h2 => simp [tset, h1, h2, ih]

/-- The keys of a table after an entry is set are its keys and the new one. -/
theorem mem_tset {t : Table α} {k : Nat} {x : α} {e : Nat × α} (h : e ∈ tset t k x) : e.1 = k ∨ e ∈ t := by
  induction t with
  | nil => simp only [tset, List.mem_singleton] at h; exact .inl (by rw [h])
  | cons a t ih =>
    obtain ⟨j, y⟩ := a
    simp only [tset] at h
    split at h
    · rcases List.mem_cons.1 h with rfl | h
      · exact .inl rfl
      · exact .inr h
    · split at h
      · rcases List.mem_cons.1 h with rfl | h
        · exact .inl rfl
        · exact .inr (List.mem_cons_of_mem _ h)
      · rcases List.mem_cons.1 h with rfl | h
        · exact .inr (List.mem_cons_self ..)
        · exact (ih h).imp id (List.mem_cons_of_mem _)

/-- Setting an entry keeps the keys rising. -/
theorem risingKeys_tset (t : Table α) (k : Nat) (x : α) (h : risingKeys t = true) : risingKeys (tset t k x) = true := by
  induction t with
  | nil => simp [tset, risingKeys]
  | cons a t ih =>
    obtain ⟨j, y⟩ := a
    simp only [risingKeys, Bool.and_eq_true, List.all_eq_true, decide_eq_true_eq] at h
    simp only [tset]
    split
    · next hk =>
      simp only [risingKeys, List.all_cons, Bool.and_eq_true, decide_eq_true_eq, List.all_eq_true]
      exact ⟨⟨hk, fun e he => Nat.lt_trans hk (h.1 e he)⟩, h.1, h.2⟩
    · split
      · next _ hk =>
        simp only [risingKeys, Bool.and_eq_true, List.all_eq_true, decide_eq_true_eq]
        exact ⟨fun e he => hk ▸ h.1 e he, h.2⟩
      · next h1 h2 =>
        simp only [risingKeys, Bool.and_eq_true, List.all_eq_true, decide_eq_true_eq]
        refine ⟨fun e he => ?_, ih h.2⟩
        rcases mem_tset he with hk | hm
        · omega
        · exact h.1 e hm

/-- Removing an entry keeps the keys rising. -/
theorem risingKeys_filter (t : Table α) (p : Nat × α → Bool) (h : risingKeys t = true) : risingKeys (t.filter p) = true := by
  induction t with
  | nil => rfl
  | cons a t ih =>
    obtain ⟨j, y⟩ := a
    simp only [risingKeys, Bool.and_eq_true, List.all_eq_true, decide_eq_true_eq] at h
    simp only [List.filter_cons]
    split
    · simp only [risingKeys, Bool.and_eq_true, List.all_eq_true, decide_eq_true_eq]
      exact ⟨fun e he => h.1 e (List.mem_of_mem_filter he), ih h.2⟩
    · exact ih h.2

/-- Setting or removing an entry keeps the keys rising. -/
theorem risingKeys_tput [DecidableEq α] (t : Table α) (k : Nat) (x d : α) (h : risingKeys t = true) :
    risingKeys (tput t k x d) = true := by
  unfold tput tdel
  split
  · exact risingKeys_filter t _ h
  · exact risingKeys_tset t k x h

end Sys2Proof.Machine
end

