-- ==== Sys2Proof/Laws/Registers.lean ====
section
/-! SUPPORT. Reading a register field after a field was written: the same field, a field of another register, a field of the same register
beside it. -/

namespace Sys2Proof.Machine

theorem getF_testBit (f : Field) (w : Word) (n : Nat) : (getF f w).testBit n = (decide (n < f.width) && w.getLsbD (f.lo + n)) := by
  simp [getF, Nat.testBit_mod_two_pow, Nat.testBit_shiftRight, BitVec.getLsbD]

/-- A word with a field replaced, bit by bit. -/
theorem putF_getLsbD (f : Field) (w : Word) (v i : Nat) (h : i < 64) :
    (putF f w v).getLsbD i =
      if f.lo ≤ i ∧ i < f.lo + f.width then v.testBit (i - f.lo) else w.getLsbD i := by
  simp only [putF, BitVec.getLsbD_or, BitVec.getLsbD_and, BitVec.getLsbD_not, BitVec.getLsbD_ofNat, h, decide_true, Bool.true_and,
    Nat.testBit_shiftLeft, Nat.testBit_mod_two_pow, Nat.testBit_two_pow_sub_one]
  by_cases c : f.lo ≤ i ∧ i < f.lo + f.width
  · have hw : i - f.lo < f.width := by omega
    simp [c, hw]
  · rw [if_neg c]
    by_cases d : f.lo ≤ i
    · have hw : ¬ i - f.lo < f.width := by omega
      simp [hw]
    · simp [d]

/-- The value just put into a field, cut to its width, is what the field holds. -/
theorem getF_putF_same (f : Field) (w : Word) (v : Nat) (h : f.lo + f.width ≤ 64) : getF f (putF f w v) = v % 2 ^ f.width := by
  apply Nat.eq_of_testBit_eq
  intro n
  rw [getF_testBit, Nat.testBit_mod_two_pow]
  by_cases hn : n < f.width
  · rw [putF_getLsbD f w v _ (by omega)]
    simp [hn]
  · simp [hn]

/-- A field beside the one written keeps its value. -/
theorem getF_putF_beside (f g : Field) (w : Word) (v : Nat) (hg : g.lo + g.width ≤ 64)
    (h : g.lo + g.width ≤ f.lo ∨ f.lo + f.width ≤ g.lo) : getF g (putF f w v) = getF g w := by
  apply Nat.eq_of_testBit_eq
  intro n
  rw [getF_testBit, getF_testBit]
  by_cases hn : n < g.width
  · rw [putF_getLsbD f w v _ (by omega), if_neg (by omega)]
  · simp [hn]

/-- The field just written reads as the value, cut to its width. -/
theorem rd_wr_same (s : State) (f : Field) (i v : Nat) (h : f.lo + f.width ≤ 64) : rd (wr s f i v) f i = v % 2 ^ f.width := by
  simp only [rd, regWord, wr_regs, tget_tset_same]
  exact getF_putF_same f _ v h

/-- A field of another register keeps its value. -/
theorem rd_wr_other (s : State) (f g : Field) (i j v : Nat) (h : fkey g j ≠ fkey f i) : rd (wr s f i v) g j = rd s g j := by
  simp only [rd, regWord, wr_regs, tget_tset_other _ _ _ h]

/-- A field beside the one written, in the same register, keeps its value. -/
theorem rd_wr_beside (s : State) (f g : Field) (i j v : Nat) (hk : fkey g j = fkey f i) (hr : g.regRst = f.regRst)
    (hg : g.lo + g.width ≤ 64) (h : g.lo + g.width ≤ f.lo ∨ f.lo + f.width ≤ g.lo) : rd (wr s f i v) g j = rd s g j := by
  simp only [rd, regWord, wr_regs, hk, tget_tset_same, hr]
  exact getF_putF_beside f g _ v hg h

/-- Reading a register depends on the live registers alone. -/
theorem rd_congr {s t : State} (h : s.regs = t.regs) (f : Field) (i : Nat) : rd s f i = rd t f i := by
  simp only [rd, regWord, h]

/-- A counter that advances reads as the sum, or stays at its field's largest value. -/
theorem rd_bump_same (s : State) (f : Field) (i n : Nat) (h : f.lo + f.width ≤ 64) :
    rd (bump s f i n) f i = min (rd s f i + n) (2 ^ f.width - 1) := by
  rw [bump, rd_wr_same _ _ _ _ h]
  exact Nat.mod_eq_of_lt (Nat.lt_of_le_of_lt (Nat.min_le_right ..) (Nat.sub_lt (Nat.two_pow_pos _) Nat.one_pos))

end Sys2Proof.Machine
end

