-- ==== Sys2Proof/Laws/Issue.lean ====
section
/-! SUPPORT. Reading a core after it was set, and what the issue of a slot does: it stands still, it faults as a NOP, or its effects are in
flight. -/

namespace Sys2Proof.Machine

@[simp] theorem coreOf_setCore (s : State) (c : Nat) (co : Core) : coreOf (setCore s c co) c = co := by simp [coreOf]

@[simp] theorem coreOf_modCore (s : State) (c : Nat) (f : Core → Core) : coreOf (modCore s c f) c = f (coreOf s c) := by
  simp [modCore]

theorem coreOf_setCore_other (s : State) {c d : Nat} (co : Core) (h : d ≠ c) : coreOf (setCore s c co) d = coreOf s d := by
  simp [coreOf, tget_tset_other _ _ _ h]

@[simp] theorem setCore_setCore (s : State) (c : Nat) (a b : Core) : setCore (setCore s c a) c b = setCore s c b := by
  simp [setCore]

/-- A change of a core that was just set is one setting. -/
theorem modCore_setCore (s : State) (c : Nat) (a : Core) (f : Core → Core) : modCore (setCore s c a) c f = setCore s c (f a) := by
  simp [modCore]

/-- Registers do not change when a core does. -/
@[simp] theorem rd_setCore (s : State) (c : Nat) (co : Core) (f : Field) (i : Nat) : rd (setCore s c co) f i = rd s f i := rfl
@[simp] theorem rd_modCore (s : State) (c : Nat) (g : Core → Core) (f : Field) (i : Nat) : rd (modCore s c g) f i = rd s f i := rfl

/-- A slot whose core does not issue leaves the state as it is. -/
theorem issueThen_idle {s : State} {c : Nat} {sl : Slot} {x : Iss} {k : State → State} (h : canIssue s c (coreOf s c) = false) :
    issueThen s c sl x k = s := by simp [issueThen, h]

/-- A word that is not accepted acts as NOP with EV_ILLEGAL_BUNDLE (R119). -/
theorem issueThen_bad {s : State} {c : Nat} {sl : Slot} {x : Iss} {k : State → State} (h : canIssue s c (coreOf s c) = true)
    (hb : x.bad = true) :
    issueThen s c sl x k =
      bundleFault (setCore s c { coreOf s c with bundle := (coreOf s c).bundle ++ [(sl, [])] }) c evIllegalBundle 0 := by
  simp [issueThen, h, hb]

/-- A slot with nothing in its way sets its effects going, and its own change follows. -/
theorem issueThen_ready {s : State} {c : Nat} {sl : Slot} {x : Iss} {k : State → State} (h : canIssue s c (coreOf s c) = true)
    (hb : x.bad = false) (hx : clashes (coreOf s c) (x.writes.map (·.1)) = [])
    (hr : x.reads.any (awaits (coreOf s c) s.clk.cyc) = false) (hf : x.fault = none)
    (he : (x.writes.filter fun w => realDest w.1 && landsTooEarly (coreOf s c) s.clk.cyc (s.clk.cyc + w.2 - 1) w.1) = []) :
    issueThen s c sl x k = k (setCore s c { coreOf s c with
      bundle := (coreOf s c).bundle ++ [(sl, x.writes.map (·.1))]
      pend := (coreOf s c).pend ++ x.effs.map fun e => ⟨sl, s.clk.cyc, (coreOf s c).seq.pc, s.clk.cyc + e.1, e.2⟩
      ops := (coreOf s c).ops ++ x.ops }) := by
  simp only [issueThen, h, hb, hx, hr, hf, he, modCore_setCore, List.map_nil]
  simp only [not_true_eq_false, if_false, Bool.false_eq_true, ne_eq, if_true]
  have hk (l : List (Nat × Eff)) (p : Nat × Eff → Bool) (hp : ∀ e, p e = true) : l.filter p = l := List.filter_eq_self.2 fun e _ => hp e
  rw [hk _ _ fun e => ?_]
  cases effDest e.2 <;> rfl

end Sys2Proof.Machine
end

