-- ==== Sys2Proof/Laws/PerInstr.lean ====
section
/-! SUPPORT. Per-command facts of the syntax: the core that a command names exists when the command is well formed. -/

namespace Sys2Proof.Laws.CoreNamed

/-- The logical core that a command names, if it names one. -/
def coreOf : Instr → Option Nat
  | .tickBoundary _ => none
  | .twinHeartbeatTimer => none
  | .nop c _ _ => some c
  | .br c _ => some c
  | .call c _ => some c
  | .ret c _ => some c
  | .loop c _ => some c
  | .twait c _ => some c
  | .idle c _ => some c
  | .beat c _ => some c
  | .stat c _ => some c
  | .msend c _ => some c
  | .mrecv c _ => some c
  | .trap c _ => some c
  | .add c _ => some c
  | .sub c _ => some c
  | .mul c _ => some c
  | .and c _ => some c
  | .or c _ => some c
  | .xor c _ => some c
  | .shift c _ => some c
  | .cmp c _ => some c
  | .addi c _ => some c
  | .li c _ => some c
  | .lane c _ => some c
  | .movr c _ => some c
  | .send c _ => some c
  | .recv c _ => some c
  | .senda c _ => some c
  | .recva c _ => some c
  | .sendc c _ => some c
  | .recvc c _ => some c
  | .sends c _ => some c
  | .recvs c _ => some c
  | .mm4 c _ => some c
  | .mm8 c _ => some c
  | .mmbf c _ => some c
  | .mclr c _ => some c
  | .mdrain c _ => some c
  | .mget c _ => some c
  | .mput c _ => some c
  | .mcnt c _ => some c
  | .vld c _ => some c
  | .vst c _ => some c
  | .vmov c _ => some c
  | .vbcst c _ => some c
  | .viota c _ => some c
  | .vperm c _ => some c
  | .vlog c _ => some c
  | .vadd c _ => some c
  | .vsub c _ => some c
  | .vmul c _ => some c
  | .vfma c _ => some c
  | .vmax c _ => some c
  | .vcmp c _ => some c
  | .vsel c _ => some c
  | .vcvt c _ => some c
  | .vred c _ => some c
  | .vfun c _ => some c
  | .vqnt c _ => some c
  | .vdq c _ => some c
  | .vsmx c _ => some c
  | .vsnrm c _ => some c
  | .vlse c _ => some c
  | .vnrm c _ => some c
  | .vshr c _ => some c
  | .cdot c _ => some c
  | .cadd c _ => some c
  | .cscl c _ => some c
  | .cup c _ => some c
  | .cmov c _ => some c
  | .tskip c _ => some c
  | .resultLanding c => some c
  | .routerForward c _ => some c
  | .ingressWrite c => some c
  | .heldEntryLand c => some c
  | .egressRead c => some c
  | .hbShort h => some h.core
  | .hbLong h => some h.core
  | .lanternSummaryDeadline _ => none
  | .summary _ => none
  | .heartbeatMiss c => some c
  | .coreStatusTimeout c => some c
  | .lanternSilent _ => none
  | .stopPacket _ => none
  | .regRd _ => none
  | .regWr _ => none
  | .regRsp _ => none
  | .mboxWord _ => none
  | .debugPacket _ => none
  | .reportPacket _ => none
  | .rowRepair c _ _ => some c
  | .regionReplay _ => none
  | .substitution _ _ _ => none
  | .regionRecovery _ => none
  | .pllLockLoss _ => none
  | .clockReturn => none
  | .refclkLoss => none
  | .refclkRestore => none
  | .clearFallback _ => none
  | .commit _ _ => none
  | .registerWrite _ _ _ _ => none
  | .readClear _ _ _ => none
  | .debugRowGo _ c _ => some c
  | .bind _ _ _ _ _ => none
  | .regionRun _ _ => none
  | .regionStop _ _ => none
  | .unbind _ _ => none
  | .release _ _ => none
  | .rebind _ _ _ _ _ _ => none
  | .holdExpiry _ => none
  | .loadCode c _ _ _ => some c
  | .loadRoute c _ _ _ => some c
  | .loadRows c _ _ _ => some c
  | .loadReg c _ _ _ => some c
  | .loadEnd c _ _ => some c
  | .sweepComplete c => some c
  | .unitMboxWrite _ _ _ => none
  | .unitMboxRead _ _ => none
  | .reclaim _ _ => none
  | .storeHost _ _ => none
  | .fetchHall _ => none
  | .imageArrival _ => none
  | .caskDelete _ => none
  | .caskVerify _ _ => none
  | .caskScrub _ _ => none
  | .rackLoad _ _ _ => none
  | .rackFlip _ _ => none
  | .rackAbort _ => none
  | .drainDeadline _ => none
  | .qpEnable _ _ => none
  | .qpDisable _ _ => none
  | .ledgerNop _ => none
  | .openStream _ => none
  | .append _ => none
  | .generate _ => none
  | .truncate _ => none
  | .fork _ => none
  | .park _ => none
  | .resume _ => none
  | .closeStream _ => none
  | .query _ => none
  | .sampleToken _ _ _ => none
  | .seating _ => none
  | .unseat _ => none
  | .sealCellarWrite _ _ _ => none
  | .spill => none
  | .reprefill _ => none
  | .flr _ => none
  | .pcieLinkDown _ _ => none
  | .perst _ => none
  | .pairEnSet => none
  | .pairEnClear => none
  | .offerTimer => none
  | .offer _ => none
  | .keyx _ => none
  | .syncComplete => none
  | .twinHeartbeat _ => none
  | .twinHeartbeatMiss => none
  | .fenceResend => none
  | .fenceConfirm _ => none
  | .fenceWaitExpiry => none
  | .handover => none
  | .journal _ => none
  | .ack _ => none
  | .nak _ => none
  | .fence _ => none
  | .fenceAck _ => none
  | .hello _ => none
  | .gorlaWrite _ => none
  | .readReq _ => none
  | .readResp _ => none
  | .gorlaSend _ => none
  | .neighborSolicitation _ _ => none
  | .echoRequest _ _ => none
  | .ptpMessage _ => none
  | .discardedFrame _ _ => none
  | .portLinkDown _ => none
  | .portLinkUp _ => none
  | .portModeChange _ => none
  | .helloTimer => none
  | .reorderWaitExpiry _ => none
  | .rtoExpiry _ => none
  | .pathProbe _ => none
  | .messageTimeout _ => none
  | .ackTimer _ => none
  | .ptpParentLoss => none
  | .holdoverExpiry => none
  | .pmbusPoll _ => none
  | .pmbAlert => none
  | .stepRaiseSettle => none
  | .spireFault => none
  | .buttressFail _ _ => none
  | .droopWarn _ _ => none
  | .droopCrit _ _ => none
  | .droopMarginExpiry _ => none
  | .vminRst => none
  | .fieldShort _ => none
  | .isolationFail _ => none
  | .sagLock => none
  | .sagRelease => none
  | .aux12Fail => none
  | .capEvaluation => none
  | .calibrationReplace _ _ _ => none
  | .hibernate _ => none
  | .wake _ => none
  | .admitWaitExpiry => none
  | .channelSample _ => none
  | .tempRead _ => none
  | .throttleStepDown => none
  | .throttleStepUp => none
  | .flowEvaluation => none
  | .flowStageEnd => none
  | .flowStop => none
  | .flowRestored => none
  | .hardLimit => none
  | .tj110 => none
  | .leak _ => none
  | .dewAlarm => none
  | .dewLimit => none
  | .valvePumpControl => none
  | .thermalCycleCount => none
  | .cycleLogWrite => none
  | .clampSenseOpen => none
  | .clampSenseClosed => none
  | .stackLost _ => none
  | .rimLost _ => none
  | .watchdogStage _ => none
  | .kick _ _ => none
  | .keepSelftest _ => none
  | .sramScrub _ _ => none
  | .keepRestart _ => none
  | .mboxGo _ => none
  | .ping _ => none
  | .info _ => none
  | .eventRead _ => none
  | .sourceEvent _ => none
  | .coalesceTimeout _ => none
  | .belfryClaim _ => none
  | .belfryComplete _ _ => none
  | .belfryForce _ _ => none
  | .belfryClockRestart => none
  | .aux12Rise => none
  | .startPhaseComplete _ => none
  | .flashDiscoveryRetry _ _ => none
  | .readyWaitExpiry => none
  | .restartKeepOnly _ => none
  | .restartWarm _ => none
  | .restartCold _ => none
  | .sessionChallenge _ => none
  | .sessionOpen _ => none
  | .sessionClose _ => none
  | .sessionSelect _ => none
  | .sessionExpiry _ => none
  | .challengeLockoutExpiry _ => none
  | .keySet _ => none
  | .keyRevoke _ => none
  | .keyInit _ => none
  | .ownerKeySet _ => none
  | .identity _ => none
  | .settingsSave _ => none
  | .defectMapRestore _ => none
  | .updateBegin _ => none
  | .updateData _ => none
  | .updateFetch _ _ => none
  | .updateEnd _ => none
  | .updateAbort _ => none
  | .activate _ => none
  | .updateConfirm _ => none
  | .rollback _ => none
  | .setEndpointId _ => none
  | .getEndpointId _ => none
  | .getEndpointUuid _ => none
  | .getMctpVersionSupport _ => none
  | .getMessageTypeSupport _ => none
  | .getVersion _ => none
  | .getCapabilities _ => none
  | .negotiateAlgorithms _ => none
  | .getDigests _ => none
  | .getCertificate _ => none
  | .spdmChallenge _ => none
  | .getMeasurements _ => none
  | .getTid _ => none
  | .getPldmVersion _ => none
  | .getPldmTypes _ => none
  | .getPldmCommands _ => none
  | .getPdrRepositoryInfo _ => none
  | .getPdr _ => none
  | .getSensorReading _ => none
  | .getStateSensorReadings _ => none
  | .setEventReceiver _ => none
  | .unsupportedMessage _ => none
  | .pllRelock _ => none
  | .keepOkWaitExpiry => none
  | .keepRestartComplete => none
  | .pcieLinkUp _ _ _ _ _ => none
  | .mgmtLinkChange _ => none
  | .neighborAdvertisement _ _ _ => none
  | .pfcFrame _ _ => none
  | .ctlTimeout _ _ => none
  | .belfryClockStop => none
  | .spirePresence _ => none
  | .busbarReturn => none

/-- A well-formed command names a core of the logical array (R33). -/
def Statement (i : Instr) : Prop := wellFormed i = true → ∀ c, coreOf i = some c → c < 14592

theorem named_alone {i : Instr} {c : Nat} (hw : wellFormed i = coreOk c) (hc : coreOf i = some c) : Statement i := by
  intro h d e
  rw [hc] at e
  cases e
  rw [hw] at h
  exact of_decide_eq_true h

theorem tickBoundary (i : TickInputs) : Statement (.tickBoundary i) := fun _ _ e => nomatch e
theorem twinHeartbeatTimer : Statement (.twinHeartbeatTimer) := fun _ _ e => nomatch e
theorem nop (c : Nat) (sl : Slot) (rsv : BitVec 58) : Statement (.nop c sl rsv) := named_alone rfl rfl
theorem br (c : Nat) (f : FmtJ) : Statement (.br c f) := named_alone rfl rfl
theorem call (c : Nat) (f : FmtJ) : Statement (.call c f) := named_alone rfl rfl
theorem ret (c : Nat) (f : FmtJ) : Statement (.ret c f) := named_alone rfl rfl
theorem loop (c : Nat) (f : FmtJ) : Statement (.loop c f) := named_alone rfl rfl
theorem twait (c : Nat) (f : FmtJ) : Statement (.twait c f) := named_alone rfl rfl
theorem idle (c : Nat) (f : FmtJ) : Statement (.idle c f) := named_alone rfl rfl
theorem beat (c : Nat) (f : FmtJ) : Statement (.beat c f) := named_alone rfl rfl
theorem stat (c : Nat) (f : FmtA) : Statement (.stat c f) := named_alone rfl rfl
theorem msend (c : Nat) (f : FmtA) : Statement (.msend c f) := named_alone rfl rfl
theorem mrecv (c : Nat) (f : FmtA) : Statement (.mrecv c f) := named_alone rfl rfl
theorem trap (c : Nat) (f : FmtJ) : Statement (.trap c f) := named_alone rfl rfl
theorem add (c : Nat) (f : FmtA) : Statement (.add c f) := named_alone rfl rfl
theorem sub (c : Nat) (f : FmtA) : Statement (.sub c f) := named_alone rfl rfl
theorem mul (c : Nat) (f : FmtA) : Statement (.mul c f) := named_alone rfl rfl
theorem and (c : Nat) (f : FmtA) : Statement (.and c f) := named_alone rfl rfl
theorem or (c : Nat) (f : FmtA) : Statement (.or c f) := named_alone rfl rfl
theorem xor (c : Nat) (f : FmtA) : Statement (.xor c f) := named_alone rfl rfl
theorem shift (c : Nat) (f : FmtA) : Statement (.shift c f) := named_alone rfl rfl
theorem cmp (c : Nat) (f : FmtA) : Statement (.cmp c f) := named_alone rfl rfl
theorem addi (c : Nat) (f : FmtI) : Statement (.addi c f) := named_alone rfl rfl
theorem li (c : Nat) (f : FmtW) : Statement (.li c f) := named_alone rfl rfl
theorem lane (c : Nat) (f : FmtV) : Statement (.lane c f) := named_alone rfl rfl
theorem movr (c : Nat) (f : FmtV) : Statement (.movr c f) := named_alone rfl rfl
theorem send (c : Nat) (f : FmtX) : Statement (.send c f) := named_alone rfl rfl
theorem recv (c : Nat) (f : FmtX) : Statement (.recv c f) := named_alone rfl rfl
theorem senda (c : Nat) (f : FmtX) : Statement (.senda c f) := named_alone rfl rfl
theorem recva (c : Nat) (f : FmtX) : Statement (.recva c f) := named_alone rfl rfl
theorem sendc (c : Nat) (f : FmtX) : Statement (.sendc c f) := named_alone rfl rfl
theorem recvc (c : Nat) (f : FmtX) : Statement (.recvc c f) := named_alone rfl rfl
theorem sends (c : Nat) (f : FmtX) : Statement (.sends c f) := named_alone rfl rfl
theorem recvs (c : Nat) (f : FmtX) : Statement (.recvs c f) := named_alone rfl rfl
theorem mm4 (c : Nat) (f : FmtMM) : Statement (.mm4 c f) := named_alone rfl rfl
theorem mm8 (c : Nat) (f : FmtM8) : Statement (.mm8 c f) := named_alone rfl rfl
theorem mmbf (c : Nat) (f : FmtM8) : Statement (.mmbf c f) := named_alone rfl rfl
theorem mclr (c : Nat) (f : FmtMC) : Statement (.mclr c f) := named_alone rfl rfl
theorem mdrain (c : Nat) (f : FmtMD) : Statement (.mdrain c f) := named_alone rfl rfl
theorem mget (c : Nat) (f : FmtMG) : Statement (.mget c f) := named_alone rfl rfl
theorem mput (c : Nat) (f : FmtMG) : Statement (.mput c f) := named_alone rfl rfl
theorem mcnt (c : Nat) (f : FmtMG) : Statement (.mcnt c f) := named_alone rfl rfl
theorem vld (c : Nat) (f : FmtVM) : Statement (.vld c f) := named_alone rfl rfl
theorem vst (c : Nat) (f : FmtVM) : Statement (.vst c f) := named_alone rfl rfl
theorem vmov (c : Nat) (f : FmtVR) : Statement (.vmov c f) := named_alone rfl rfl
theorem vbcst (c : Nat) (f : FmtVR) : Statement (.vbcst c f) := named_alone rfl rfl
theorem viota (c : Nat) (f : FmtVR) : Statement (.viota c f) := named_alone rfl rfl
theorem vperm (c : Nat) (f : FmtVR) : Statement (.vperm c f) := named_alone rfl rfl
theorem vlog (c : Nat) (f : FmtVR) : Statement (.vlog c f) := named_alone rfl rfl
theorem vadd (c : Nat) (f : FmtVR) : Statement (.vadd c f) := named_alone rfl rfl
theorem vsub (c : Nat) (f : FmtVR) : Statement (.vsub c f) := named_alone rfl rfl
theorem vmul (c : Nat) (f : FmtVR) : Statement (.vmul c f) := named_alone rfl rfl
theorem vfma (c : Nat) (f : FmtVR) : Statement (.vfma c f) := named_alone rfl rfl
theorem vmax (c : Nat) (f : FmtVR) : Statement (.vmax c f) := named_alone rfl rfl
theorem vcmp (c : Nat) (f : FmtVR) : Statement (.vcmp c f) := named_alone rfl rfl
theorem vsel (c : Nat) (f : FmtVR) : Statement (.vsel c f) := named_alone rfl rfl
theorem vcvt (c : Nat) (f : FmtVR) : Statement (.vcvt c f) := named_alone rfl rfl
theorem vred (c : Nat) (f : FmtVR) : Statement (.vred c f) := named_alone rfl rfl
theorem vfun (c : Nat) (f : FmtVR) : Statement (.vfun c f) := named_alone rfl rfl
theorem vqnt (c : Nat) (f : FmtVQ) : Statement (.vqnt c f) := named_alone rfl rfl
theorem vdq (c : Nat) (f : FmtVQ) : Statement (.vdq c f) := named_alone rfl rfl
theorem vsmx (c : Nat) (f : FmtVR) : Statement (.vsmx c f) := named_alone rfl rfl
theorem vsnrm (c : Nat) (f : FmtVR) : Statement (.vsnrm c f) := named_alone rfl rfl
theorem vlse (c : Nat) (f : FmtVR) : Statement (.vlse c f) := named_alone rfl rfl
theorem vnrm (c : Nat) (f : FmtVR) : Statement (.vnrm c f) := named_alone rfl rfl
theorem vshr (c : Nat) (f : FmtVR) : Statement (.vshr c f) := named_alone rfl rfl
theorem cdot (c : Nat) (f : FmtCD) : Statement (.cdot c f) := named_alone rfl rfl
theorem cadd (c : Nat) (f : FmtCA) : Statement (.cadd c f) := named_alone rfl rfl
theorem cscl (c : Nat) (f : FmtCS) : Statement (.cscl c f) := named_alone rfl rfl
theorem cup (c : Nat) (f : FmtCU) : Statement (.cup c f) := named_alone rfl rfl
theorem cmov (c : Nat) (f : FmtCM) : Statement (.cmov c f) := named_alone rfl rfl
theorem tskip (c : Nat) (rsv : BitVec 58) : Statement (.tskip c rsv) := named_alone rfl rfl
theorem resultLanding (c : Nat) : Statement (.resultLanding c) := named_alone rfl rfl
theorem routerForward (c : Nat) (i : RouterIn) : Statement (.routerForward c i) := by
  intro h d e
  cases e
  simp only [wellFormed, Bool.and_eq_true] at h
  exact of_decide_eq_true h.1
theorem ingressWrite (c : Nat) : Statement (.ingressWrite c) := named_alone rfl rfl
theorem heldEntryLand (c : Nat) : Statement (.heldEntryLand c) := named_alone rfl rfl
theorem egressRead (c : Nat) : Statement (.egressRead c) := named_alone rfl rfl
theorem hbShort (h : Hb) : Statement (.hbShort h) := named_alone rfl rfl
theorem hbLong (h : Hb) : Statement (.hbLong h) := named_alone rfl rfl
theorem lanternSummaryDeadline (f : Nat) : Statement (.lanternSummaryDeadline f) := fun _ _ e => nomatch e
theorem summary (m : Summary) : Statement (.summary m) := fun _ _ e => nomatch e
theorem heartbeatMiss (c : Nat) : Statement (.heartbeatMiss c) := named_alone rfl rfl
theorem coreStatusTimeout (c : Nat) : Statement (.coreStatusTimeout c) := named_alone rfl rfl
theorem lanternSilent (f : Nat) : Statement (.lanternSilent f) := fun _ _ e => nomatch e
theorem stopPacket (p : CtlPacket) : Statement (.stopPacket p) := fun _ _ e => nomatch e
theorem regRd (p : CtlPacket) : Statement (.regRd p) := fun _ _ e => nomatch e
theorem regWr (p : CtlPacket) : Statement (.regWr p) := fun _ _ e => nomatch e
theorem regRsp (p : CtlPacket) : Statement (.regRsp p) := fun _ _ e => nomatch e
theorem mboxWord (p : CtlPacket) : Statement (.mboxWord p) := fun _ _ e => nomatch e
theorem debugPacket (p : CtlPacket) : Statement (.debugPacket p) := fun _ _ e => nomatch e
theorem reportPacket (p : CtlPacket) : Statement (.reportPacket p) := fun _ _ e => nomatch e
theorem rowRepair (c row : Nat) (mismatch : Bool) : Statement (.rowRepair c row mismatch) := by
  intro h d e
  cases e
  simp only [wellFormed, Bool.and_eq_true] at h
  exact of_decide_eq_true h.1
theorem regionReplay (r : Nat) : Statement (.regionReplay r) := fun _ _ e => nomatch e
theorem substitution (f row col : Nat) : Statement (.substitution f row col) := fun _ _ e => nomatch e
theorem regionRecovery (r : Nat) : Statement (.regionRecovery r) := fun _ _ e => nomatch e
theorem pllLockLoss (half : Nat) : Statement (.pllLockLoss half) := fun _ _ e => nomatch e
theorem clockReturn : Statement (.clockReturn) := fun _ _ e => nomatch e
theorem refclkLoss : Statement (.refclkLoss) := fun _ _ e => nomatch e
theorem refclkRestore : Statement (.refclkRestore) := fun _ _ e => nomatch e
theorem clearFallback (a : Agent) : Statement (.clearFallback a) := fun _ _ e => nomatch e
theorem commit (a : Agent) (addr : Nat) : Statement (.commit a addr) := fun _ _ e => nomatch e
theorem registerWrite (a : Agent) (addr width : Nat) (value : Word) : Statement (.registerWrite a addr width value) := fun _ _ e => nomatch e
theorem readClear (a : Agent) (addr width : Nat) : Statement (.readClear a addr width) := fun _ _ e => nomatch e
theorem debugRowGo (a : Agent) (c row : Nat) : Statement (.debugRowGo a c row) := by
  intro h d e
  cases e
  simp only [wellFormed, Bool.and_eq_true] at h
  exact of_decide_eq_true h.1.2
theorem bind (a : Agent) (r plan : Nat) (autorun keepLees : Bool) : Statement (.bind a r plan autorun keepLees) := fun _ _ e => nomatch e
theorem regionRun (a : Agent) (r : Nat) : Statement (.regionRun a r) := fun _ _ e => nomatch e
theorem regionStop (a : Agent) (r : Nat) : Statement (.regionStop a r) := fun _ _ e => nomatch e
theorem unbind (a : Agent) (r : Nat) : Statement (.unbind a r) := fun _ _ e => nomatch e
theorem release (a : Agent) (r : Nat) : Statement (.release a r) := fun _ _ e => nomatch e
theorem rebind (a : Agent) (r plan tenant : Nat) (autorun keepLees : Bool) : Statement (.rebind a r plan tenant autorun keepLees) := fun _ _ e => nomatch e
theorem holdExpiry (r : Nat) : Statement (.holdExpiry r) := fun _ _ e => nomatch e
theorem loadCode (c : Nat) (h : LoadHdr) (words : List NetWord) (linkOk : Bool) : Statement (.loadCode c h words linkOk) := by
  intro h d e
  cases e
  simp only [wellFormed, Bool.and_eq_true] at h
  exact of_decide_eq_true h.1
theorem loadRoute (c : Nat) (h : LoadHdr) (words : List NetWord) (linkOk : Bool) : Statement (.loadRoute c h words linkOk) := by
  intro h d e
  cases e
  simp only [wellFormed, Bool.and_eq_true] at h
  exact of_decide_eq_true h.1
theorem loadRows (c : Nat) (h : LoadHdr) (words : List NetWord) (linkOk : Bool) : Statement (.loadRows c h words linkOk) := by
  intro h d e
  cases e
  simp only [wellFormed, Bool.and_eq_true] at h
  exact of_decide_eq_true h.1
theorem loadReg (c : Nat) (h : LoadHdr) (words : List NetWord) (linkOk : Bool) : Statement (.loadReg c h words linkOk) := by
  intro h d e
  cases e
  simp only [wellFormed, Bool.and_eq_true] at h
  exact of_decide_eq_true h.1
theorem loadEnd (c : Nat) (h : LoadHdr) (linkOk : Bool) : Statement (.loadEnd c h linkOk) := by
  intro h d e
  cases e
  simp only [wellFormed, Bool.and_eq_true] at h
  exact of_decide_eq_true h.1
theorem sweepComplete (c : Nat) : Statement (.sweepComplete c) := named_alone rfl rfl
theorem unitMboxWrite (a : Agent) (r : Nat) (value : Word) : Statement (.unitMboxWrite a r value) := fun _ _ e => nomatch e
theorem unitMboxRead (a : Agent) (r : Nat) : Statement (.unitMboxRead a r) := fun _ _ e => nomatch e
theorem reclaim (a : Agent) (t : Nat) : Statement (.reclaim a t) := fun _ _ e => nomatch e
theorem storeHost (a : Agent) (data : Option (List Byte)) : Statement (.storeHost a data) := fun _ _ e => nomatch e
theorem fetchHall (a : Agent) : Statement (.fetchHall a) := fun _ _ e => nomatch e
theorem imageArrival (data : List Byte) : Statement (.imageArrival data) := fun _ _ e => nomatch e
theorem caskDelete (a : Agent) : Statement (.caskDelete a) := fun _ _ e => nomatch e
theorem caskVerify (a : Agent) (mismatch : Bool) : Statement (.caskVerify a mismatch) := fun _ _ e => nomatch e
theorem caskScrub (bad : List ScrubFind) (copies : List Nat) : Statement (.caskScrub bad copies) := fun _ _ e => nomatch e
theorem rackLoad (a : Agent) (r plan : Nat) : Statement (.rackLoad a r plan) := fun _ _ e => nomatch e
theorem rackFlip (a : Agent) (peerLoaded : Bool) : Statement (.rackFlip a peerLoaded) := fun _ _ e => nomatch e
theorem rackAbort (a : Agent) : Statement (.rackAbort a) := fun _ _ e => nomatch e
theorem drainDeadline (r : Nat) : Statement (.drainDeadline r) := fun _ _ e => nomatch e
theorem qpEnable (a : Agent) (qp : Nat) : Statement (.qpEnable a qp) := fun _ _ e => nomatch e
theorem qpDisable (a : Agent) (qp : Nat) : Statement (.qpDisable a qp) := fun _ _ e => nomatch e
theorem ledgerNop (id : Nat) : Statement (.ledgerNop id) := fun _ _ e => nomatch e
theorem openStream (id : Nat) : Statement (.openStream id) := fun _ _ e => nomatch e
theorem append (id : Nat) : Statement (.append id) := fun _ _ e => nomatch e
theorem generate (id : Nat) : Statement (.generate id) := fun _ _ e => nomatch e
theorem truncate (id : Nat) : Statement (.truncate id) := fun _ _ e => nomatch e
theorem fork (id : Nat) : Statement (.fork id) := fun _ _ e => nomatch e
theorem park (id : Nat) : Statement (.park id) := fun _ _ e => nomatch e
theorem resume (id : Nat) : Statement (.resume id) := fun _ _ e => nomatch e
theorem closeStream (id : Nat) : Statement (.closeStream id) := fun _ _ e => nomatch e
theorem query (id : Nat) : Statement (.query id) := fun _ _ e => nomatch e
theorem sampleToken (h : BitVec 32) (logits : List (List (BitVec 32))) (drafts : List Nat) : Statement (.sampleToken h logits drafts) := fun _ _ e => nomatch e
theorem seating (h : BitVec 32) : Statement (.seating h) := fun _ _ e => nomatch e
theorem unseat (h : BitVec 32) : Statement (.unseat h) := fun _ _ e => nomatch e
theorem sealCellarWrite (h : BitVec 32) (layer block : Nat) : Statement (.sealCellarWrite h layer block) := fun _ _ e => nomatch e
theorem spill : Statement (.spill) := fun _ _ e => nomatch e
theorem reprefill (h : BitVec 32) : Statement (.reprefill h) := fun _ _ e => nomatch e
theorem flr (port : Nat) : Statement (.flr port) := fun _ _ e => nomatch e
theorem pcieLinkDown (port : Nat) (ide : Bool) : Statement (.pcieLinkDown port ide) := fun _ _ e => nomatch e
theorem perst (port : Nat) : Statement (.perst port) := fun _ _ e => nomatch e
theorem pairEnSet : Statement (.pairEnSet) := fun _ _ e => nomatch e
theorem pairEnClear : Statement (.pairEnClear) := fun _ _ e => nomatch e
theorem offerTimer : Statement (.offerTimer) := fun _ _ e => nomatch e
theorem offer (m : OfferMsg) : Statement (.offer m) := fun _ _ e => nomatch e
theorem keyx (m : KeyxMsg) : Statement (.keyx m) := fun _ _ e => nomatch e
theorem syncComplete : Statement (.syncComplete) := fun _ _ e => nomatch e
theorem twinHeartbeat (m : TwinHb) : Statement (.twinHeartbeat m) := fun _ _ e => nomatch e
theorem twinHeartbeatMiss : Statement (.twinHeartbeatMiss) := fun _ _ e => nomatch e
theorem fenceResend : Statement (.fenceResend) := fun _ _ e => nomatch e
theorem fenceConfirm (a : Agent) : Statement (.fenceConfirm a) := fun _ _ e => nomatch e
theorem fenceWaitExpiry : Statement (.fenceWaitExpiry) := fun _ _ e => nomatch e
theorem handover : Statement (.handover) := fun _ _ e => nomatch e
theorem journal (recs : List JRec) : Statement (.journal recs) := fun _ _ e => nomatch e
theorem ack (m : AckMsg) : Statement (.ack m) := fun _ _ e => nomatch e
theorem nak (m : NakMsg) : Statement (.nak m) := fun _ _ e => nomatch e
theorem fence (m : FenceMsg) : Statement (.fence m) := fun _ _ e => nomatch e
theorem fenceAck (m : FenceMsg) : Statement (.fenceAck m) := fun _ _ e => nomatch e
theorem hello (m : HelloMsg) : Statement (.hello m) := fun _ _ e => nomatch e
theorem gorlaWrite (m : GFrame) : Statement (.gorlaWrite m) := fun _ _ e => nomatch e
theorem readReq (m : GFrame) : Statement (.readReq m) := fun _ _ e => nomatch e
theorem readResp (m : GFrame) : Statement (.readResp m) := fun _ _ e => nomatch e
theorem gorlaSend (m : GFrame) : Statement (.gorlaSend m) := fun _ _ e => nomatch e
theorem neighborSolicitation (port : Nat) (target : BitVec 128) : Statement (.neighborSolicitation port target) := fun _ _ e => nomatch e
theorem echoRequest (port : Nat) (target : BitVec 128) : Statement (.echoRequest port target) := fun _ _ e => nomatch e
theorem ptpMessage (m : PtpMsg) : Statement (.ptpMessage m) := fun _ _ e => nomatch e
theorem discardedFrame (port : Nat) (why : DropCause) : Statement (.discardedFrame port why) := fun _ _ e => nomatch e
theorem portLinkDown (port : Nat) : Statement (.portLinkDown port) := fun _ _ e => nomatch e
theorem portLinkUp (port : Nat) : Statement (.portLinkUp port) := fun _ _ e => nomatch e
theorem portModeChange (port : Nat) : Statement (.portModeChange port) := fun _ _ e => nomatch e
theorem helloTimer : Statement (.helloTimer) := fun _ _ e => nomatch e
theorem reorderWaitExpiry (msg : Nat) : Statement (.reorderWaitExpiry msg) := fun _ _ e => nomatch e
theorem rtoExpiry (path : Nat) : Statement (.rtoExpiry path) := fun _ _ e => nomatch e
theorem pathProbe (path : Nat) : Statement (.pathProbe path) := fun _ _ e => nomatch e
theorem messageTimeout (msg : Nat) : Statement (.messageTimeout msg) := fun _ _ e => nomatch e
theorem ackTimer (dst : BitVec 16) : Statement (.ackTimer dst) := fun _ _ e => nomatch e
theorem ptpParentLoss : Statement (.ptpParentLoss) := fun _ _ e => nomatch e
theorem holdoverExpiry : Statement (.holdoverExpiry) := fun _ _ e => nomatch e
theorem pmbusPoll (m : PmbusReading) : Statement (.pmbusPoll m) := fun _ _ e => nomatch e
theorem pmbAlert : Statement (.pmbAlert) := fun _ _ e => nomatch e
theorem stepRaiseSettle : Statement (.stepRaiseSettle) := fun _ _ e => nomatch e
theorem spireFault : Statement (.spireFault) := fun _ _ e => nomatch e
theorem buttressFail (f b : Nat) : Statement (.buttressFail f b) := fun _ _ e => nomatch e
theorem droopWarn (f mv : Nat) : Statement (.droopWarn f mv) := fun _ _ e => nomatch e
theorem droopCrit (f mv : Nat) : Statement (.droopCrit f mv) := fun _ _ e => nomatch e
theorem droopMarginExpiry (f : Nat) : Statement (.droopMarginExpiry f) := fun _ _ e => nomatch e
theorem vminRst : Statement (.vminRst) := fun _ _ e => nomatch e
theorem fieldShort (f : Nat) : Statement (.fieldShort f) := fun _ _ e => nomatch e
theorem isolationFail (q : Nat) : Statement (.isolationFail q) := fun _ _ e => nomatch e
theorem sagLock : Statement (.sagLock) := fun _ _ e => nomatch e
theorem sagRelease : Statement (.sagRelease) := fun _ _ e => nomatch e
theorem aux12Fail : Statement (.aux12Fail) := fun _ _ e => nomatch e
theorem capEvaluation : Statement (.capEvaluation) := fun _ _ e => nomatch e
theorem calibrationReplace (kind item value : Nat) : Statement (.calibrationReplace kind item value) := fun _ _ e => nomatch e
theorem hibernate (f : Nat) : Statement (.hibernate f) := fun _ _ e => nomatch e
theorem wake (f : Nat) : Statement (.wake f) := fun _ _ e => nomatch e
theorem admitWaitExpiry : Statement (.admitWaitExpiry) := fun _ _ e => nomatch e
theorem channelSample (cs : List ChanSample) : Statement (.channelSample cs) := fun _ _ e => nomatch e
theorem tempRead (m : TempReading) : Statement (.tempRead m) := fun _ _ e => nomatch e
theorem throttleStepDown : Statement (.throttleStepDown) := fun _ _ e => nomatch e
theorem throttleStepUp : Statement (.throttleStepUp) := fun _ _ e => nomatch e
theorem flowEvaluation : Statement (.flowEvaluation) := fun _ _ e => nomatch e
theorem flowStageEnd : Statement (.flowStageEnd) := fun _ _ e => nomatch e
theorem flowStop : Statement (.flowStop) := fun _ _ e => nomatch e
theorem flowRestored : Statement (.flowRestored) := fun _ _ e => nomatch e
theorem hardLimit : Statement (.hardLimit) := fun _ _ e => nomatch e
theorem tj110 : Statement (.tj110) := fun _ _ e => nomatch e
theorem leak (cable : Nat) : Statement (.leak cable) := fun _ _ e => nomatch e
theorem dewAlarm : Statement (.dewAlarm) := fun _ _ e => nomatch e
theorem dewLimit : Statement (.dewLimit) := fun _ _ e => nomatch e
theorem valvePumpControl : Statement (.valvePumpControl) := fun _ _ e => nomatch e
theorem thermalCycleCount : Statement (.thermalCycleCount) := fun _ _ e => nomatch e
theorem cycleLogWrite : Statement (.cycleLogWrite) := fun _ _ e => nomatch e
theorem clampSenseOpen : Statement (.clampSenseOpen) := fun _ _ e => nomatch e
theorem clampSenseClosed : Statement (.clampSenseClosed) := fun _ _ e => nomatch e
theorem stackLost (st : Nat) : Statement (.stackLost st) := fun _ _ e => nomatch e
theorem rimLost (seg : Nat) : Statement (.rimLost seg) := fun _ _ e => nomatch e
theorem watchdogStage (m : Nat) : Statement (.watchdogStage m) := fun _ _ e => nomatch e
theorem kick (a : Agent) (m : Nat) : Statement (.kick a m) := fun _ _ e => nomatch e
theorem keepSelftest (fails : List Nat) : Statement (.keepSelftest fails) := fun _ _ e => nomatch e
theorem sramScrub (corr : Nat) (uncorr : Bool) : Statement (.sramScrub corr uncorr) := fun _ _ e => nomatch e
theorem keepRestart (cause : Nat) : Statement (.keepRestart cause) := fun _ _ e => nomatch e
theorem mboxGo (port : Nat) : Statement (.mboxGo port) := fun _ _ e => nomatch e
theorem ping (q : Req) : Statement (.ping q) := fun _ _ e => nomatch e
theorem info (q : Req) : Statement (.info q) := fun _ _ e => nomatch e
theorem eventRead (q : Req) : Statement (.eventRead q) := fun _ _ e => nomatch e
theorem sourceEvent (src : Nat) : Statement (.sourceEvent src) := fun _ _ e => nomatch e
theorem coalesceTimeout (src : Nat) : Statement (.coalesceTimeout src) := fun _ _ e => nomatch e
theorem belfryClaim (a : Agent) : Statement (.belfryClaim a) := fun _ _ e => nomatch e
theorem belfryComplete (a : Agent) (src : Nat) : Statement (.belfryComplete a src) := fun _ _ e => nomatch e
theorem belfryForce (a : Agent) (src : Nat) : Statement (.belfryForce a src) := fun _ _ e => nomatch e
theorem belfryClockRestart : Statement (.belfryClockRestart) := fun _ _ e => nomatch e
theorem aux12Rise : Statement (.aux12Rise) := fun _ _ e => nomatch e
theorem startPhaseComplete (m : PhaseResult) : Statement (.startPhaseComplete m) := fun _ _ e => nomatch e
theorem flashDiscoveryRetry (fl0 fl1 : Bool) : Statement (.flashDiscoveryRetry fl0 fl1) := fun _ _ e => nomatch e
theorem readyWaitExpiry : Statement (.readyWaitExpiry) := fun _ _ e => nomatch e
theorem restartKeepOnly (a : Agent) : Statement (.restartKeepOnly a) := fun _ _ e => nomatch e
theorem restartWarm (a : Agent) : Statement (.restartWarm a) := fun _ _ e => nomatch e
theorem restartCold (a : Agent) : Statement (.restartCold a) := fun _ _ e => nomatch e
theorem sessionChallenge (q : Req) : Statement (.sessionChallenge q) := fun _ _ e => nomatch e
theorem sessionOpen (q : Req) : Statement (.sessionOpen q) := fun _ _ e => nomatch e
theorem sessionClose (q : Req) : Statement (.sessionClose q) := fun _ _ e => nomatch e
theorem sessionSelect (q : Req) : Statement (.sessionSelect q) := fun _ _ e => nomatch e
theorem sessionExpiry (h : BitVec 32) : Statement (.sessionExpiry h) := fun _ _ e => nomatch e
theorem challengeLockoutExpiry (ch : Nat) : Statement (.challengeLockoutExpiry ch) := fun _ _ e => nomatch e
theorem keySet (q : Req) : Statement (.keySet q) := fun _ _ e => nomatch e
theorem keyRevoke (q : Req) : Statement (.keyRevoke q) := fun _ _ e => nomatch e
theorem keyInit (q : Req) : Statement (.keyInit q) := fun _ _ e => nomatch e
theorem ownerKeySet (q : Req) : Statement (.ownerKeySet q) := fun _ _ e => nomatch e
theorem identity (q : Req) : Statement (.identity q) := fun _ _ e => nomatch e
theorem settingsSave (q : Req) : Statement (.settingsSave q) := fun _ _ e => nomatch e
theorem defectMapRestore (q : Req) : Statement (.defectMapRestore q) := fun _ _ e => nomatch e
theorem updateBegin (q : Req) : Statement (.updateBegin q) := fun _ _ e => nomatch e
theorem updateData (q : Req) : Statement (.updateData q) := fun _ _ e => nomatch e
theorem updateFetch (q : Req) (data : Option (List Byte)) : Statement (.updateFetch q data) := fun _ _ e => nomatch e
theorem updateEnd (q : Req) : Statement (.updateEnd q) := fun _ _ e => nomatch e
theorem updateAbort (q : Req) : Statement (.updateAbort q) := fun _ _ e => nomatch e
theorem activate (q : Req) : Statement (.activate q) := fun _ _ e => nomatch e
theorem updateConfirm (q : Req) : Statement (.updateConfirm q) := fun _ _ e => nomatch e
theorem rollback (q : Req) : Statement (.rollback q) := fun _ _ e => nomatch e
theorem setEndpointId (m : MctpMsg) : Statement (.setEndpointId m) := fun _ _ e => nomatch e
theorem getEndpointId (m : MctpMsg) : Statement (.getEndpointId m) := fun _ _ e => nomatch e
theorem getEndpointUuid (m : MctpMsg) : Statement (.getEndpointUuid m) := fun _ _ e => nomatch e
theorem getMctpVersionSupport (m : MctpMsg) : Statement (.getMctpVersionSupport m) := fun _ _ e => nomatch e
theorem getMessageTypeSupport (m : MctpMsg) : Statement (.getMessageTypeSupport m) := fun _ _ e => nomatch e
theorem getVersion (m : MctpMsg) : Statement (.getVersion m) := fun _ _ e => nomatch e
theorem getCapabilities (m : MctpMsg) : Statement (.getCapabilities m) := fun _ _ e => nomatch e
theorem negotiateAlgorithms (m : MctpMsg) : Statement (.negotiateAlgorithms m) := fun _ _ e => nomatch e
theorem getDigests (m : MctpMsg) : Statement (.getDigests m) := fun _ _ e => nomatch e
theorem getCertificate (m : MctpMsg) : Statement (.getCertificate m) := fun _ _ e => nomatch e
theorem spdmChallenge (m : MctpMsg) : Statement (.spdmChallenge m) := fun _ _ e => nomatch e
theorem getMeasurements (m : MctpMsg) : Statement (.getMeasurements m) := fun _ _ e => nomatch e
theorem getTid (m : MctpMsg) : Statement (.getTid m) := fun _ _ e => nomatch e
theorem getPldmVersion (m : MctpMsg) : Statement (.getPldmVersion m) := fun _ _ e => nomatch e
theorem getPldmTypes (m : MctpMsg) : Statement (.getPldmTypes m) := fun _ _ e => nomatch e
theorem getPldmCommands (m : MctpMsg) : Statement (.getPldmCommands m) := fun _ _ e => nomatch e
theorem getPdrRepositoryInfo (m : MctpMsg) : Statement (.getPdrRepositoryInfo m) := fun _ _ e => nomatch e
theorem getPdr (m : MctpMsg) : Statement (.getPdr m) := fun _ _ e => nomatch e
theorem getSensorReading (m : MctpMsg) : Statement (.getSensorReading m) := fun _ _ e => nomatch e
theorem getStateSensorReadings (m : MctpMsg) : Statement (.getStateSensorReadings m) := fun _ _ e => nomatch e
theorem setEventReceiver (m : MctpMsg) : Statement (.setEventReceiver m) := fun _ _ e => nomatch e
theorem unsupportedMessage (m : MctpMsg) : Statement (.unsupportedMessage m) := fun _ _ e => nomatch e
theorem pllRelock (half : Nat) : Statement (.pllRelock half) := fun _ _ e => nomatch e
theorem keepOkWaitExpiry : Statement (.keepOkWaitExpiry) := fun _ _ e => nomatch e
theorem keepRestartComplete : Statement (.keepRestartComplete) := fun _ _ e => nomatch e
theorem pcieLinkUp (port : Nat) (bifurcated bme : Bool) (masked : List Nat) (bar2 : Option Nat) : Statement (.pcieLinkUp port bifurcated bme masked bar2) := fun _ _ e => nomatch e
theorem mgmtLinkChange (up : Bool) : Statement (.mgmtLinkChange up) := fun _ _ e => nomatch e
theorem neighborAdvertisement (port : Nat) (target : BitVec 128) (mac : BitVec 48) : Statement (.neighborAdvertisement port target mac) := fun _ _ e => nomatch e
theorem pfcFrame (port : Nat) (quanta : List (Nat × Nat)) : Statement (.pfcFrame port quanta) := fun _ _ e => nomatch e
theorem ctlTimeout (a : Agent) (addr : Nat) : Statement (.ctlTimeout a addr) := fun _ _ e => nomatch e
theorem belfryClockStop : Statement (.belfryClockStop) := fun _ _ e => nomatch e
theorem spirePresence (low : Bool) : Statement (.spirePresence low) := fun _ _ e => nomatch e
theorem busbarReturn : Statement (.busbarReturn) := fun _ _ e => nomatch e

end Sys2Proof.Laws.CoreNamed
end

