-- ==== Sys2Proof/Laws/Raised.lean ====
section
/-! SUPPORT. Everything that raising a source or an event can do. -/

namespace Sys2Proof.Machine

/-- s and t differ at most in live registers, the Belfry and the port's PCIe functions. -/
structure BelfryOnly (s t : State) : Prop where
  same : ∃ g b p, t = { s with regs := g, bel := b, pcie := p }

/-- s and t differ at most in what an event's raise writes. -/
structure RaiseOnly (s t : State) : Prop where
  same : ∃ g b p e a d, t = { s with regs := g, bel := b, pcie := p, events := e, alarmFlash := a, alarmsDeferred := d }

theorem BelfryOnly.refl (s : State) : BelfryOnly s s := ⟨s.regs, s.bel, s.pcie, rfl⟩

theorem BelfryOnly.trans {s t u : State} (h : BelfryOnly s t) (k : BelfryOnly t u) : BelfryOnly s u := by
  obtain ⟨g, b, p, rfl⟩ := h
  obtain ⟨g', b', p', rfl⟩ := k
  exact ⟨g', b', p', rfl⟩

theorem BelfryOnly.wr (s : State) (f : Field) (i v : Nat) : BelfryOnly s (wr s f i v) := ⟨_, s.bel, s.pcie, rfl⟩

theorem BelfryOnly.sendMsi (s : State) (p v : Nat) : BelfryOnly s (sendMsi s p v).1 := by
  unfold Machine.sendMsi
  simp only []
  split
  · exact .wr ..
  · split
    · exact ⟨_, _, _, rfl⟩
    · exact ⟨_, _, _, rfl⟩

theorem BelfryOnly.takePending (s : State) (src : Nat) : BelfryOnly s (takePending s src) := by
  refine BelfryOnly.trans ?_ ⟨_, _, _, rfl⟩
  exact (BelfryOnly.wr s _ _ _).trans (.wr ..)

theorem BelfryOnly.notifyHost (src : Nat) (s : State) (t : Nat) : BelfryOnly s (notifyHost src s t) := by
  unfold Machine.notifyHost
  split
  · split
    · exact .refl s
    · have h := BelfryOnly.sendMsi s (t - 8) (rd s F.BELFRY_SRC_CFG_VECTOR src)
      simp only []
      split
      · exact h.trans (.takePending ..)
      · exact h.trans ⟨_, _, _, rfl⟩
  · exact ⟨_, _, _, rfl⟩

theorem BelfryOnly.evalSource (s : State) (src : Nat) : BelfryOnly s (evalSource s src) :=
  ((BelfryOnly.wr s _ _ _).trans (.notifyHost ..)).trans (.notifyHost ..)

theorem BelfryOnly.addPending (s : State) (src : Nat) : BelfryOnly s (addPending s src) := by
  unfold Machine.addPending
  simp only []
  split
  · exact (BelfryOnly.wr s _ _ _).trans (.wr ..)
  · split <;> split
    · exact ((BelfryOnly.wr s _ _ _).trans ⟨_, _, _, rfl⟩).trans (.wr ..)
    · exact (BelfryOnly.wr s _ _ _).trans (.wr ..)
    · exact (BelfryOnly.wr s _ _ _).trans ⟨_, _, _, rfl⟩
    · exact .wr ..

/-- Raising a source touches live registers, the Belfry and the PCIe functions, and nothing else. -/
theorem BelfryOnly.raiseSource (s : State) (src : Nat) : BelfryOnly s (raiseSource s src) := by
  unfold Machine.raiseSource
  split
  · split
    · exact .refl s
    · exact ⟨_, _, _, rfl⟩
  · exact (BelfryOnly.addPending s src).trans (.evalSource ..)

/-- Raising an event touches what raising its source does, and the log and the records of alarms. -/
theorem RaiseOnly.raiseEv (s : State) (k : EvKind) (code tenant region unit : Nat) (data : Word) :
    RaiseOnly s (raiseEv s k code tenant region unit data) := by
  unfold Machine.raiseEv
  simp only []
  split
  · split
    · obtain ⟨g, b, p, h⟩ := (BelfryOnly.raiseSource _ (256 + k.code)).same
      exact ⟨g, b, p, _, _, _, h⟩
    · obtain ⟨g, b, p, h⟩ := (BelfryOnly.raiseSource _ (256 + k.code)).same
      exact ⟨g, b, p, _, _, _, h⟩
  · obtain ⟨g, b, p, h⟩ := (BelfryOnly.raiseSource _ (256 + k.code)).same
    exact ⟨g, b, p, _, _, _, h⟩

/-- An event that is raised becomes the newest record of the log, with the sequence number after the last (R476). -/
theorem raiseEv_events (s : State) (k : EvKind) (code tenant region unit : Nat) (data : Word) :
    (raiseEv s k code tenant region unit data).events =
      ⟨hallNs s, rd s F.KEEP_EV_SEQ_SEQ 0 + 1, code, k.code, tenant, region, unit, data⟩ :: s.events.take 4095 := by
  unfold Machine.raiseEv
  simp only []
  split
  · split
    · obtain ⟨g, b, p, h⟩ := (BelfryOnly.raiseSource _ (256 + k.code)).same
      rw [h]; rfl
    · obtain ⟨g, b, p, h⟩ := (BelfryOnly.raiseSource _ (256 + k.code)).same
      rw [h]; rfl
  · obtain ⟨g, b, p, h⟩ := (BelfryOnly.raiseSource _ (256 + k.code)).same
    rw [h]; rfl

end Sys2Proof.Machine
end

