-- ==== Sys2Proof/Tests/Slice0.lean ====
section
/-! SUPPORT. Tests: ill-formed commands that the check refuses, slot words written out from the tables of the spec, single steps whose results are
worked by hand from the rules, and, for each statement, a state and operands that meet the hypotheses of its clauses. -/

namespace Sys2Proof.Tests

open Sys2Proof Sys2Proof.Machine Sys2Proof.Claims

set_option Elab.async false

/-! ## Well-formedness: one ill-formed command for each check -/

theorem test_wf_core : wellFormed (.resultLanding 14592) = false ∧ wellFormed (.resultLanding 14591) = true := by decide
theorem test_wf_field : wellFormed (.hibernate 48) = false ∧ wellFormed (.hibernate 47) = true := by decide
theorem test_wf_region : wellFormed (.regionReplay 4096) = false ∧ wellFormed (.regionReplay 4095) = true := by decide
theorem test_wf_tenant : wellFormed (.reclaim (.mc 0) 256) = false ∧ wellFormed (.reclaim (.mc 0) 255) = true := by decide
theorem test_wf_pcie : wellFormed (.flr 2) = false ∧ wellFormed (.flr 1) = true := by decide
theorem test_wf_net_port : wellFormed (.portLinkUp 64) = false ∧ wellFormed (.portLinkUp 63) = true := by decide
theorem test_wf_source : wellFormed (.sourceEvent 0) = false ∧ wellFormed (.sourceEvent 1024) = false ∧ wellFormed (.sourceEvent 1023) = true := by decide
theorem test_wf_agent : wellFormed (.rackAbort (.host 2)) = false ∧ wellFormed (.rackAbort (.mc 8)) = false ∧
    wellFormed (.rackAbort (.session 0)) = true := by decide
theorem test_wf_width : wellFormed (.readClear (.host 0) 0 3) = false ∧ wellFormed (.readClear (.host 0) 0 4) = true := by decide
theorem test_wf_packet : wellFormed (.regRd ⟨5, 0, 2, 0, 0, 0, 0, [0]⟩) = false ∧ wellFormed (.regRd ⟨5, 0, 1, 0, 0, 0, 0, [0]⟩) = true := by decide
theorem test_wf_load : wellFormed (.loadEnd 0 ⟨0, false, 8192, 0, 0, true⟩ true) = false ∧
    wellFormed (.loadEnd 0 ⟨0, false, 8191, 0, 0, true⟩ true) = true := by decide
theorem test_wf_request : wellFormed (.ping ⟨5, 0, 0, 0, 0, 0, [], [], 0⟩) = false ∧ wellFormed (.ping ⟨4, 0, 0, 0, 0, 0, [], [], 0⟩) = true := by decide
theorem test_wf_row : wellFormed (.debugRowGo (.mc 0) 0 131072) = false ∧ wellFormed (.debugRowGo (.mc 0) 0 131071) = true := by decide
theorem test_wf_repair_row : wellFormed (.rowRepair 0 131072 true) = false ∧ wellFormed (.rowRepair 0 131071 true) = true := by decide
theorem test_wf_tile : wellFormed (.substitution 0 16 0) = false ∧ wellFormed (.substitution 0 0 20) = false ∧
    wellFormed (.substitution 47 15 19) = true := by decide
theorem test_wf_half : wellFormed (.pllLockLoss 2) = false ∧ wellFormed (.pllRelock 2) = false := by decide
theorem test_wf_plan : wellFormed (.bind (.mc 0) 0 (2 ^ 32) true true) = false ∧ wellFormed (.bind (.mc 0) 0 (2 ^ 32 - 1) true true) = true := by decide
theorem test_wf_queue_pair : wellFormed (.qpEnable (.mc 0) 64) = false ∧ wellFormed (.qpDisable (.mc 0) 63) = true := by decide
theorem test_wf_buttress : wellFormed (.buttressFail 0 64) = false ∧ wellFormed (.buttressFail 47 63) = true := by decide
theorem test_wf_quadrant : wellFormed (.isolationFail 4) = false ∧ wellFormed (.isolationFail 3) = true := by decide
theorem test_wf_cable : wellFormed (.leak 2) = false ∧ wellFormed (.leak 1) = true := by decide
theorem test_wf_rim : wellFormed (.rimLost 4) = false ∧ wellFormed (.rimLost 3) = true := by decide
theorem test_wf_watchdog : wellFormed (.watchdogStage 8) = false ∧ wellFormed (.kick (.mc 0) 8) = false := by decide
theorem test_wf_channel : wellFormed (.challengeLockoutExpiry 5) = false ∧ wellFormed (.challengeLockoutExpiry 4) = true := by decide

/-! ## Slot words, field by field from the format tables of R124, R141, R153, R160, R170 and R172 -/

/-- R124, R125: ADD (0x10) s3, s1, s2. -/
theorem test_word_add : decodeSlot 7 .ctl (0b010000_00011_00001_00010_000 <<< 40) = some (.add 7 ⟨3, 1, 2, 0, 0⟩) := by decide
/-- R125: LI (0x19) s5 = −1 with H. -/
theorem test_word_li : decodeSlot 7 .ctl (0b011001_00101_0000_1 <<< 48 ||| 0xFFFFFFFFFFFF) = some (.li 7 ⟨5, 0, 1, 0xFFFFFFFFFFFF⟩) := by decide
/-- R125: BR (0x01) under NEZ of s4 to address 0xABC. -/
theorem test_word_br : decodeSlot 7 .ctl (0b000001_010_00_00100 <<< 48 ||| 0xABC) = some (.br 7 ⟨2, 0, 4, 0, 0, 0xABC⟩) := by decide
/-- R141: RECVA (0x04) group 9 with ADD. -/
theorem test_word_recva : decodeSlot 7 .xfer (0b000100_01001_001 <<< 50) = some (.recva 7 ⟨9, 1, 0⟩) := by decide
/-- R153: MM4 (0x01) of streams s6, s7, WF 2, XF 1, CLR, NR 5, NB 0x123. -/
theorem test_word_mm4 : decodeSlot 7 .mx (0b000001_00110_00111_010_1_1_101 <<< 40 ||| 0x123 <<< 28) =
    some (.mm4 7 ⟨6, 7, 2, 1, 1, 5, 0x123, 0⟩) := by decide
/-- R160: VLD (0x01) of v2 at s3 + 0x10001, HH 2. -/
theorem test_word_vld : decodeSlot 7 .vec (0b000001_00010_00011_10000000000000001_10 <<< 29) = some (.vld 7 ⟨2, 3, 0x10001, 2, 0⟩) := by decide
/-- R172: CMOV (0x24) of v1 and group 3, DIR 1. -/
theorem test_word_cmov : decodeSlot 7 .vec (0b100100_00001_11_1 <<< 50) = some (.cmov 7 ⟨1, 3, 1, 0⟩) := by decide
/-- R119: an opcode that the slot's table does not list is no instruction. -/
theorem test_word_reserved : decodeSlot 7 .ctl (0b001100 <<< 58) = none ∧ decodeSlot 7 .xfer (0b001001 <<< 58) = none ∧
    decodeSlot 7 .mx (0b001001 <<< 58) = none ∧ decodeSlot 7 .vec (0b011001 <<< 58) = none := by decide
/-- R118: the slots of a bundle from its low word up. -/
theorem test_slot_places : slotWord (BitVec.ofNat 256 (1 + 2 * 2 ^ 64 + 3 * 2 ^ 128 + 4 * 2 ^ 192)) .vec = 3 ∧
    slotWord (BitVec.ofNat 256 (1 + 2 * 2 ^ 64 + 3 * 2 ^ 128 + 4 * 2 ^ 192)) .xfer = 4 := by decide
/-- No row of the opcode table has bits. -/
theorem test_table_word : decodeTableWord 0 0 = none ∧ (State.reset.withFetchWord 0 0).pending = [] := by decide

/-! ## States for the tests -/

/-- The state after reset with the arithmetic clock running. -/
def live : State := { State.reset with clk := { State.reset.clk with gated := false } }

/-- Core 7 runs; registers s1 to s4 hold 5, −3, 2 and 64. -/
def run : State := wr (setCore live 7 { blankCore with regs := [(1, 5), (2, -3), (3, 2), (4, 64)].foldl (fun r e => wrS r e.1 e.2) blankRegs })
  F.CORE_STATUS_STATE 7 3

/-- The result that core 7 has in flight. -/
def flying (o : Host.Outcome State Fault Refusal) : List Eff :=
  match o with
  | .next t => (coreOf t 7).pend.map (·.eff)
  | .fault _ => []
  | .refused _ => []

/-- A field after a command. -/
def reads (o : Host.Outcome State Fault Refusal) (f : Field) (i : Nat) : Option Nat :=
  match o with
  | .next t => some (rd t f i)
  | .fault _ => none
  | .refused _ => none

/-! ## Single steps, worked by hand from the rules -/

/-- 5 + (−3) = 2 (R125). -/
theorem test_add : flying (exec (.add 7 ⟨5, 1, 2, 0, 0⟩) run) = [.setS 5 2] := by decide
/-- 5 − (−3) = 8; s5 is also no operand. -/
theorem test_sub : flying (exec (.sub 7 ⟨1, 1, 2, 0, 0⟩) run) = [.setS 1 8] := by decide
/-- 5 × −3 = −15, low 64 bits (R126). -/
theorem test_mul : flying (exec (.mul 7 ⟨5, 1, 2, 0, 0⟩) run) = [.setS 5 0xFFFFFFFFFFFFFFF1] := by decide
/-- −3 >> 2 arithmetic is −1; a count of 64 shifts by 0 (bits [5:0]). -/
theorem test_shift : flying (exec (.shift 7 ⟨5, 2, 3, 2, 0⟩) run) = [.setS 5 0xFFFFFFFFFFFFFFFF] ∧
    flying (exec (.shift 7 ⟨5, 1, 4, 0, 0⟩) run) = [.setS 5 5] := by decide
/-- −3 < 5 signed and not unsigned (R126). -/
theorem test_cmp : flying (exec (.cmp 7 ⟨5, 2, 1, 2, 0⟩) run) = [.setS 5 1] ∧ flying (exec (.cmp 7 ⟨5, 2, 1, 3, 0⟩) run) = [.setS 5 0] := by decide
/-- LI −1 with H is −65,536. -/
theorem test_li : flying (exec (.li 7 ⟨5, 0, 1, 0xFFFFFFFFFFFF⟩) run) = [.setS 5 0xFFFFFFFFFFFF0000] := by decide
/-- STAT 1 of core 7: x = 7, y = 0 (R134). -/
theorem test_stat : flying (exec (.stat 7 ⟨5, 0, 0, 1, 0⟩) run) = [.setS 5 7] := by decide
/-- MRECV with an empty inbox gives 0 and all ones (R139). -/
theorem test_mrecv : (flying (exec (.mrecv 7 ⟨2, 0, 0, 0, 0⟩) run)).take 2 = [.setS 2 0, .setS 3 0xFFFFFFFFFFFFFFFF] := by decide
/-- A write to s0 is discarded and s0 reads zero (R86). -/
theorem test_s0 : rdS (wrS blankRegs 0 5) 0 = 0 ∧ rdM blankRegs 0 = 0xFFFFFFFFFFFFFFFF := by decide
/-- A core that the array does not have (R33). -/
theorem test_no_core : exec (.tskip 14592 0) run = .fault (.noSuchCore 14592) := rfl
/-- R17: a misaligned read gives all ones. -/
theorem test_narrow : exec (.readClear (.host 0) 0x10400004 8) live = .next (returned live 0xFFFFFFFFFFFFFFFF) := rfl
/-- R46: losing lock of a half shows it. -/
theorem test_refclk : reads (exec .refclkLoss live) F.TICK_CLK_STATUS_W_LOCK 0 = some 0 := by decide
/-- R430: the margin of field 3 ends and that of field 2 stays. -/
theorem test_droop_margin : exec (.droopMarginExpiry 3) { live with pwr := { live.pwr with margin := [2, 3] } } =
    .next { live with pwr := { live.pwr with margin := [2] } } := rfl

/-! ## Witnesses: the hypotheses of the statements about a core's instructions -/

/-- A core with nothing in flight and nothing issued is ready for every slot, whatever it reads and writes. -/
theorem ready_of_idle (s : State) (c : Nat) (reads : List RegName) (writes : List (RegName × Nat)) (hc : c < nCores)
    (hi : canIssue s c (coreOf s c) = true) (hb : (coreOf s c).bundle = []) (hp : (coreOf s c).pend = []) : Ready s c reads writes where
  present := hc
  issues := hi
  alone := by simp [clashes, hb]
  arrived := by simp [awaits, hp]
  ordered := by simp [landsTooEarly, hp]

/-- Core 7 of the test state is ready for every slot, and issue may go on. -/
theorem witness_ready (reads : List RegName) (writes : List (RegName × Nat)) : Ready run 7 reads writes ∧ Onward run 7 :=
  ⟨ready_of_idle run 7 reads writes (by decide) (by decide) (by decide) (by decide), rfl⟩

/-- ScalarSlotResults: every choice of SHIFT and CMP, and the last mask register of MOVR. -/
theorem witness_scalar : (⟨1, 2, 3, 2, 0⟩ : FmtA).rsv = 0 ∧ (⟨1, 2, 3, 2, 0⟩ : FmtA).fn = 2 ∧ (⟨1, 2, 3, 5, 0⟩ : FmtA).fn = 5 ∧
    (⟨31, 7, 15, 1, 0⟩ : FmtV).fn = 1 ∧ (⟨31, 7, 15, 1, 0⟩ : FmtV).vm.toNat < 8 ∧ Ready run 7 [.s 2, .s 3] [(.s 1, 1)] ∧ Onward run 7 :=
  ⟨by decide, by decide, by decide, by decide, by decide, (witness_ready _ _).1, (witness_ready [] []).2⟩

/-- A sequencer with its stacks as given. -/
def stacked (calls : List Nat) (loops : List LoopRec) : State :=
  modCore run 7 fun co => { co with seq := { co.seq with pc := 10, calls := calls, loops := loops } }

/-- SequencingEffects: taken and untaken conditions, calls and returns with room and without, loops that may open and may not, and a TWAIT with and
without open calls. -/
theorem witness_sequencing :
    (stacked [] []).cores.length = 1 ∧ (coreOf (stacked [] []) 7).seq.delay = 0 ∧ nearLoopEnd (coreOf (stacked [] []) 7).seq = false ∧
    condHolds 1 0 = true ∧ condHolds 2 0 = false ∧ (2 : BitVec 3) ≠ 7 ∧ Onward (stacked [] []) 7 ∧
    (coreOf (stacked [1, 2, 3] []) 7).seq.calls.length < 4 ∧ 4 ≤ (coreOf (stacked [1, 2, 3, 4] []) 7).seq.calls.length ∧
    (∃ a rest, (coreOf (stacked [4095] []) 7).seq.calls = a :: rest ∧ a < 4096) ∧
    (rdS (coreOf (stacked [] []) 7).regs 1).toNat % 2 ^ 32 + 0 = 5 ∧ (rdS (coreOf (stacked [] []) 7).regs 0).toNat % 2 ^ 32 + 0 = 0 ∧
    (∀ l rest, (coreOf (stacked [] [⟨1, 30, 2⟩]) 7).seq.loops = l :: rest → (29 : BitVec 12).toNat < l.fin) ∧
    ¬ (∀ l rest, (coreOf (stacked [] [⟨1, 30, 2⟩]) 7).seq.loops = l :: rest → (30 : BitVec 12).toNat < l.fin) ∧
    canIssue (stacked [1, 2, 3, 4] []) 7 (coreOf (stacked [1, 2, 3, 4] []) 7) = true :=
  ⟨by decide, by decide, by decide, by decide, by decide, by decide, rfl, by decide, by decide, ⟨4095, [], by decide, by decide⟩, by decide, by decide,
    fun l rest h => by have h := List.cons.inj h; rw [← h.1]; decide,
    fun h => absurd (h ⟨1, 30, 2⟩ [] (by decide)) (by decide), by decide⟩

/-- Core 7 in region 1 with core 8, a word in its inbox, s5 the unit mailbox and s6 core 8. -/
def mailing : State :=
  wr (wr (modCore run 7 fun co => { co with inbox := [⟨3, 9⟩], regs := wrS (wrS co.regs 5 0x3FFF) 6 8 }) F.CORE_STATUS_REGION 7 1)
    F.CORE_STATUS_REGION 8 1

/-- StatusAndMailboxEffects: a first word and one that comes eight cycles after the last, each destination, MRECV's first and last pair, a word in the
inbox and none, and a selector that is not accepted. -/
theorem witness_mailbox :
    (coreOf mailing 7).lastMsend = none ∧ mailing.clk.cyc ≤ 2 ^ tickK mailing - 1024 ∧ rdS (coreOf mailing 7).regs 5 = 0x3FFF ∧
    (rdS (coreOf mailing 7).regs 6).toNat < nCores ∧
    rd mailing F.CORE_STATUS_REGION (rdS (coreOf mailing 7).regs 6).toNat = rd mailing F.CORE_STATUS_REGION 7 ∧
    rd mailing F.CORE_STATUS_REGION (rdS (coreOf mailing 7).regs 4).toNat ≠ rd mailing F.CORE_STATUS_REGION 7 ∧
    (coreOf mailing 7).inbox ≠ [] ∧ (coreOf run 7).inbox = [] ∧ (30 : BitVec 5).toNat % 2 = 0 ∧ 5 ≤ (7 : BitVec 3).toNat ∧
    canIssue mailing 7 (coreOf mailing 7) = true := by decide

/-- TransferEffects: the last groups, and a delivered word and none. -/
theorem witness_transfer :
    delivered run 7 = none ∧ (delivered (modCore run 7 fun co => { co with deliv := [(0, 5)] }) 7).isSome = true ∧
    (15 : BitVec 5).toNat < 16 ∧ (3 : BitVec 5).toNat < 4 ∧ (1 : BitVec 5).toNat < 2 ∧ badLanes 5 = 0 := by decide +kernel

/-- ProductIssue: the unit free, streams that end inside the scratchpad, and counts with room. -/
theorem witness_product :
    matrixBusy run 7 = false ∧ streamOk (rdS (coreOf run 7).regs 1) (wLast4 (fmt4 3) 4095) = true ∧
    streamOk (rdS (coreOf run 7).regs 1) (xLast8 true 4095) = true ∧ (∀ n ∈ (List.range 128).filter fun n => n / 16 ≤ 0, (rdAcc (coreOf run 7).regs n).cnt + 4096 ≤ 2 ^ 27) ∧
    (⟨1, 3, 3, 0, 1, 7, 4095, 0⟩ : FmtMM).wf.toNat < 4 ∧ (2 : BitVec 2).toNat < 3 := by decide

/-- AccumulatorMoves: the last group of eight, a drain of the last rows, and a finite tensor scale. -/
theorem witness_accumulators :
    matrixBusy run 7 = false ∧ (120 : BitVec 7).toNat % 8 = 0 ∧ (drainFmt 0).isSome = true ∧
    (∀ t, drainFmt 0 = some t → (0 : BitVec 3).toNat % t.rows = 0) ∧
    (valOf fp32 ((rdS (coreOf run 7).regs 0).toNat % 2 ^ 32)).isFin = true ∧ rdB run F.CORE_NUM_CTL_SAT_TRAP 7 = false := by
  refine ⟨by decide, by decide, by decide, fun t _ => by simp, by decide, by decide⟩

/-- LaneWiseResults: words that the check of R163 accepts. -/
theorem witness_lanes :
    vrOk ⟨31, 30, 29, 7, 0, 0, 0, 0, 0⟩ ⟨true, true, true, 1, false, false⟩ anyTy = true ∧
    vrOk ⟨31, 30, 0, 7, 0, 0, 0, 0, 0⟩ ⟨true, false, true, 1, false, false⟩ anyTy = true ∧
    vrOk ⟨31, 0, 0, 7, 3, 0, 9, 0, 0⟩ ⟨false, false, true, 1, true, false⟩ intTy = true ∧
    vrOk ⟨31, 30, 29, 7, 0, 3, 0, 0, 0⟩ ⟨true, true, true, 4, false, false⟩ anyTy = true ∧
    vrOk ⟨31, 30, 29, 7, 0, 0, 0, 0, 0⟩ ⟨true, true, true, 1, false, false⟩ fpTy = true ∧
    vrOk ⟨31, 30, 29, 7, 3, 2, 0, 0, 0⟩ ⟨true, true, true, 3, false, false⟩ intTy = true := by decide

/-- VectorMemoryAndSelectResults: rows inside the scratchpad and outside the window, and words that R165 to R167 accept. -/
theorem witness_vector_memory :
    streamOk (rdS (coreOf run 7).regs 0 + (⟨2, 0, 0x1FF, 0, 0⟩ : FmtVM).off.setWidth 64) (vmLast ⟨2, 0, 0x1FF, 0, 0⟩) = true ∧
    (∀ k, k < vmLast ⟨2, 0, 0x1FF, 0, 0⟩ + 1 → inWindow run 7 (streamRow 0x1FF k) = false) ∧
    vrOk ⟨7, 30, 29, 7, 0, 3, 0, 0, 0⟩ ⟨true, true, true, 4, false, false⟩ anyTy = true ∧
    vrOk ⟨31, 30, 0, 7, 0, 3, 1, 0, 0⟩ ⟨true, false, true, 4, true, false⟩ anyTy = true ∧ 2 ^ 1 ≤ (tyOf ⟨31, 30, 0, 7, 0, 3, 1, 0, 0⟩).lanes ∧
    vrOk ⟨31, 30, 0, 7, 0, 0, 0, 0, 0⟩ ⟨true, false, true, 32, false, true⟩ anyTy = true ∧ (cvtDest 0).isSome = true := by decide

/-- FunctionAndQuantiseResults: words that R168 to R171 accept. -/
theorem witness_functions :
    pipeOk ⟨31, 30, 0, 7, 0, 10, 0, 0, 0⟩ false 11 = true ∧ pipeOk ⟨31, 30, 29, 7, 0, 1, 0, 0, 0⟩ true 2 = true ∧
    pipeOk ⟨31, 30, 29, 7, 0, 0, 0, 0, 0⟩ true 1 = true ∧
    vqOk ⟨31, 30, 29, 7, 0, 6, 0, 0, 1, 0, 0, 0⟩ = true ∧ vqOk ⟨31, 30, 29, 15, 0, 3, 1, 0, 1, 0, 0, 0⟩ = true ∧
    (∃ b, vqntBlocks run 7 ⟨31, 30, 29, 15, 0, 3, 1, 0, 1, 0, 0, 0⟩ = [b]) :=
  ⟨by decide, by decide, by decide, by decide, by decide, List.length_eq_one_iff.1 (by simp only [vqntBlocks, List.length_mapIdx]; decide)⟩

/-- CorrectionLaneResults: the lane free, and operands that end at the last vector register and inside the scratchpad. -/
theorem witness_correction :
    laneBusy run 7 = false ∧ (⟨24, 1, 3, 1, 1, 511, 0⟩ : FmtCD).vx.toNat + (511 / 64 + 1) ≤ 32 ∧
    streamOk (rdS (coreOf run 7).regs 1) 511 = true ∧ (⟨28, 1, 3, 1, 3, 0⟩ : FmtCU).vt.toNat + 2 * ((8 * 2 ^ 3 + 31) / 32) ≤ 32 := by decide

/-- Cycle 1, with a result for s1 in flight since cycle 0 and a RECVS of s1 in the bundle. -/
def busy : State :=
  modCore { run with clk := { run.clk with cyc := 1 } } 7 fun co => { co with pend := [⟨.ctl, 0, 0, 2, .setS 1 0⟩], bundle := [(.xfer, [.s 1])] }

/-- RefusedSlotsActAsNop: a core that issues; a register that awaits a result; a destination named by another slot, and one that is not. -/
theorem witness_refused :
    canIssue run 7 (coreOf run 7) = true ∧ canIssue busy 7 (coreOf busy 7) = true ∧ (1 : BitVec 58) ≠ 0 ∧
    awaits (coreOf busy 7) busy.clk.cyc (.s 1) = true ∧ clashes (coreOf busy 7) [.s 1] ≠ [] ∧ clashes (coreOf busy 7) [.s 2] = [] := by decide

/-! ## Witnesses: cycles, the control network, recovery, clocks and registers -/

/-- Core 7 running in the last but one scheduled cycle's neighbourhood: cycle 5, with the core as f leaves it. -/
def at5 (f : Core → Core) : State := modCore { run with clk := { run.clk with cyc := 5 } } 7 f

/-- CyclePartsAct: a result due and one that is not; a word on the N input for the transfer slot, and one for the S output; an ingress word; a held
entry; and an egress word with both halves. -/
theorem witness_cycle :
    (let s := at5 fun co => { co with pend := [⟨.ctl, 4, 0, 5, .setS 1 9⟩], steps := [.ports] }
     clocked s = true ∧ (coreOf s 7).steps.contains .ports = true ∧ (coreOf s 7).pend.map (·.due) = [5] ∧ s.clk.cyc < 6) ∧
    (let s (sel : Nat) := wr (at5 fun co => { co with inWords := [⟨0, 5, false, 0, 3⟩], steps := [.egress], routes := [(0, BitVec.ofNat 64 (sel + 9 * 2 ^ 48))] })
       F.NET_RP_LEN 7 1
     outputsFor (routeEntry (s (2 ^ 12)) 7 5) 0 = [4] ∧ entryIng (routeEntry (s (2 ^ 12)) 7 5) = false ∧
       outputsFor (routeEntry (s (2 ^ 6)) 7 5) 0 = [2] ∧ entryIng (routeEntry (s (2 ^ 6)) 7 5) = false ∧
       (neighbour 7 2).map (isBypass (s 0) 7) = some false ∧ linkOf (s 0) 7 2 ∉ (s 0).net.deadLinks ∧
       (coreOf (s 0) 7).steps = [.egress] ∧ (coreOf (s 0) 7).inWords = [⟨0, (s 0).clk.cyc, false, 0, 3⟩] ∧
       (s 0).net.rimHeld = [] ∧ (s 0).net.rimRepeat = [] ∧ (s 0).net.streams = [] ∧ ctlAt (s 0) 7 = blankCtl) ∧
    (let s := at5 fun co => { co with p7 := [⟨5, 131071, 3, false⟩] }
     (coreOf s 7).p7 = [⟨5, 131071, 3, false⟩] ∧ (coreOf s 7).held = [] ∧ bankOf 131071 ∉ (coreOf s 7).egrBanks ∧
       bankBusy (coreOf s 7) 5 (bankOf 131071) = false) ∧
    (let s := at5 fun co => { co with held := [⟨131071, 3, 4, false⟩] }
     s.clk.cyc ≠ lastCycle s ∧ (coreOf s 7).held.map (·.cyc) = [4] ∧ bankBusy (coreOf s 7) 5 (bankOf 131071) = false) ∧
    (let s := wr (at5 fun co => { co with egress := [⟨5, 0, some 1, some 2⟩] }) F.NET_EGR_RING_LEN 7 8
     egressAt s 7 9 = false ∧ rd s F.NET_EGR_RING_LEN 7 ≠ 0 ∧ (coreOf s 7).steps = []) := by decide +kernel

/-- BoundariesHeartbeatsAndSummaries: a gated and a running clock, a tick that is over; an expected heartbeat, clean and not; an open summary; three
silent ticks of the last field. -/
theorem witness_boundaries :
    State.reset.clk.gated = true ∧ live.clk.gated = false ∧ lastCycle live < ({ live with clk := { live.clk with cyc := 4096 } } : State).clk.cyc ∧
    (let s := setLantern live 0 ⟨3, [7], [7], [], false, 0, false⟩
     fieldOf 7 = 0 ∧ (lanternOf s 0).sent = false ∧ 7 ∈ (lanternOf s 0).expect ∧ (3 : BitVec 8) = BitVec.ofNat 8 (lanternOf s 0).tick ∧
       (lanternOf s 0).hbs = [] ∧ hbClean ⟨7, 3, true, false, false, 0⟩ = true ∧ hbClean ⟨7, 3, true, true, false, 0⟩ = false ∧ fieldLost s 0 = false) ∧
    (let s := setLantern live 47 ⟨3, [], [], [], false, 3, false⟩
     fieldLost s 47 = false ∧ fieldOff s 47 = false ∧ 3 ≤ (lanternOf s 47).silent) := by decide +kernel

/-- MissingCoresAreReadAndStopped: an expected core without a heartbeat, a summary that lists it as missed, an outstanding read, and a stop packet for a
core that runs. -/
theorem witness_missing :
    (let s := setLantern live 0 ⟨3, [7], [7], [], false, 0, false⟩
     s.net.missed = [] ∧ 7 ∈ (lanternOf s (fieldOf 7)).expect ∧ (lanternOf s (fieldOf 7)).hbs = [] ∧ (3 : BitVec 16) = BitVec.ofNat 16 (lanternOf s 0).tick) ∧
    (let s := { live with net := { live.net with missed := [(7, false)] } }
     (7, false) ∈ s.net.missed ∧ coreState s 7 ≠ csDead ∧ regionOfCore s 7 = 0 ∧ ownerOf s 7 = 0) ∧
    Machine.packetOk ⟨4, 3, 1, 0, 7, 0x6000, 0, [9]⟩ = true ∧ coreState run 7 = csRunning := by decide +kernel

/-- ControlPacketsAct: a request of each kind to a core that answers, at an offset on the list and off it, a mailbox word in its tick to a core and to the
last unit mailbox, and an access of a core's block. -/
theorem witness_packets :
    answers run 7 = true ∧ addressOk 7 = true ∧ addressOk 0x7FFF = true ∧ (0x7FFF : Nat) = 0x7000 + 4095 ∧
    Machine.packetOk ⟨5, 2, 1, 0, 7, 0x6000, 0, [0x10]⟩ = true ∧ (packetReg 7 0x10).isSome = true ∧ (packetReg 7 0xFF8).isSome = false ∧
    Machine.packetOk ⟨6, 2, 3, 0, 7, 0x6000, 0, [0x10, 0, 0]⟩ = true ∧ Machine.packetOk ⟨7, 2, 1, 0, 0x6000, 7, 0, [0]⟩ = true ∧
    (∀ m ∈ run.net.missed, m.1 ≠ (7 : BitVec 16).toNat) ∧
    Machine.packetOk ⟨8, 1, 2, 0, 7, 8, 0, [1, 2]⟩ = true ∧ Machine.packetOk ⟨9, 0, 8, 0, 0x6000, 7, 0, [0, 0, 0, 0, 0, 0, 0, 0]⟩ = true ∧
    Machine.packetOk ⟨10, 0, 2, 0, 0x6000, 7, 0, [0, 0]⟩ = true ∧ (0 : BitVec 16).toNat % 256 = tickCount run % 256 ∧ coreState run 7 = csRunning ∧
    (unitOf { run with regs := tset run.regs (fkey F.TICK_COUNT_COUNT 0) 1 } 4095).closedTick <
      tickCount { run with regs := tset run.regs (fkey F.TICK_COUNT_COUNT 0) 1 } ∧
    ((findReg (.mc 0) 0x20007010).map fun e => perCore e.1.blk) = some true := by decide +kernel

/-- Core c of region 0, which waits for its replay, with a failed row 5 and a cask of no payload resident there, in a window of n rows. -/
def failed (c n : Nat) : State :=
  { live with
    regs := tset live.regs (fkey F.CORE_SPAD_WIN_LEN c) (BitVec.ofNat 64 (n * 2 ^ F.CORE_SPAD_WIN_LEN.lo))
    cores := [(c, { blankCore with detects := [5] })]
    units := [(0, { blankRegion with await := .replay })]
    store := { live.store with masters := [⟨1, 7, 1, [], 0, none, false, false, 0⟩], residents := [⟨c, 1, 7, 1, 0, 8, 0⟩] }
    strm := { live.strm with frames := [⟨0, 0, 0, 0, 0, []⟩] } }

/-- RepairReplayRecovery: a failed row in its cask window, and outside it in a generation that does not mark it and in one that does; a region that
waits for its replay, one that waits for recovery, and the last tile of the last field. -/
theorem witness_recovery :
    (let s := failed 7 8
     5 ∈ (coreOf s 7).detects ∧ (unitOf s (regionOfCore s 7)).await = .replay ∧ s.strm.exports = [] ∧ inCaskWindow s 7 5 = true ∧
       ((rowMaster s 7 5).map fun e => (e.1.bad, e.2)) = some (false, 5)) ∧
    (let s := failed 7 0
     inCaskWindow s 7 5 = false ∧ (coreOf s 7).newer.valid = false ∧ (rowAt (coreOf s 7) 5).mark0 = false ∧
       (rowAt (putRow (coreOf s 7) 5 1) 5).mark0 = true ∧ fateGroup s 0 = [0]) ∧
    (let s := modUnit live 1 fun u => { u with await := .replay }
     fateGroup s 1 = [1] ∧ (unitOf s 1).await = .replay ∧ liveCores s 1 = []) ∧
    (let s := modUnit live 1 fun u => { u with await := .recovery }
     fateGroup s 1 = [1] ∧ (unitOf s 1).await = .recovery ∧ regionRuns s 1 = false ∧ (unitOf s 1).dead = [] ∧
       (missingOf s (boundPlan s 1)).any (noSource s) = false) ∧
    fieldLost live 47 = false ∧ deadCol live 47 15 = none ∧ sagLocked live = false ∧
    (∀ j, j < 19 → regionRuns live (regionOfCore live (coreAt (19 * (47 % 8) + j) (16 * (47 / 8) + 15))) = false) := by decide +kernel

/-- Whatever the layout of plan set 0, the member of its first frame lies in the array and has a copy of its row 5, and a state without frames
has none. -/
theorem witness_frame_copy :
    let c := ((Config.kvLayout 0).core 0 0 0).val
    c < nCores ∧ (∃ d, frameCopy (failed c 0) c 5 = some d) ∧ frameCopy live 7 5 = none := by
  refine ⟨Fin.isLt _, ?_, rfl⟩
  have hk : kvNow (failed ((Config.kvLayout 0).core 0 0 0).val 0) = Config.kvLayout 0 := by
    have : fkey F.REG_STATUS_PLAN_SET 0 ≠ fkey F.CORE_SPAD_WIN_LEN ((Config.kvLayout 0).core 0 0 0).val := by
      simp only [fkey, F.REG_STATUS_PLAN_SET, F.CORE_SPAD_WIN_LEN]
      omega
    rw [kvNow, planSetNow, rd, regWord, failed, tget_tset_other _ _ _ this]
    rfl
  have hr : 5 < frameRows (Config.kvLayout 0) := by
    have : 0 < 9 * (Config.kvLayout 0).heads * (64 * (Config.kvLayout 0).dim) := by
      simp [Config.KvLayout.heads, Config.KvLayout.dim]
    unfold frameRows
    omega
  have hf : (failed ((Config.kvLayout 0).core 0 0 0).val 0).strm.frames = [⟨0, 0, 0, 0, 0, []⟩] := rfl
  exact ⟨_, by simp only [frameCopy, frameAt, hk, hf]; simp [hr]; rfl⟩

/-- ClockLossAndReturn: a half that has its lock, with the halves on their fallback PLLs or gated, or with the clock running from its own; held or not;
and an operator. -/
theorem witness_clocks :
    (let s := wr (wr { live with clk := { live.clk with fallback := true, steady := true } } F.TICK_CLK_STATUS_W_LOCK 0 1) F.TICK_CLK_STATUS_E_LOCK 0 1
     rd s (lockField 1) 0 ≠ 0 ∧ s.clk.fallback = true ∧ s.clk.refLost = false ∧ bothLocked s = true ∧ s.clk.held = false ∧ s.clk.steady = true) ∧
    State.reset.clk.gated = true ∧ live.clk.gated = false ∧ live.clk.fallback = false ∧ isOperator live (.mc 7) = true := by decide +kernel

/-- NarrowAccessesAreDiscarded, RegisterCommandsAct: accesses of 4 bytes and off the grid; a management core that changes K, reads it and commits
its block. -/
theorem witness_registers :
    ((4 : Nat) ≠ 8 ∨ (0x10400000 : Nat) % 8 ≠ 0) ∧ ((8 : Nat) ≠ 8 ∨ (0x10400007 : Nat) % 8 ≠ 0) ∧ anyRunning live = false ∧
    getF F.TICK_CTL_K 13 ≠ getF F.TICK_CTL_K (shadowWord live F.TICK_CTL_K 0) ∧
    ((findReg (.mc 0) 0x10400000).map fun e => isReg e.1 F.REG_UNIT_MBOX_WORD) = some false ∧
    ((findReg (.mc 0) F.TICK_COMMIT_COMMIT.base).map fun e => (isCommitReg e.1, perCore e.1.blk, mayCommit live (.mc 0) e.1.blk e.2)) =
      some (true, false, true) := by decide +kernel

/-- DebugWindowReads: the last row of the last core, bound for tenant 0, and one that is only idle. -/
theorem witness_debug :
    (let s := wr live F.CORE_STATUS_STATE 14591 csBound
     coreShut s 14591 = false ∧ mayDebug s (.mc 0) 14591 = true ∧ coreState s 14591 = csBound) ∧
    (let s := wr live F.CORE_STATUS_STATE 14591 csIdle
     coreShut s 14591 = false ∧ mayDebug s (.mc 0) 14591 = true ∧ coreState s 14591 ≠ csBound ∧ rdB s F.CORE_STATUS_LEES 14591 = false) := by
  decide +kernel

/-! ## Witnesses: regions, the cask store, racks and PCIe ports -/

/-- What holds of every value that a table lists, and of the default, holds of what it reads. -/
theorem tget_of_all {α : Type} (p : α → Bool) (d : α) (hd : p d = true) (t : Table α) (k : Nat) (h : t.all (fun e => p e.2) = true) :
    p (tget t k d) = true := by
  induction t with
  | nil => exact hd
  | cons e t ih =>
    simp only [List.all_cons, Bool.and_eq_true] at h
    simp only [tget]; split
    · exact h.1
    · exact ih h.2

/-- Where no register listed has the bit at FATE's place, no descriptor has FATE. -/
theorem fate_clear (s : State) (h : s.regs.all (fun e => !decide (getF F.REG_DESC0_FATE e.2 = 1)) = true) (d : Nat) :
    rdB s F.REG_DESC0_FATE d = false := by
  have := tget_of_all (fun w => !decide (getF F.REG_DESC0_FATE w = 1)) (BitVec.ofNat 64 F.REG_DESC0_FATE.regRst) (by decide) s.regs
    (fkey F.REG_DESC0_FATE d) h
  exact decide_eq_false (by simpa [rd, regWord] using this)

/-- Region 1, a GROUP of tenant 0 in state st. -/
def group1 (st : Nat) : State := wr (wr live F.REG_DESC0_KIND 1 2) F.REG_UNIT_STATUS_STATE 1 st

/-- So many bytes of zeros. -/
def zeros (n : Nat) : List Byte := List.replicate n 0

/-- A plan image with one empty rectangle, one core in its table, core 7, whose load is an END header, and no cask (R262–R264). -/
def image1 : List Byte :=
  [0x51, 0x50, 0x4c, 0x4e, 0x1, 0x0, 0x0, 0x1, 0x1] ++ zeros 7 ++ [0xc, 0x1, 0x0, 0x0, 0x1] ++ zeros 11 ++ [0xb0, 0x1] ++ zeros 15 ++ [0x1] ++ zeros
    6 ++ [0xa0, 0x1] ++ zeros 70 ++ [0x91, 0xb9, 0x2a, 0xd4, 0xe5, 0x21, 0x2c, 0x53, 0xbc, 0xd5, 0x7e, 0x31, 0x9a, 0x3c, 0xe6, 0xc5, 0xa8, 0x40,
    0xf2, 0x31, 0x65, 0xb9, 0xd3, 0xc9, 0xfa, 0xc7, 0x54, 0x63, 0xaa, 0x9e, 0xbb, 0x32, 0x36, 0x84, 0x59, 0x51, 0x56, 0x9a, 0x3f, 0xd3, 0x6d, 0x9b,
    0xbd, 0xd5, 0x2a, 0x82, 0xf5, 0xb3, 0x19, 0x10, 0x41, 0x37, 0x4d, 0x7c, 0x9f, 0x4f, 0x8e, 0x7a, 0x58, 0xa1, 0xb0, 0xd7, 0x51, 0xaf] ++ zeros 64
    ++ [0x7] ++ zeros 7 ++ [0x20, 0x1] ++ zeros 6 ++ [0x1] ++ zeros 15 ++ [0x5] ++ zeros 143

/-- The image carries its digest. -/
theorem image1_digest : planDigestOk image1 = true := by decide +kernel

/-- The image ends its core's load with END; it keeps the checks on its arrival where its forecast table, whose place the spec does not give, ends
within it. -/
theorem witness_image : (isPlan image1 = true ∧ planId image1 = 1 ∧ planSet image1 = 0 ∧ planCoreSet image1 = [] ∧ endsWithEnd image1 7 = true ∧
    caskEntries image1 = []) ∧ (Config.forecastEnd image1 ≤ 432 → arrivalCause live image1 432 = 0) := by
  have h : (isPlan image1 = true ∧ planId image1 = 1 ∧ planSet image1 = 0 ∧ planCoreSet image1 = [] ∧ endsWithEnd image1 7 = true ∧
    caskEntries image1 = []) ∧ image1.length = 432 := by decide +kernel
  refine ⟨h.1, fun hf => ?_⟩
  have hp : planFormatOk image1 432 = true := by
    simp only [planFormatOk, h.2, decide_eq_true hf, Bool.and_true]
    decide +kernel
  simp [arrivalCause, h.1.1, hp, image1_digest]

/-- RegionCommandsAct: region 1 bound, running, faulted, lost and held, with no command in progress. -/
theorem witness_regions :
    (let s := group1 rsBound
     (underPlan s 1 = false ∧ cmdBusy s 1 = false ∧ mayDrive s (.mc 0) 1 = true ∧ descKind s 1 ≠ 0 ∧ isComposite s 1 = false ∧ regionState s 1 ∈ [rsBound]) ∧
       (unitOf s 1).phase = .none ∧ (unitOf s 1).await = .none) ∧
    regionState (group1 rsRunning) 1 ∈ [rsRunning] ∧ regionState (group1 rsFaulted) 1 ∈ [rsBound, rsFaulted] ∧
    regionState (group1 rsLost) 1 ∈ [rsDefined, rsHeld, rsBound, rsFaulted, rsLost] ∧
    regionState (wr (group1 rsHeld) F.REG_CTL_HOLD_LIMIT 0 1) 1 = rsHeld ∧
    rd (wr (group1 rsHeld) F.REG_CTL_HOLD_LIMIT 0 1) F.REG_CTL_HOLD_LIMIT 0 ≠ 0 := by decide +kernel
theorem witness_regions_fate : ∀ d, rdB (group1 rsBound) F.REG_DESC0_FATE d = false := fate_clear _ (by decide +kernel)

/-- The image is good for region 1 wherever the store holds it, there is room for it and nothing is bound. -/
theorem image1_status (s : State) (h : tget? s.store.plans 1 = some image1) (hb : boundRegions s = []) (hf : planFits s image1 = true) :
    planStatus s 1 0 = stOk := by
  simp [planStatus, h, hb, hf, image1_digest, witness_image.1.2.2.2.2.2]

/-- Region 1 with the image in the store, after a command to bind it has been accepted. -/
def binding (st cmd : Nat) : State :=
  acceptCmd { group1 st with store := { live.store with plans := [(1, image1)] } } 1 ⟨cmd, 1, 0, true, true⟩ [1]

/-- RegionCommandsAct: a BIND and a REBIND of the image, with no core of the group and its plan set in force. -/
theorem witness_bind :
    (bindable (group1 rsDefined) 1 = true ∧ regionTenant (group1 rsDefined) 1 = 0 ∧ rackCovers (group1 rsBound) 1 = false ∧
      missingOf (binding rsDefined 1) (tget (binding rsDefined 1).store.plans 1 []) = [] ∧
      bindStatus (binding rsDefined 1) 1 1 0 false = stOk ∧ seatedOf (binding rsDefined 1) 1 = [] ∧
      bindStatus (binding rsBound 6) 1 1 0 true = stOk ∧ seatedOf (binding rsBound 6) 1 = []) ∧
    (planStatus (binding rsDefined 1) 1 0 = stOk ∧ planStatus (binding rsBound 6) 1 0 = stOk) ∧
    (adoptSet (endAwait (binding rsDefined 1) 1) image1).isSome = true ∧ (adoptSet (setLees (endAwait (binding rsBound 6) 1) 1) image1).isSome = true := by
  have h (s : State) (hs : rd s F.REG_STATUS_PLAN_SET 0 = 0) : (adoptSet s image1).isSome = true := by
    simp [adoptSet, witness_image.1.2.2.1, hs]
  exact ⟨by decide +kernel, ⟨image1_status _ (by decide +kernel) (by decide +kernel) (by decide +kernel),
    image1_status _ (by decide +kernel) (by decide +kernel) (by decide +kernel)⟩, h _ (by decide +kernel), h _ (by decide +kernel)⟩

/-- A plan image whose load of core 7 stages a cask window of rows 0 to 7 and names version 2 of the core's cask for them. -/
def image3 : List Byte :=
  [0x51, 0x50, 0x4c, 0x4e, 0x1, 0x0, 0x0, 0x1, 0x1] ++ zeros 7 ++ [0xc, 0x1, 0x0, 0x0, 0x1] ++ zeros 11 ++ [0x40, 0x2] ++ zeros 15 ++ [0x1] ++ zeros
    6 ++ [0x20, 0x2] ++ zeros 70 ++ [0x69, 0xa8, 0x7d, 0x96, 0x82, 0x44, 0x20, 0x71, 0xdb, 0xad, 0xde, 0x35, 0xff, 0x98, 0xe6, 0x2e, 0x14, 0xad,
    0xf8, 0x5b, 0xa8, 0x75, 0x90, 0x45, 0x12, 0x54, 0xf7, 0x8e, 0x11, 0xcd, 0x30, 0x24, 0x6, 0x62, 0xd8, 0x42, 0xb, 0x73, 0x19, 0xe0, 0x28, 0x35,
    0x5b, 0x6f, 0x49, 0xe2, 0x6c, 0xb2, 0xe3, 0x5, 0x81, 0x60, 0xcc, 0x56, 0xe2, 0x39, 0xde, 0x55, 0x7d, 0x47, 0x66, 0x66, 0x93, 0xe1] ++ zeros 64
    ++ [0x7] ++ zeros 7 ++ [0x20, 0x1] ++ zeros 6 ++ [0x2] ++ zeros 15 ++ [0x4, 0x10] ++ zeros 16 ++ [0x10] ++ zeros 109 ++ [0x5] ++ zeros 5 ++
    [0x1] ++ zeros 121 ++ [0x1, 0x0, 0x0, 0x0, 0x1] ++ zeros 11 ++ [0x7, 0x0, 0x7, 0x0, 0x2] ++ zeros 7 ++ [0x1, 0x0, 0x0, 0x0]

/-- The head of a cask image of eight rows, for core 7 of plan 1, version 2; rows past its end read as zeros. -/
def cask8 : List Byte := zeros 20 ++ [8] ++ zeros 235

/-- Region 1 as the leaf of core 7, loading the image. -/
def loading : State :=
  modUnit { wrAll live 1 [(F.REG_DESC0_KIND, 1), (F.REG_DESC1_X0, 7), (F.REG_DESC1_W, 1), (F.REG_DESC1_H, 1), (F.REG_PLAN_PLAN_ID, 1)] with
    store := { live.store with plans := [(1, image1)] } } 1 fun u => { u with phase := .load }

/-- LoadHeadersAct: a core in its region's load, each kind at the last place where its words fit, and a register that a load may stage. -/
theorem witness_load :
    loader loading 7 = some 1 ∧ rackLoading loading 1 = none ∧ endsWithEnd (loadImage loading 1) 7 = true ∧ tget (unitOf loading 1).seqs 7 0 = 0 ∧
    ((4092 + (([0] : List NetWord).flatMap wordBundles).length ≤ 4096) ∧ 8176 + (wordRoutes [0]).length ≤ 8192 ∧
      (wordRoutes [0]).all routeEntryOk = true ∧ rd loading F.NET_RP_BASE 7 + rd loading F.NET_RP_LEN 7 ≤ 8176) ∧
    131070 + (wordRows [0] false).length ≤ 131072 ∧ 131071 + (wordRows [0] true).length ≤ 131072 ∧
    rd loading F.CORE_SPAD_WIN_LEN 7 = 0 ∧ (loadReg? (65536 + (F.NET_RP_LEN.base - 0x24000000))).isSome = true ∧
    routeProgramOk loading 7 = true := by decide +kernel

/-- LoadHeadersAct: the run of cask rows that follows the plan's own headers, with an entry for its last row, and a core whose region runs. -/
theorem witness_load_casks :
    (let s := { modUnit loading 1 fun u => { u with seqs := [(7, 1)] } with
       store := { live.store with plans := [(1, image3)], masters := [⟨1, 7, 2, cask8, 0, none, false, false, 0⟩] } }
     loader s 7 = some 1 ∧ rackLoading s 1 = none ∧ endsWithEnd (loadImage s 1) 7 = true ∧ tget (unitOf s 1).seqs 7 0 = 1 ∧ planHeaders s 1 7 ≤ 1 ∧
       (caskRuns s 1 7)[1 - planHeaders s 1 7]? = some (0, 2 * 4 - 0) ∧ (entryAt s (loadEntries s 1 7) 7).isSome = true) ∧
    (let s := wr (group1 rsRunning) F.CORE_STATUS_REGION 7 1
     loader s 7 = none ∧ regionOfCore s 7 ≠ 0 ∧ regionState s (regionOfCore s 7) = rsRunning) := by decide +kernel

/-- SweepAndUnitMailbox: a core that sweeps, a region whose mailbox has room for one word and holds one to read, and a host without a session. -/
theorem witness_sweep :
    coreState (wr live F.CORE_STATUS_STATE 14591 csSweeping) 14591 = csSweeping ∧ sweeper live 14591 = none ∧
    (let s := modUnit live 4095 fun u => { u with inq := List.replicate 15 0, outq := [9] }
     underPlan s 4095 = false ∧ mayDrive s (.mc 0) 4095 = true ∧ headOf s 4095 = 4095 ∧ (unitOf s 4095).inq.length < 16 ∧ (unitOf s 4095).outq = [9]) ∧
    mayDrive live (.host 0) 1 = false := by decide +kernel

/-- A cask image of no rows, not signed, for core 7 of plan 1, version 2 (R289, R290). -/
def cask1 : List Byte :=
  [0x51, 0x43, 0x53, 0x4b, 0x1, 0x0, 0x0, 0x1, 0x1, 0x0, 0x0, 0x0, 0x7, 0x0, 0x2, 0x0, 0x1] ++ zeros 8 ++ [0x1] ++ zeros 6 ++ [0x3d, 0x95, 0x24,
    0xc1, 0x18, 0x72, 0xe1, 0x4c, 0x81, 0x38, 0xad, 0x5d, 0x54, 0x15, 0x3f, 0xc5, 0xa1, 0x62, 0xb7, 0x7a, 0x84, 0x54, 0x7d, 0x92, 0x3c, 0xcb, 0x4d,
    0x29, 0xcd, 0xab, 0xc8, 0xce, 0x56, 0xa9, 0x8d, 0x24, 0x45, 0x39, 0x5e, 0x38, 0x76, 0x40, 0x18, 0xed, 0xda, 0xc7, 0x5c, 0xd0, 0x68, 0x73, 0x1e,
    0x64, 0x1d, 0x28, 0xee, 0x7f, 0xea, 0x8f, 0x9d, 0x77, 0x3a, 0x50, 0x8f, 0x7c] ++ zeros 160

/-- The head of port 0's link to node 9. -/
def linked : State :=
  let s := wrAll (wr live F.NET_FAB_CTL_NODE 0 5) 0 [(F.NET_PORT_MODE, pmPod), (F.NET_PORT_UP, 1), (F.NET_PORT_PEER_NODE, 9)]
  { s with fab := { live.fab with carry := [0] } }

/-- CaskStoreOperations: an idle store with room, an address outside BAR2 and one in it, a READ that leaves and one that does not, a cask that passes
its checks, a good and a BAD master of its key with the fetch for it, a plan that no region uses, and a pass that is on. -/
theorem witness_casks :
    (rightsOf live (.mc 0) = some 0 ∧ rdB live F.CASK_OP_BUSY 0 = false ∧ bar2Place live 0 = none ∧
      bar2Place { live with pcie := [(0, { pcieOf live 0 with bar2 := some 16 })] } 16 = some 0) ∧
    ((sendMessage live 9 3 1 0 0 [] 256 .caskOp).1 = false ∧ (sendMessage linked 9 3 1 0 0 [] 256 .caskOp).1 = true) ∧
    (arrivalCause (wr live F.CASK_CTL_REQUIRE_SIG 0 0) cask1 256 = 0 ∧ isPlan cask1 = false ∧ cask1.length = 256 ∧
      masterAt live (caskPlan cask1) (caskTarget cask1) (caskVersion cask1) = none ∧ storeRoom live cask1.length = true) ∧
    (tget? live.store.plans (planId image1) = none ∧ storeRoom live image1.length = true ∧ planDigestOk image1 = true) ∧
    (let s := { wrAll live 0 [(F.CASK_OP_KEY_TARGET, 0xFFFF), (F.CASK_OP_KEY_PLAN_ID, 1)] with store := { live.store with plans := [(1, image1)] } }
     rd s F.CASK_OP_KEY_TARGET 0 = 0xFFFF ∧ rd s F.CASK_OP_KEY_VERSION 0 = 0 ∧ tget? s.store.plans (rd s F.CASK_OP_KEY_PLAN_ID 0) = some image1 ∧
       planInUse s 1 = false) ∧
    (let s (bad : Bool) := { wrAll live 0 [(F.CASK_OP_KEY_TARGET, 7), (F.CASK_OP_KEY_PLAN_ID, 1), (F.CASK_OP_KEY_VERSION, 2)] with
       store := { live.store with masters := [⟨1, 7, 2, cask1, 0, none, bad, false, 0⟩], fetches := [⟨1, 7, 2, none, [], 0⟩] } }
     (masterAt (s false) 1 7 2).map (·.bad) = some false ∧ (masterAt (s true) 1 7 2).map (·.bad) = some true ∧ (s true).store.op = none ∧
       (caskPlan cask1, caskTarget cask1, caskVersion cask1) = (1, 7, 2) ∧ (fetchOf (s true) (1, 7, 2)).isSome = true) ∧
    rd (wr live F.CASK_SCRUB_THR_SCRUB_BW 0 1) F.CASK_SCRUB_THR_SCRUB_BW 0 ≠ 0 := by decide +kernel

/-- The plan bound before the rack: as the first image, with two banks. -/
def image4 : List Byte := image1.set 420 2

/-- Its successor, whose cask table names version 2 of core 7's cask in bank 1. -/
def image2 : List Byte :=
  [0x51, 0x50, 0x4c, 0x4e, 0x1, 0x0, 0x0, 0x1, 0x2] ++ zeros 7 ++ [0xc, 0x1, 0x0, 0x0, 0x1] ++ zeros 11 ++ [0xc0, 0x1] ++ zeros 15 ++ [0x1] ++ zeros
    6 ++ [0xa0, 0x1] ++ zeros 70 ++ [0xb7, 0xc, 0xc2, 0xc1, 0x88, 0xd1, 0x25, 0xf0, 0xd6, 0xf6, 0xfb, 0xe0, 0x9d, 0x4f, 0x53, 0xb7, 0x3f, 0x7a,
    0xe2, 0x8b, 0x3c, 0x75, 0x11, 0xad, 0x7d, 0x2c, 0xa5, 0xbc, 0x9b, 0xdb, 0x9c, 0x2f, 0xc5, 0x6a, 0x5, 0x3f, 0x62, 0x3, 0x9b, 0x9e, 0xd1, 0x3d,
    0xf1, 0x20, 0x0, 0x9, 0x5, 0x90, 0x87, 0x83, 0x1e, 0x46, 0xd7, 0x29, 0x1a, 0xb6, 0xb0, 0xa4, 0xb1, 0x81, 0xaf, 0x73, 0x51, 0xf1] ++ zeros 64 ++
    [0x7] ++ zeros 7 ++ [0x20, 0x1] ++ zeros 6 ++ [0x1] ++ zeros 15 ++ [0x5] ++ zeros 127 ++ [0x1, 0x0, 0x0, 0x0, 0x2] ++ zeros 11 ++ [0x7, 0x0,
    0x7, 0x0, 0x2, 0x0, 0x1] ++ zeros 5 ++ [0x1, 0x0, 0x0, 0x0]

/-- Region 1, bound to the old plan, with the successor and its cask in the store. -/
def racking : State :=
  { wr (group1 rsBound) F.REG_PLAN_PLAN_ID 1 1 with
    store := { live.store with plans := [(1, image4), (2, image2)], masters := [⟨1, 7, 2, cask1, 0, none, false, false, 0⟩] } }

/-- The successor carries its digest. -/
theorem image2_digest : planDigestOk image2 = true := by decide +kernel

/-- RackCommandsAct: a successor that passes its checks, a rack that is loaded, one that drains with no stream of the old version, and a session without the right. -/
theorem witness_rack_load :
    ((partsOf racking 1).find? (fun p => hasPlan racking p && successorOk racking p 2) = some 1 ∧ wholeFates racking 1 = true ∧
      regionState racking 1 = rsBound ∧ racking.store.rack = none ∧ cmdBusy racking 1 = false ∧ regionTenant racking 1 = 0 ∧
      missingOf racking (tget racking.store.plans 2 []) = [] ∧ bindStatus racking 1 2 0 true = stOk) ∧ planStatus racking 2 0 = stOk := by
  refine ⟨by decide +kernel, ?_⟩
  have h : tget? racking.store.plans 2 = some image2 := by decide +kernel
  simp only [planStatus, h, image2_digest]
  decide +kernel
theorem witness_racks :
    isOperator live (.mc 0) = true ∧ isOperator live (.host 1) = false ∧ rd live F.CASK_COMMIT_WRITE_STATUS 0 = 0 ∧
    (let s := { wr live F.CASK_RACK_STATUS_PHASE 0 2 with store := { live.store with rack := some ⟨1, 2, 1, false, false, 0⟩ } }
     rd s F.CASK_RACK_STATUS_PHASE 0 = 2 ∧ twState s ≠ twPaired) ∧
    (let k : Rack := ⟨1, 2, 1, false, true, 0⟩
     let s := { wr live F.CASK_CTL_DRAIN_S 0 1 with store := { live.store with rack := some k } }
     rd s F.CASK_CTL_DRAIN_S 0 ≠ 0 ∧ oldStreams s k = []) := by decide +kernel

/-- PciePortsAct: the first port, and the second of a bifurcated one. -/
theorem witness_pcie : 0 ∉ live.pwr.lostRims ∧ portExists live 0 = true ∧ portExists live 1 = false ∧ portExists { live with bifurcated := true } 1 = true := by decide +kernel

/-! ## Witnesses: streams -/

/-- A stream of region 1 with one token in its log, formed. -/
def stream1 : Stream := { blankStream with region := 1, state := .ready, log := [5], built := 1 }

/-- Region 1 runs; the stream x is in slot 3, generation 1, and command 9 of the ledger, with the given entry, waits for it. -/
def ledger (op : Nat) (x : Stream) (entry : List Byte) : State :=
  let s := setStream (group1 rsRunning) 3 x
  { s with strm := { s.strm with cmds := [⟨9, 0, op, 0, handleOf 3 1, [], entry, [], 0, none, .accepted, false, 0, none⟩] } }

/-- A closed slot that is no mirror is there to be taken. -/
theorem takeSlot_some (s : State) (k : Nat) (hk : k < 65536)
    (h : (streamAt s (65536 * rd s F.TWIN_STATUS_ROLE 0 + k)).state = .closed ∧ (streamAt s (65536 * rd s F.TWIN_STATUS_ROLE 0 + k)).mirror = false) :
    ∃ slot s', takeSlot s = some (slot, s') := by
  unfold takeSlot
  dsimp only
  split
  · rename_i hf
    have : 65536 * rd s F.TWIN_STATUS_ROLE 0 + k ∈ ([] : List Nat) := by
      rw [← hf]
      exact List.mem_filter.2 ⟨List.mem_map.2 ⟨k, List.mem_range.2 hk, rfl⟩, by simp [h.1, h.2]⟩
    simp at this
  · exact ⟨_, _, rfl⟩

/-- StreamsOpenForkClose: each command ready; the last entry of OPEN's fields names region 1, of tenant 0, whose plan retires no version. -/
theorem witness_open :
    (readyCmd (ledger 0 stream1 []) 9 0).map (·.discard) = some false ∧
    (let s := ledger 9 stream1 []
     (readyCmd s 9 9).map (fun c => (c.discard, runCheck s c)) = some (false, none)) ∧
    (let s := ledger 9 { stream1 with lost := true } []
     (readyCmd s 9 9).map (fun c => (c.discard, runCheck s c)) = some (false, some stDegraded)) ∧
    (let s := ledger 8 stream1 []
     (readyCmd s 9 8).map (fun c => (c.discard, runCheck s c)) = some (false, none) ∧ regionPaused s 1 = false) ∧
    (let s := ledger 1 stream1 (zeros 24 ++ [1, 0, 9, 0])
     (readyCmd s 9 1).map (·.discard) = some false ∧ rd s F.STRM_QP_CFG_TENANT 0 = 0 ∧ numAt (zeros 24 ++ [1, 0, 9, 0]) 24 2 = 1 ∧ slotQuotaOk s 0 = true ∧
       regionCheck s 1 0 = none ∧ unitState s 1 ≠ rsBinding ∧ unitState s 1 ≠ rsSweeping ∧ versionRetired s 1 9 = false) := by decide +kernel
/-- A FORK of a stream with a full page and one that is not. -/
def forking : State :=
  let s := ledger 5 { stream1 with pages := [0, 4] } []
  let s := setPage (setPage s 0 { blankPage with sealedBlocks := 4 }) 4 { blankPage with sealedBlocks := 1 }
  { s with strm := { s.strm with nextPage := 9 } }
theorem witness_fork :
    (readyCmd forking 9 5).map (fun c => (c.discard, slotOf c.handle, runCheck forking c)) = some (false, 3, none) ∧
    (let x := streamAt forking 3
     x.redo = false ∧ x.state ≠ .parked ∧ regionWaits forking x.region = false ∧ forking.strm.journal.full = false ∧
       slotQuotaOk forking x.tenant = true ∧ regionCheck forking x.region x.tenant = none ∧ versionRetired forking x.region x.version = false ∧
       fetchQuotaOk forking x (x.pages.filter fun p => !shareable forking p).length = true ∧ forking.strm.exports = [] ∧
       (∀ p ∈ x.pages, p < forking.strm.nextPage) ∧ shareable forking 0 = true ∧ shareable forking 4 = false) := by decide +kernel
theorem witness_open_slot : (∃ k s', takeSlot (ledger 1 stream1 []) = some (k, s')) ∧ ∃ k s', takeSlot forking = some (k, s') :=
  ⟨takeSlot_some _ 65535 (by decide) (by decide +kernel), takeSlot_some _ 65535 (by decide) (by decide +kernel)⟩

/-- The layout of a plan set gives every span group a member, as R227 has it (c of at least 1). -/
def Spans : Prop := ∀ set g, 0 < (Config.kvLayout set).members g

theorem seat_holds (hs : Spans) (s : State) (p n : Nat) (hn : n ≤ 64) : seatHolds s p n = true := by
  have h2 : 0 < spanPages (kvNow s) (groupNow s p) := Nat.pow_pos (by decide)
  have h1 : 0 < (kvNow s).members (groupNow s p) := hs _ _
  have : 64 * 1 * 1 ≤ groupSpan (kvNow s) (groupNow s p) := Nat.mul_le_mul (Nat.mul_le_mul_left _ h1) h2
  exact decide_eq_true (Nat.le_trans hn this)

/-- Where every group has a member, every free place takes a stream of one page, and the largest span is no smaller. -/
theorem spans (hs : Spans) (s : State) (h : takenSeats s = []) (n : Nat) (hn : n ≤ 64) : freeSeat s n = some 0 ∧ n ≤ largestSpan s := by
  refine ⟨?_, ?_⟩
  · simp only [freeSeat, h, List.range_succ_eq_map (n := 1023)]
    rw [List.find?_cons_of_pos]
    simp [seat_holds hs s 0 n hn]
  · have up : ∀ (f : Nat → Nat) (l : List Nat) (m : Nat), m ≤ l.foldl (fun m p => max m (f p)) m := by
      intro f l
      induction l with
      | nil => intro m; exact Nat.le_refl m
      | cons a l ih => intro m; exact Nat.le_trans (Nat.le_max_left m (f a)) (ih _)
    simp only [largestSpan, List.range_succ_eq_map (n := 1023), List.foldl_cons]
    exact Nat.le_trans (Nat.le_trans (by simpa [seatHolds] using seat_holds hs s 0 n hn) (Nat.le_max_right 0 _)) (up _ _ _)

/-- A stream without a page takes its seat in any layout. -/
theorem seat_none (s : State) (k p : Nat) (h : (streamAt s k).pages = []) : seatPages s k p = some s := by
  have keep : ∀ l : List Nat, l.foldl (fun (acc : Option State) _ => acc) (some s) = some s := fun l => by induction l <;> simp_all
  simp [seatPages, h, keep]

/-- StreamsWorkAndRest: an APPEND of two hidden positions and one that goes on, each ready on a stream whose region serves. -/
theorem witness_append :
    let e := zeros 16 ++ [2, 0, 0, 0, 2, 0]
    let x := { stream1 with seat := some 7, pages := [4] }
    let s := ledger 2 x e
    ((readyCmd s 9 2).map (fun c => (c.discard, (appendWords c).length, runCheck s c)) = some (false, 2, none) ∧ regionWaits s 1 = false ∧
      s.strm.journal.full = false ∧ (qpOf s 0).stalled = false ∧ x.redo = false ∧ regionCheck s 1 0 = none ∧ numAt e 20 1 = 2) ∧
    fetchQuotaOk s x (pagesShort x 3) = true ∧ x.built ≤ x.log.length ∧ pagesShort x (min 16 3) = 0 ∧
    pagesShort { x with state := .prefill, log := List.replicate 20 1, built := 15 } 16 = 0 := by decide +kernel
/-- A GENERATE with no stop token. -/
theorem witness_generate :
    let x := { stream1 with seat := some 7 }
    let s := ledger 3 x (zeros 64)
    (readyCmd s 9 3).map (fun c => (c.discard, c.emitted, c.ended, stopTokens c)) = some (false, 0, none, []) ∧ (readyCmd s 9 3).map (runCheck s) = some none ∧ x.run = none ∧ x.redo = false ∧
      fetchQuotaOk s x 0 = true ∧ regionCheck s 1 0 = none ∧ (qpOf s 0).stalled = false := by decide +kernel
/-- A TRUNCATE at the stream's epoch, below the previous block and to a block's end. -/
theorem witness_truncate :
    let x := { stream1 with log := List.replicate 40 1, built := 40 }
    let s := ledger 4 x (zeros 16 ++ ([5, 0, 0, 0] ++ zeros 4))
    (readyCmd s 9 4).map (fun c => (numAt c.entry 16 4, numAt c.entry 20 4, runCheck s c)) = some (5, stream1.epoch, none) ∧ stream1.epoch ≠ 2 ^ 32 - 1 ∧
      fetchQuotaOk s x (bit (cutCopies s x 5)) = true ∧ x.state ≠ .parked ∧ x.seat = none ∧ 5 < x.built ∧ cutNeedsPrefill x 5 = true ∧
      cutNeedsPrefill x 16 = false := by decide +kernel
/-- A PARK and a RESUME. -/
theorem witness_park :
    (let s := ledger 6 stream1 []
     (readyCmd s 9 6).map (runCheck s) = some none ∧ stream1.state ≠ .parked) ∧
    (let x := { stream1 with state := .parked }
     let s := ledger 7 x []
     (readyCmd s 9 7).map (fun c => (c.discard, earlierWants s c, runCheck s c)) = some (false, false, none) ∧ unitState s 1 = rsRunning ∧ x.seat = none ∧ fetchQuotaOk s x 0 = true ∧
       sheddingDemanded s = false ∧ hallPages s x = 0 ∧ takenSeats s = [] ∧ max 1 x.log.length = 1) := by decide +kernel
theorem witness_work_spans (hs : Spans) :
    seatHolds (ledger 2 { stream1 with seat := some 7, pages := [4] } []) 7 3 = true ∧ 3 ≤ largestSpan (ledger 2 stream1 []) ∧
      freeSeat (ledger 7 { stream1 with state := .parked } []) 1 = some 0 ∧
      (seatPages (ledger 7 { stream1 with state := .parked } []) 3 0).isSome = true :=
  ⟨seat_holds hs _ _ _ (by decide), (spans hs _ (by decide +kernel) 3 (by decide)).2, (spans hs _ (by decide +kernel) 1 (by decide)).1,
    by rw [seat_none _ _ _ (by decide +kernel)]; rfl⟩

/-- A GENERATE of command 9 whose step is in flight, with temperature 0 and no draft. -/
def generating (tn : Nat) (cut : Bool) : State :=
  ledger 3 { stream1 with tenant := tn, state := .generating, run := some ⟨9, 0, cut, true, [], false, none⟩ } (zeros 64)

/-- SampledTokensJoinTheLog: an interrupted run; a step of two logits, of which the second is chosen, with room and without, and one without a finite
logit. -/
theorem witness_sample :
    (streamAt (generating 0 false) 3).run = some ⟨9, 0, false, true, [], false, none⟩ ∧
    (streamAt (generating 0 true) 3).run = some ⟨9, 0, true, true, [], false, none⟩ ∧
    ((generating 0 false).strm.cmds.find? fun c => c.id = 9).isSome = true ∧
    slotOf (BitVec.ofNat 32 (handleOf 3 1)).toNat = 3 ∧ genOf (BitVec.ofNat 32 (handleOf 3 1)).toNat = (streamAt (generating 0 false) 3).gen ∧
    (let x := streamAt (generating 0 false) 3
     nextIndex x = 1 ∧ x.log = [5] ∧ x.seed = 0 ∧ pageQuotaOk (generating 0 false) x.tenant (pagesShort x (x.log.length + 1)) = true) ∧
    (let s := wr (generating 5 false) F.REG_TENANT_LIM_B_PAGES 5 0
     let x := streamAt s 3
     x.tenant = 5 ∧ pageQuotaOk s x.tenant (pagesShort x (x.log.length + 1)) = false) ∧
    ((generating 0 false).strm.cmds.find? fun c => c.id = 9).map (fun c => sampleOne (sampleCfg c) 0 1 [5] [0x7FC00000, 0x7FC00000]) = some none := by
  decide +kernel
theorem witness_sample_token :
    ((generating 0 false).strm.cmds.find? fun c => c.id = 9).bind (fun c => (sampleOne (sampleCfg c) 0 1 [5] [0, 0x3F800000]).map (·.1)) = some 1 := by
  decide +kernel

/-- A page of tenant 0 with no rows, and an extent of hall memory at node 2 by a pod link on port 7. -/
def paged (x : Stream) : State :=
  let s := wrAll (setPage (setStream (group1 rsRunning) 3 x) 4 { blankPage with sealedBlocks := 1 }) 0
    [(F.NET_POOL_B_EN, 1), (F.NET_POOL_B_LEN, 64), (F.NET_POOL_A_NODE, 2), (F.NET_FAB_CTL_NODE, 1), (F.STRM_PAGER_CTL_MODE, 2)]
  let s := wrAll s 7 [(F.NET_PORT_MODE, 1), (F.NET_PORT_UP, 1), (F.NET_PORT_PEER_NODE, 2)]
  modFab s fun f => { f with carry := [7] }

def theHandle : BitVec 32 := BitVec.ofNat 32 (handleOf 3 1)

/-- PagerMovesStreams: a live stream with a seat, one without, one with an exported block, and one whose context is to be rebuilt. -/
theorem witness_pager :
    (liveSlot (paged { stream1 with seat := some 1023 }) theHandle = some 3 ∧ (paged stream1).strm.exports = [] ∧
      stream1.state ≠ .generating ∧ stream1.state ≠ .prefill) ∧
    (liveSlot (paged stream1) theHandle = some 3 ∧ stream1.seat = none ∧ hallPages (paged stream1) stream1 = 0 ∧ stream1.waiting = false ∧
      sheddingDemanded (paged stream1) = false ∧ takenSeats (paged stream1) = [] ∧ unitState (paged stream1) 1 = rsRunning) ∧
    (let s := { paged stream1 with strm := { (paged stream1).strm with exports := [⟨3, 0, 2, []⟩] } }
     liveSlot s theHandle = some 3 ∧ (s.strm.exports.find? fun e => e.slot = 3 && e.layer = 0 && e.block = 2).isSome = true ∧
       (s.strm.exports.find? fun e => e.slot = 3 && e.layer = 1 && e.block = 2) = none) ∧
    (let x := { stream1 with redo := true, built := 0, seat := some 7, pages := [4] }
     liveSlot (paged x) theHandle = some 3 ∧ stream1.redo = false ∧ x.mirror = false ∧ unitState (paged x) 1 = rsRunning ∧
       (paged x).strm.journal.full = false ∧ x.built ≤ x.log.length ∧ pagesShort x (min 16 1) = 0 ∧
       pagesShort { x with log := List.replicate 20 1 } 16 = 0) := by decide +kernel
theorem witness_pager_seat (hs : Spans) : freeSeat (paged stream1) 1 = some 0 ∧ (seatPages (paged stream1) 3 0).isSome = true :=
  ⟨(spans hs _ (by decide +kernel) 1 (by decide)).1, by rw [seat_none _ _ _ (by decide +kernel)]; rfl⟩

/-- A page for which its member has no frame. -/
theorem witness_pager_frame (hl : 0 < (Config.kvLayout 0).layers) (hf : ∀ l g m, (Config.kvLayout 0).frames l g m = []) :
    seatPages (paged { stream1 with pages := [4] }) 3 0 = none := by
  obtain ⟨n, hn⟩ : ∃ n, (Config.kvLayout 0).layers = n + 1 := ⟨_, (Nat.succ_pred_eq_of_pos hl).symm⟩
  have hk : kvNow (paged { stream1 with pages := [4] }) = Config.kvLayout 0 := by
    have : planSetNow (paged { stream1 with pages := [4] }) = 0 := by decide +kernel
    rw [kvNow, this]
  have hp : (streamAt (paged { stream1 with pages := [4] }) 3).pages = [4] := by decide +kernel
  have hs : ∀ l, seatPage (paged { stream1 with pages := [4] }) 3 0 l 4 0 = none := fun l => by
    have : (paged { stream1 with pages := [4] }).strm.frames = [] := by decide +kernel
    simp [seatPage, findFrame, takeFrame, this, hk, hf]
  have keep : ∀ l : List Nat, l.foldl (fun (acc : Option State) layer => acc.bind fun s => seatPage s 3 0 layer 4 0) none = none :=
    fun l => by induction l <;> simp_all
  simp only [seatPages, hk, hn, hp, List.range_succ_eq_map, List.foldl_cons, List.zipIdx_cons, List.zipIdx_nil, List.foldl_nil, Option.bind_some, hs]
  exact keep _

/-- Every pipeline position taken by a stream that works. -/
def crowded : State :=
  let s := paged stream1
  { s with strm := { s.strm with slots := (3, stream1) :: (List.range 1024).map fun p => (p + 10, { stream1 with seat := some p, state := .generating }) } }
theorem witness_pager_full : liveSlot crowded theHandle = some 3 ∧ unitState crowded 1 = rsRunning ∧ hallPages crowded stream1 = 0 ∧ freeSeat crowded 1 = none ∧ idleSeat crowded 1 = none := by
  refine ⟨by decide +kernel, by decide +kernel, by decide +kernel, ?_, ?_⟩
  · have : ∀ p, p < 1024 → (takenSeats crowded).contains p = true := fun p hp => by
      simp only [takenSeats, crowded, List.contains_eq_mem, decide_eq_true_eq, List.mem_filterMap]
      exact ⟨(p + 10, { stream1 with seat := some p, state := .generating }),
        List.mem_cons_of_mem _ (List.mem_map.2 ⟨p, List.mem_range.2 hp, rfl⟩), by simp⟩
    simp only [freeSeat, List.find?_eq_none]
    exact fun p hp => by rw [this p (List.mem_range.1 hp)]; simp
  · have : (crowded.strm.slots.filter fun e => decide (e.2.state = .ready) && e.2.seat.isSome) = [] := by
      simp [crowded, stream1, blankStream, paged]
    simp only [idleSeat]
    rw [List.filter_eq_nil_iff.2]; rfl
    intro e he
    have h := List.filter_eq_nil_iff.1 this e he
    cases hseat : e.2.seat <;> simp_all

/-- PagerMovesStreams: parked, due, with one page of at most 64 bytes that no other stream holds, and an extent with room, to which a message leaves. -/
theorem witness_spill :
    let x := { stream1 with state := .parked, pages := [4] }
    let s := paged x
    liveSlot s theHandle = some 3 ∧ (s.strm.slots.filter fun e => e.2.state = .parked) = [(3, x)] ∧ spillDue s x = true ∧
      pinned s (handleOf 3 x.gen) = false ∧ pageHolders s 4 ≤ 1 ∧ (pageOf s 4).hall = false ∧ extentEnd s 0 = 0 ∧
      poolExtents s = [0] ∧ rd s F.NET_POOL_B_LEN 0 = 64 ∧
      ∀ data, (sendMessage s 2 2 1 0 0 data data.length (.spill 0 4)).1 = true := by
  refine ⟨?_, ?_, ?_, ?_, ?_, ?_, ?_, ?_, ?_, ?_⟩
  iterate 9 decide +kernel
  intro data
  have h1 : mayOriginate (paged { stream1 with state := .parked, pages := [4] }) = true := by decide +kernel
  have h2 : pathsTo (openPaths (paged { stream1 with state := .parked, pages := [4] }) 2) 2 ≠ [] := by decide +kernel
  have hd : msgDst (2 * 2 ^ 32 + 0 % 2 ^ 32) = 2 := by decide
  have hn : tget (paged { stream1 with state := .parked, pages := [4] }).fab.nextMsg 2 0 = 0 := by decide +kernel
  simp only [sendMessage, sendKeyed, hn, hd, h1, if_neg h2, Bool.true_eq_false, if_false]

/-- ReclaimAndQueuePairs: a tenant within its quota and one beyond it with no stream, and a queue pair with and without EN. -/
theorem witness_reclaim :
    isOperator live (.mc 0) = true ∧ rdB live F.REG_TENANT_CTL_RECLAIM_BUSY 255 = false ∧ pageUse live 255 ≤ rd live F.REG_TENANT_LIM_B_PAGES 255 ∧
    (let s := setPage (setStream (wr live F.REG_TENANT_LIM_B_PAGES 255 0) 3 { stream1 with tenant := 255, pages := [4] }) 4 { blankPage with tenant := 255 }
     rdB s F.REG_TENANT_CTL_RECLAIM_BUSY 255 = false ∧ rd s F.REG_TENANT_LIM_B_PAGES 255 < pageUse s 255 ∧ oldestOf s 255 .parked = [] ∧
       (oldestOf s 255 .ready).filter (fun k => (streamAt s k).seat.isSome) = []) ∧
    mayBindQp live (.mc 0) 63 = true ∧ rdB live F.STRM_QP_CFG_EN 63 = false ∧ rdB (wr live F.STRM_QP_CFG_EN 63 1) F.STRM_QP_CFG_EN 63 = true ∧
    mayBindQp (wr live F.STRM_QP_CFG_EN 63 1) (.mc 0) 63 = true := by decide +kernel

/-! ## Witnesses: twins and the fabric -/

/-- The engine in a state of its pair, with a twin port up and a pair key. -/
def twin (st : Nat) : State :=
  modTwin (wrAll live 0 [(F.TWIN_STATUS_STATE, st), (F.TWIN_STATUS_PORTS_UP, 1), (F.TWIN_CTL_PORTS, 1), (F.TWIN_PEER_PEER_NODE, 2), (F.NET_FAB_CTL_NODE, 1)])
    fun t => { t with pairKey := some [1] }

/-- An offer of node 2 for this plan set, whose public key has the fingerprint that TWIN_PEER_KEY holds. -/
def offer2 : OfferMsg := ⟨2, [], 0, 1, Config.familyDigest 0, 0, 0, false, 7, 0, true⟩

/-- TWIN_PEER_KEY holds the fingerprint of an empty key: SHAKE256 of no bytes. -/
def keyed : State :=
  let s := twin twOffering
  wr (wr (wr (wr s F.TWIN_PEER_KEY_KEY 0 0x138da80b2bddb946) F.TWIN_PEER_KEY_KEY 1 0x24eb3e74eb3f3b23) F.TWIN_PEER_KEY_KEY 2 0x821bb862ea52cd3f)
    F.TWIN_PEER_KEY_KEY 3 0x2f76d56e64270cb5

/-- TwinsPair: each state on the way, an offer without a good signature and one that passes every check. -/
theorem witness_pair :
    live.strm.emits = [] ∧ twState live = twUnpaired ∧ rdB (wr live F.TWIN_CTL_PAIR_EN 0 1) F.TWIN_CTL_PAIR_EN 0 = true ∧
    twinPortsUp (twin twOffering) ≠ 0 ∧ twState (twin twOffering) = twOffering ∧ twState (twin twCarrying) = twCarrying ∧
    (twin twOffering).twin.checked = false ∧ twState (twin twSyncing) = twSyncing ∧ (twin twSyncing).twin.carrying = false ∧
    (twin twSyncing).twin.peerCarrying = false ∧ (twin twSyncing).twin.resync = [] ∧ (twin twOffering).strm.qps = [] ∧ ownsStreams (twin twOffering) = false ∧
    pairingCause (twin twOffering) { offer2 with sigOk := false } = 1 ∧
    (let s := modTwin (twin twOffering) fun t => { t with checked := true }
     twState s = twOffering ∧ s.twin.checked = true) ∧
    (modTwin (twin twSyncing) fun t => { t with carrying := true }).twin.carrying = true := by decide +kernel
theorem witness_offer : pairingCause keyed offer2 = 0 := by
  have h : shake256 [] 32 = peerKeyRegs keyed ∧ planSetNow keyed = 0 ∧
      boundPlanBytes keyed = 0 ∧ keyed.twin.fencedBoot = none := by decide +kernel
  simp [pairingCause, offer2, h.1, h.2.1, h.2.2.1, h.2.2.2]

/-- TwinsStayJoined: a paired engine with ports up, its second and its third miss, and a record in turn. -/
theorem witness_joined :
    journaled (twin twPaired) = true ∧ (twin twPaired).strm.emits = [] ∧ twinPortsUp (twin twPaired) ≠ 0 ∧
    rdB (twin twPaired) F.PWR_STATUS_SPIRE_FAULT 0 = false ∧
    (modTwin (twin twPaired) fun t => { t with misses := 1 }).twin.misses + 1 < 3 ∧
    3 ≤ (modTwin (twin twPaired) fun t => { t with misses := 2, hbWait := true }).twin.misses + 1 ∧
    (let r : JRec := ⟨8, true, 0, (twin twPaired).strm.journal.partnerNext, 0, 0, 0, [], true⟩
     r.checkOk = true ∧ 1 ≤ r.type.toNat ∧ r.type.toNat ≤ 8 ∧ ringBytes (twin twPaired).strm.journal.partner + recSize r ≤ 2 ^ 30) := by
  decide +kernel

/-- TwinsFence: a fencing engine whose partner has a whole command that it had accepted. -/
theorem witness_fence_owed :
    let s := modTwin (twin twFencing) fun t => { t with mcmds := [⟨4, 1, 2, 0, 7, [], [], [], 3, none, .accepted, false, 0, none⟩] }
    twState s = twFencing ∧ s.twin.mirrorQps = [] ∧ s.twin.adopted = [] ∧ s.twin.mcmds.all (fun c => c.phase ≠ .fetched) = true := by decide +kernel

/-- TwinsFence: a fencing and a holding engine, the partner's answer with its tag and without, and a FENCE with a higher number to a paired one. -/
theorem witness_fence :
    twState (twin twFencing) = twFencing ∧ twState (twin twHolding) = twHolding ∧ (twin twFencing).twin.mirrorQps = [] ∧
    isOperator (twin twFencing) (.mc 0) = true ∧ (twin twFencing).twin.pairKey ≠ none ∧
    (let m : FenceMsg := ⟨2, (twin twFencing).twin.peerBoot, (twin twFencing).twin.fenceNum, true, 63⟩
     m.num = (twin twFencing).twin.fenceNum ∧ m.boot = (twin twFencing).twin.peerBoot ∧ m.tagOk = true) ∧
    journaled (twin twPaired) = true ∧ rd (twin twPaired) F.NET_PORT_MODE 63 ≠ pmTwin ∧
    (twin twPaired).twin.lastFence < (twin twPaired).twin.lastFence + 1 := by decide +kernel

/-- TwinsHandOver: a paired and an offering engine, with PAIR_EN and without. -/
theorem witness_handover :
    twState (twin twPaired) = twPaired ∧ (twin twPaired).strm.emits = [] ∧ rdB (twin twPaired) F.TWIN_CTL_PAIR_EN 0 = false ∧
    rdB (wr (twin twPaired) F.TWIN_CTL_PAIR_EN 0 1) F.TWIN_CTL_PAIR_EN 0 = true ∧ twState (twin twOffering) = twOffering := by decide +kernel

/-- The engine is node 1, its twin node 2; port 63, in mode m, is up and carries. -/
def cabled (st m : Nat) : State :=
  let s := twin st
  modFab (wrAll s 63 [(F.NET_PORT_MODE, m), (F.NET_PORT_UP, 1)]) fun f => { f with carry := [63] }

/-- A frame on port 63 from a node to node 1: one segment of an operation, with its tag. -/
def frame (op : BitVec 4) (src : BitVec 16) (off : BitVec 48) : GFrame :=
  ⟨63, ⟨1, op, true, true, false, false, false, 2, 0, 1, src, 0, 9, 0, 1, off, 0, 1⟩, [5], true, 64⟩

/-- GorlaFramesArrive: frames of the twin and of another node, a write and a read at the last places of the exported windows, and a host's SEND. -/
theorem witness_frames :
    (portCarries (cabled twPaired 1) 63 = true ∧ twinShut (cabled twPaired 1) 63 = false ∧ ownNode (cabled twPaired 1) = 1 ∧
      isProvisional (cabled twPaired 1) = false ∧ isTwin (cabled twPaired 1) 2 = true ∧ isTwin (cabled twPaired 1) 3 = false ∧
      (frame 2 2 0).hdr.auth = true ∧ rxOf (cabled twPaired 1) (rxKey (frame 2 2 0).hdr) = none) ∧
    (exported (cabled twPaired 1) true (2 ^ 30 - 1) 1 = true ∧ exported (cabled twPaired 1) false (0x040000000000 + 2 ^ 40 - 1) 1 = true ∧
      exported (cabled twPaired 1) true (2 ^ 30) 1 = false) ∧
    (let s := modFab (cabled twPaired 1) fun f => { f with msgs := [⟨2 * 2 ^ 32 + 9, 3, 1, 0, 0, [], 1, 8192, 1, [], [], [], false, false, .fetch 3 4 1⟩] }
     (s.fab.msgs.find? fun x => x.key = 2 * 2 ^ 32 + (frame 4 2 0).hdr.msg.toNat && x.op = 3).isSome = true) ∧
    (let s := modFab (cabled twUnpaired 1) fun f => { f with nodes := [(3, ⟨⟨63, 3, 4, 0, false, false, 0, [], 0, [], 0, false⟩⟩)] }
     isHostNode s 3 = true ∧ s.keep.sends.length < 256) ∧
    requestGood (sendRequest (3, zeros 16)) = true ∧ requestGood (sendRequest (3, (frame 5 3 0).payload)) = false := by decide +kernel
/-- The check of a page that a READ_RESP brings back. -/
theorem witness_frame_page :
    let s := setPage (cabled twPaired 1) 4 { blankPage with hall := true, check := 0x6A90C1C035A62B4C }
    natOfBytes (shake128 (frame 4 2 0).payload 8) = (pageOf s 4).check ∧ rxOf s (rxKey (frame 4 2 0).hdr) = none := by decide +kernel
theorem witness_frame_ok : FrameOk (cabled twPaired 1) (frame 2 2 0) 2 true ∧ FrameOk (cabled twPaired 1) (frame 2 3 0) 2 true :=
  ⟨by unfold FrameOk; decide +kernel, by unfold FrameOk; decide +kernel⟩

/-- A message to node 3 of one segment, and a path there with it in flight whose RTO has expired twice. -/
def sending (user : GUser) : State :=
  modFab (cabled twUnpaired 1) fun f => { f with
    msgs := [⟨3 * 2 ^ 32 + 9, 2, 2, 0, 0, [5], 1, 8192, 1, [], [], [], false, false, user⟩]
    paths := [(3 * 256 + 255, ⟨3, 63, 0, 0, 0, 1, [⟨3 * 2 ^ 32 + 9, 0, 0⟩], 2, 1000, false, 0, false⟩),
              (3 * 256, ⟨3, 63, 0, 0, 0, 1, [], 3, 1000, true, 0, false⟩)]
    owed := [(3, 1)]
    rxs := [⟨3 * 2 ^ 32 + 9, 2, 0, 8192, none, [(1, [5])], false⟩] }

/-- GorlaRetransmission: the message, a message to the twin that may not fail, the paths, open and closed, and acknowledgements that are owed. -/
theorem witness_retransmission :
    (msgOf (sending (.spill 0 4)) (3 * 2 ^ 32 + 9)).map (fun x => (x.op, mayFail (sending (.spill 0 4)) x)) = some (2, true) ∧
    mayFail (twin twPaired) ⟨2 * 2 ^ 32, 2, 2, 0, 0, [5], 1, 8192, 1, [], [], [], false, false, .journal⟩ = false ∧
    (tget? (sending (.spill 0 4)).fab.paths (3 * 256 + 255)).map (fun p => (p.flight.length, p.closed)) = some (1, false) ∧
    (tget? (sending (.spill 0 4)).fab.paths (3 * 256)).map (·.closed) = some true ∧
    tget (sending (.spill 0 4)).fab.owed (3 : BitVec 16).toNat 0 ≠ 0 ∧ (rxOf (sending (.spill 0 4)) (3 * 2 ^ 32 + 9)).map (·.done) = some false := by
  decide +kernel

/-- PortsAndNeighbours: the last port up and down, POD and switched, a HELLO of another node, this engine's own address and its gateway's. -/
theorem witness_ports :
    (rdB (cabled twUnpaired 1) F.NET_PORT_UP 63 = true ∧ portMode (cabled twUnpaired 1) 63 = pmPod ∧ 63 ∉ (cabled twUnpaired 1).fab.downSeen ∧
      portUp (cabled twUnpaired 1) 63 = true ∧ twinShut (cabled twUnpaired 1) 63 = false ∧ ((5 : BitVec 16)).toNat ≠ ownNode (cabled twUnpaired 1)) ∧
    (let s := wr live F.NET_PORT_MODE 63 2
     rdB s F.NET_PORT_UP 63 = false ∧ portMode s 63 ≠ pmOff ∧ s.pwr.lostRims.contains (63 / 16) = false ∧
       ({ s with pwr := { s.pwr with lostRims := [3] } }).pwr.lostRims.contains (63 / 16) = true) ∧
    (let s := { live with captured := [(fkey F.NET_PORT_MODE 63, putF F.NET_PORT_MODE 0 2)] }
     (tget? s.captured (fkey F.NET_PORT_MODE 63)).map (getF F.NET_PORT_MODE) = some 2 ∧ portMode s 63 ≠ pmTwin) ∧
    isOwnAddress (cabled twUnpaired 1) (hallAddress (cabled twUnpaired 1) (65536 + 63)) = true ∧
    (let s := wr (cabled twUnpaired 2) F.NET_FAB_GW_GATEWAY 0 1
     portCarries s 63 = true ∧ portMode s 63 = pmSwitched ∧ rd s F.NET_FAB_GW_GATEWAY 0 ≠ 0) ∧
    rdB (wr (cabled twUnpaired 1) F.NET_FAB_CTL_PFC_EN 0 1) F.NET_FAB_CTL_PFC_EN 0 = true := by decide +kernel

/-- HallTimeFollowsItsParent: a message of the domain on a port that carries, an engine with a parent and one in holdover. -/
theorem witness_hall :
    (let m : PtpMsg := ⟨63, BitVec.ofNat 8 (rd (cabled twUnpaired 1) F.NET_PTP_DOMAIN 0), 0, 15, true, true⟩
     portCarries (cabled twUnpaired 1) m.port = true ∧ portMode (cabled twUnpaired 1) m.port ≠ pmTwin ∧
       m.domain.toNat = rd (cabled twUnpaired 1) F.NET_PTP_DOMAIN 0) ∧
    live.fab.parent = false ∧ rdB (wr live F.NET_PTP_VALID 0 1) F.NET_PTP_VALID 0 = true ∧
    (modFab live fun f => { f with parent := true }).fab.parent = true := by decide +kernel

/-! ## Witnesses: power and cooling -/

/-- Fields 0 and 47 are on, the rails as well. -/
def powered : State := modPwr live fun p => { p with on := [0, 47], rails := true }

/-- PowerReports: a buttress that has not failed, the fifth and the sixth of a field, droops below each limit, and a cap above, near and below the
power. -/
theorem witness_power :
    (rd powered F.PWR_BUTT_FAILED 47).testBit 63 = false ∧ rd (wr powered F.PWR_FIELD_FAILED 47 4) F.PWR_FIELD_FAILED 47 = 4 ∧
    rd (wr powered F.PWR_FIELD_FAILED 47 5) F.PWR_FIELD_FAILED 47 = 5 ∧ 47 ∈ powered.pwr.on ∧
    (0 + (droopLimits powered).1 < setpoint powered 47 ∧ tget powered.pwr.warnTick 47 0 ≠ tickCount powered + 1) ∧
    (0 + (droopLimits powered).2 < setpoint powered 47 ∧ tget powered.pwr.critTick 47 0 ≠ tickCount powered + 1) ∧
    (let s (p : Nat) : State := wr (wr live F.PWR_CTL_CAP 0 200) F.PWR_TELEM_POWER 0 p
     capOf (s 0) = some 20000 ∧ 20000 < rd (s 20001) F.PWR_TELEM_POWER 0 ∧ rd (s 19000) F.PWR_TELEM_POWER 0 ≤ 20000 ∧
       95 * 20000 ≤ 100 * rd (s 19000) F.PWR_TELEM_POWER 0) ∧
    capOf (wr live F.PWR_CTL_CAP 0 0) = none := by decide +kernel

/-- DomainsAndRails: a step that waits for its settling, a field to hibernate, asked or not, and to wake, a ramp that waits, a running sag lock with
what it defers, and a provisional value. -/
theorem witness_domains :
    (let s := modPwr live fun p => { p with raise := some 3 }
     s.pwr.raise = some 3 ∧ s.pwr.ramps = [] ∧ s.clk.fallback = false) ∧
    (rd live F.PWR_HIB_REQ 0).testBit 47 = false ∧ fieldInUse powered 47 = false ∧ (tget? powered.pwr.ramps 47).isNone = true ∧
    (let s := wr live F.PWR_HIB_REQ 0 (2 ^ 47)
     (rd s F.PWR_HIB_REQ 0).testBit 47 = true ∧ mayWake s = true ∧ fieldLost s 47 = false ∧ tget? s.pwr.ramps 47 = none ∧ 47 ∉ s.pwr.on) ∧
    mayWake (modThm live fun t => { t with stopped := true }) = false ∧
    (let s := modPwr live fun p => { p with ramps := [(47, ⟨.wait, 3, false, false⟩)] }
     (tget? s.pwr.ramps 47).map (·.phase) = some .wait) ∧
    (rd powered F.PWR_HIB_REQ 0).testBit 47 = false ∧ 47 ∈ powered.pwr.on ∧ fieldLost powered 47 = false ∧
    sagLocked live = false ∧ sagLocked (wr live F.PWR_STATUS_NVLOCK 0 1) = true ∧
    (modPwr live fun p => { p with prov := [(3, 63)] }).pwr.prov.contains (3, 63) = true := by decide +kernel
theorem witness_hibernate (h : Config.hibernatable (planSetNow powered) 47 = true) : mayHibernate powered 47 = true := by
  have h' : fieldInUse powered 47 = false ∧ (tget? powered.pwr.ramps 47).isNone = true := by decide +kernel
  simp [mayHibernate, h, h'.1, Option.isNone_iff_eq_none.1 h'.2]
theorem witness_no_hibernate : mayHibernate (modPwr live fun p => { p with ramps := [(47, ⟨.wait, 3, false, false⟩)] }) 47 = false :=
  Bool.and_false _

/-- Channel n is read and its value is good. -/
def chan (n v : Nat) : State := wrAll live n [(F.CHAN_CFG_EN, 1), (F.CHAN_VAL_STATE, 1), (F.CHAN_VAL_VALUE, v)]

/-- CoolingMeasures: a channel that is read and not in fault, twice bad already, a throttle that is due and one that may go up, a flow and none, an
outlet hold and mode FIXED. -/
theorem witness_cooling :
    (rdB (chan 15 0) F.CHAN_CFG_EN 15 = true ∧ chanFaulty (chan 15 0) 15 = false) ∧
    tget (modThm (chan 15 0) fun t => { t with bad := [(15, 16 * 4 + 2)] }).thm.bad 15 0 = 16 * 4 + 2 ∧
    (let s := modThm (wr live F.THM_STATUS_DEMAND 0 4096) fun t => { t with tj := 4 * 127 }
     stepDownDue s = true ∧ s.pwr.sel < 3) ∧
    (let s := modPwr (modThm live fun t => { t with tj := 0, thbm := 0 }) fun p => { p with sel := 1 }
     s.thm.tj < 4 * ((curve s).1 : Int) - 12 ∧ s.thm.thbm < 4 * ((curve s).2.2.1 : Int) - 12 ∧ 0 < s.pwr.sel) ∧
    flowNow live = none ∧ keepDown live = false ∧ flowNow (chan 6 50000) = some 50000 ∧ keepDown (chan 6 50000) = false ∧
    (let s := wrAll live 0 [(F.BOOT_STATUS_PHASE, 10), (F.THM_CTL_CTRL, 0)]
     outputsHeld s = false ∧ outputsHeld (modThm s fun t => { t with leakHold := true }) = false ∧ s.thm.leakHold = false ∧
     s.thm.stopped = false ∧ rd s F.THM_CTL_CTRL 0 = 0) := by decide +kernel

/-- CoolingLimits: a machine that cools, a stopped one whose flow has come back, a second reading over a limit, rails on and off, a wet cable, an inlet
below the dew point, and a stack and a rim domain that are there. -/
theorem witness_limits :
    (live.thm.stopped = false ∧ live.thm.leakHold = false ∧ live.thm.limit = false) ∧
    (let s := modThm (chan 6 2000000) fun t => { t with stopped := true }
     flowNow s = some 2000000 ∧ 100 * rd s F.THM_THR_FLOW_WARN 0 ≤ 2000000) ∧
    2 ≤ (modThm live fun t => { t with overLim := 2 }).thm.overLim ∧ powered.pwr.rails = true ∧ live.pwr.rails = false ∧
    (wet (chan 9 1) (8 + 1) = true ∧ 8 + 1 ∉ (chan 9 1).thm.wasWet) ∧
    (let s := wrAll (chan 0 100) 10 [(F.CHAN_CFG_EN, 1), (F.CHAN_VAL_STATE, 1), (F.CHAN_VAL_VALUE, 101)]
     belowDew s 0 = true ∧ belowDew s (rd s F.THM_THR_DEW_MARGIN 0) = true ∧ s.thm.dewLow = false) ∧
    (47 ∉ live.pwr.lostStacks ∧ 3 ∉ live.pwr.lostRims ∧ journaled (twin twPaired) = true ∧ (twin twPaired).store.masters = []) := by decide +kernel

/-! ## Witnesses: the Keep -/

/-- Request q is in progress on host port 0, where an operator session with handle 5 and the empty key is open, and one of tenant 9. -/
def asked (q : Req) : State :=
  { setMbox live 0 { blankMailbox with busy := some q } with
    keep := { (setMbox live 0 { blankMailbox with busy := some q }).keep with
      sessions := [⟨5, 0, 0, [], 1000, none⟩, ⟨6, 9, 0, [], 1000, none⟩] } }

/-- A request of host port 0 with a command, a session and a body. -/
def request (cmd : BitVec 16) (ses : BitVec 32) (body : List Byte) : Req := ⟨0, cmd, body.length, body.length + 16, 77, ses, body, [], 0⟩

theorem session5 (q : Req) : sessionOf (asked q) 5 = some ⟨5, 0, 0, [], 1000, none⟩ := by
  have h : hallNs (asked q) = hallNs live := rfl
  have h' : hallNs live = 0 := by decide +kernel
  have hs : (asked q).keep.sessions = [⟨5, 0, 0, [], 1000, none⟩, ⟨6, 9, 0, [], 1000, none⟩] := rfl
  simp [sessionOf, h, h', hs]

/-- A request in progress names no session, or the operator's. -/
theorem admitted_none (cmd : BitVec 16) (body : List Byte) : Admitted (asked (request cmd 0 body)) (request cmd 0 body) cmd.toNat (request cmd 0 body) none :=
  ⟨by simp [served, asked, request, mboxOf, setMbox], rfl, rfl⟩
theorem admitted_some (cmd : BitVec 16) (body : List Byte) :
    Admitted (asked (request cmd 5 body)) (request cmd 5 body) cmd.toNat (request cmd 5 body) (some ⟨5, 0, 0, [], 1000, none⟩) :=
  ⟨by simp [served, asked, request, mboxOf, setMbox], rfl, by show (5 : BitVec 32) ≠ 0; decide, session5 _, Or.inl (by show (0 : Nat) < 2; decide)⟩

/-- MailboxCommandsAnswer: a channel with no request, whose window holds PING, and a command that is none; a read of at most 127 records, of which
there are none. -/
theorem witness_mailbox_keep :
    (mboxOf live 0).busy = none ∧ (mboxOf (asked (request 0 0 [])) 0).busy = some (request 0 0 []) ∧
    (requestOf 0 (mboxOf live 0).reqLen []).len + 16 = (requestOf 0 (mboxOf live 0).reqLen []).frameLen ∧ knownCmd 0 = true ∧ knownCmd 0x0002 = false ∧
    numAt (zeros 8 ++ [127, 0]) 8 2 = 127 ∧ live.events = [] := by decide +kernel

/-- The right response under an empty key to a challenge of no bytes. -/
theorem right_response : kmac256 [] [] (ascii "QB48-OPEN") 32 = bytesOf 32 39134541808093497048517833064630527035275076078311217430359020014527065176969 := by decide +kernel

/-- SessionsOpenAndClose: a channel that is locked out and one that is not, a challenge under an empty key, its right response and a wrong one. -/
theorem witness_sessions :
    uartShut live 0 = false ∧ tget live.keep.refused 0 0 ≤ hallNs live ∧
    hallNs live < tget ({ live.keep with refused := [(0, 1)] } : KeepSt).refused 0 0 ∧
    (let s := wr { live with keep := { live.keep with keys := [(0, [])], challenges := [⟨8, 0, 0, [], [], 0⟩] } } F.SEC_STATUS_IDENTITY 0 1
     unsealedKey s 0 = some [] ∧
       (s.keep.challenges.find? fun c => c.id = numAt (bytesOf 4 8) 0 4 && c.chan = 0 && hallNs s ≤ c.made + 10000000000) = some ⟨8, 0, 0, [], [], 0⟩ ∧
       s.keep.sessions.length < 64) := by decide +kernel
theorem witness_response : ((bytesOf 4 8 ++ bytesOf 32 39134541808093497048517833064630527035275076078311217430359020014527065176969).drop 4).take 32 = kmac256 [] ([] ++ []) (ascii "QB48-OPEN") 32 ∧
    ((bytesOf 4 8).drop 4).take 32 ≠ kmac256 [] ([] ++ []) (ascii "QB48-OPEN") 32 := by
  rw [show ([] : List Byte) ++ [] = [] from rfl, right_response]; decide +kernel

/-- KeysAndSettingsAreKept: the sag lock off and on, no operator key yet, and the last places of the key and owner tables. -/
theorem witness_keys :
    sagLocked (asked (request 0x0110 5 [])) = false ∧ sagLocked (wr (asked (request 0x0110 5 [])) F.PWR_STATUS_NVLOCK 0 1) = true ∧
    tget? live.keep.keys 0 = none ∧ 32 ≤ (zeros 32).length ∧ 33 ≤ ([255] ++ zeros 32 : List Byte).length ∧ numAt ([255] ++ zeros 32) 0 1 = 255 ∧
    numAt ([31] ++ zeros 57) 0 1 < 32 ∧ ((([31] ++ zeros 57 : List Byte).drop 1).take 57).length = 57 := by decide +kernel

/-- BelfrySourcesAndClaims: the last source, the clock running and stopped, its TIME counting, a source to claim and none, and deep idle. -/
theorem witness_belfry :
    sourceListed 1023 = true ∧ mayForce live (.mc 7) = true ∧ live.bel.stopped = false ∧
    rd live F.BELFRY_SRC_CFG_MASK 1023 < 256 ∧ rd live F.BELFRY_SRC_STATUS_PENDING 1023 < 255 ∧
    (let s := wr (wr (wr (wr live F.BELFRY_SRC_STATUS_PENDING 1023 1) F.BELFRY_SRC_CFG_COAL 1023 1) F.BELFRY_SRC_CFG_PRIO 1023 7)
       F.BELFRY_SRC_CFG_MASK 1023 1
     0 < rd s F.BELFRY_SRC_STATUS_PENDING 1023 ∧ 0 < (coalLimits s 1023).2 ∧ rd s F.BELFRY_SRC_CFG_MASK 1023 < 256) ∧
    targetOf (.mc 7) = some 7 ∧ targetOf (.host 1) = some 9 ∧ bestSource live (candidates live 0) = none ∧
    bestSource live [1023] = some 1023 ∧ rdB (wr live F.KEEP_CTL_DEEP_IDLE 0 1) F.KEEP_CTL_DEEP_IDLE 0 = true := by decide +kernel

/-- BelfryCompletions: the claimer of an ACTIVE source that is due again, and one that claims nothing. -/
theorem witness_completion :
    (let s := wr (wr (wr (wr (wr live F.BELFRY_SRC_STATUS_ACTIVE 1023 1) F.BELFRY_SRC_STATUS_CLAIMER 1023 7) F.BELFRY_SRC_STATUS_PENDING 1023 1)
       F.BELFRY_SRC_CFG_PRIO 1023 7) F.BELFRY_SRC_CFG_MASK 1023 128
     rd s F.BELFRY_SRC_STATUS_ACTIVE 1023 = 1 ∧ rd s F.BELFRY_SRC_STATUS_CLAIMER 1023 = 7 ∧ rdB s F.BELFRY_SRC_CFG_AUTO 1023 = false ∧
       srcDue s 1023 = true ∧ (rd s F.BELFRY_SRC_CFG_MASK 1023).testBit 7 = true ∧
       max (rd s F.BELFRY_TGT_THRESH 7) (rd s F.BELFRY_TGT_RUNNING 7) < rd s F.BELFRY_SRC_CFG_PRIO 1023) ∧
    rd live F.BELFRY_SRC_STATUS_ACTIVE 1023 ≠ 1 := by decide +kernel

/-- The engine in a phase of its start. -/
def phase (p : Nat) : State := wr live F.BOOT_STATUS_PHASE 0 p

/-- KeepRestarts: an enabled watchdog in each stage, a restart that ends, planned and not, and an operator at READY, with a pair that forbids it. -/
theorem witness_restarts :
    (7 ∉ live.keep.boot.heldMcs ∧ rdB (wr live F.KEEP_WDT_EN 7 1) F.KEEP_WDT_EN 7 = true ∧ rd live F.KEEP_WDT_STAGE 7 = 0 ∧
      rd (wr live F.KEEP_WDT_STAGE 7 1) F.KEEP_WDT_STAGE 7 = 1 ∧ live.keep.boot.heldMcs = []) ∧
    (let s := modBoot (phase phKeepRestart) fun b => { b with planned := true }
     bootPhase s = phKeepRestart ∧ s.keep.boot.planned = true ∧ s.keep.boot.rerun = []) ∧
    (let s := modBoot (phase phKeepRestart) fun b => { b with planned := false }
     s.keep.boot.planned = false ∧ s.pwr.rails = false) ∧
    (mayRestart (phase phReady) = true ∧ regionsBusy (phase phReady) = false ∧ pairingForbids (phase phReady) = false ∧
      isOperator (phase phReady) (.mc 0) = true) ∧
    regionsBusy { phase phReady with store := { live.store with rack := some ⟨1, 2, 1, false, false, 0⟩ } } = true ∧
    pairingForbids (wr (phase phReady) F.TWIN_STATUS_STATE 0 twSyncing) = true := by decide +kernel

/-- StartPhasesFollow: each phase, with what it needs. -/
theorem witness_start :
    (bootPhase (phase phKeep) = phKeep ∧ bootPhase (phase phIdentity) = phIdentity ∧ bootPhase (phase phSettings) = phSettings) ∧
    (bootPhase (phase phCellar) = phCellar ∧ bootPhase (phase phFields) = phFields ∧ live.keep.boot.startList = [] ∧
      bootPhase (phase phJournal) = phJournal ∧ bootPhase (phase phPlans) = phPlans ∧ plansBusy (phase phPlans) = false) ∧
    (let s := modPwr (phase phRails) fun p => { p with present := true, clamped := true }
     bootPhase s = phRails ∧ s.pwr.present = true ∧ s.pwr.clamped = true ∧ s.thm.limit = false) ∧
    (modPwr (phase phRails) fun p => { p with clamped := false }).pwr.clamped = false ∧
    (bootPhase (phase phReady) = phReady ∧ (phase phReady).pwr.rails = false) ∧
    (let s := modBoot (wr (phase phRecovery) F.BOOT_STATUS_CAUSE 0 4) fun b => { b with fl0 := false, fl1 := false }
     bootPhase s = phRecovery ∧ rd s F.BOOT_STATUS_CAUSE 0 = 4 ∧ s.keep.boot.fl0 = false ∧ s.keep.boot.fl1 = false) ∧
    (let s := modBoot (phase phPlans) fun b => { b with record := some ⟨0, 1, some 0, true, 0, 0, 0⟩ }
     (bootRecord s).trial = true ∧ (bootRecord s).fallback = some 0 ∧ bootPhase s ≠ phReady) := by decide +kernel

/-- Slot 0 is ACTIVE, slot 1 holds an image without manifest; the update is in state u and no key's session has less than the operator's rights. -/
def updating (u : Nat) : State :=
  modBoot (wr (phase phReady) F.BOOT_UPD_STATE 0 u) fun b =>
    { b with fl0 := true, fl1 := true, record := some ⟨0, 0, some 1, true, 0, 0, 0⟩, slots := [(0, ⟨[], [], true⟩), (1, ⟨[], [], true⟩)] }

/-- No image's SVN is below a minimum of 0. -/
theorem svn_zero (s : State) (m : List Byte) (h : (bootRecord s).minSvn = 0) : svnOk s m = true := by simp [svnOk, h]

/-- StartPhasesFollow's MANIFEST, and UpdatesGoThroughATrial: the states of an update and the slots. -/
theorem witness_updates :
    (bootPhase (updating updIdle) ≠ phRecovery ∧ sagLocked (updating updIdle) = false ∧ stagingSlot (updating updIdle) = 1 ∧
      slotPresent (updating updIdle) 1 = true ∧ updState (updating updIdle) ≠ updStaging ∧ updState (updating updIdle) ≠ updTrial) ∧
    updState (updating updStaging) = updStaging ∧ updState (updating updStaged) = updStaged ∧ mayRestart (updating updStaged) = true ∧
    regionsBusy (updating updStaged) = false ∧ pairingForbids (updating updStaged) = false ∧ updState (updating updTrial) = updTrial ∧
    (bootRecord (updating updTrial)).trial = true ∧ (bootRecord (updating updTrial)).fallback = some 1 ∧
    (bootRecord (updating updIdle)).minSvn = 0 ∧ (updating updIdle).keep.boot.record ≠ none ∧
    (slotImg (updating updIdle) 0).verified = true := by decide +kernel
theorem witness_slot : slotMayRun (updating updIdle) 0 = true := by
  have h : slotPresent (updating updIdle) 0 = true ∧ (slotImg (updating updIdle) 0).verified = true := by decide +kernel
  rw [slotMayRun, h.1, h.2, svn_zero _ _ (by decide +kernel)]; rfl
/-- UpdatesGoThroughATrial: a piece of 4,000 bytes fits, and an image of no component has its digests, wherever the manifest says so. -/
theorem witness_piece (hc : compCount [] = 1) (hl : compLength [] 0 = 4000) :
    updState (updating updStaging) = updStaging ∧ 0 < compCount (slotImg (updating updStaging) 1).manifest ∧
      0 + 4000 ≤ compLength (slotImg (updating updStaging) 1).manifest 0 := by
  have h : updState (updating updStaging) = updStaging ∧ (slotImg (updating updStaging) 1).manifest = [] := by decide +kernel
  rw [h.2, hc, hl]; exact ⟨h.1, by decide, by decide⟩
theorem witness_digests (hc : compCount [] = 0) : digestsOk ⟨[], [], false⟩ = true := by simp [digestsOk, hc]

/-- ManagementAnswers: port 1 with its link up, a Keep that restarts, and the SPDM responder. -/
theorem witness_mctp :
    (let s := { wr (phase phReady) F.SEC_STATUS_IDENTITY 0 1 with pcie := [(1, ⟨true, true, [], [], [], none⟩)] }
     (pcieOf s 1).up = true ∧ bootPhase s ≠ phKeepRestart ∧ spdmHere s = true) ∧
    bootPhase (phase phKeepRestart) = phKeepRestart ∧ argAt ⟨1, 9, []⟩ 0 = 0 := by decide +kernel

/-! ## Witnesses: the machine as a whole -/

/-- StepRunsFrontCommand, OnlyMissingCoresStop: with a command in front and with none; a command of a core that is missing. -/
theorem witness_step : step { live with pending := [.clockReturn] } = exec .clockReturn live ∧
    exec (.resultLanding 14592) live = .fault (.noSuchCore 14592) := ⟨rfl, rfl⟩

/-- SlotWordsRoundTrip: a word of each slot. -/
theorem witness_round_trip : (encodeSlot (.add 7 ⟨3, 1, 2, 0, 1⟩)).isSome = true ∧ (encodeSlot (.recva 7 ⟨9, 1, 0⟩)).isSome = true ∧
    (encodeSlot (.mm4 7 ⟨6, 7, 2, 1, 1, 5, 0x123, 0⟩)).isSome = true ∧ (encodeSlot (.cmov 7 ⟨1, 3, 1, 0⟩)).isSome = true := by decide

/-- CoresStayCanonical: every core of the reset state, and one with four calls and four loops open. -/
theorem witness_canonical :
    (∀ c, rowsWf (coreOf live c).rows = true ∧ (coreOf live c).seq.calls.length ≤ 4 ∧ (coreOf live c).seq.loops.length ≤ 4) ∧
    (let q := (coreOf (stacked [1, 2, 3, 4] [⟨1, 2, 3⟩, ⟨1, 2, 3⟩, ⟨1, 2, 3⟩, ⟨1, 2, 3⟩]) 7).seq
     q.calls.length ≤ 4 ∧ q.loops.length ≤ 4) := ⟨fun _ => ⟨rfl, Nat.zero_le _, Nat.zero_le _⟩, by decide⟩

/-- CoreCommandsFrame: an ADD issues and runs on. -/
theorem witness_frame : ∃ t, exec (.add 7 ⟨5, 1, 2, 0, 0⟩) run = .next t := ⟨_, rfl⟩

/-- ManagementFrames and DataPathFrames: a command of each list ends in a next state. -/
theorem witness_frames_run :
    (∃ t, exec (.challengeLockoutExpiry 4) live = .next t) ∧ (∃ t, exec (.mboxGo 0) live = .next t) ∧ (∃ t, exec .pmbAlert live = .next t) ∧
    (∃ t, exec .vminRst live = .next t) ∧ (∃ t, exec .spireFault live = .next t) ∧ (∃ t, exec .flowEvaluation live = .next t) ∧
    (∃ t, exec (.lanternSummaryDeadline 47) live = .next t) ∧ (∃ t, exec (.heartbeatMiss 7) live = .next t) ∧
    (∃ t, exec (.regionRun (.mc 0) 1) live = .next t) ∧ (∃ t, exec (.rackAbort (.mc 0)) live = .next t) ∧ (∃ t, exec (.ledgerNop 9) live = .next t) ∧
    (∃ t, exec .helloTimer live = .next t) ∧ (∃ t, exec .handover live = .next t) :=
  ⟨⟨_, rfl⟩, ⟨_, rfl⟩, ⟨_, rfl⟩, ⟨_, rfl⟩, ⟨_, rfl⟩, ⟨_, rfl⟩, ⟨_, rfl⟩, ⟨_, rfl⟩, ⟨_, rfl⟩, ⟨_, rfl⟩, ⟨_, rfl⟩, ⟨_, rfl⟩, ⟨_, rfl⟩⟩

/-- R475: a PING that came as a SEND is answered and leaves the queue; a command that is not at its head takes nothing. -/
def sendQueued : State := { live with keep := { live.keep with sends := [(3, zeros 16)] } }
theorem test_send_ping :
    (match exec (.ping ⟨4, 0, 0, 0, 0, 0, [], [], 0⟩) sendQueued with
      | .next t => t.keep.sends.length == 0 && t.keep.responses.map (·.node) == [3]
      | _ => false) = true ∧
    (match exec (.info ⟨4, 0, 0, 0, 0, 0, [], [], 0⟩) sendQueued with | .next t => t.keep.sends.length == 1 | _ => false) = true := by decide +kernel

/-- R435, R436: a value of a lighter load is provisional with 25 mV; the retrained one replaces it, and the fall of the guardband goes in steps. -/
theorem test_calibration :
    let s := aimGuard (calItem (modPwr live fun p => { p with cal := [⟨0, 7, 0, 0, 40, true⟩] }) 0 7) 0 7
    (match exec (.calibrationReplace 0 7 30) s with
      | .next t => (tget s.pwr.guard 7 0, s.pwr.prov.length, tget? t.pwr.goal 7, t.pwr.prov.length) == (65, 1, some (30, true), 0)
      | _ => false) = true := by decide +kernel

end Sys2Proof.Tests
end

/-! PROOFS. The register window takes whole, aligned words only (R17). -/

namespace Sys2Proof.Proofs.Scope

open Sys2Proof Sys2Proof.Machine Sys2Proof.Claims

/-! ## Which accesses are whole words, and which name the staging area -/

/-- R17: an access is refused exactly where it is not 64 bits wide or not naturally aligned. -/
theorem whole64_eq_false_iff (addr width : Nat) : whole64 addr width = false ↔ width ≠ 8 ∨ addr % 8 ≠ 0 := by
  simp only [whole64, Bool.and_eq_false_iff, decide_eq_false_iff_not, ne_eq]

/-- R319: addresses below 2^32 are those of the register window, whoever names them. -/
theorem stagingPlace_below_bar2 (s : State) (a : Agent) (width : Nat) {addr : Nat} (h : addr < 2 ^ 32) :
    stagingPlace s a addr width = none := by
  unfold stagingPlace
  split
  · exact if_neg fun hplace => absurd hplace.1 (Nat.not_le_of_lt h)
  · rfl

/-! ## Accesses outside the staging area that are no whole words -/

/-- R17: such a write leaves the whole state as it is. -/
theorem execRegisterWrite_discarded {s : State} {a : Agent} {addr width : Nat} (v : Word)
    (hplace : stagingPlace s a addr width = none) (hwhole : whole64 addr width = false) :
    execRegisterWrite a addr width v s = .next s := by
  simp only [execRegisterWrite, hplace, hwhole, if_true]

/-- R17: such a read returns all ones, and clears no field. -/
theorem execReadClear_allOnes {s : State} {a : Agent} {addr width : Nat}
    (hplace : stagingPlace s a addr width = none) (hwhole : whole64 addr width = false) :
    execReadClear a addr width s = .next (returned s (BitVec.allOnes 64)) := by
  simp only [execReadClear, hplace, hwhole, if_true]

/-- Settles O18: below BAR2 no access names the staging area, so the width and the alignment alone decide. -/
theorem narrowAccessesAreDiscarded : Obligations.NarrowAccessesAreDiscarded := by
  intro s port addr width v hnarrow hwindow
  have hplace : stagingPlace s (.host port) addr width = none := stagingPlace_below_bar2 s _ width hwindow
  have hwhole : whole64 addr width = false := (whole64_eq_false_iff addr width).mpr hnarrow
  exact ⟨execRegisterWrite_discarded v hplace hwhole, execReadClear_allOnes hplace hwhole⟩

end Sys2Proof.Proofs.Scope

/-! PROOFS. The debug window of a core shows a row only in the states that R103 lists. -/

namespace Sys2Proof.Proofs.DebugWindow

open Sys2Proof Sys2Proof.Machine Sys2Proof.Claims

/-! ## Several fields written, and one read -/

/-- A write of f leaves g of the same core, port or region as it is: g lies in another register of the same array, or beside f in its register. -/
abbrev Apart (f g : Field) : Prop :=
  f.stride = g.stride ∧ f.count = g.count ∧
    (f.base ≠ g.base ∨
      f.base = g.base ∧ g.regRst = f.regRst ∧ g.lo + g.width ≤ 64 ∧ (g.lo + g.width ≤ f.lo ∨ f.lo + f.width ≤ g.lo))

/-- A field apart from the one written keeps its value. -/
theorem rd_wr_apart (s : State) (i v : Nat) {f g : Field} (h : Apart f g) : rd (wr s f i v) g i = rd s g i := by
  obtain ⟨hstride, hcount, hbase | ⟨hbase, hrst, hfits, hbeside⟩⟩ := h
  · exact rd_wr_other s f g i i v (by simp only [fkey, hstride, hcount]; omega)
  · exact rd_wr_beside s f g i i v (by simp only [fkey, hstride, hcount, hbase]) hrst hfits hbeside

/-- A field apart from every field of the list keeps its value. -/
theorem rd_wrAll_apart (s : State) (i : Nat) {g : Field} {l : List (Field × Nat)} (h : ∀ f ∈ l.map Prod.fst, Apart f g) :
    rd (wrAll s i l) g i = rd s g i := by
  induction l generalizing s with
  | nil => rfl
  | cons fv l ih =>
    obtain ⟨hhead, htail⟩ := List.forall_mem_cons.1 h
    exact (ih (wr s fv.1 i fv.2) htail).trans (rd_wr_apart s i fv.2 hhead)

/-- Where no later field of the list touches an earlier one, each reads as its own value, cut to its width. -/
theorem rd_wrAll_mem (s : State) (i v : Nat) {g : Field} {l : List (Field × Nat)}
    (hl : (l.map Prod.fst).Pairwise fun a b => Apart b a) (hg : g.lo + g.width ≤ 64) (hmem : (g, v) ∈ l) :
    rd (wrAll s i l) g i = v % 2 ^ g.width := by
  induction l generalizing s with
  | nil => cases hmem
  | cons fv l ih =>
    obtain ⟨hhead, htail⟩ := List.pairwise_cons.1 hl
    rcases List.mem_cons.1 hmem with rfl | hmem
    · exact (rd_wrAll_apart (wr s g i v) i hhead).trans (rd_wr_same s g i v hg)
    · exact ih (wr s fv.1 i fv.2) htail hmem

/-! ## The data registers take a row -/

/-- What the window's registers take, DBG_ROW.ROW apart: the row in pieces of 64 bits, BAD, and DONE. -/
def debugWrites (d : RowData) (bad : Bool) : List (Field × Nat) :=
  dataFields.zipIdx.map (fun e => (e.1, (d >>> (64 * e.2)).toNat % 2 ^ 64)) ++ [(F.CORE_DBG_ROW_BAD, bit bad), (F.CORE_DBG_ROW_DONE, 1)]

theorem putDebug_eq_wrAll (s : State) (c : Nat) (d : RowData) (bad : Bool) : putDebug s c d bad = wrAll s c (debugWrites d bad) := by
  simp only [putDebug, debugWrites, wrAll, List.foldl_append, List.foldl_map]

theorem debugWrites_fields (d : RowData) (bad : Bool) :
    (debugWrites d bad).map Prod.fst = dataFields ++ [F.CORE_DBG_ROW_BAD, F.CORE_DBG_ROW_DONE] := rfl

/-- No two of the fields that a debug read fills touch each other. -/
theorem debugWrites_apart (d : RowData) (bad : Bool) : ((debugWrites d bad).map Prod.fst).Pairwise fun a b => Apart b a := by
  rw [debugWrites_fields]; decide

/-- The data registers take a row; nothing but live registers changes. -/
theorem putDebug_frame (s : State) (c : Nat) (d : RowData) (bad : Bool) : ∃ g, putDebug s c d bad = { s with regs := g } := by
  rw [putDebug_eq_wrAll]
  exact wrAll_eq s c _

theorem rd_putDebug_bad (s : State) (c : Nat) (d : RowData) (bad : Bool) : rd (putDebug s c d bad) F.CORE_DBG_ROW_BAD c = bit bad := by
  rw [putDebug_eq_wrAll, rd_wrAll_mem s c (bit bad) (debugWrites_apart d bad) (by decide) (by simp [debugWrites])]
  cases bad <;> rfl

theorem rd_putDebug_done (s : State) (c : Nat) (d : RowData) (bad : Bool) : rd (putDebug s c d bad) F.CORE_DBG_ROW_DONE c = 1 := by
  rw [putDebug_eq_wrAll, rd_wrAll_mem s c 1 (debugWrites_apart d bad) (by decide) (by simp [debugWrites])]
  rfl

theorem rd_putDebug_row (s : State) (c : Nat) (d : RowData) (bad : Bool) :
    rd (putDebug s c d bad) F.CORE_DBG_ROW_ROW c = rd s F.CORE_DBG_ROW_ROW c := by
  rw [putDebug_eq_wrAll]
  exact rd_wrAll_apart s c (by rw [debugWrites_fields]; decide)

theorem dataFields_full {f : Field} (h : f ∈ dataFields) : f.lo = 0 ∧ f.width = 64 := by
  revert f; decide

/-- Data register k takes bytes 8k to 8k + 7 of the row, little-endian. -/
theorem rd_putDebug_data (s : State) (c : Nat) (d : RowData) (bad : Bool) {f : Field} {k : Nat} (h : dataFields[k]? = some f) :
    rd (putDebug s c d bad) f c = (d >>> (64 * k)).toNat % 2 ^ 64 := by
  obtain ⟨hlo, hwidth⟩ := dataFields_full (List.mem_of_getElem? h)
  have hmem : (f, (d >>> (64 * k)).toNat % 2 ^ 64) ∈ debugWrites d bad :=
    List.mem_append_left _ (List.mem_map.2 ⟨(f, k), List.mk_mem_zipIdx_iff_getElem?.2 h, rfl⟩)
  rw [putDebug_eq_wrAll, rd_wrAll_mem s c _ (debugWrites_apart d bad) (by omega) hmem, hwidth, Nat.mod_mod]

/-- A row of zeros shows as zeros in every data register. -/
theorem rd_putDebug_zero (s : State) (c : Nat) (bad : Bool) {f : Field} (h : f ∈ dataFields) : rd (putDebug s c 0 bad) f c = 0 := by
  obtain ⟨k, hk⟩ := List.mem_iff_getElem?.1 h
  rw [rd_putDebug_data s c 0 bad hk]
  simp only [BitVec.ofNat_eq_ofNat, BitVec.zero_ushiftRight, BitVec.toNat_ofNat, Nat.zero_mod]

/-! ## The packets that bring the row -/

/-- Sending a packet notes it and changes the control routers; nothing else. -/
theorem sendCtl_eq (s : State) (p : CtlPacket) :
    ∃ g, sendCtl s p = { s with ctlSent := p :: s.ctlSent, net := { s.net with ctl := g } } := by
  unfold sendCtl
  split
  · exact ⟨_, rfl⟩
  · exact ⟨s.net.ctl, rfl⟩

/-- Several packets are noted newest first. -/
theorem sendAllCtl_eq (s : State) (l : List CtlPacket) :
    ∃ g, sendAllCtl s l = { s with ctlSent := l.reverse ++ s.ctlSent, net := { s.net with ctl := g } } := by
  induction l generalizing s with
  | nil => exact ⟨s.net.ctl, rfl⟩
  | cons p l ih =>
    obtain ⟨_, hone⟩ := sendCtl_eq s p
    obtain ⟨g, hrest⟩ := ih (sendCtl s p)
    refine ⟨g, hrest.trans ?_⟩
    simp [hone]

/-! ## Who may use the window does not depend on the window -/

/-- The field's registers lie below the CORE_ blocks of the Keep's address map (R115). -/
abbrev BelowCores (f : Field) : Prop := 0 < f.count ∧ 0 < f.stride ∧ f.base + f.stride * f.count ≤ 0x20000000

theorem fkey_lt_of_belowCores {f : Field} (h : BelowCores f) (i : Nat) : fkey f i < 0x20000000 := by
  obtain ⟨hcount, hstride, hend⟩ := h
  have hlt : f.stride * (i % f.count) < f.stride * f.count := Nat.mul_lt_mul_of_pos_left (Nat.mod_lt i hcount) hstride
  simp only [fkey]
  omega

/-- The two states agree on what the rights to a core's debug window are read from: descriptors, units, sessions and the time. -/
structure SameRights (s t : State) : Prop where
  descs : allDescs t = allDescs s
  reads : ∀ f i, BelowCores f → rd t f i = rd s f i
  keep : t.keep = s.keep
  clk : t.clk = s.clk

section

variable {s t : State} (h : SameRights s t)
include h

theorem SameRights.regionState (r : Nat) : regionState t r = regionState s r := h.reads _ _ (by decide)

theorem SameRights.regionTenant (r : Nat) : regionTenant t r = regionTenant s r := h.reads _ _ (by decide)

theorem SameRights.parentOf (r : Nat) : parentOf t r = parentOf s r := h.reads _ _ (by decide)

theorem SameRights.descKind (r : Nat) : descKind t r = descKind s r := h.reads _ _ (by decide)

theorem SameRights.isPlanRegion (r : Nat) : isPlanRegion t r = isPlanRegion s r := by
  have hplan : hasPlan t r = hasPlan s r := by
    unfold hasPlan
    rw [h.reads F.REG_PLAN_PLAN_ID r (by decide)]
  unfold Machine.isPlanRegion
  rw [hplan, h.regionState]

theorem SameRights.leafOf (c : Nat) : leafOf t c = leafOf s c := by
  have hx0 (d : Nat) := h.reads F.REG_DESC1_X0 d (by decide)
  have hw (d : Nat) := h.reads F.REG_DESC1_W d (by decide)
  have hy0 (d : Nat) := h.reads F.REG_DESC1_Y0 d (by decide)
  have hh (d : Nat) := h.reads F.REG_DESC1_H d (by decide)
  simp only [Machine.leafOf, h.descs, h.descKind, hx0, hw, hy0, hh]

theorem SameRights.planAbove (n r : Nat) : planAbove t n r = planAbove s n r := by
  induction n generalizing r with
  | zero => rfl
  | succ n ih => simp only [Machine.planAbove, h.isPlanRegion, h.parentOf, ih]

theorem SameRights.ownerOf (c : Nat) : ownerOf t c = ownerOf s c := by
  unfold Machine.ownerOf
  rw [h.leafOf]
  simp only [h.planAbove]

theorem SameRights.rightsOf (a : Agent) : rightsOf t a = rightsOf s a := by
  have hsession : agentSession t a = agentSession s a := by
    cases a with
    | host p => exact h.reads F.SEC_PORT_SESSION_SESSION p (by decide)
    | session x => rfl
    | mc m => rfl
  have hopen (x : Nat) : sessionOf t x = sessionOf s x := by
    unfold sessionOf hallNs
    rw [h.keep, h.clk]
  unfold Machine.rightsOf
  rw [hsession, hopen]

theorem SameRights.mayDebug (a : Agent) (c : Nat) : mayDebug t a c = mayDebug s a c := by
  simp only [Machine.mayDebug, h.ownerOf, h.regionTenant, h.regionState, h.rightsOf]

end

/-- An entry that a filter drops whatever it holds may be set unseen. -/
theorem filterMap_tset_of_dropped {α β : Type} (p : Nat × α → Option β) (t : Table α) {k : Nat} (x : α) (hk : ∀ y, p (k, y) = none) :
    (tset t k x).filterMap p = t.filterMap p := by
  induction t with
  | nil => simp [tset, hk]
  | cons e t ih =>
    obtain ⟨j, y⟩ := e
    simp only [tset]
    split
    · simp [hk]
    · split
      · next hkj => subst hkj; simp [hk]
      · simp [List.filterMap_cons, ih]

/-- Writing a register of a CORE_ block changes none of the rights. -/
theorem sameRights_wr (s : State) (f : Field) (i v : Nat) (hf : 0x20000000 ≤ f.base) : SameRights s (wr s f i v) :=
  have hkey : 0x20000000 ≤ fkey f i := Nat.le_trans hf (Nat.le_add_right ..)
  { descs := by
      unfold allDescs
      rw [wr_regs, filterMap_tset_of_dropped _ _ _ fun _ => if_neg fun hdesc => by omega]
    reads := fun g j hg => rd_wr_other s f g i j v (Nat.ne_of_lt (Nat.lt_of_lt_of_le (fkey_lt_of_belowCores hg j) hkey))
    keep := rfl
    clk := rfl }

/-! ## One debug read -/

/-- R103: a core's state admits a debug read in BOUND, in FAULTED, and in IDLE with LEES set. -/
theorem debugState_iff (s : State) (c : Nat) : debugState s c = true ↔
    coreState s c = csBound ∨ coreState s c = csFaulted ∨ (coreState s c = csIdle ∧ rdB s F.CORE_STATUS_LEES c = true) := by
  simp only [debugState, Bool.or_eq_true, Bool.and_eq_true, decide_eq_true_eq, or_assoc]

/-- The row's address, once written, changes neither the rights to the window nor what the core's state admits. -/
theorem debugAllowed_wr_row (s : State) (a : Agent) (c row : Nat) :
    mayDebug (wr s F.CORE_DBG_ROW_ROW c row) a c = mayDebug s a c ∧ debugState (wr s F.CORE_DBG_ROW_ROW c row) c = debugState s c := by
  have hstate : rd (wr s F.CORE_DBG_ROW_ROW c row) F.CORE_STATUS_STATE c = rd s F.CORE_STATUS_STATE c :=
    rd_wr_apart s c row (by decide)
  have hlees : rd (wr s F.CORE_DBG_ROW_ROW c row) F.CORE_STATUS_LEES c = rd s F.CORE_STATUS_LEES c :=
    rd_wr_apart s c row (by decide)
  refine ⟨(sameRights_wr s _ c row (by decide)).mayDebug a c, ?_⟩
  unfold debugState coreState rdB
  rw [hstate, hlees]

section

variable {s : State} {a : Agent} {c row : Nat} (hshut : coreShut s c = false) (hmay : mayDebug s a c = true)
include hshut hmay

/-- In a state that admits no debug read, zeros with BAD. -/
theorem debugRow_of_refused (hst : debugState s c = false) : debugRow s a c row = putDebug (wr s F.CORE_DBG_ROW_ROW c row) c 0 true := by
  obtain ⟨hmay', hst'⟩ := debugAllowed_wr_row s a c row
  simp only [debugRow, hshut, hmay', hst', hmay, hst, Bool.false_eq_true, and_false, if_false, if_true]

/-- In a state that admits one, the row as stored, with BAD where it fails its code. -/
theorem debugRow_of_shown (hrow : row < 131072) (hst : debugState s c = true) :
    debugRow s a c row = sendDebug (wr s F.CORE_DBG_ROW_ROW c row) c (rowAt (coreOf s c) row).data (!rowGood row (rowAt (coreOf s c) row)) := by
  obtain ⟨hmay', hst'⟩ := debugAllowed_wr_row s a c row
  simp only [debugRow, hshut, hmay', hst', hmay, hst, Bool.false_eq_true, and_true, if_false, if_true, Nat.mod_eq_of_lt hrow]
  rfl

end

/-- The row's address stands in DBG_ROW.ROW in full. -/
theorem rd_wr_row (s : State) (c : Nat) {row : Nat} (hrow : row < 131072) : rd (wr s F.CORE_DBG_ROW_ROW c row) F.CORE_DBG_ROW_ROW c = row :=
  (rd_wr_same s F.CORE_DBG_ROW_ROW c row (by decide)).trans (Nat.mod_eq_of_lt hrow)

/-- Showing a row notes its packets, draws one free value, and changes the control routers; then the data registers take the row. -/
theorem sendDebug_eq_putDebug (s : State) (c : Nat) (d : RowData) (bad : Bool) : ∃ u g, sendDebug s c d bad = putDebug u c d bad ∧
    u = { s with
      ctlSent := (debugPackets c d (draw s (2 ^ 512)).1).reverse ++ s.ctlSent
      freeCtr := s.freeCtr + 1
      net := { s.net with ctl := g } } := by
  obtain ⟨g, hg⟩ := sendAllCtl_eq (draw s (2 ^ 512)).2 (debugPackets c d (draw s (2 ^ 512)).1)
  exact ⟨_, g, rfl, hg⟩

/-- BAD reads 0 exactly where the row passes its code. -/
theorem bit_not_rowGood (row : Nat) (x : Row) : bit (!rowGood row x) = if x.code = rowCode x.data row then 0 else 1 := by
  by_cases hgood : x.code = rowCode x.data row
  · simp [bit, rowGood, hgood]
  · simp [bit, rowGood, hgood]

/-- Settles O20: the address is written first and bears neither on the rights nor on the core's state; then the core's state alone decides between the
row, with its packets, and zeros. -/
theorem debugWindowReads : Obligations.DebugWindowReads := by
  intro s a c row hc hrow hshut hmay x may
  have hexec : exec (.debugRowGo a c row) s = .next (debugRow s a c row) := if_pos hc
  refine ⟨debugRow s a c row, hexec, ?_⟩
  have hmayIff : debugState s c = true ↔ may := debugState_iff s c
  cases hst : debugState s c with
  | false =>
    have hnot : ¬ may := fun h => absurd (hst.symm.trans (hmayIff.2 h)) Bool.false_ne_true
    rw [debugRow_of_refused hshut hmay hst]
    obtain ⟨g, hframe⟩ := putDebug_frame (wr s F.CORE_DBG_ROW_ROW c row) c 0 true
    refine ⟨?frame, ?sent, rd_putDebug_done .., (rd_putDebug_row ..).trans (rd_wr_row s c hrow), fun h => absurd h hnot,
      fun _ => ⟨rd_putDebug_bad .., fun f hf => rd_putDebug_zero _ c true hf⟩⟩
    case frame => rw [hframe]; rfl
    case sent => rw [hframe]; rfl
  | true =>
    rw [debugRow_of_shown hshut hmay hrow hst]
    obtain ⟨u, g, hsend, hu⟩ := sendDebug_eq_putDebug (wr s F.CORE_DBG_ROW_ROW c row) c x.data (!rowGood row x)
    obtain ⟨_, hframe⟩ := putDebug_frame u c x.data (!rowGood row x)
    rw [hsend]
    refine ⟨?frame, ?sent, rd_putDebug_done .., ?row,
      fun _ => ⟨(rd_putDebug_bad ..).trans (bit_not_rowGood row x), fun f k hk => rd_putDebug_data u c x.data _ hk⟩,
      fun h => absurd (hmayIff.1 hst) h⟩
    case frame => rw [hframe, hu]; rfl
    case sent => rw [hframe, hu]; rfl
    case row => rw [rd_putDebug_row, hu]; exact rd_wr_row s c hrow

end Sys2Proof.Proofs.DebugWindow

/-! PROOFS. A completion releases its source, and no other source's delivery takes from it (R483). -/

namespace Sys2Proof.Proofs.BelfryComplete

open Sys2Proof Sys2Proof.Machine Sys2Proof.Claims

/-! ## Fields that do not touch -/

/-- The last address of a field's register array. -/
abbrev lastKey (f : Field) : Nat := f.base + f.stride * (f.count - 1)

/-- f and g share no bit, whichever of their registers are compared: the arrays of registers lie one above the other, or interleave, or are one array
with both fields side by side. -/
abbrev Clear (f g : Field) : Prop :=
  0 < f.count ∧ 0 < g.count ∧
    (lastKey f < g.base ∨ lastKey g < f.base ∨ (f.stride = g.stride ∧ f.base % f.stride ≠ g.base % f.stride) ∨
      (g.regRst = f.regRst ∧ g.lo + g.width ≤ 64 ∧ (g.lo + g.width ≤ f.lo ∨ f.lo + f.width ≤ g.lo)))

theorem base_le_fkey (f : Field) (i : Nat) : f.base ≤ fkey f i := Nat.le_add_right ..

theorem fkey_le_lastKey {f : Field} (h : 0 < f.count) (i : Nat) : fkey f i ≤ lastKey f :=
  Nat.add_le_add_left (Nat.mul_le_mul_left _ (Nat.le_sub_one_of_lt (Nat.mod_lt i h))) _

theorem fkey_mod_stride (f : Field) (i : Nat) : fkey f i % f.stride = f.base % f.stride := Nat.add_mul_mod_self_left ..

/-- Different registers of an array have different addresses. -/
theorem fkey_ne_of_ne {f : Field} {i j : Nat} (hpos : 0 < f.stride) (hi : i < f.count) (hj : j < f.count) (h : j ≠ i) :
    fkey f j ≠ fkey f i := by
  simp only [fkey, Nat.mod_eq_of_lt hi, Nat.mod_eq_of_lt hj]
  exact fun heq => h (Nat.eq_of_mul_eq_mul_left hpos (Nat.add_left_cancel heq))

/-- A write of a field leaves a field clear of it as it is in every register of its array. -/
theorem rd_wr_clear (s : State) (i j v : Nat) {f g : Field} (h : Clear f g) : rd (wr s f i v) g j = rd s g j := by
  obtain ⟨hf, hg, hbelow | habove | ⟨hstride, hmod⟩ | ⟨hrst, hfits, hbeside⟩⟩ := h
  · exact rd_wr_other s f g i j v ((fkey_le_lastKey hf i).trans_lt (hbelow.trans_le (base_le_fkey g j))).ne'
  · exact rd_wr_other s f g i j v ((fkey_le_lastKey hg j).trans_lt (habove.trans_le (base_le_fkey f i))).ne
  · refine rd_wr_other s f g i j v fun heq => hmod ?_
    rw [← fkey_mod_stride f i, ← heq, hstride, fkey_mod_stride]
  · by_cases hkey : fkey g j = fkey f i
    · exact rd_wr_beside s f g i j v hkey hrst hfits hbeside
    · exact rd_wr_other s f g i j v hkey

/-- So does a write of several. -/
theorem rd_wrAll_clear (s : State) (i j : Nat) {g : Field} {l : List (Field × Nat)} (h : ∀ f ∈ l.map Prod.fst, Clear f g) :
    rd (wrAll s i l) g j = rd s g j :=
  List.foldlRecOn (motive := fun t => rd t g j = rd s g j) l _ rfl fun t ht _ hfv =>
    (rd_wr_clear t i j _ (h _ (List.mem_map_of_mem hfv))).trans ht

/-- Removing an entry leaves every other. -/
theorem tget_tdel_other {α : Type} (t : Table α) {k j : Nat} (d : α) (h : j ≠ k) : tget (tdel t k) j d = tget t j d := by
  induction t with
  | nil => rfl
  | cons e t ih =>
    obtain ⟨i, x⟩ := e
    by_cases hik : i = k
    · simpa [tdel, tget, hik, Ne.symm h] using ih
    · simpa [tdel, tget, hik] using congrArg (fun y => if i = j then x else y) ih

/-! ## What the evaluation of the sources leaves to one of them -/

/-- R484: AUTO acts on the source, whose MASK names no management core. -/
def autoActs (s : State) (n : Nat) : Bool := rdB s F.BELFRY_SRC_CFG_AUTO n && rd s F.BELFRY_SRC_CFG_MASK n % 256 = 0

/-- What source n's events have left is in t as in s: its count, its timer, and whether it was made due by other means (R479, R486). -/
structure SameEvents (n : Nat) (s t : State) : Prop where
  pending : rd t F.BELFRY_SRC_STATUS_PENDING n = rd s F.BELFRY_SRC_STATUS_PENDING n
  forced : t.bel.forced.contains n = s.bel.forced.contains n
  timer : ∀ d, tget t.bel.timers n d = tget s.bel.timers n d

theorem SameEvents.trans {n : Nat} {s t u : State} (h : SameEvents n s t) (k : SameEvents n t u) : SameEvents n s u :=
  ⟨k.pending.trans h.pending, k.forced.trans h.forced, fun d => (k.timer d).trans (h.timer d)⟩

/-- Whether a source is due depends on its coalescing profile, its events and the time alone. -/
theorem SameEvents.srcDue_eq {n : Nat} {s t : State} (h : SameEvents n s t) (hlimits : coalLimits t n = coalLimits s n)
    (hnow : hallNs t = hallNs s) : srcDue t n = srcDue s n := by
  obtain ⟨hpending, hforced, htimer⟩ := h
  unfold Machine.srcDue
  rw [hpending, hforced, hnow, htimer, hlimits]

/-- The field is none of those that an evaluation of the sources writes. -/
abbrev Spared (f : Field) : Prop :=
  Clear F.BELFRY_CNT_MSI_DROP f ∧ Clear F.BELFRY_SRC_STATUS_PENDING f ∧ Clear F.BELFRY_SRC_STATUS_DUE f

/-- What stays of source n from s to t when sources are evaluated: where AUTO acts, its events may be taken. -/
structure Kept (n : Nat) (s t : State) : Prop where
  reads : ∀ f, Spared f → rd t f n = rd s f n
  clk : t.clk = s.clk
  events : autoActs s n = false → SameEvents n s t

theorem autoActs_congr {n : Nat} {s t : State} (hauto : rd t F.BELFRY_SRC_CFG_AUTO n = rd s F.BELFRY_SRC_CFG_AUTO n)
    (hmask : rd t F.BELFRY_SRC_CFG_MASK n = rd s F.BELFRY_SRC_CFG_MASK n) : autoActs t n = autoActs s n := by
  simp only [autoActs, rdB, hauto, hmask]

theorem Kept.autoActs_eq {n : Nat} {s t : State} (h : Kept n s t) : autoActs t n = autoActs s n :=
  autoActs_congr (h.reads _ (by decide)) (h.reads _ (by decide))

theorem Kept.of_eq (n : Nat) {s t : State} (hregs : t.regs = s.regs) (hclk : t.clk = s.clk) (hforced : t.bel.forced = s.bel.forced)
    (htimers : t.bel.timers = s.bel.timers) : Kept n s t :=
  ⟨fun _ _ => rd_congr hregs .., hclk, fun _ => ⟨rd_congr hregs .., by rw [hforced], fun _ => by rw [htimers]⟩⟩

theorem Kept.refl (n : Nat) (s : State) : Kept n s s := .of_eq n rfl rfl rfl rfl

theorem Kept.trans {n : Nat} {s t u : State} (h : Kept n s t) (k : Kept n t u) : Kept n s u :=
  ⟨fun f hf => (k.reads f hf).trans (h.reads f hf), k.clk.trans h.clk,
    fun hauto => (h.events hauto).trans (k.events (h.autoActs_eq.trans hauto))⟩

theorem Kept.wr_due (n : Nat) (s : State) (src v : Nat) : Kept n s (wr s F.BELFRY_SRC_STATUS_DUE src v) :=
  ⟨fun _ hf => rd_wr_clear s src n v hf.2.2, rfl, fun _ => ⟨rd_wr_clear s src n v (by decide), rfl, fun _ => rfl⟩⟩

theorem Kept.sendMsi (n : Nat) (s : State) (p v : Nat) : Kept n s (sendMsi s p v).1 := by
  unfold Machine.sendMsi
  simp only []
  split
  · exact ⟨fun _ hf => rd_wr_clear s 0 n _ hf.1, rfl, fun _ => ⟨rd_wr_clear s 0 n _ (by decide), rfl, fun _ => rfl⟩⟩
  · split
    · exact .of_eq n rfl rfl rfl rfl
    · exact .of_eq n rfl rfl rfl rfl

/-- Taking the events of another source leaves those of n. -/
theorem SameEvents.takePending_other {n src : Nat} (s : State) (hn : n < 1024) (hsrc : src < 1024) (h : n ≠ src) :
    SameEvents n s (takePending s src) where
  pending :=
    (rd_wr_clear (wr s F.BELFRY_SRC_STATUS_PENDING src 0) src n 0 (by decide)).trans
      (rd_wr_other s _ _ src n 0 (fkey_ne_of_ne (by decide) hsrc hn h))
  forced := by
    rw [Bool.eq_iff_iff]
    simp [takePending, h]
  timer d := tget_tdel_other _ d h |>.trans (by rw [wrAll_bel])

/-- Events are taken only where AUTO acts. -/
theorem Kept.takePending {n src : Nat} (s : State) (hn : n < 1024) (hsrc : src < 1024) (hauto : autoActs s src = true) :
    Kept n s (takePending s src) where
  reads _ hf := rd_wrAll_clear s src n (List.forall_mem_cons.2 ⟨hf.2.1, List.forall_mem_singleton.2 hf.2.2⟩)
  clk := wrAll_clk ..
  events hidle := by
    refine .takePending_other s hn hsrc ?_
    rintro rfl
    exact absurd (hauto.symm.trans hidle) (by decide)

/-- R481, R484: bringing source src to a host target sends at most one message, and takes its events where AUTO acts. -/
theorem Kept.notifyHost {n src : Nat} (s : State) (t : Nat) (hn : n < 1024) (hsrc : src < 1024) : Kept n s (notifyHost src s t) := by
  unfold Machine.notifyHost
  split
  · split
    · exact .refl n s
    · have hsent (m : Nat) : Kept m s (Machine.sendMsi s (t - 8) (rd s F.BELFRY_SRC_CFG_VECTOR src)).1 := .sendMsi m s ..
      simp only []
      split
      · next htaken =>
        have hauto : autoActs s src = true := (Bool.and_eq_true_iff.1 htaken).1
        exact (hsent n).trans (.takePending _ hn hsrc ((hsent src).autoActs_eq.trans hauto))
      · exact (hsent n).trans (.of_eq n rfl rfl rfl rfl)
  · exact .of_eq n rfl rfl rfl rfl

theorem Kept.evalSource {n src : Nat} (s : State) (hn : n < 1024) (hsrc : src < 1024) : Kept n s (evalSource s src) :=
  ((Kept.wr_due n s src _).trans (.notifyHost _ 8 hn hsrc)).trans (.notifyHost _ 9 hn hsrc)

theorem Kept.evalAll {n : Nat} (s : State) (hn : n < 1024) : Kept n s (evalAll s) :=
  List.foldlRecOn (motive := Kept n s) _ Machine.evalSource (.refl n s) fun t ht _ hsrc =>
    ht.trans (.evalSource t hn (List.mem_range.1 hsrc))

/-! ## What a source that is released keeps -/

/-- The field is none of those that the release of a source writes. -/
abbrev OutsideRelease (f : Field) : Prop :=
  Clear F.BELFRY_SRC_STATUS_ACTIVE f ∧ Clear F.BELFRY_SRC_STATUS_CLAIMER f ∧ Clear F.BELFRY_TGT_RUNNING f

theorem rd_releaseSource (s : State) (n m : Nat) {f : Field} (h : OutsideRelease f) : rd (releaseSource s n) f m = rd s f m := by
  obtain ⟨hactive, hclaimer, hrunning⟩ := h
  exact (rd_wr_clear _ _ m _ hrunning).trans (rd_wrAll_clear s n m (List.forall_mem_cons.2 ⟨hactive, List.forall_mem_singleton.2 hclaimer⟩))

/-- R483: the release clears ACTIVE. -/
theorem rd_releaseSource_active (s : State) (n : Nat) : rd (releaseSource s n) F.BELFRY_SRC_STATUS_ACTIVE n = 0 :=
  calc rd (releaseSource s n) F.BELFRY_SRC_STATUS_ACTIVE n
      = rd (wrAll s n [(F.BELFRY_SRC_STATUS_ACTIVE, 0), (F.BELFRY_SRC_STATUS_CLAIMER, 0xF)]) F.BELFRY_SRC_STATUS_ACTIVE n :=
        rd_wr_clear _ _ n _ (by decide)
    _ = rd (wr s F.BELFRY_SRC_STATUS_ACTIVE n 0) F.BELFRY_SRC_STATUS_ACTIVE n := rd_wr_clear _ n n _ (by decide)
    _ = 0 := rd_wr_same s _ n 0 (by decide)

/-- R483: events that arrived while the source was held stay. -/
theorem SameEvents.releaseSource (s : State) (n : Nat) : SameEvents n s (releaseSource s n) where
  pending := rd_releaseSource s n n (by decide)
  forced := by simp only [Machine.releaseSource, setRunning, wr_bel, wrAll_bel]
  timer _ := by simp only [Machine.releaseSource, setRunning, wr_bel, wrAll_bel]

theorem releaseSource_clk (s : State) (n : Nat) : (releaseSource s n).clk = s.clk := by
  simp only [releaseSource, setRunning, wr_clk, wrAll_clk]

/-! ## The completion -/

/-- The state after the completion of source n by its claimer (R483). -/
def completed (s : State) (n : Nat) : State := evalAll (releaseSource s n)

section

variable (s : State) {n : Nat} (hn : n < 1024)
include hn

/-- A field that neither the release nor the evaluation writes reads as before. -/
theorem rd_completed {f : Field} (hspared : Spared f) (hout : OutsideRelease f) : rd (completed s n) f n = rd s f n :=
  ((Kept.evalAll _ hn).reads f hspared).trans (rd_releaseSource s n n hout)

theorem rd_completed_active : rd (completed s n) F.BELFRY_SRC_STATUS_ACTIVE n = 0 :=
  ((Kept.evalAll _ hn).reads _ (by decide)).trans (rd_releaseSource_active s n)

theorem hallNs_completed : hallNs (completed s n) = hallNs s := by
  have hclk : (completed s n).clk = s.clk := (Kept.evalAll _ hn).clk.trans (releaseSource_clk s n)
  simp only [hallNs, hclk]

/-- Where AUTO does not act on the source, its events stay through the completion. -/
theorem sameEvents_completed (hidle : autoActs s n = false) : SameEvents n s (completed s n) :=
  have hauto : autoActs (releaseSource s n) n = autoActs s n :=
    autoActs_congr (rd_releaseSource s n n (by decide)) (rd_releaseSource s n n (by decide))
  (SameEvents.releaseSource s n).trans ((Kept.evalAll _ hn).events (hauto.trans hidle))

theorem coalLimits_completed : coalLimits (completed s n) n = coalLimits s n := by
  unfold coalLimits
  rw [rd_completed s hn (f := F.BELFRY_SRC_CFG_COAL) (by decide) (by decide),
    rd_completed s hn (f := F.BELFRY_SRC_CFG_COAL_COUNT) (by decide) (by decide),
    rd_completed s hn (f := F.BELFRY_SRC_CFG_COAL_TIME) (by decide) (by decide)]

/-- A source on which AUTO does not act is due after its completion exactly where it was due before. -/
theorem srcDue_completed (hidle : autoActs s n = false) : srcDue (completed s n) n = srcDue s n :=
  (sameEvents_completed s hn hidle).srcDue_eq (coalLimits_completed s hn) (hallNs_completed s hn)

/-- R480: after its completion a due source is deliverable to each management core of its MASK whose threshold its PRIO exceeds. -/
theorem deliverable_completed (hidle : autoActs s n = false) (hdue : srcDue s n = true) {j : Nat} (hj : j < 8)
    (hmask : (rd s F.BELFRY_SRC_CFG_MASK n).testBit j = true) (hprio : effThresh (completed s n) j < rd s F.BELFRY_SRC_CFG_PRIO n) :
    deliverable (completed s n) n j = true := by
  have hdue' : srcDue (completed s n) n = true := (srcDue_completed s hn hidle).trans hdue
  have hinactive : rdB (completed s n) F.BELFRY_SRC_STATUS_ACTIVE n = false := by simp [rdB, rd_completed_active s hn]
  simp only [deliverable, hdue', hinactive, rd_completed s hn (f := F.BELFRY_SRC_CFG_PRIO) (by decide) (by decide),
    rd_completed s hn (f := F.BELFRY_SRC_CFG_MASK) (by decide) (by decide), hmask, hprio]
  simp only [Bool.not_false, Bool.and_true, Bool.true_and, Bool.and_eq_true, Bool.or_eq_true, decide_eq_true_eq, decide_true]
  exact ⟨Nat.zero_lt_of_lt hprio, .inl (by omega)⟩

end

theorem exec_complete_own {s : State} {a : Agent} {k n : Nat} (htarget : targetOf a = some k) (hn : n < 1024)
    (hactive : rd s F.BELFRY_SRC_STATUS_ACTIVE n = 1) (hclaimer : rd s F.BELFRY_SRC_STATUS_CLAIMER n = k) :
    exec (.belfryComplete a n) s = .next (completed s n) :=
  congrArg Host.Outcome.next (if_pos ⟨hn, decide_eq_true hactive, htarget.trans (congrArg some hclaimer.symm)⟩)

theorem exec_complete_bad {s : State} {a : Agent} {k n : Nat} (htarget : targetOf a = some k)
    (hbad : ¬ (n < 1024 ∧ rd s F.BELFRY_SRC_STATUS_ACTIVE n = 1 ∧ rd s F.BELFRY_SRC_STATUS_CLAIMER n = k)) :
    exec (.belfryComplete a n) s = .next (bump s F.BELFRY_CNT_BAD_COMPLETE 0 1) := by
  refine congrArg Host.Outcome.next (if_neg fun ⟨hn, hactive, hclaimer⟩ => hbad ⟨hn, of_decide_eq_true hactive, ?_⟩)
  exact (Option.some.inj (htarget.symm.trans hclaimer)).symm

/-- Settles O48: a completion by the claimer is a release and one evaluation of every source; only where AUTO acts does the evaluation take the
source's events. -/
theorem belfryCompletions : Obligations.BelfryCompletions := by
  intro s a k n htarget own
  refine ⟨fun ⟨hn, hactive, hclaimer⟩ => ?_, exec_complete_bad htarget⟩
  refine ⟨completed s n, exec_complete_own htarget hn hactive hclaimer, rd_completed_active s hn, fun hauto => ?_⟩
  have hidle : autoActs s n = false := by simpa [autoActs, imp_iff_not_or] using hauto
  exact ⟨(sameEvents_completed s hn hidle).pending, fun hdue j hj => deliverable_completed s hn hidle hdue hj⟩

end Sys2Proof.Proofs.BelfryComplete

/-! PROOFS. The decoder of a slot reads back what the encoder writes (R118, R119). -/

namespace Sys2Proof.Proofs.Encoding

open Sys2Proof Sys2Proof.Machine Sys2Proof.Claims

/-! ## Each format's fields lie where the decoder looks for them -/

@[simp] theorem wordFields_A (o : BitVec 6) (f : FmtA) : opcodeOf (wordA o f) = o.toNat ∧ readA (wordA o f) = f := by
  unfold opcodeOf readA wordA
  simp (disch := omega) only [BitVec.extractLsb'_append_eq_of_le, BitVec.extractLsb'_append_eq_of_add_le, BitVec.extractLsb'_eq_self,
    Nat.reduceSub, and_self]

@[simp] theorem wordFields_I (o : BitVec 6) (f : FmtI) : opcodeOf (wordI o f) = o.toNat ∧ readI (wordI o f) = f := by
  unfold opcodeOf readI wordI
  simp (disch := omega) only [BitVec.extractLsb'_append_eq_of_le, BitVec.extractLsb'_append_eq_of_add_le, BitVec.extractLsb'_eq_self,
    Nat.reduceSub, and_self]

@[simp] theorem wordFields_W (o : BitVec 6) (f : FmtW) : opcodeOf (wordW o f) = o.toNat ∧ readW (wordW o f) = f := by
  unfold opcodeOf readW wordW
  simp (disch := omega) only [BitVec.extractLsb'_append_eq_of_le, BitVec.extractLsb'_append_eq_of_add_le, BitVec.extractLsb'_eq_self,
    Nat.reduceSub, and_self]

@[simp] theorem wordFields_J (o : BitVec 6) (f : FmtJ) : opcodeOf (wordJ o f) = o.toNat ∧ readJ (wordJ o f) = f := by
  unfold opcodeOf readJ wordJ
  simp (disch := omega) only [BitVec.extractLsb'_append_eq_of_le, BitVec.extractLsb'_append_eq_of_add_le, BitVec.extractLsb'_eq_self,
    Nat.reduceSub, and_self]

@[simp] theorem wordFields_V (o : BitVec 6) (f : FmtV) : opcodeOf (wordV o f) = o.toNat ∧ readV (wordV o f) = f := by
  unfold opcodeOf readV wordV
  simp (disch := omega) only [BitVec.extractLsb'_append_eq_of_le, BitVec.extractLsb'_append_eq_of_add_le, BitVec.extractLsb'_eq_self,
    Nat.reduceSub, and_self]

@[simp] theorem wordFields_X (o : BitVec 6) (f : FmtX) : opcodeOf (wordX o f) = o.toNat ∧ readX (wordX o f) = f := by
  unfold opcodeOf readX wordX
  simp (disch := omega) only [BitVec.extractLsb'_append_eq_of_le, BitVec.extractLsb'_append_eq_of_add_le, BitVec.extractLsb'_eq_self,
    Nat.reduceSub, and_self]

@[simp] theorem wordFields_MM (o : BitVec 6) (f : FmtMM) : opcodeOf (wordMM o f) = o.toNat ∧ readMM (wordMM o f) = f := by
  unfold opcodeOf readMM wordMM
  simp (disch := omega) only [BitVec.extractLsb'_append_eq_of_le, BitVec.extractLsb'_append_eq_of_add_le, BitVec.extractLsb'_eq_self,
    Nat.reduceSub, and_self]

@[simp] theorem wordFields_M8 (o : BitVec 6) (f : FmtM8) : opcodeOf (wordM8 o f) = o.toNat ∧ readM8 (wordM8 o f) = f := by
  unfold opcodeOf readM8 wordM8
  simp (disch := omega) only [BitVec.extractLsb'_append_eq_of_le, BitVec.extractLsb'_append_eq_of_add_le, BitVec.extractLsb'_eq_self,
    Nat.reduceSub, and_self]

@[simp] theorem wordFields_MC (o : BitVec 6) (f : FmtMC) : opcodeOf (wordMC o f) = o.toNat ∧ readMC (wordMC o f) = f := by
  unfold opcodeOf readMC wordMC
  simp (disch := omega) only [BitVec.extractLsb'_append_eq_of_le, BitVec.extractLsb'_append_eq_of_add_le, BitVec.extractLsb'_eq_self,
    Nat.reduceSub, and_self]

@[simp] theorem wordFields_MD (o : BitVec 6) (f : FmtMD) : opcodeOf (wordMD o f) = o.toNat ∧ readMD (wordMD o f) = f := by
  unfold opcodeOf readMD wordMD
  simp (disch := omega) only [BitVec.extractLsb'_append_eq_of_le, BitVec.extractLsb'_append_eq_of_add_le, BitVec.extractLsb'_eq_self,
    Nat.reduceSub, and_self]

@[simp] theorem wordFields_MG (o : BitVec 6) (f : FmtMG) : opcodeOf (wordMG o f) = o.toNat ∧ readMG (wordMG o f) = f := by
  unfold opcodeOf readMG wordMG
  simp (disch := omega) only [BitVec.extractLsb'_append_eq_of_le, BitVec.extractLsb'_append_eq_of_add_le, BitVec.extractLsb'_eq_self,
    Nat.reduceSub, and_self]

@[simp] theorem wordFields_VR (o : BitVec 6) (f : FmtVR) : opcodeOf (wordVR o f) = o.toNat ∧ readVR (wordVR o f) = f := by
  unfold opcodeOf readVR wordVR
  simp (disch := omega) only [BitVec.extractLsb'_append_eq_of_le, BitVec.extractLsb'_append_eq_of_add_le, BitVec.extractLsb'_eq_self,
    Nat.reduceSub, and_self]

@[simp] theorem wordFields_VM (o : BitVec 6) (f : FmtVM) : opcodeOf (wordVM o f) = o.toNat ∧ readVM (wordVM o f) = f := by
  unfold opcodeOf readVM wordVM
  simp (disch := omega) only [BitVec.extractLsb'_append_eq_of_le, BitVec.extractLsb'_append_eq_of_add_le, BitVec.extractLsb'_eq_self,
    Nat.reduceSub, and_self]

@[simp] theorem wordFields_VQ (o : BitVec 6) (f : FmtVQ) : opcodeOf (wordVQ o f) = o.toNat ∧ readVQ (wordVQ o f) = f := by
  unfold opcodeOf readVQ wordVQ
  simp (disch := omega) only [BitVec.extractLsb'_append_eq_of_le, BitVec.extractLsb'_append_eq_of_add_le, BitVec.extractLsb'_eq_self,
    Nat.reduceSub, and_self]

@[simp] theorem wordFields_CD (o : BitVec 6) (f : FmtCD) : opcodeOf (wordCD o f) = o.toNat ∧ readCD (wordCD o f) = f := by
  unfold opcodeOf readCD wordCD
  simp (disch := omega) only [BitVec.extractLsb'_append_eq_of_le, BitVec.extractLsb'_append_eq_of_add_le, BitVec.extractLsb'_eq_self,
    Nat.reduceSub, and_self]

@[simp] theorem wordFields_CU (o : BitVec 6) (f : FmtCU) : opcodeOf (wordCU o f) = o.toNat ∧ readCU (wordCU o f) = f := by
  unfold opcodeOf readCU wordCU
  simp (disch := omega) only [BitVec.extractLsb'_append_eq_of_le, BitVec.extractLsb'_append_eq_of_add_le, BitVec.extractLsb'_eq_self,
    Nat.reduceSub, and_self]

@[simp] theorem wordFields_CS (o : BitVec 6) (f : FmtCS) : opcodeOf (wordCS o f) = o.toNat ∧ readCS (wordCS o f) = f := by
  unfold opcodeOf readCS wordCS
  simp (disch := omega) only [BitVec.extractLsb'_append_eq_of_le, BitVec.extractLsb'_append_eq_of_add_le, BitVec.extractLsb'_eq_self,
    Nat.reduceSub, and_self]

@[simp] theorem wordFields_CA (o : BitVec 6) (f : FmtCA) : opcodeOf (wordCA o f) = o.toNat ∧ readCA (wordCA o f) = f := by
  unfold opcodeOf readCA wordCA
  simp (disch := omega) only [BitVec.extractLsb'_append_eq_of_le, BitVec.extractLsb'_append_eq_of_add_le, BitVec.extractLsb'_eq_self,
    Nat.reduceSub, and_self]

@[simp] theorem wordFields_CM (o : BitVec 6) (f : FmtCM) : opcodeOf (wordCM o f) = o.toNat ∧ readCM (wordCM o f) = f := by
  unfold opcodeOf readCM wordCM
  simp (disch := omega) only [BitVec.extractLsb'_append_eq_of_le, BitVec.extractLsb'_append_eq_of_add_le, BitVec.extractLsb'_eq_self,
    Nat.reduceSub, and_self]

@[simp] theorem wordFields_N (o : BitVec 6) (r : BitVec 58) : opcodeOf (wordN o r) = o.toNat ∧ readN (wordN o r) = r := by
  unfold opcodeOf readN wordN
  simp (disch := omega) only [BitVec.extractLsb'_append_eq_of_le, BitVec.extractLsb'_append_eq_of_add_le, BitVec.extractLsb'_eq_self,
    Nat.reduceSub, and_self]

/-! ## The round trip -/

/-- NOP has the opcode 0 in all four slots (R119). -/
theorem decodeSlot_nop (c : Nat) (sl : Slot) (r : BitVec 58) : decodeSlot c sl (wordN 0x00 r) = some (.nop c sl r) := by
  cases sl <;> simp [decodeSlot, decodeCtl, decodeMx, decodeVec, decodeXfer]

/-- The word of an instruction decodes to it in its slot of the core that it names. -/
theorem decodeSlot_encodeSlot {i : Instr} {sl : Slot} {w : BitVec 64} (h : encodeSlot i = some (sl, w)) : ∃ c, decodeSlot c sl w = some i := by
  unfold encodeSlot at h
  split at h
  case h_1 c sl' r =>
    cases h
    exact ⟨c, decodeSlot_nop c _ r⟩
  all_goals cases h
  all_goals exact ⟨‹Nat›, by simp [decodeSlot, decodeCtl, decodeMx, decodeVec, decodeXfer]⟩

/-- Settles O55: each format's fields lie where the decoder reads them, and each opcode has its one line in the decoder of its slot. -/
theorem slotWordsRoundTrip : Obligations.SlotWordsRoundTrip := fun _ _ _ h => decodeSlot_encodeSlot h

end Sys2Proof.Proofs.Encoding

/-! PROOFS. Further laws of sparse tables and of register fields: optional entries, removed entries, and what the writes of fields leave. -/

namespace Sys2Proof.Proofs.Tables

open Sys2Proof Sys2Proof.Machine Sys2Proof.Claims

section

variable {α : Type}

/-- A default reads what is listed, or itself. -/
theorem tget_eq_getD (t : Table α) (k : Nat) (d : α) : tget t k d = (tget? t k).getD d := by
  induction t with
  | nil => rfl
  | cons e t ih =>
    obtain ⟨j, x⟩ := e
    simp only [tget, tget?]
    split
    · rfl
    · exact ih

@[simp] theorem tget?_tset_same (t : Table α) (k : Nat) (x : α) : tget? (tset t k x) k = some x := by
  induction t with
  | nil => simp [tset, tget?]
  | cons e t ih =>
    obtain ⟨j, y⟩ := e
    simp only [tset]
    split
    · simp [tget?]
    · split
      · simp [tget?]
      · next h => simp [tget?, Ne.symm h, ih]

theorem tget?_tset_other (t : Table α) {k j : Nat} (x : α) (h : j ≠ k) : tget? (tset t k x) j = tget? t j := by
  induction t with
  | nil => simp [tset, tget?, Ne.symm h]
  | cons e t ih =>
    obtain ⟨i, y⟩ := e
    simp only [tset]
    split
    · simp [tget?, Ne.symm h]
    · split
      · next hk => simp [tget?, Ne.symm h, ← hk]
      · simp [tget?, ih]

@[simp] theorem tget?_tdel_same (t : Table α) (k : Nat) : tget? (tdel t k) k = none := by
  induction t with
  | nil => rfl
  | cons e t ih =>
    obtain ⟨i, x⟩ := e
    by_cases hik : i = k
    · simpa [tdel, hik] using ih
    · simpa [tdel, tget?, hik] using ih

theorem tget?_tdel_other (t : Table α) {k j : Nat} (h : j ≠ k) : tget? (tdel t k) j = tget? t j := by
  induction t with
  | nil => rfl
  | cons e t ih =>
    obtain ⟨i, x⟩ := e
    by_cases hik : i = k
    · simpa [tdel, tget?, hik, Ne.symm h] using ih
    · simpa [tdel, tget?, hik] using congrArg (fun y => if i = j then some x else y) ih

end

/-! ## Live registers -/

/-- A write of a field leaves every other register. -/
theorem tget?_wr_other (s : State) (f : Field) (i v : Nat) {k : Nat} (h : k ≠ fkey f i) : tget? (wr s f i v).regs k = tget? s.regs k :=
  tget?_tset_other _ _ h

/-- So do the writes of several fields of one register. -/
theorem tget?_wrAll_other (s : State) (i : Nat) {l : List (Field × Nat)} {k : Nat} (h : ∀ fv ∈ l, k ≠ fkey fv.1 i) :
    tget? (wrAll s i l).regs k = tget? s.regs k := by
  induction l generalizing s with
  | nil => rfl
  | cons fv l ih =>
    obtain ⟨hhead, htail⟩ := List.forall_mem_cons.1 h
    exact (ih (wr s fv.1 i fv.2) htail).trans (tget?_wr_other s fv.1 i fv.2 hhead)

end Sys2Proof.Proofs.Tables

/-! PROOFS. The issue of a slot changes one core, and of it only the sequencer, what is in flight and what the heartbeat carries (R114, R120–R122, R145). -/

namespace Sys2Proof.Proofs.SlotFrames

open Sys2Proof Sys2Proof.Machine Sys2Proof.Claims Sys2Proof.Proofs.Tables

/-! ## What an issue may change -/

/-- At most four calls and four loops are open (R86, R129). -/
def StacksOk (q : Seq) : Prop := q.calls.length ≤ 4 ∧ q.loops.length ≤ 4

/-- b is the core a with other values of what the issue of a slot may change. -/
def IssueCore (a b : Core) : Prop :=
  ∃ q dn be fa pe op bu lm ta, b = { a with
    seq := q, done := dn, beat := be, faulted := fa, pend := pe, ops := op, bundle := bu, lastMsend := lm, taster := ta }

theorem IssueCore.refl (a : Core) : IssueCore a a := ⟨_, _, _, _, _, _, _, _, _, rfl⟩

theorem IssueCore.trans {a b c : Core} (h : IssueCore a b) (k : IssueCore b c) : IssueCore a c := by
  obtain ⟨_, _, _, _, _, _, _, _, _, rfl⟩ := h
  obtain ⟨_, _, _, _, _, _, _, _, _, rfl⟩ := k
  exact ⟨_, _, _, _, _, _, _, _, _, rfl⟩

/-- From s to t a slot of core c has issued at most: CORE_FAULT of core c apart no register changes, and no core but c, which keeps its stacks within
their bounds. -/
structure IssueOnly (c : Nat) (s t : State) : Prop where
  same : ∃ g k, t = { s with regs := g, cores := k }
  others : ∀ d, d ≠ c → coreOf t d = coreOf s d
  regs : ∀ k, k ≠ fkey F.CORE_FAULT_VALID c → tget? t.regs k = tget? s.regs k
  core : IssueCore (coreOf s c) (coreOf t c)
  depth : StacksOk (coreOf s c).seq → StacksOk (coreOf t c).seq

section

variable {c : Nat} {s t u : State}

theorem IssueOnly.refl (c : Nat) (s : State) : IssueOnly c s s :=
  ⟨⟨_, _, rfl⟩, fun _ _ => rfl, fun _ _ => rfl, .refl _, id⟩

theorem IssueOnly.trans (h : IssueOnly c s t) (k : IssueOnly c t u) : IssueOnly c s u where
  same := by
    obtain ⟨_, _, rfl⟩ := h.same
    obtain ⟨g, m, hu⟩ := k.same
    exact ⟨g, m, hu⟩
  others d hd := (k.others d hd).trans (h.others d hd)
  regs j hj := (k.regs j hj).trans (h.regs j hj)
  core := h.core.trans k.core
  depth hs := k.depth (h.depth hs)

/-- A core set to one that an issue may leave. -/
theorem IssueOnly.setCore {co : Core} (hcore : IssueCore (coreOf s c) co) (hst : StacksOk (coreOf s c).seq → StacksOk co.seq) :
    IssueOnly c s (setCore s c co) where
  same := ⟨_, _, rfl⟩
  others _ hd := coreOf_setCore_other s co hd
  regs _ _ := rfl
  core := by rwa [coreOf_setCore]
  depth := by rwa [coreOf_setCore]

theorem IssueOnly.modCore {f : Core → Core} (hcore : IssueCore (coreOf s c) (f (coreOf s c)))
    (hst : StacksOk (coreOf s c).seq → StacksOk (f (coreOf s c)).seq) : IssueOnly c s (modCore s c f) := .setCore hcore hst

/-- Writes of fields of CORE_FAULT. -/
theorem IssueOnly.wrFault {l : List (Field × Nat)} (h : ∀ fv ∈ l, fkey fv.1 c = fkey F.CORE_FAULT_VALID c) : IssueOnly c s (wrAll s c l) := by
  have hcore : ∀ d, coreOf (wrAll s c l) d = coreOf s d := fun d => by unfold coreOf; rw [wrAll_cores]
  obtain ⟨g, hg⟩ := wrAll_eq s c l
  exact ⟨⟨g, s.cores, hg⟩, fun d _ => hcore d, fun k hk => tget?_wrAll_other s c fun fv hfv => (h fv hfv).symm ▸ hk,
    by rw [hcore]; exact .refl _, by rw [hcore]; exact id⟩

/-- R114: a recorded fault sets the heartbeat's flag and writes CORE_FAULT. -/
theorem IssueOnly.recordFault (s : State) (c ev pc cyc row : Nat) (engine : Bool) : IssueOnly c s (recordFault s c ev pc cyc row engine) := by
  have hflag : IssueOnly c s (Machine.modCore s c fun co => { co with faulted := true }) := .modCore ⟨_, _, _, _, _, _, _, _, _, rfl⟩ id
  unfold Machine.recordFault
  simp only []
  split
  · exact hflag.trans (.wrFault (l := [(F.CORE_FAULT_LATER, 1)]) fun fv hfv => by rw [List.mem_singleton.1 hfv]; rfl)
  · refine hflag.trans (.wrFault fun fv hfv => ?_)
    simp only [List.mem_cons, List.not_mem_nil, or_false] at hfv
    rcases hfv with rfl | rfl | rfl | rfl | rfl | rfl | rfl | rfl <;> rfl

theorem IssueOnly.bundleFault (s : State) (c ev row : Nat) : IssueOnly c s (bundleFault s c ev row) := .recordFault ..

/-- The rules of the bundle: whatever they decide, only the slot's core changes, if the slot's own change keeps to it. -/
theorem IssueOnly.issueThen (s : State) (c : Nat) (sl : Slot) (x : Iss) {k : State → State} (hk : ∀ u, IssueOnly c u (k u)) :
    IssueOnly c s (issueThen s c sl x k) := by
  unfold Machine.issueThen
  simp only []
  split
  · exact .refl c s
  · split
    · refine .trans ?_ (.bundleFault ..)
      exact .setCore ⟨_, _, _, _, _, _, _, _, _, rfl⟩ id
    · split
      · refine .trans ?_ (.bundleFault ..)
        exact .setCore ⟨_, _, _, _, _, _, _, _, _, rfl⟩ id
      · have hset : IssueOnly c s (Machine.setCore s c { coreOf s c with bundle := (coreOf s c).bundle ++ [(sl, x.writes.map (·.1))] }) :=
          .setCore ⟨_, _, _, _, _, _, _, _, _, rfl⟩ id
        split
        · exact hset.trans (.bundleFault ..)
        · split
          · exact hset.trans (.bundleFault ..)
          · refine .trans ?_ (hk _)
            split
            · refine hset.trans ?_
              exact .modCore ⟨_, _, _, _, _, _, _, _, _, rfl⟩ id
            · refine .trans (hset.trans ?_) (.bundleFault ..)
              exact .modCore ⟨_, _, _, _, _, _, _, _, _, rfl⟩ id

theorem IssueOnly.issueSlot (s : State) (c : Nat) (sl : Slot) (x : Iss) : IssueOnly c s (issueSlot s c sl x) := .issueThen s c sl x fun _ => .refl ..

theorem IssueOnly.issueCtl (s : State) (c : Nat) (x : Iss) {k : State → State} (hk : ∀ u, IssueOnly c u (k u)) :
    IssueOnly c s (issueCtl s c x k) := by
  unfold Machine.issueCtl
  split
  · exact .modCore ⟨_, _, _, _, _, _, _, _, _, rfl⟩ id
  · exact .issueThen s c .ctl x hk

/-! ## The instructions' own changes -/

theorem IssueOnly.modSeq {f : Seq → Seq} (h : StacksOk (coreOf s c).seq → StacksOk (f (coreOf s c).seq)) : IssueOnly c s (modSeq s c f) :=
  .modCore ⟨_, _, _, _, _, _, _, _, _, rfl⟩ h

theorem IssueOnly.seqStackFault (s : State) (c : Nat) : IssueOnly c s (seqStackFault s c) :=
  (IssueOnly.modSeq (f := fun q => { q with halted := true }) id).trans (.bundleFault ..)

/-- A slot instruction of core c: it names c, needs it to exist, and keeps to it. -/
def KeepsToCore (c : Nat) (e : State → Host.Outcome State Fault Refusal) : Prop :=
  ∃ f : State → State, (∀ s, e s = onCore c s f) ∧ ∀ s, IssueOnly c s (f s)

theorem keepsToCore_of_issueSlot {sl : Slot} {x : State → Iss} {e : State → Host.Outcome State Fault Refusal}
    (h : ∀ s, e s = onCore c s fun s => issueSlot s c sl (x s)) : KeepsToCore c e := ⟨_, h, fun s => .issueSlot s c sl (x s)⟩

theorem keepsToCore_of_issueThen {sl : Slot} {x : State → Iss} {k : State → State → State} {e : State → Host.Outcome State Fault Refusal}
    (h : ∀ s, e s = onCore c s fun s => issueThen s c sl (x s) (k s)) (hk : ∀ s u, IssueOnly c u (k s u)) : KeepsToCore c e :=
  ⟨_, h, fun s => .issueThen s c sl (x s) (hk s)⟩

theorem keepsToCore_of_issueCtl {x : State → Iss} {k : State → State → State} {e : State → Host.Outcome State Fault Refusal}
    (h : ∀ s, e s = onCore c s fun s => issueCtl s c (x s) (k s)) (hk : ∀ s u, IssueOnly c u (k s u)) : KeepsToCore c e :=
  ⟨_, h, fun s => .issueCtl s c (x s) (hk s)⟩

end

/-! ## The instructions of the four slots -/

section

variable (c : Nat)

theorem keepsToCore_nop (sl : Slot) (r : BitVec 58) : KeepsToCore c (execNop c sl r) := by
  refine ⟨_, fun _ => rfl, fun s => ?_⟩
  split
  · exact .issueCtl s c _ fun _ => .refl ..
  · exact .issueSlot ..

theorem keepsToCore_br (f : FmtJ) : KeepsToCore c (execBr c f) :=
  keepsToCore_of_issueCtl (fun _ => rfl) fun s u => .modSeq fun h => by split <;> exact h

theorem keepsToCore_call (f : FmtJ) : KeepsToCore c (execCall c f) := by
  refine keepsToCore_of_issueCtl (fun _ => rfl) fun s u => ?_
  split
  · exact .seqStackFault ..
  · next hroom => exact .modSeq fun h => ⟨Nat.lt_of_not_le hroom, h.2⟩

theorem keepsToCore_ret (f : FmtJ) : KeepsToCore c (execRet c f) := by
  refine keepsToCore_of_issueCtl (fun _ => rfl) fun s u => ?_
  split
  · exact .seqStackFault ..
  · next a rest hcalls =>
    split
    · exact (IssueOnly.modSeq (f := fun q => { q with halted := true }) id).trans (.bundleFault ..)
    · refine .modSeq fun h => ⟨?_, h.2⟩
      have hlen : (a :: rest).length ≤ 4 := hcalls ▸ h.1
      exact Nat.le_of_succ_le hlen

theorem keepsToCore_loop (f : FmtJ) : KeepsToCore c (execLoop c f) := by
  refine keepsToCore_of_issueCtl (fun _ => rfl) fun s u => ?_
  dsimp only
  split_ifs with hfull
  · exact .seqStackFault ..
  · exact .modSeq (f := fun q => { q with idle := 2, jump := some (f.target.toNat + 1) }) id
  · exact .modSeq fun h => ⟨h.1, Nat.lt_of_not_le fun hdeep => hfull (.inl hdeep)⟩

theorem keepsToCore_twait (f : FmtJ) : KeepsToCore c (execTwait c f) := by
  refine keepsToCore_of_issueThen (fun _ => rfl) fun s u => ?_
  dsimp only
  split
  · refine .trans ?_ (.bundleFault ..)
    exact .modCore ⟨_, _, _, _, _, _, _, _, _, rfl⟩ id
  · exact .modCore ⟨_, _, _, _, _, _, _, _, _, rfl⟩ id

theorem keepsToCore_idle (f : FmtJ) : KeepsToCore c (execIdle c f) := keepsToCore_of_issueCtl (fun _ => rfl) fun _ _ => .modSeq id

theorem keepsToCore_beat (f : FmtJ) : KeepsToCore c (execBeat c f) :=
  keepsToCore_of_issueCtl (fun _ => rfl) fun _ _ => .modCore ⟨_, _, _, _, _, _, _, _, _, rfl⟩ id

theorem keepsToCore_trap (f : FmtJ) : KeepsToCore c (execTrap c f) := by
  refine keepsToCore_of_issueCtl (fun _ => rfl) fun s u => ?_
  split
  · exact .bundleFault ..
  · exact .refl ..

theorem keepsToCore_msend (f : FmtA) : KeepsToCore c (execMsend c f) :=
  keepsToCore_of_issueCtl (fun _ => rfl) fun _ _ => .modCore ⟨_, _, _, _, _, _, _, _, _, rfl⟩ id

theorem keepsToCore_tskip (r : BitVec 58) : KeepsToCore c (execTskip c r) :=
  keepsToCore_of_issueThen (fun _ => rfl) fun _ _ => .modCore ⟨_, _, _, _, _, _, _, _, _, rfl⟩ id

end

/-- The word of a slot of core c decodes to an instruction of that core, which a fetched bundle and a command run alike. -/
theorem keepsToCore_of_decodeSlot {c : Nat} {sl : Slot} {w : BitVec 64} {i : Instr} (h : decodeSlot c sl w = some i) :
    KeepsToCore c (exec i) ∧ ∀ s, runFetched i s = exec i s := by
  cases sl
  case ctl =>
    change decodeCtl c w = some i at h
    unfold decodeCtl at h
    split at h
    all_goals cases h
    all_goals refine ⟨?_, fun _ => rfl⟩
    case h_1 => exact keepsToCore_nop ..
    case h_2 => exact keepsToCore_br ..
    case h_3 => exact keepsToCore_call ..
    case h_4 => exact keepsToCore_ret ..
    case h_5 => exact keepsToCore_loop ..
    case h_6 => exact keepsToCore_twait ..
    case h_7 => exact keepsToCore_idle ..
    case h_8 => exact keepsToCore_beat ..
    case h_10 => exact keepsToCore_msend ..
    case h_12 => exact keepsToCore_trap ..
    all_goals exact keepsToCore_of_issueCtl (fun _ => rfl) fun _ _ => .refl ..
  case mx =>
    change decodeMx c w = some i at h
    unfold decodeMx at h
    split at h
    all_goals cases h
    all_goals refine ⟨?_, fun _ => rfl⟩
    case h_1 => exact keepsToCore_nop ..
    all_goals exact keepsToCore_of_issueSlot fun _ => rfl
  case vec =>
    change decodeVec c w = some i at h
    unfold decodeVec at h
    split at h
    all_goals cases h
    all_goals refine ⟨?_, fun _ => rfl⟩
    case h_1 => exact keepsToCore_nop ..
    case h_31 => exact keepsToCore_tskip ..
    all_goals exact keepsToCore_of_issueSlot fun _ => rfl
  case xfer =>
    change decodeXfer c w = some i at h
    unfold decodeXfer at h
    split at h
    all_goals cases h
    all_goals refine ⟨?_, fun _ => rfl⟩
    case h_1 => exact keepsToCore_nop ..
    all_goals exact keepsToCore_of_issueSlot fun _ => rfl

/-- What an instruction of a slot answers: the fault that no core has this number, or a state in which the slot has issued at most. -/
theorem issueOnly_of_exec {c : Nat} {sl : Slot} {w : BitVec 64} {i : Instr} {s t : State} (h : decodeSlot c sl w = some i)
    (ht : exec i s = .next t) : IssueOnly c s t := by
  obtain ⟨⟨f, hexec, hf⟩, -⟩ := keepsToCore_of_decodeSlot h
  rw [hexec, onCore] at ht
  split at ht
  · cases ht
    exact hf s
  · cases ht

/-- Settles O58: whatever an instruction does beyond the rules of the bundle is a change of its own core's sequencer, heartbeat or TSKIP. -/
theorem coreCommandsFrame : Obligations.CoreCommandsFrame := by
  intro s t c sl w i hdecode ht
  obtain ⟨⟨_, _, rfl⟩, hothers, hregs, ⟨_, _, _, _, _, _, _, _, _, hcore⟩, -⟩ := issueOnly_of_exec hdecode ht
  exact ⟨rfl, hothers, hregs, by rw [hcore]⟩

end Sys2Proof.Proofs.SlotFrames

/-! PROOFS. Scratchpads stay in canonical form and stacks within their bounds through instructions and core cycles (R86, R91, R129, R130). -/

namespace Sys2Proof.Proofs.CoreInvariant

open Sys2Proof Sys2Proof.Machine Sys2Proof.Claims Sys2Proof.Proofs.Tables Sys2Proof.Proofs.SlotFrames

/-! ## The invariant of one core -/

/-- The scratchpad's table is in canonical form, and the stacks within their bounds. -/
def CoreOk (co : Core) : Prop := rowsWf co.rows = true ∧ StacksOk co.seq

/-- Storing a row keeps the canonical form: a row that equals an unlisted one is taken out. -/
theorem rowsWf_storeRow {t : Table Row} (a : Nat) (r : Row) (h : rowsWf t = true) : rowsWf (storeRow t a r) = true := by
  simp only [rowsWf, Bool.and_eq_true, List.all_eq_true] at h ⊢
  obtain ⟨hrising, hlisted⟩ := h
  unfold storeRow
  split
  · exact ⟨risingKeys_filter t _ hrising, fun e he => hlisted e (List.mem_of_mem_filter he)⟩
  · next hr =>
    refine ⟨risingKeys_tset t a r hrising, fun e he => ?_⟩
    by_cases hmem : e ∈ t
    · exact hlisted e hmem
    · have hnew : e = (a, r) := mem_tset_new he hmem
      simpa [hnew] using hr
where
  mem_tset_new {t : Table Row} {a : Nat} {r : Row} {e : Nat × Row} (he : e ∈ tset t a r) (hmem : e ∉ t) : e = (a, r) := by
    induction t with
    | nil => exact List.mem_singleton.1 he
    | cons b t ih =>
      obtain ⟨j, y⟩ := b
      simp only [tset] at he
      split at he
      · exact (List.mem_cons.1 he).resolve_right hmem
      · split at he
        · exact (List.mem_cons.1 he).resolve_right fun hold => hmem (List.mem_cons_of_mem _ hold)
        · rcases List.mem_cons.1 he with rfl | he
          · exact absurd (List.mem_cons_self ..) hmem
          · exact ih he fun hold => hmem (List.mem_cons_of_mem _ hold)

theorem CoreOk.putRow {co : Core} (h : CoreOk co) (a : Nat) (d : RowData) : CoreOk (putRow co a d) := ⟨rowsWf_storeRow a _ h.1, h.2⟩

/-- From s to t every core that is in order stays so. -/
structure Keeps (s t : State) : Prop where
  core : ∀ d, CoreOk (coreOf s d) → CoreOk (coreOf t d)

theorem Keeps.refl (s : State) : Keeps s s := ⟨fun _ h => h⟩

section

variable {s t u : State} {c : Nat}

theorem Keeps.trans (h : Keeps s t) (k : Keeps t u) : Keeps s u := ⟨fun d hd => k.core d (h.core d hd)⟩

theorem Keeps.cores (h : Keeps s t) (hc : u.cores = t.cores) : Keeps s u := h.trans ⟨fun d hd => by unfold coreOf at hd ⊢; rwa [hc]⟩

/-- A core set to one that is in order where core c was at the start and is now. -/
theorem Keeps.setCore_of_start {co : Core} (h : Keeps s t) (hco : CoreOk (coreOf s c) → CoreOk (coreOf t c) → CoreOk co) :
    Keeps s (setCore t c co) := by
  refine ⟨fun d hd => ?_⟩
  by_cases hdc : d = c
  · subst hdc
    rw [coreOf_setCore]
    exact hco hd (h.core d hd)
  · rw [coreOf_setCore_other t co hdc]
    exact h.core d hd

theorem Keeps.setCore {co : Core} (h : Keeps s t) (hco : CoreOk (coreOf t c) → CoreOk co) : Keeps s (setCore t c co) :=
  h.setCore_of_start fun _ => hco

theorem Keeps.modCore {f : Core → Core} (h : Keeps s t) (hf : ∀ co, CoreOk co → CoreOk (f co)) : Keeps s (modCore t c f) := h.setCore (hf _)

theorem Keeps.issueOnly (h : Keeps s t) (k : IssueOnly c t u) : Keeps s u := by
  refine h.trans ⟨fun d hd => ?_⟩
  by_cases hdc : d = c
  · subst hdc
    obtain ⟨_, _, _, _, _, _, _, _, _, hcore⟩ := k.core
    exact ⟨by rw [hcore]; exact hd.1, k.depth hd.2⟩
  · rwa [k.others d hdc]

theorem Keeps.foldl {α : Type} {f : State → α → State} {l : List α} (h : Keeps s t) (hf : ∀ t, Keeps s t → ∀ x, Keeps s (f t x)) : Keeps s (l.foldl f t) :=
  List.foldlRecOn (motive := Keeps s) l f h fun _ ht x _ => hf _ ht x

theorem Keeps.ite {p : Prop} [Decidable p] {a b : State} (ha : Keeps s a) (hb : Keeps s b) : Keeps s (if p then a else b) := by
  split
  · exact ha
  · exact hb

/-! ## Faults, counts and events -/

theorem Keeps.wr {f : Field} {i v : Nat} (h : Keeps s t) : Keeps s (wr t f i v) := h.cores rfl

theorem Keeps.bump {f : Field} {i n : Nat} (h : Keeps s t) : Keeps s (bump t f i n) := h.cores rfl

theorem Keeps.recordFault {ev pc cyc row : Nat} {engine : Bool} (h : Keeps s t) : Keeps s (recordFault t c ev pc cyc row engine) :=
  h.issueOnly (.recordFault ..)

theorem Keeps.raiseEv {k : EvKind} {code tenant region unit : Nat} {data : Word} (h : Keeps s t) : Keeps s (raiseEv t k code tenant region unit data) := by
  obtain ⟨_, _, _, _, _, _, hraise⟩ := RaiseOnly.raiseEv t k code tenant region unit data
  rw [hraise]
  exact h.cores rfl

theorem Keeps.countNum {k : NumCnt} {n : Nat} (h : Keeps s t) : Keeps s (countNum t c k n) := by
  unfold Machine.countNum
  split
  · exact h
  · split <;> exact .bump (h.modCore fun _ h => h)

theorem Keeps.countConflict (h : Keeps s t) : Keeps s (countConflict t c) := .bump (h.modCore fun _ h => h)

theorem Keeps.detectFail {pc cyc row : Nat} (h : Keeps s t) : Keeps s (detectFail t c pc cyc row) :=
  .recordFault (.modCore h.bump fun _ h => h)

theorem Keeps.sendCtl {p : CtlPacket} (h : Keeps s t) : Keeps s (sendCtl t p) := by
  obtain ⟨_, hsend⟩ := DebugWindow.sendCtl_eq t p
  rw [hsend]
  exact h.cores rfl

/-! ## Port accesses -/

theorem Keeps.noteOperands {o : UnitOp} {key : Nat} {d : RowData} (h : Keeps s t) : Keeps s (noteOperands t c o key d) :=
  have hres := h.countNum (c := c) (k := .resCode) (n := rowReserved { o with got := tset o.got key d } key)
  .ite hres (.ite hres.recordFault hres.countNum)

theorem Keeps.serveAccess {o : UnitOp} {a : Access} {conflict : Bool} (h : Keeps s t) : Keeps s (serveAccess t c o a conflict) := by
  unfold Machine.serveAccess
  dsimp only
  split
  · exact .ite h (h.setCore fun hco => CoreOk.putRow (co := { coreOf t c with held := _ }) hco ..)
  · split
    · exact .noteOperands (.bump (h.setCore fun h => h))
    · exact .ite (h.setCore fun h => h) (.noteOperands (.modCore (.ite h h.detectFail) fun _ h => h))

theorem Keeps.serveAll {l : List (UnitOp × Access)} {busy : List Nat} (h : Keeps s t) : Keeps s (serveAll c l busy t) := by
  induction l generalizing t busy with
  | nil => exact h
  | cons e l ih => exact ih (.serveAccess (.ite h.countConflict.recordFault h))

theorem CoreOk.landHeldList (co : Core) (n : Nat) (l : List Held) (banks : List Nat) {acc : Core} (h : CoreOk acc) :
    CoreOk (landHeldList co n l banks acc) := by
  induction l generalizing banks acc with
  | nil => exact h
  | cons x l ih =>
    unfold Machine.landHeldList
    refine ih _ ?_
    dsimp only
    split
    · exact h.putRow ..
    · exact h

theorem Keeps.landHeld (h : Keeps s t) : Keeps s (landHeld t c) := h.setCore fun hco => hco.landHeldList ..

theorem Keeps.oncePerCycle {f : State → State} (h : Keeps s t) (x : CycStep)  (hf : Keeps s (f t)) : Keeps s (oncePerCycle t c x f) :=
  .ite h (hf.modCore fun _ h => h)

theorem Keeps.doPorts (h : Keeps s t) : Keeps s (doPorts t c) := h.oncePerCycle _ (.ite h.serveAll h)

/-! ## Tasting and landing -/

theorem Keeps.openGroup (h : Keeps s t) : Keeps s (openGroup t c) := by
  unfold Machine.openGroup
  dsimp only
  split
  · exact .bump (h.setCore fun h => h)
  · refine .ite (h.setCore fun h => h) ?_
    split
    · exact .bump (h.setCore fun h => h)
    · exact h.setCore fun h => h

theorem Keeps.driftStep {sat corr : Bool} (h : Keeps s t) : Keeps s (driftStep t c sat corr) := by
  unfold Machine.driftStep
  dsimp only
  refine .ite (.raiseEv (.modCore ?_ fun _ h => h)) (.ite (h.modCore fun _ h => h) (h.modCore fun _ h => h))
  have hsat (p : Prop) [Decidable p] : Keeps s (if p then Machine.bump t F.CORE_TASTE_CNT_DRIFT_SAT c 1 else t) := .ite h.bump h
  exact .ite ((hsat _).bump) (hsat _)

theorem Keeps.tastePoint {pc rows : Nat} {tensor : Option Nat} {satRows : Nat} (h : Keeps s t) : Keeps s (tastePoint t c pc rows tensor satRows) := by
  unfold Machine.tastePoint
  dsimp only
  split
  · exact h
  · have hdone : Keeps s (Machine.modCore t c fun co => { co with taster := { co.taster with flight := none } }) := h.modCore fun _ h => h
    have hcount := hdone.bump (f := F.CORE_TASTE_CNT_TASTES) (i := c) (n := 1)
    exact .ite h (.ite hdone.bump (.driftStep (.ite hcount (.recordFault (.modCore hcount.bump fun _ h => h)))))

/-- A landing writes register files, the inbox, counters or the taster, and records faults. -/
theorem Keeps.landEff {p : Pend} (h : Keeps s t) : Keeps s (landEff t c p) := by
  have hset (co : Core) (hco : CoreOk (coreOf t c) → CoreOk co) : Keeps s (Machine.setCore t c co) := h.setCore hco
  unfold Machine.landEff
  dsimp only
  split
  case h_7 | h_9 => split <;> [exact hset _ id; exact h]
  case h_8 => split <;> [exact .countNum (h.setCore fun h => h); exact h]
  case h_10 => exact h.countNum
  case h_14 => exact h.sendCtl
  case h_15 => exact h.recordFault
  case h_16 =>
    split
    · refine .countNum (hset _ fun hco => ?_)
      unfold tasteProduct
      split
      · exact hco
      · split <;> exact hco
    · exact h
  case h_17 => exact h.tastePoint
  case h_18 => exact h.openGroup
  all_goals exact hset _ id

theorem Keeps.landCore (h : Keeps s t) : Keeps s (landCore t c) := by
  unfold Machine.landCore
  dsimp only
  refine .modCore ?_ fun _ h => h
  exact h.foldl fun _ ht _ => ht.foldl fun _ hu _ => hu.landEff

end

/-! ## The sequencer -/

/-- A loop's last bundle pops a loop at most. -/
theorem stacksOk_loopStep {q : Seq} (a : Nat) (h : StacksOk q) : StacksOk (loopStep q a).1 := by
  unfold Machine.loopStep
  split
  · next hloops =>
    obtain ⟨hcalls, hdepth⟩ := h
    rw [hloops, List.length_cons] at hdepth
    split
    · exact ⟨hcalls, hdepth⟩
    · exact ⟨hcalls, Nat.le_of_succ_le hdepth⟩
  · exact h

theorem stacksOk_seqNext {q : Seq} (h : StacksOk q) : StacksOk (seqNext q) := by
  obtain ⟨hcalls, hloops⟩ := stacksOk_loopStep q.pc h
  unfold Machine.seqNext
  dsimp only
  split
  · split
    · split
      · refine ⟨hcalls, ?_⟩
        dsimp only
        split
        · exact (List.length_filter_le ..).trans hloops
        · exact hloops
      · exact ⟨hcalls, hloops⟩
    · exact ⟨hcalls, hloops⟩
  · exact ⟨hcalls, hloops⟩

section

variable {s t : State} {c : Nat}

/-- A core's cycle ends: its accesses and landings, a fault of its router or sequencer, and the sequencer's advance. -/
theorem Keeps.endCycle (h : Keeps s t) : Keeps s (endCycle t c) := by
  have hheld : Keeps s (Machine.oncePerCycle (Machine.doPorts t c) c .held fun s => Machine.landHeld s c) :=
    h.doPorts.oncePerCycle _ h.doPorts.landHeld
  unfold Machine.endCycle
  extract_lets t1 t2 t3 co missed t4 q issued stop q' past t5
  have h3 : Keeps s t3 := .ite hheld.landCore hheld
  have h4 : Keeps s t4 := .ite h3.recordFault h3
  have h5 : Keeps s t5 := .ite h4.recordFault h4
  have hq : CoreOk (coreOf s c) → StacksOk q' := fun hs => by
    have hnow : StacksOk q := (h3.core c hs).2
    simp only [q']
    split
    · exact stacksOk_seqNext hnow
    · split <;> exact hnow
  refine h5.setCore_of_start fun hs hco => ⟨hco.1, ?_⟩
  dsimp only
  split <;> exact hq hs

/-! ## The router, ingress and egress -/

theorem Keeps.dropWord (h : Keeps s t) : Keeps s (dropWord t c) := .recordFault h.bump

theorem Keeps.forwardHop {p : Nat} {late : Bool} {region : Nat} {w : NetWord} (h : Keeps s t) : Keeps s (forwardHop t c p late region w) := by
  unfold Machine.forwardHop
  dsimp only
  split
  · exact .ite (h.cores rfl) h
  · exact .ite h (.ite (.ite h.dropWord (h.modCore fun _ h => h)) (.ite (h.modCore fun _ h => h) (h.modCore fun _ h => h)))

theorem Keeps.stepIng (h : Keeps s t) : Keeps s (stepIng t c) := .ite h h.wr

theorem Keeps.stepIf {p : Prop} [Decidable p] (h : Keeps s t) : Keeps s (if p then Machine.stepIng t c else t) := .ite h.stepIng h

theorem Keeps.toP7 {first row : Nat} {w : NetWord} (h : Keeps s t) : Keeps s (toP7 t c first row w) :=
  .ite h.recordFault (.ite h.recordFault (h.modCore fun _ h => h))

theorem Keeps.deliverL {entry : Word} {late : Bool} {w : NetWord} (h : Keeps s t) : Keeps s (deliverL t c entry late w) :=
  .ite (.ite h.toP7 h.toP7.stepIng) (h.modCore fun _ h => h)

theorem Keeps.forwardWord {entry : Word} {taken : List Nat} {iw : InWord} (h : Keeps s t) : Keeps s (forwardWord t c entry taken iw) :=
  .ite h.dropWord (h.foldl fun _ ht _ => .ite ht.dropWord (.ite ht.deliverL ht.forwardHop))

theorem Keeps.noteLane {p lane : Nat} (h : Keeps s t) : Keeps s (noteLane c p t lane) :=
  .ite (h.cores rfl) (.ite (h.cores rfl) (.ite (.raiseEv (h.cores rfl)) (h.cores rfl)))

theorem Keeps.wordFails {p : Nat} {lanes : List Nat} (h : Keeps s t) : Keeps s (wordFails t c p lanes) :=
  .foldl (.recordFault h.bump) fun _ ht _ => ht.noteLane

theorem Keeps.checkPort {lanes : List LaneBits} {here : List InWord} {p : Nat} (h : Keeps s t) : Keeps s (checkPort c lanes (t, here) p).1 := by
  unfold Machine.checkPort
  dsimp only
  split
  · exact h
  · split <;> exact .ite h.wordFails (.ite h.wordFails h)

theorem Keeps.rimEnter {w : RimWord} (h : Keeps s t) : Keeps s (rimEnter c t w) := by
  unfold Machine.rimEnter
  exact .modCore (h.cores rfl) fun _ h => h

theorem Keeps.streamPort {p : Nat} (h : Keeps s t) : Keeps s (streamPort c t p) := by
  unfold Machine.streamPort
  dsimp only
  split
  · exact h
  · split
    · exact .ite h (h.cores rfl)
    · exact h

theorem Keeps.rimSources {ws : List RimWord} (h : Keeps s t) : Keeps s (rimSources t c ws) := by
  unfold Machine.rimSources
  dsimp only
  refine .foldl (.foldl ((h.foldl fun _ ht _ => ht.streamPort).cores rfl) fun _ ht _ => ht.rimEnter) fun u hu _ => .ite hu ?_
  split
  · exact .rimEnter (hu.cores rfl)
  · exact hu

theorem Keeps.routerCycle {i : RouterIn} (h : Keeps s t) : Keeps s (routerCycle t c i) := by
  have hports (l : List Nat) (x : State × List InWord) (hx : Keeps s x.1) : Keeps s (l.foldl (Machine.checkPort c i.lanes) x).1 := by
    induction l generalizing x with
    | nil => exact hx
    | cons p l ih => exact ih _ hx.checkPort
  unfold Machine.routerCycle
  dsimp only
  exact .stepIf (.foldl (.foldl (.modCore (hports _ _ h.rimSources) fun _ h => h) fun _ ht _ => .forwardWord ht.bump) fun _ ht _ => ht.forwardWord)

theorem Keeps.tickAbort {cyc : Nat} (h : Keeps s t) : Keeps s (tickAbort t c cyc) := .recordFault (.bump (h.modCore fun _ h => h))

theorem Keeps.p7Write {row : Nat} {d : RowData} (h : Keeps s t) : Keeps s (p7Write t c row d) :=
  .ite (.ite h.tickAbort (.countConflict (h.setCore fun h => h))) (h.setCore fun hco => hco.putRow ..)

theorem Keeps.ingressWord {w : P7Word} (h : Keeps s t) : Keeps s (ingressWord c t w) :=
  .ite (.p7Write (h.modCore fun _ h => h)) (.ite h.p7Write (h.modCore fun _ h => h))

theorem Keeps.ingressCycle (h : Keeps s t) : Keeps s (ingressCycle t c) := .foldl (h.modCore fun _ h => h) fun _ ht _ => ht.ingressWord

theorem Keeps.egressTry {row : Nat} (h : Keeps s t) : Keeps s (egressTry t c row).2 := by
  unfold Machine.egressTry
  dsimp only
  split
  · exact h.countConflict
  · exact .ite (.modCore (h.modCore fun _ h => h) fun _ h => h) (.detectFail (h.modCore fun _ h => h))

theorem Keeps.egressStep {e : Egress} (h : Keeps s t) : Keeps s (egressStep c t e) := by
  unfold Machine.egressStep
  dsimp only
  refine .ite ?_ (.ite ?_ (.ite ?_ (h.modCore fun _ h => h)))
  · split
    · exact .modCore (.ite h h.wr) fun _ h => h
    · exact .recordFault (.ite h h.wr)
  all_goals
    split
    · exact h.modCore fun _ h => h
    · exact .modCore h.egressTry fun _ h => h

theorem Keeps.egressCycle (h : Keeps s t) : Keeps s (egressCycle t c) :=
  .ite (.ite h.recordFault h) (.foldl (h.setCore fun h => h) fun _ ht _ => ht.egressStep)

theorem Keeps.egressOnce (h : Keeps s t) : Keeps s (egressOnce t c) := h.oncePerCycle _ (.ite h.egressCycle h)

theorem Keeps.routerOnce {i : RouterIn} (h : Keeps s t) : Keeps s (routerOnce t c i) :=
  h.egressOnce.oncePerCycle _ (.ite h.egressOnce.routerCycle h.egressOnce)

theorem Keeps.ingressOnce (h : Keeps s t) : Keeps s (ingressOnce t c) := h.oncePerCycle _ (.ite h.ingressCycle h)

theorem Keeps.dropHeld (h : Keeps s t) : Keeps s (dropHeld t c) := .ite (.tickAbort (h.modCore fun _ h => h)) h

/-! ## The control network -/

theorem Keeps.crossLink {o i : Nat} {f : CtlFlit} {fails : Nat} {mask : BitVec 36} (h : Keeps s t) : Keeps s (crossLink t c o i f fails mask) := by
  unfold Machine.crossLink
  dsimp only
  split
  · exact h
  · exact .ite (h.cores rfl) (.ite (h.cores rfl) (.ite (h.cores rfl) (.raiseEv (h.cores rfl))))

theorem Keeps.ctlOutput {errs : List (Nat × BitVec 36)} {o : Nat} (h : Keeps s t) : Keeps s (ctlOutput c errs t o) := by
  unfold Machine.ctlOutput
  dsimp only
  split
  · exact .ite (h.cores rfl) h.bump.crossLink
  · split
    · exact h
    · refine .ite ?_ (.crossLink (h.cores rfl))
      exact .ite (h.cores rfl) (h.cores rfl)

theorem Keeps.ctlOnce {errs : List (Nat × BitVec 36)} (h : Keeps s t) : Keeps s (ctlOnce t c errs) := by
  unfold Machine.ctlOnce
  dsimp only
  have hfed : Keeps s (setCtl t c (feedSource (ctlAt t c))) := h.cores rfl
  have hout : Keeps s ((List.range 5).foldl (Machine.ctlOutput c errs) (setCtl t c (feedSource (ctlAt t c)))) := hfed.foldl fun _ ht _ => ht.ctlOutput
  exact .ite h (hout.cores (setCtl_cores ..))

theorem Keeps.ctlCycle (h : Keeps s t) : Keeps s (ctlCycle t) := .cores (h.foldl fun _ ht _ => ht.ctlOnce) rfl

/-! ## A fetched bundle and a whole cycle -/

theorem Keeps.fetchSlot {b : BitVec 256} {sl : Slot} (h : Keeps s t) : Keeps s (fetchSlot c b t sl) := by
  unfold Machine.fetchSlot
  split
  · next i hdecode =>
    rw [(keepsToCore_of_decodeSlot hdecode).2]
    cases hexec : exec i t with
    | next u => exact h.issueOnly (issueOnly_of_exec hdecode hexec)
    | fault => exact h
    | refused => exact h
  · exact .ite (h.issueOnly (.issueCtl _ _ _ fun _ => .refl ..)) (h.issueOnly (.issueSlot ..))

theorem Keeps.fetchBundle (h : Keeps s t) : Keeps s (fetchBundle t c) := .ite (h.foldl fun _ ht _ => ht.fetchSlot) h

theorem Keeps.dropResults (h : Keeps s t) : Keeps s (dropResults t c) := by
  unfold Machine.dropResults
  exact .modCore (h.foldl fun _ ht _ => ht.recordFault) fun _ h => h

theorem Keeps.dropWords (h : Keeps s t) : Keeps s (dropWords t c) := by
  unfold Machine.dropWords
  exact .modCore (h.foldl fun _ ht _ => ht.dropWord) fun _ h => h

theorem Keeps.eachCore {f : State → Nat → State} (h : Keeps s t) (hf : ∀ t, Keeps s t → ∀ c, Keeps s (f t c)) : Keeps s (eachCore t f) :=
  h.foldl hf

theorem Keeps.cycleWork (h : Keeps s t) : Keeps s (cycleWork t) := by
  unfold Machine.cycleWork
  extract_lets t1 t2 t3 t4 t5 t6 t7
  have h1 : Keeps s t1 := h.eachCore fun _ ht _ => ht.egressOnce
  have h2 : Keeps s t2 := h1.eachCore fun _ ht _ => ht.routerOnce
  have h3 : Keeps s t3 := h2.ctlCycle
  have h4 : Keeps s t4 := h3.eachCore fun _ ht _ => ht.fetchBundle
  have h5 : Keeps s t5 := h4.eachCore fun _ ht _ => ht.ingressOnce
  have h6 : Keeps s t6 := h5.eachCore fun _ ht _ => ht.endCycle
  have h7 : Keeps s t7 := .ite (.eachCore (h6.eachCore fun _ ht _ => ht.dropResults) fun _ ht _ => ht.dropWords) h6
  exact .ite (h7.eachCore fun _ ht _ => ht.dropHeld) h7

theorem Keeps.setClk {x : Clk} (h : Keeps s t) : Keeps s { t with clk := x } := h.cores rfl

theorem passTime_cores (s : State) (dt : Nat) : (passTime s dt).cores = s.cores := rfl

theorem Keeps.idleCycle (h : Keeps s t) : Keeps s (idleCycle t) := by
  unfold Machine.idleCycle
  have hwork : Keeps s (passTime (Machine.cycleWork t) (period (rd t F.TICK_CLK_STATUS_STEP 0))) := h.cycleWork.cores (passTime_cores ..)
  dsimp only
  split
  · exact h.cores (passTime_cores ..)
  · split
    · exact h
    · exact hwork.setClk

end

/-! ## The parts of a cycle as commands -/

theorem keeps_of_onCore {c : Nat} {s t : State} {f : State → State} (ht : onCore c s f = .next t) (hf : Keeps s (f s)) : Keeps s t := by
  unfold onCore at ht
  split at ht
  · cases ht
    exact hf
  · cases ht

theorem keeps_of_cyclePart {i : Instr} {c : Nat} {l : RouterIn} {s t : State}
    (hi : i ∈ [.resultLanding c, .routerForward c l, .ingressWrite c, .heldEntryLand c, .egressRead c]) (ht : exec i s = .next t) : Keeps s t := by
  have h := Keeps.refl s
  simp only [List.mem_cons, List.not_mem_nil, or_false] at hi
  rcases hi with rfl | rfl | rfl | rfl | rfl
  · exact keeps_of_onCore ht (.ite h.doPorts.landCore h)
  · exact keeps_of_onCore (c := c) (f := fun s => ctlOnce (routerOnce s c l) c l.ctl) ht h.routerOnce.ctlOnce
  · exact keeps_of_onCore (c := c) (f := fun s => ingressOnce s c) ht h.ingressOnce
  · have hheld : Keeps s (oncePerCycle s c .held fun s => landHeld s c) := h.oncePerCycle _ h.landHeld
    exact keeps_of_onCore (c := c) (f := fun s => _) ht (.ite hheld.dropHeld hheld)
  · exact keeps_of_onCore (c := c) (f := fun s => egressOnce s c) ht h.egressOnce

/-- Settles O56: every part of a cycle and every slot keeps each core in order that is, and so do the foldings over the cores that a cycle is made of. -/
theorem coresStayCanonical : Obligations.CoresStayCanonical := by
  intro s t hok hstep hpart
  have hkeeps : Keeps s t := by
    rcases hpart with hidle | ⟨i, rest, hpending, hcommand⟩
    · rw [step, hidle] at hstep
      cases hstep
      exact (Keeps.refl s).idleCycle
    · rw [step, hpending] at hstep
      have htake : Keeps s { s with pending := rest } := (Keeps.refl s).cores rfl
      rcases hcommand with ⟨c, sl, w, hdecode⟩ | ⟨c, l, hi⟩
      · exact htake.issueOnly (issueOnly_of_exec hdecode hstep)
      · exact htake.trans (keeps_of_cyclePart hi hstep)
  exact fun c => hkeeps.core c (hok c)

end Sys2Proof.Proofs.CoreInvariant

/-! PROOFS. What an instruction that is ready does: its effects are in flight, and its own change follows (R119–R122). -/

namespace Sys2Proof.Proofs.IssueRules

open Sys2Proof Sys2Proof.Machine Sys2Proof.Claims

/-- A slot with nothing in its way issues, and its own change follows. -/
theorem issueThen_of_ready {s : State} {c : Nat} {sl : Slot} {reads : List RegName} {writes : List (RegName × Nat)} {effs : List (Nat × Eff)}
    {ops : List UnitOp} {k : State → State} (h : Ready s c reads writes) :
    issueThen s c sl ⟨false, reads, writes, effs, ops, none⟩ k = k (issued s c sl writes effs ops) :=
  issueThen_ready h.issues rfl h.alone h.arrived rfl h.ordered

/-- A control/scalar slot that does not run past the last address follows the rules of the bundle. -/
theorem issueCtl_of_onward {s : State} {c : Nat} (h : Onward s c) (x : Iss) (k : State → State) :
    issueCtl s c x k = issueThen s c .ctl x k := by
  have hpast : runsPast (coreOf s c).seq = false := h
  simp only [issueCtl, hpast, Bool.and_false, Bool.false_eq_true, if_false]

section

variable {i : Instr} {s : State} {c : Nat} {sl : Slot} {reads : List RegName} {writes : List (RegName × Nat)} {effs : List (Nat × Eff)}
  {ops : List UnitOp} {x : Iss} {k : State → State}

/-- An instruction of a slot whose word and state leave it nothing to fault for only issues. -/
theorem issues_of_slot (hexec : c < nCores → exec i s = .next (issueSlot s c sl x)) (hx : x = ⟨false, reads, writes, effs, ops, none⟩) :
    Issues i s c sl reads writes effs ops := by
  intro hready
  rw [hexec hready.present, issueSlot, hx, issueThen_of_ready hready]
  rfl

/-- So does one of the control/scalar slot that does not run past the last address. -/
theorem issues_of_ctl (honward : Onward s c) (hexec : c < nCores → exec i s = .next (issueCtl s c x id))
    (hx : x = ⟨false, reads, writes, effs, ops, none⟩) : Issues i s c .ctl reads writes effs ops := by
  intro hready
  rw [hexec hready.present, issueCtl_of_onward honward, hx, issueThen_of_ready hready]
  rfl

/-- The same where the slot's reads, writes, effects and units are not written out. -/
theorem issues_of_clear (hexec : c < nCores → exec i s = .next (issueSlot s c sl x)) (hbad : x.bad = false) (hfault : x.fault = none) :
    Issues i s c sl x.reads x.writes x.effs x.ops :=
  issues_of_slot hexec (by cases x; simp_all only)

/-- A slot whose word is accepted and that has nothing to fault for. -/
theorem iss_eq_clear {bad : Bool} {fault : Option (Nat × Nat)} (hbad : bad = false) (hfault : fault = none) :
    (⟨bad, reads, writes, effs, ops, fault⟩ : Iss) = ⟨false, reads, writes, effs, ops, none⟩ := by rw [hbad, hfault]

/-- An effect of an issued instruction is in flight. -/
theorem mem_pend_issued {d : Nat} {e : Eff} (h : (d, e) ∈ effs) :
    (⟨sl, s.clk.cyc, (coreOf s c).seq.pc, s.clk.cyc + d, e⟩ : Pend) ∈ (coreOf (issued s c sl writes effs ops) c).pend := by
  rw [issued, coreOf_setCore]
  exact List.mem_append_right _ (List.mem_map_of_mem h)

/-- An instruction with a change of its own makes it on the state in which it has issued. -/
theorem exec_of_slot (hexec : c < nCores → exec i s = .next (issueThen s c sl x k)) (hx : x = ⟨false, reads, writes, effs, ops, none⟩)
    (hready : Ready s c reads writes) : exec i s = .next (k (issued s c sl writes effs ops)) := by
  rw [hexec hready.present, hx, issueThen_of_ready hready]

theorem exec_of_ctl (honward : Onward s c) (hexec : c < nCores → exec i s = .next (issueCtl s c x k))
    (hx : x = ⟨false, reads, writes, effs, ops, none⟩) (hready : Ready s c reads writes) :
    exec i s = .next (k (issued s c .ctl writes effs ops)) :=
  exec_of_slot (fun hc => (hexec hc).trans (congrArg _ (issueCtl_of_onward honward x k))) hx hready

/-- A word that is not accepted acts as NOP with EV_ILLEGAL_BUNDLE (R119). -/
theorem issueThen_refused (hissues : canIssue s c (coreOf s c) = true) (hbad : x.bad = true) :
    issueThen s c sl x k = recordFault (setCore s c { coreOf s c with bundle := (coreOf s c).bundle ++ [(sl, [])] }) c evIllegalBundle
      (coreOf s c).seq.pc s.clk.cyc 0 false := by
  rw [issueThen_bad hissues hbad, bundleFault, coreOf_setCore]
  rfl

end

end Sys2Proof.Proofs.IssueRules

/-! PROOFS. The scalar instructions (R125, R126). -/

namespace Sys2Proof.Proofs.ScalarSlot

open Sys2Proof Sys2Proof.Machine Sys2Proof.Claims Sys2Proof.Proofs.IssueRules

section

variable {i : Instr} {s : State} {c : Nat}

/-- An accepted instruction that writes one scalar register. -/
theorem scalarResult_of_issS {ok : Bool} {reads : List Nat} {rd n : Nat} {x : Word}
    (hexec : c < nCores → exec i s = .next (issueCtl s c (issS ok reads rd (n + 1) x) id)) (hok : ok = true) : ScalarResult i s c reads rd n x :=
  fun honward => issues_of_ctl honward hexec (by rw [hok]; rfl)

/-- A three-register operation whose word is accepted. -/
theorem scalarResult_of_scalarOp {f : FmtA} {ok : Bool} {op : Word → Word → Word} {n : Nat}
    (hexec : c < nCores → exec i s = .next (scalarOp c f (n + 1) ok op s)) (hrsv : f.rsv = 0) (hok : ok = true) :
    ScalarResult i s c [f.ra.toNat, f.rb.toNat] f.rd.toNat n (op (rdS (coreOf s c).regs f.ra.toNat) (rdS (coreOf s c).regs f.rb.toNat)) :=
  scalarResult_of_issS (ok := ok && decide (f.rsv = 0)) hexec (by simp [hok, hrsv])

end

/-- A lane of 64 bits is a part of the register. -/
theorem ofNat_laneOf (v : NetWord) (i : Nat) : BitVec.ofNat 64 (laneOf 64 v i) = v.extractLsb' (64 * i) 64 :=
  BitVec.eq_of_toNat_eq (by simp [laneOf])

/-- A shift whose function is accepted. -/
theorem shift_result {s : State} {c : Nat} {f : FmtA} (hrsv : f.rsv = 0) (hfn : f.fn.toNat < 3) :
    ScalarResult (.shift c f) s c [f.ra.toNat, f.rb.toNat] f.rd.toNat 0
      (shiftBy f.fn.toNat (rdS (coreOf s c).regs f.ra.toNat) (rdS (coreOf s c).regs f.rb.toNat)) :=
  scalarResult_of_scalarOp (ok := decide (f.fn.toNat < 3)) (fun hc => if_pos hc) hrsv (decide_eq_true hfn)

/-- A comparison whose relation is accepted. -/
theorem cmp_result {s : State} {c : Nat} {f : FmtA} (hrsv : f.rsv = 0) (hfn : f.fn.toNat < 6) :
    ScalarResult (.cmp c f) s c [f.ra.toNat, f.rb.toNat] f.rd.toNat 0
      (if cmpHolds f.fn.toNat (rdS (coreOf s c).regs f.ra.toNat) (rdS (coreOf s c).regs f.rb.toNat) then 1 else 0) :=
  scalarResult_of_scalarOp (ok := decide (f.fn.toNat < 6)) (op := fun a b => if cmpHolds f.fn.toNat a b then 1 else 0)
    (fun hc => if_pos hc) hrsv (decide_eq_true hfn)

/-- Settles O1: every row of the scalar table is an accepted word with one destination, whose effect is the row's value. -/
theorem scalarSlotResults : Obligations.ScalarSlotResults := by
  intro s c
  refine ⟨fun f hrsv => ?_, fun f hrsv => ?_, fun f hrsv => ?_, fun f hrsv honward => ?_, fun r x => ⟨rfl, rfl⟩, rfl, rfl⟩
  · refine ⟨scalarResult_of_scalarOp (fun hc => if_pos hc) hrsv rfl, scalarResult_of_scalarOp (fun hc => if_pos hc) hrsv rfl, scalarResult_of_scalarOp (fun hc => if_pos hc) hrsv rfl,
      scalarResult_of_scalarOp (fun hc => if_pos hc) hrsv rfl, scalarResult_of_scalarOp (fun hc => if_pos hc) hrsv rfl, scalarResult_of_scalarOp (fun hc => if_pos hc) hrsv rfl, ?_⟩
    refine ⟨fun hfn => ?_, fun hfn => ?_, fun hfn => ?_, fun hfn => ?_, fun hfn => ?_, fun hfn => ?_, fun hfn => ?_, fun hfn => ?_, fun hfn => ?_⟩
    iterate 3 simpa [hfn, shiftBy] using shift_result (s := s) (c := c) hrsv (by simp [hfn])
    all_goals simpa [hfn, cmpHolds] using cmp_result (s := s) (c := c) hrsv (by simp [hfn])
  · exact scalarResult_of_issS (fun hc => if_pos hc) (decide_eq_true hrsv)
  · have hli : ScalarResult (.li c f) s c [] f.rd.toNat 0 (f.imm.signExtend 64 <<< (16 * f.h.toNat)) :=
      scalarResult_of_issS (fun hc => if_pos hc) (decide_eq_true hrsv)
    obtain hh | hh := BitVec.eq_zero_or_eq_one f.h <;> simpa [hh] using hli
  · refine ⟨fun hfn => ?_, fun hfn => ?_, fun hfn hvm => ?_, fun hfn hvm => ?_⟩
    · refine issues_of_ctl honward (fun hc => if_pos hc) ?_
      simp [hfn, hrsv, ofNat_laneOf]
    · refine issues_of_ctl honward (fun hc => if_pos hc) ?_
      simp [hfn, hrsv]
    · refine issues_of_ctl honward (fun hc => if_pos hc) ?_
      simp [hfn, hrsv, hvm]
    · refine issues_of_ctl honward (fun hc => if_pos hc) ?_
      simp [hfn, hrsv, hvm]

end Sys2Proof.Proofs.ScalarSlot

/-! PROOFS. Branches, loops, calls and what ends or marks the work of a tick (R128–R132, R135, R136). -/

namespace Sys2Proof.Proofs.Sequencing

open Sys2Proof Sys2Proof.Machine Sys2Proof.Claims Sys2Proof.Proofs.IssueRules

/-! ## The state in which a slot has issued -/

section

variable {s : State} {c : Nat}

theorem coreOf_issued (sl : Slot) (writes : List (RegName × Nat)) (effs : List (Nat × Eff)) (ops : List UnitOp) :
    coreOf (issued s c sl writes effs ops) c = { coreOf s c with
      bundle := (coreOf s c).bundle ++ [(sl, writes.map (·.1))]
      pend := (coreOf s c).pend ++ effs.map fun e => ⟨sl, s.clk.cyc, (coreOf s c).seq.pc, s.clk.cyc + e.1, e.2⟩
      ops := (coreOf s c).ops ++ ops } := coreOf_setCore ..

/-- Issuing leaves the sequencer to the instruction. -/
@[simp] theorem seq_issued (sl : Slot) (writes : List (RegName × Nat)) (effs : List (Nat × Eff)) (ops : List UnitOp) :
    (coreOf (issued s c sl writes effs ops) c).seq = (coreOf s c).seq := by rw [coreOf_issued]

@[simp] theorem clk_issued (sl : Slot) (writes : List (RegName × Nat)) (effs : List (Nat × Eff)) (ops : List UnitOp) :
    (issued s c sl writes effs ops).clk = s.clk := rfl

/-- A fault of the bundle in a slot without destinations, which halts the core or not. -/
theorem bundleFault_issued (ev : Nat) :
    bundleFault (issued s c .ctl [] [] []) c ev 0 = issuedFault s c ev false := by
  simp only [issuedFault, bundleFault, seq_issued, clk_issued, Bool.or_false]
  simp only [issued, modCore_setCore]

theorem bundleFault_halted (ev : Nat) :
    bundleFault (modSeq (issued s c .ctl [] [] []) c fun q => { q with halted := true }) c ev 0 = issuedFault s c ev true := by
  simp only [issuedFault, bundleFault, modSeq, coreOf_modCore, modCore_clk, seq_issued, clk_issued, Bool.or_true]

theorem seqStackFault_issued : seqStackFault (issued s c .ctl [] [] []) c = issuedFault s c evSeqStack true := bundleFault_halted evSeqStack

/-! ## Accepted words -/

/-- The reserved fields are 0 and the condition is one of the table (R127). -/
theorem jClean_eq {f : FmtJ} (h : f.rsv1 = 0 ∧ f.rsv2 = 0 ∧ f.cond ≠ 7) : jClean f = true := by
  obtain ⟨h1, h2, h3⟩ := h
  simp only [jClean, h1, h2, h3, decide_true, Bool.and_self, ne_eq, not_false_eq_true]

/-- A sequencing instruction outside delay slots and away from a loop's end is accepted and makes its change (R120). -/
theorem exec_of_issSeq {i : Instr} {f : FmtJ} {ok rule3 reads : Bool} {rs : List RegName} {k : State → State} (honward : Onward s c)
    (hexec : c < nCores → exec i s = .next (issueCtl s c (issSeq s c f ok rule3 reads) k)) (hclean : f.rsv1 = 0 ∧ f.rsv2 = 0 ∧ f.cond ≠ 7)
    (hdelay : (coreOf s c).seq.delay = 0) (hnear : nearLoopEnd (coreOf s c).seq = false) (hok : ok = true)
    (hrs : (if reads then [RegName.s f.ra.toNat] else []) = rs) (hready : Ready s c rs []) :
    exec i s = .next (k (issued s c .ctl [] [] [])) :=
  exec_of_ctl honward hexec (by simp [issSeq, inDelay, jClean_eq hclean, hdelay, hnear, hok, hrs]) hready

/-- What a change of the sequencer leaves depends on the sequencer as it stands. -/
theorem modSeq_congr {t : State} {f : Seq → Seq} {g : Core → Core} (h : { coreOf t c with seq := f (coreOf t c).seq } = g (coreOf t c)) :
    modSeq t c f = modCore t c g := congrArg (setCore t c) h

end

section

variable (s : State) (c : Nat) {f : FmtJ} (hclean : f.rsv1 = 0 ∧ f.rsv2 = 0 ∧ f.cond ≠ 7)
include hclean

/-- A branch is taken when its condition holds; its delay bundles issue in either case (R128). -/
theorem exec_br (honward : Onward s c) (hdelay : (coreOf s c).seq.delay = 0) (hnear : nearLoopEnd (coreOf s c).seq = false)
    (hready : Ready s c (if f.cond = 0 then [] else [.s f.ra.toNat]) []) :
    exec (.br c f) s = .next (if condHolds f.cond.toNat (rdS (coreOf s c).regs f.ra.toNat) then
        branched s c f.target.toNat true (coreOf s c).seq.calls
      else modCore (issued s c .ctl [] [] []) c fun co => { co with seq := { co.seq with delay := 3, target := none } }) := by
  rw [exec_of_issSeq (i := .br c f) honward (fun hc => if_pos hc) hclean hdelay hnear rfl (by by_cases h : f.cond = 0 <;> simp [h]) hready]
  congr 1
  split
  · exact modSeq_congr (by simp [branchTo])
  · rfl

theorem exec_call (honward : Onward s c) (hdelay : (coreOf s c).seq.delay = 0) (hnear : nearLoopEnd (coreOf s c).seq = false) (hcond : f.cond = 0)
    (hready : Ready s c [] []) :
    exec (.call c f) s = .next (if 4 ≤ (coreOf s c).seq.calls.length then issuedFault s c evSeqStack true
      else branched s c f.target.toNat false (((coreOf s c).seq.pc + 3) :: (coreOf s c).seq.calls)) := by
  rw [exec_of_issSeq (i := .call c f) honward (fun hc => if_pos hc) hclean hdelay hnear (decide_eq_true hcond) rfl hready, seq_issued, seqStackFault_issued]
  congr 2
  exact modSeq_congr (by simp [branchTo])

section

variable (honward : Onward s c) (hdelay : (coreOf s c).seq.delay = 0) (hnear : nearLoopEnd (coreOf s c).seq = false)
include honward hdelay hnear

/-- RET goes to the address on the stack's top (R128). -/
theorem exec_ret_pop (hzero : f.cond = 0 ∧ f.ra = 0 ∧ f.imm = 0 ∧ f.target = 0) (hready : Ready s c [] []) {a : Nat} {rest : List Nat}
    (hcalls : (coreOf s c).seq.calls = a :: rest) (ha : a < 4096) : exec (.ret c f) s = .next (branched s c a false rest) := by
  rw [exec_of_issSeq (i := .ret c f) honward (fun hc => if_pos hc) hclean hdelay hnear (by simp [hzero]) rfl hready, seq_issued, hcalls]
  simp only [if_neg (Nat.not_le_of_lt ha)]
  congr 1

theorem exec_ret_empty (hzero : f.cond = 0 ∧ f.ra = 0 ∧ f.imm = 0 ∧ f.target = 0) (hready : Ready s c [] [])
    (hcalls : (coreOf s c).seq.calls = []) : exec (.ret c f) s = .next (issuedFault s c evSeqStack true) := by
  rw [exec_of_issSeq (i := .ret c f) honward (fun hc => if_pos hc) hclean hdelay hnear (by simp [hzero]) rfl hready, seq_issued, hcalls,
    seqStackFault_issued]

/-- LOOP opens its body inside the innermost loop's, and faults where there is no place for it (R129). -/
theorem exec_loop (hready : Ready s c [.s f.ra.toNat] []) {full : Prop} [Decidable full]
    (hfull : full ↔ 4 ≤ (coreOf s c).seq.loops.length ∨ f.target.toNat ≤ (coreOf s c).seq.pc ∨
      ∃ l rest, (coreOf s c).seq.loops = l :: rest ∧ l.fin ≤ f.target.toNat) :
    let q := (coreOf s c).seq
    let n := (rdS (coreOf s c).regs f.ra.toNat).toNat % 2 ^ 32 + f.imm.toNat
    exec (.loop c f) s = .next (
      if full then issuedFault s c evSeqStack true
      else if n = 0 then modCore (issued s c .ctl [] [] []) c fun co => { co with seq := { co.seq with idle := 2, jump := some (f.target.toNat + 1) } }
      else modCore (issued s c .ctl [] [] []) c fun co => { co with seq := { co.seq with loops := ⟨q.pc + 1, f.target.toNat, n⟩ :: q.loops } }) := by
  intro q n
  rw [exec_of_issSeq (i := .loop c f) honward (fun hc => if_pos hc) hclean hdelay hnear rfl rfl hready, seq_issued, seqStackFault_issued]
  have hwrite : (modSeq (issued s c .ctl [] [] []) c fun q => { q with loops := ⟨q.pc + 1, f.target.toNat, n⟩ :: q.loops }) =
      modCore (issued s c .ctl [] [] []) c fun co => { co with seq := { co.seq with loops := ⟨q.pc + 1, f.target.toNat, n⟩ :: q.loops } } :=
    modSeq_congr (by simp [q])
  rw [← hwrite]
  congr 1
  refine ite_congr (propext ?_) (fun _ => rfl) fun _ => rfl
  rw [hfull]
  cases hloops : (coreOf s c).seq.loops with
  | nil => simp
  | cons l rest => simp

end

/-- TWAIT ends the tick's work; open loops or calls fault (R131). -/
theorem exec_twait (hdelay : (coreOf s c).seq.delay = 0) (hready : Ready s c [] []) {unclosed : Prop} [Decidable unclosed]
    (hopen : unclosed ↔ (coreOf s c).seq.loops ≠ [] ∨ (coreOf s c).seq.calls ≠ []) :
    let t := modCore (issued s c .ctl [] [] []) c fun co => { co with done := true, seq := { co.seq with waiting := true, resume := f.target.toNat } }
    exec (.twait c f) s = .next (if unclosed then recordFault t c evSeqStack (coreOf s c).seq.pc s.clk.cyc 0 false else t) := by
  intro t
  have hexec := exec_of_slot (i := .twait c f) (effs := []) (ops := []) (fun hc => if_pos hc) (by simp [issSeq, inDelay, jClean_eq hclean, hdelay]) hready
  rw [hexec]
  congr 1
  refine ite_congr (propext ?_) (fun _ => ?_) fun _ => rfl
  · rw [hopen, seq_issued]
  · simp only [bundleFault, coreOf_modCore, seq_issued]
    rfl

theorem exec_trap (honward : Onward s c) (hready : Ready s c (if f.cond = 0 then [] else [.s f.ra.toNat]) []) :
    exec (.trap c f) s = .next (if condHolds f.cond.toNat (rdS (coreOf s c).regs f.ra.toNat) then issuedFault s c evTrap false
      else issued s c .ctl [] [] []) := by
  have hexec := exec_of_ctl (i := .trap c f) (effs := []) (ops := []) honward (fun hc => if_pos hc) (by by_cases h : f.cond = 0 <;> simp [jClean_eq hclean, h]) hready
  rw [hexec, bundleFault_issued]

theorem exec_idle (honward : Onward s c) (hready : Ready s c [] []) : exec (.idle c f) s =
    .next (modCore (issued s c .ctl [] [] []) c fun co => { co with seq := { co.seq with idle := f.imm.toNat } }) :=
  exec_of_ctl (i := .idle c f) honward (fun hc => if_pos hc) (by simp [issCheck, issNone, jClean_eq hclean]) hready

theorem exec_beat (honward : Onward s c) (hready : Ready s c [] []) : exec (.beat c f) s =
    .next (modCore (issued s c .ctl [] [] []) c fun co => { co with beat := f.imm.setWidth 8 }) :=
  exec_of_ctl (i := .beat c f) honward (fun hc => if_pos hc) (by simp [issCheck, issNone, jClean_eq hclean]) hready

end

theorem exec_nop {s : State} {c : Nat} {sl : Slot} (honward : sl = .ctl → Onward s c) (hready : Ready s c [] []) :
    exec (.nop c sl 0) s = .next (issued s c sl [] [] []) := by
  by_cases hsl : sl = .ctl
  · subst hsl
    exact exec_of_ctl (i := .nop c .ctl 0) (k := id) (honward rfl) (fun hc => if_pos hc) rfl hready
  · exact exec_of_slot (i := .nop c sl 0) (k := id) (fun hc => (if_pos hc).trans (congrArg _ (if_neg hsl))) rfl hready

/-- Condition 0 always holds (R127). -/
theorem condHolds_always {cond : BitVec 3} (x : Word) (h : cond = 0 ∨ condHolds cond.toNat x = true) : condHolds cond.toNat x = true := by
  rcases h with rfl | h
  · rfl
  · exact h

/-- A condition that fails is not the one that always holds. -/
theorem cond_ne_zero {cond : BitVec 3} {x : Word} (h : condHolds cond.toNat x = false) : cond ≠ 0 := by
  rintro rfl
  exact Bool.noConfusion (h : true = false)

/-- Settles O2: each instruction's word is accepted, and its own change is the rule's. -/
theorem sequencingEffects : Obligations.SequencingEffects := by
  intro s c sl f q x next clean seqOk
  refine ⟨exec_nop, fun ⟨hclean, hdelay, honward⟩ hnear hcond hready => ?_, fun ⟨hclean, hdelay, honward⟩ hnear hcond hready => ?_,
    fun ⟨hclean, hdelay, honward⟩ hnear hcond hroom hready => ?_, fun ⟨hclean, hdelay, honward⟩ hnear hcond hfull hready => ?_,
    fun ⟨hclean, hdelay, honward⟩ hnear hzero a rest hcalls ha hready => exec_ret_pop s c hclean honward hdelay hnear hzero hready hcalls ha,
    fun ⟨hclean, hdelay, honward⟩ hnear hzero hcalls hready => exec_ret_empty s c hclean honward hdelay hnear hzero hready hcalls,
    ?_, fun hclean hdelay => ?_, fun hclean honward => ⟨exec_idle s c hclean honward, exec_beat s c hclean honward⟩,
    fun hclean honward => ⟨fun hcond hready => ?_, fun hcond hready => ?_⟩⟩
  · rw [exec_br s c hclean honward hdelay hnear hready, if_pos (condHolds_always x hcond)]
  · rw [exec_br s c hclean honward hdelay hnear (by rwa [if_neg (cond_ne_zero hcond)]), if_neg (by rw [hcond]; decide)]
  · rw [exec_call s c hclean honward hdelay hnear hcond hready, if_neg (Nat.not_le_of_lt hroom)]
  · rw [exec_call s c hclean honward hdelay hnear hcond hready, if_pos hfull]
  · intro n inner hok hnear
    obtain ⟨hclean, hdelay, honward⟩ := hok
    have hinner : ¬ inner ↔ ∃ l rest, q.loops = l :: rest ∧ l.fin ≤ f.target.toNat := by simp [inner]
    refine ⟨fun ⟨hroom, hahead, hin⟩ hn hready => ?_, fun ⟨hroom, hahead, hin⟩ hn hready => ?_, fun hno hready => ?_⟩
    · rw [exec_loop (full := False) s c hclean honward hdelay hnear hready (by rw [← hinner]; simpa [hin] using ⟨hroom, hahead⟩), if_neg not_false,
        if_neg hn.ne']
    · rw [exec_loop (full := False) s c hclean honward hdelay hnear hready (by rw [← hinner]; simpa [hin] using ⟨hroom, hahead⟩), if_neg not_false,
        if_pos hn]
    · rw [exec_loop (full := True) s c hclean honward hdelay hnear hready (by rw [← hinner]; simpa using hno), if_pos trivial]
  · refine ⟨fun ⟨hloops, hcalls⟩ hready => ?_, fun hopen hready => ?_⟩
    · rw [exec_twait (unclosed := False) s c hclean hdelay hready (by simpa using ⟨hloops, hcalls⟩), if_neg not_false]
    · rw [exec_twait (unclosed := True) s c hclean hdelay hready (by simpa using hopen), if_pos trivial]
  · have hreads : Ready s c (if f.cond = 0 then [] else [.s f.ra.toNat]) [] := hready
    rw [exec_trap s c hclean honward hreads, if_pos hcond]
  · rw [exec_trap s c hclean honward (by rwa [if_neg (cond_ne_zero hcond)]), if_neg (by rw [hcond]; exact Bool.false_ne_true)]

end Sys2Proof.Proofs.Sequencing

/-! PROOFS. Status items and mailbox words (R134, R137–R140). -/

namespace Sys2Proof.Proofs.StatusMailbox

open Sys2Proof Sys2Proof.Machine Sys2Proof.Claims Sys2Proof.Proofs.IssueRules

section

variable {s : State} {c : Nat} {f : FmtA} (hrsv : f.rsv = 0) (honward : Onward s c)
include honward

include hrsv in
/-- A status item whose selector is accepted lands in s[rd] (R134). -/
theorem issues_stat (hfn : f.fn.toNat < 5) :
    Issues (.stat c f) s c .ctl [] [(.s f.rd.toNat, 1)] [(0, .setS f.rd.toNat (statItem s c f.fn.toNat))] [] :=
  issues_of_ctl honward (fun hc => if_pos hc) (by simp [issS, hrsv, hfn])

theorem exec_stat_refused (hfn : 5 ≤ f.fn.toNat) (hc : c < nCores) (hissues : canIssue s c (coreOf s c) = true) :
    exec (.stat c f) s = .next (recordFault (setCore s c { coreOf s c with bundle := (coreOf s c).bundle ++ [(.ctl, [])] }) c evIllegalBundle
      (coreOf s c).seq.pc s.clk.cyc 0 false) := by
  have hexec : exec (.stat c f) s =
      .next (issueCtl s c (issS (f.rsv = 0 && f.fn.toNat < 5) [] f.rd.toNat 1 (statItem s c f.fn.toNat)) id) := if_pos hc
  rw [hexec, issueCtl_of_onward honward, issueThen_refused hissues (by simp [issS]; omega)]

include hrsv

/-- A mailbox word sent in time goes where its destination says (R137, R140). -/
theorem exec_msend (hsoon : ∀ l, (coreOf s c).lastMsend = some l → l + 8 ≤ s.clk.cyc) (hlate : s.clk.cyc ≤ 2 ^ tickK s - 1024) {e : Eff}
    (he : (msendDest s c (rdS (coreOf s c).regs f.ra.toNat)).elim (.fault evMboxFault 0) (.mail · (rdS (coreOf s c).regs f.rb.toNat)) = e)
    (hready : Ready s c [.s f.ra.toNat, .s f.rb.toNat] []) :
    exec (.msend c f) s = .next (modCore (issued s c .ctl [] [(0, e)] []) c fun co => { co with lastMsend := some s.clk.cyc }) := by
  refine exec_of_ctl (i := .msend c f) (effs := [(0, e)]) (ops := []) honward (fun hc => if_pos hc) ?_ hready
  have hnotLate : ¬ schedCycles s - 1024 < s.clk.cyc := Nat.not_lt_of_le hlate
  subst he
  cases hdest : msendDest s c (rdS (coreOf s c).regs f.ra.toNat) <;> cases hlast : (coreOf s c).lastMsend
  case none.none | some.none => simp [hrsv, hnotLate]
  all_goals
    have hnotSoon := Nat.not_lt_of_le (hsoon _ hlast)
    simp [hrsv, hnotLate, hnotSoon]

/-- The oldest inbox word and its sender land in a register pair (R139). -/
theorem issues_mrecv_word (heven : f.rd.toNat % 2 = 0) (hpair : 2 ≤ f.rd.toNat) {m : Mail} {rest : List Mail} (hbox : (coreOf s c).inbox = m :: rest) :
    Issues (.mrecv c f) s c .ctl [] [(.s f.rd.toNat, 1), (.s (f.rd.toNat + 1), 1)]
      [(0, .setS f.rd.toNat m.word), (0, .setS (f.rd.toNat + 1) (BitVec.ofNat 64 m.sender)), (0, .popInbox)] [] :=
  issues_of_ctl honward (fun hc => if_pos hc) (by simp [hbox, hrsv, heven, hpair])

/-- An empty inbox gives zero and all ones (R139). -/
theorem issues_mrecv_none (heven : f.rd.toNat % 2 = 0) (hpair : 2 ≤ f.rd.toNat) (hbox : (coreOf s c).inbox = []) :
    Issues (.mrecv c f) s c .ctl [] [(.s f.rd.toNat, 1), (.s (f.rd.toNat + 1), 1)]
      [(0, .setS f.rd.toNat 0), (0, .setS (f.rd.toNat + 1) (BitVec.allOnes 64))] [] :=
  issues_of_ctl honward (fun hc => if_pos hc) (by simp [hbox, hrsv, heven, hpair])

end

/-- Where an MSEND goes (R137, R211). -/
theorem msendDest_unit (s : State) (c : Nat) : msendDest s c 0x3FFF = some (0x7000 + rd s F.CORE_STATUS_REGION c) := by
  unfold msendDest
  exact if_pos rfl

theorem msendDest_core {s : State} {c : Nat} {d : Word} (hd : d ≠ 0x3FFF) :
    msendDest s c d =
      if d.toNat < nCores ∧ rd s F.CORE_STATUS_REGION d.toNat = rd s F.CORE_STATUS_REGION c then some d.toNat else none := if_neg hd

/-- Settles O3: the status item, the destination and the inbox decide what is in flight. -/
theorem statusAndMailboxEffects : Obligations.StatusAndMailboxEffects := by
  intro s c f hrsv honward co stat
  refine ⟨?_, fun hfn hc hissues => exec_stat_refused honward hfn hc hissues, ?_, ?_⟩
  · refine ⟨fun hfn => ?_, fun hfn => ?_, fun hfn => ?_, fun hfn => ?_, fun hfn => ?_⟩
    all_goals simpa [hfn, statItem, coreX, coreY, tickK] using issues_stat (c := c) hrsv honward (by simp [hfn])
  · intro d w region sent hsoon hlate
    refine ⟨fun hd => ?_, fun hd hc hr => ?_, fun hd hno => ?_⟩
    · exact exec_msend hrsv honward hsoon hlate (by rw [show rdS (coreOf s c).regs f.ra.toNat = 0x3FFF from hd, msendDest_unit]; rfl)
    · exact exec_msend hrsv honward hsoon hlate (by rw [msendDest_core hd, if_pos ⟨hc, hr⟩]; rfl)
    · exact exec_msend hrsv honward hsoon hlate (by rw [msendDest_core hd, if_neg fun ⟨hin, hsame⟩ => hno.elim (Nat.not_le_of_lt hin) (· hsame)]; rfl)
  · intro n heven hpair
    exact ⟨fun m rest hbox => issues_mrecv_word hrsv honward heven hpair hbox, fun hbox => issues_mrecv_none hrsv honward heven hpair hbox⟩

end Sys2Proof.Proofs.StatusMailbox

/-! PROOFS. The transfer slot (R141–R144). -/

namespace Sys2Proof.Proofs.TransferSlot

open Sys2Proof Sys2Proof.Machine Sys2Proof.Claims Sys2Proof.Proofs.IssueRules

/-- What a receive finds in its cycle: the delivered word, or zeros with EV_XFER_SLOT (R144). -/
def Receives (s : State) (c : Nat) (w : NetWord) (e : Eff) : Prop :=
  (delivered s c = some w ∧ e = .took) ∨ (delivered s c = none ∧ w = 0 ∧ e = .fault evXferSlot 0)

theorem issRecv_eq {s : State} {c : Nat} {w : NetWord} {e : Eff} (h : Receives s c w e) (ok : Bool) (reads : List RegName)
    (writes : List (RegName × Nat)) (effs : NetWord → List (Nat × Eff)) :
    issRecv s c ok reads writes effs = ⟨!ok, reads, writes, (0, e) :: effs w, [], none⟩ := by
  unfold issRecv
  rcases h with ⟨hword, rfl⟩ | ⟨hnone, rfl, rfl⟩
  · rw [hword]
  · rw [hnone]

/-- A word without non-finite lanes passes as it is. -/
theorem finite_of_badLanes {w : NetWord} (h : badLanes w = 0) {i : Nat} (hi : i < 32) : fin32 (laneOf 32 w i) = laneOf 32 w i := by
  have hall := List.countP_eq_zero.1 h i (List.mem_range.2 hi)
  simp only [Bool.not_eq_true', Bool.not_eq_false] at hall
  simp only [fin32, hall, if_true]

/-- Settles O4: each word of the slot is accepted; a receive's effects are those of the word it finds. -/
theorem transferEffects : Obligations.TransferEffects := by
  refine ⟨fun s c f hrsv => ⟨fun hfn => ?_, fun hfn hg => ?_, fun hfn hg => ?_, fun hfn hg => ?_, fun hfn hg => ?_⟩,
    fun s c f w e hrsv hword => ⟨fun hfn => ?_, fun hfn hg => ?_, fun hfn hg => ?_, fun hfn hg hbad => ?_, fun hfn hg => ?_⟩⟩
  · exact issues_of_slot (fun hc => if_pos hc) (by simp [issSend, hrsv, hfn])
  · exact issues_of_slot (fun hc => if_pos hc) (by simp [hrsv, hfn, hg])
  · exact issues_of_slot (fun hc => if_pos hc) (by simp [hrsv, hfn, hg])
  · exact issues_of_slot (fun hc => if_pos hc) (by simp [issSend, hrsv, hfn, hg])
  · exact issues_of_slot (fun hc => if_pos hc) (by simp [issSend, hrsv, hfn, hg])
  · exact issues_of_slot (fun hc => if_pos hc) ((issRecv_eq hword ..).trans (by simp [hrsv, hfn]))
  · exact issues_of_slot (fun hc => if_pos hc) ((issRecv_eq hword ..).trans (by simp [hrsv, hfn, hg, laneLa]))
  · exact issues_of_slot (fun hc => if_pos hc) ((issRecv_eq hword ..).trans (by simp [hrsv, hfn, hg, laneLa]))
  · have hlanes : ((List.range 32).map fun i => ((0 : Nat), Eff.setCa (32 * f.reg.toNat + i) (BitVec.ofNat 32 (fin32 (laneOf 32 w i))))) =
        (List.range 32).map fun i => (0, Eff.setCa (32 * f.reg.toNat + i) (BitVec.ofNat 32 (laneOf 32 w i))) :=
      List.map_congr_left fun i hi => by rw [finite_of_badLanes hbad (List.mem_range.1 hi)]
    exact issues_of_slot (fun hc => if_pos hc) ((issRecv_eq hword ..).trans (by simp [hrsv, hfn, hg, nanEffs, hbad, hlanes]))
  · exact issues_of_slot (fun hc => if_pos hc) ((issRecv_eq hword ..).trans (by simp [hrsv, hfn, hg]))

end Sys2Proof.Proofs.TransferSlot

/-! PROOFS. The matrix slot (R150–R159). -/

namespace Sys2Proof.Proofs.MatrixSlot

open Sys2Proof Sys2Proof.Machine Sys2Proof.Claims Sys2Proof.Proofs.IssueRules Sys2Proof.Proofs.Sequencing

/-! ## Products -/

/-- The accumulators of rows 0 to nr are those whose row number is at most nr. -/
theorem rowAccs_rowsTo (nr : Nat) : rowAccs (rowsTo nr) = (List.range 128).filter fun n => n / 16 ≤ nr := by
  unfold rowAccs rowsTo
  congr 1
  funext n
  rw [Nat.testBit_two_pow_sub_one]
  exact decide_eq_decide.2 Nat.lt_succ_iff

section

variable {s : State} {c : Nat} (hbusy : matrixBusy s c = false)
include hbusy

/-- What a product asks where nothing stands against it. -/
theorem issProduct_eq {ok : Bool} {sw sx u wLast xLast : Nat} {kind : UnitKind} {clr : Bool} (hok : ok = true) (hclr : prodClr kind = clr)
    (hw : streamOk (rdS (coreOf s c).regs sw) wLast = true) (hx : streamOk (rdS (coreOf s c).regs sx) xLast = true)
    (hcounts : clr = false → ∀ n ∈ (List.range 128).filter (fun n => n / 16 ≤ prodNr kind),
      (rdAcc (coreOf s c).regs n).cnt + (prodNb kind + 1) ≤ 2 ^ 27) :
    let lat := u * (prodNb kind + 1) + 5
    let adds := (List.range 128).filter fun n => n / 16 ≤ prodNr kind
    let dests := if clr then List.range 128 else adds
    issProduct s c ok sw sx kind u wLast xLast =
      ⟨false, [RegName.s sw, RegName.s sx] ++ (if clr then [] else adds.map RegName.acc), dests.map fun n => (RegName.acc n, lat),
        (if clr then [(0, Eff.taste 255 none 0), (0, Eff.opening)] else []) ++ [(lat - 1, Eff.prodCounts)] ++ dests.map fun n => (lat - 1, Eff.prod n),
        [⟨.mx, s.clk.cyc, (coreOf s c).seq.pc, lat, kind, (rdS (coreOf s c).regs sw).toNat, (rdS (coreOf s c).regs sx).toNat, []⟩], none⟩ := by
  subst hclr
  have hfew : (!prodClr kind && ((List.range 128).filter fun n => n / 16 ≤ prodNr kind).any
      fun n => decide (2 ^ 27 < (rdAcc (coreOf s c).regs n).cnt + (prodNb kind + 1))) = false := by
    cases hclr : prodClr kind
    · rw [Bool.not_false, Bool.true_and, List.any_eq_false]
      exact fun n hn => by simpa using hcounts hclr n hn
    · rfl
  simp only [issProduct, rowAccs_rowsTo, hok, hw, hx, hfew, busyOr, hbusy, Bool.not_true, Bool.and_self, not_true_eq_false, if_false,
    Bool.false_eq_true]

end

/-- Settles O5: a product asks for what its format says; nothing stands against it. -/
theorem productIssue : Obligations.ProductIssue := by
  intro s c r starts
  refine ⟨fun f hrsv hwf => ?_, fun f hrsv hwf hxf => ?_, fun f hrsv hwf hxf hs => ?_⟩
  all_goals
    intro hbusy hw hx hcounts
    exact issues_of_slot (fun hc => if_pos hc) (issProduct_eq hbusy (by simp [*]) rfl hw hx hcounts)

/-! ## Accumulators -/

/-- Settles O6: what each move asks for follows from its format, the unit being free; a drain also pends its counts. -/
theorem accumulatorMoves : Obligations.AccumulatorMoves := by
  intro s c hbusy r
  have hfree (x : Option (Nat × Nat)) : busyOr s c x = x := by simp [busyOr, hbusy]
  refine ⟨fun f hrsv => ?_, fun f hrsv => ?_, fun f t hrsv hfmt hrow => ?_⟩
  · exact issues_of_slot (fun hc => if_pos hc) (by simp [hrsv, hfree, rowAccs])
  · intro a accs
    refine ⟨fun ha hf => ?_, fun ha hf => ?_, fun ha hf => ?_, fun ha hf => ?_, fun hf => ?_⟩
    · exact issues_of_slot (fun hc => if_pos hc) (by simp [hrsv, hfree, hf, ha, a, accs, r])
    · exact issues_of_slot (fun hc => if_pos hc) (by simp [hrsv, hfree, hf, ha, a, accs, r])
    · exact issues_of_slot (fun hc => if_pos hc) (by simp [hrsv, hfree, hf, ha, a, accs, r, laneLa])
    · exact issues_of_slot (fun hc => if_pos hc) (by simp [hrsv, hfree, hf, ha, a, accs, r, laneLa])
    · exact issues_of_slot (fun hc => if_pos hc) (by simp [hrsv, hfree, hf, a, r])
  · have hsome : (drainFmt f.fmt.toNat).isSome = true := by rw [hfmt]; rfl
    obtain rfl : (drainFmt f.fmt.toNat).getD .fp32 = t := by rw [hfmt]; rfl
    intro code accs out sats hfin hsat hready
    have hquiet : (rdB s F.CORE_NUM_CTL_SAT_TRAP c && decide (0 < sats)) = false := by
      rcases hsat with hsat | hsat <;> simp [hsat]
    refine ⟨_, issues_of_clear (fun hc => if_pos hc) ?_ ?_ hready, fun e he => mem_pend_issued (d := 3) ?_⟩
    · simp only [hrsv, hsome, hrow, decide_true, Bool.and_self, Bool.not_true]
    · exact (hfree _).trans ((if_neg (not_not.2 hfin)).trans (if_neg (Bool.eq_false_iff.1 hquiet)))
    · rcases List.mem_append.1 he with he | he
      · refine List.mem_append_left _ (List.mem_cons_of_mem _ ?_)
        exact List.mem_map_of_mem (f := (3, ·)) he
      · refine List.mem_append_right _ ?_
        by_cases hz : f.z = 1
        · rw [if_pos hz] at he ⊢
          simpa [accs] using he
        · rw [if_neg hz] at he
          exact absurd he List.not_mem_nil

end Sys2Proof.Proofs.MatrixSlot

/-! PROOFS. The vector slot but for the correction lane (R160–R171). -/

namespace Sys2Proof.Proofs.VectorSlot

open Sys2Proof Sys2Proof.Machine Sys2Proof.Claims Sys2Proof.Proofs.IssueRules

/-! ## Lane-wise instructions -/

/-- A lane-wise instruction lands the lanes of its function, whichever way the function is written. -/
theorem laneResult_of_vrOp {s : State} {c : Nat} {f : FmtVR} {i : Instr} {use : VrUse} {types : LaneTy → Bool} {readsVd : Bool} {lat : Nat}
    {h : RegFiles → LaneTy → Nat → Nat} {g : LaneTy → Nat → Nat} (hexec : c < nCores → exec i s = .next (vrOp c f use types lat readsVd h s))
    (hlanes : ∀ j, h (coreOf s c).regs (tyOf f) j = g (tyOf f) j) : LaneResult i s c f use types readsVd lat g := fun hok =>
  issues_of_slot hexec (by rw [hok, ← funext hlanes]; rfl)

/-- The lanes of arithmetic, in the words of the lane type's float format or of its integers. -/
theorem laneOp_eq (t : LaneTy) (op : FFmt → Nat → Nat → Nat) (iop : Int → Int → Int) (a b : Nat) :
    laneOp t op iop a b = match t.ffmt with
      | some g => op g a b
      | none => wrapInt t.width (iop (sInt t.width a) (sInt t.width b)) := by
  cases t <;> rfl

/-- VLOG's four operations by fn. -/
theorem vlogBits_eq (fn : BitVec 5) (a b : Nat) : vlogBits fn.toNat a b =
    if fn = 0 then a &&& b else if fn = 1 then a ||| b else if fn = 2 then a ^^^ b else a - (a &&& b) := by
  simp only [← BitVec.toNat_inj]
  generalize fn.toNat = n
  unfold vlogBits
  split <;> simp_all

/-- VSHR's three shifts by fn. -/
theorem vshrLane_eq (w : Nat) (fn : BitVec 5) (a n : Nat) : vshrLane w fn.toNat a n =
    if fn = 0 then a * 2 ^ n % 2 ^ w else if fn = 1 then a / 2 ^ n else wrapInt w (sInt w a / 2 ^ n) := by
  simp only [← BitVec.toNat_inj]
  generalize fn.toNat = n
  unfold vshrLane
  split <;> simp_all

/-- Settles O7: a lane-wise instruction lands its function's lanes. -/
theorem laneWiseResults : Obligations.LaneWiseResults := by
  intro s c f r a b d x arith
  refine ⟨?_, ?_, ?_, ?_, ?_, ?_, ?_, ?_, ?_, ?_, ?_, ?_⟩
  all_goals refine laneResult_of_vrOp (fun hc => if_pos hc) fun j => ?_
  · rfl
  · rfl
  · rfl
  · rfl
  · exact vlogBits_eq ..
  · exact laneOp_eq ..
  · exact laneOp_eq ..
  · exact laneOp_eq ..
  · exact laneOp_eq ..
  · exact laneOp_eq ..
  · rfl
  · exact vshrLane_eq ..

/-! ## Memory, selects, reductions and conversions -/

/-- Settles O8: nothing stands against a word whose fields and rows are in range. -/
theorem vectorMemoryAndSelectResults : Obligations.VectorMemoryAndSelectResults := by
  intro s c r
  refine ⟨fun f hrsv hhh => ?_, fun f => ⟨fun hok hvd => ?_, fun hok => ?_, fun hok hlo hhi => ?_, fun dw conv hok hdest hty => ?_⟩⟩
  · intro a hin
    have hbad : (!(decide (f.rsv = 0) && decide (f.hh ≠ 3))) = false := by rw [decide_eq_true hrsv, decide_eq_true hhh]; rfl
    refine ⟨issues_of_slot (fun hc => if_pos hc) (iss_eq_clear hbad (if_pos hin)), fun hwin => ?_⟩
    have hnone : ((List.range (vmLast f + 1)).map (streamRow a.toNat)).find? (inWindow s c) = none := by
      simp only [List.find?_eq_none, List.mem_map, List.mem_range]
      rintro _ ⟨k, hk, rfl⟩
      rw [Bool.not_eq_true]
      exact hwin k (Nat.lt_succ_iff.1 hk)
    exact issues_of_slot (fun hc => if_pos hc) (iss_eq_clear hbad ((if_neg (not_not.2 hin)).trans (Option.map_eq_none_iff.2 hnone)))
  · exact issues_of_slot (fun hc => if_pos hc) (by simp [useAb, hok, hvd, r])
  · exact issues_of_slot (fun hc => if_pos hc) (by simp [useAb, hok, r])
  · exact issues_of_slot (fun hc => if_pos hc) (by simp [hok, hlo, hhi, r])
  · intro sw n value hh
    have hbad : (!(vrOk f ⟨true, false, true, 32, false, true⟩ anyTy && (cvtDest f.fn.toNat).isSome &&
        (decide (f.fn.toNat < 8) || decide (tyOf f = .i8)) && decide (f.h.toNat < if sw < dw then dw / sw else sw / dw))) = false := by
      rw [hok, hdest, ← Bool.decide_or, decide_eq_true hty, decide_eq_true hh]
      rfl
    have hgot : (cvtDest f.fn.toNat).getD (32, fun _ => 0) = (dw, conv) := by rw [hdest]; rfl
    obtain rfl : ((cvtDest f.fn.toNat).getD (32, fun _ => 0)).1 = dw := congrArg Prod.fst hgot
    obtain rfl : ((cvtDest f.fn.toNat).getD (32, fun _ => 0)).2 = conv := congrArg Prod.snd hgot
    refine issues_of_slot (fun hc => if_pos hc) ((iss_eq_clear hbad rfl).trans ?_)
    simp only [Bool.not_eq_true]
    rfl

/-! ## Functions, quantising and dequantising -/

/-- A bit of a word of which w bits from pos are replaced. -/
theorem getLsbD_putBits (x : NetWord) (pos w v : Nat) {j : Nat} (hj : j < 1024) :
    (putBits x pos w v).getLsbD j = if pos ≤ j ∧ j < pos + w then v.testBit (j - pos) else x.getLsbD j := by
  simp only [putBits, BitVec.getLsbD_or, BitVec.getLsbD_and, BitVec.getLsbD_not, BitVec.getLsbD_ofNat, Nat.testBit_mul_two_pow,
    Nat.testBit_two_pow_sub_one, Nat.testBit_mod_two_pow, hj, decide_true, Bool.true_and]
  by_cases hlo : pos ≤ j
  · by_cases hhi : j < pos + w
    · simp [hlo, hhi, show j - pos < w by omega]
    · simp [hlo, hhi, show ¬ j - pos < w by omega]
  · simp [hlo]

/-- Four-bit codes put one after another from bit base on. -/
def putCodes (x : NetWord) (base : Nat) (g : Nat → Nat) (codes : List Nat) : NetWord :=
  (codes.mapIdx fun e code => (e, code)).foldl (fun x ec => putBits x (base + 4 * ec.1) 4 (g ec.2)) x

theorem putCodes_concat (x : NetWord) (base : Nat) (g : Nat → Nat) (codes : List Nat) (code : Nat) :
    putCodes x base g (codes ++ [code]) = putBits (putCodes x base g codes) (base + 4 * codes.length) 4 (g code) := by
  simp only [putCodes, List.mapIdx_concat, List.foldl_append, List.foldl_cons, List.foldl_nil]

/-- Bit j of codes put one after another: a bit of its code, or of the word before. -/
theorem getLsbD_putCodes (x : NetWord) (base : Nat) (g : Nat → Nat) (codes : List Nat) {j : Nat} (hj : j < 1024) :
    (putCodes x base g codes).getLsbD j =
      if base ≤ j ∧ j < base + 4 * codes.length then (g (codes.getD ((j - base) / 4) 0)).testBit ((j - base) % 4) else x.getLsbD j := by
  induction codes using List.reverseRecOn with
  | nil => simp [putCodes]
  | append_singleton codes code ih =>
    rw [putCodes_concat, getLsbD_putBits _ _ _ _ hj, ih, List.length_append, List.length_singleton]
    by_cases hold : base ≤ j ∧ j < base + 4 * codes.length
    · rw [if_neg (by omega), if_pos hold, if_pos (by omega), List.getD_append _ _ _ _ (by omega)]
    · by_cases hnew : base + 4 * codes.length ≤ j ∧ j < base + 4 * codes.length + 4
      · have hdiv : (j - base) / 4 = codes.length := by omega
        have hmod : (j - base) % 4 = j - (base + 4 * codes.length) := by omega
        rw [if_pos hnew, if_pos (by omega), hdiv, hmod, List.getD_append_right _ _ _ _ le_rfl]
        simp
      · rw [if_neg hnew, if_neg hold, if_neg (by omega)]

/-- The bits where sixteen codes stand. -/
theorem putCodes_ones {base : Nat} {codes : List Nat} (hlen : codes.length = 16) :
    putCodes 0 base (fun _ => 255) codes = BitVec.ofNat 1024 ((2 ^ 64 - 1) * 2 ^ base) := by
  refine BitVec.eq_of_getLsbD_eq fun j hj => ?_
  rw [getLsbD_putCodes _ _ _ _ hj, hlen, BitVec.getLsbD_ofNat, Nat.testBit_mul_two_pow, Nat.testBit_two_pow_sub_one, decide_eq_true hj,
    Bool.true_and]
  have hones : Nat.testBit 255 ((j - base) % 4) = true := by
    rw [show (255 : Nat) = 2 ^ 8 - 1 from rfl, Nat.testBit_two_pow_sub_one]
    exact decide_eq_true (by omega)
  rw [hones]
  by_cases h : base ≤ j ∧ j < base + 4 * 16
  · simp [h, show j - base < 64 by omega]
  · rw [if_neg h]
    by_cases hlo : base ≤ j
    · simp [hlo, show ¬ j - base < 64 by omega]
    · simp [hlo]

/-- A code is read back from its place. -/
theorem extract_putCodes {base e code : Nat} {codes : List Nat} (h : codes[e]? = some code) (hfits : base + 4 * codes.length ≤ 1024) :
    (putCodes 0 base id codes).extractLsb' (base + 4 * e) 4 = BitVec.ofNat 4 code := by
  have he : e < codes.length := (List.getElem?_eq_some_iff.1 h).1
  refine BitVec.eq_of_getLsbD_eq fun k hk => ?_
  have hdiv : (base + 4 * e + k - base) / 4 = e := by omega
  have hmod : (base + 4 * e + k - base) % 4 = k := by omega
  rw [BitVec.getLsbD_extractLsb', getLsbD_putCodes _ _ _ _ (by omega), if_pos (by omega), hdiv, hmod, List.getD_eq_getElem?_getD, h,
    BitVec.getLsbD_ofNat]
  rfl

/-- A byte is read back from its place, and the ones where it stands. -/
theorem extract_putBits {pos v : Nat} (hfits : pos + 8 ≤ 1024) : (putBits 0 pos 8 v).extractLsb' pos 8 = BitVec.ofNat 8 v := by
  refine BitVec.eq_of_getLsbD_eq fun k hk => ?_
  rw [BitVec.getLsbD_extractLsb', getLsbD_putBits _ _ _ _ (by omega), if_pos (by omega), Nat.add_sub_cancel_left, BitVec.getLsbD_ofNat]

theorem putBits_ones (pos : Nat) : putBits 0 pos 8 255 = BitVec.ofNat 1024 (255 * 2 ^ pos) := by
  simp [putBits]

/-- A 4-bit word with L = 1 is one block, of sixteen codes. -/
theorem vqntBlocks_of_l (s : State) (c : Nat) {f : FmtVQ} (hl : f.l = 1) :
    ∃ b, vqntBlocks s c f = [b] ∧ b.1 = 16 * f.bpos.toNat + f.idx.toNat ∧ b.2.1.1.length = 16 := by
  simp [vqntBlocks, vqBlocks, hl, quantBlock]

theorem is4_of_l {f : FmtVQ} (hl : f.l = 1) (hok : vqOk f = true) : (vqTarget f).is4 = true := by
  unfold vqOk at hok
  unfold vqTarget
  cases hq : qFmt f.tf.toNat with
  | none => simp [hq] at hok
  | some q => simp_all

theorem vqntCodes_of_l {f : FmtVQ} (hl : f.l = 1) (hok : vqOk f = true) (b : Nat × (List Nat × Nat × Bool) × Nat) (g : Nat → Nat) :
    vqntCodes f [b] g = putCodes 0 (64 * f.idx.toNat) g b.2.1.1 := by
  simp [vqntCodes, putCodes, vqBit, QFmt.width, is4_of_l hl hok]

/-- Settles O9: the function pipeline lands its lanes; codes and scales of a block stand in their places, bit by bit. -/
theorem functionAndQuantiseResults : Obligations.FunctionAndQuantiseResults := by
  intro s c r
  refine ⟨fun f => ?_, fun f hok => ⟨fun hne hdraw => ?_, fun hsr hstep hidx => ?_⟩⟩
  · intro t g lands two
    refine ⟨fun hok => ?_, fun hok => ?_, fun hok => ?_, fun hfn hok => ?_, fun hfn hok => ?_⟩
    · exact issues_of_slot (fun hc => if_pos hc) (iss_eq_clear (by rw [hok]; rfl) rfl)
    · exact issues_of_slot (fun hc => if_pos hc) (iss_eq_clear (by rw [hok]; rfl) rfl)
    · exact issues_of_slot (fun hc => if_pos hc) (iss_eq_clear (by rw [hok]; rfl) rfl)
    · exact issues_of_slot (fun hc => if_pos hc) ((iss_eq_clear (by rw [hok]; rfl) rfl).trans (by rw [hfn]; rfl))
    · exact issues_of_slot (fun hc => if_pos hc) ((iss_eq_clear (by rw [hok]; rfl) rfl).trans (by rw [if_pos hfn]; rfl))
  · intro blocks lands
    have hbad : (!(vqOk f && decide (f.vd ≠ f.vs) && (decide (f.sr = 1) || (decide (f.sstep = 0) && decide (f.sidx = 0))))) = false := by
      rw [hok, decide_eq_true hne, ← Bool.decide_and, ← Bool.decide_or, decide_eq_true hdraw]
      rfl
    have hlands : lands (vqntCodes f blocks id) (vqntCodes f blocks fun _ => 255) (vqntScales blocks id) (vqntScales blocks fun _ => 255) :=
      issues_of_slot (fun hc => if_pos hc) (iss_eq_clear hbad rfl)
    refine ⟨hlands, fun hl => ?_⟩
    obtain ⟨b, hb, hplace, hlen⟩ := vqntBlocks_of_l s c hl
    have hblocks : blocks = [b] := hb
    have hscales (g : Nat → Nat) : vqntScales [b] g = putBits 0 (8 * (16 * f.bpos.toNat + f.idx.toNat)) 8 (g b.2.1.2.1) := by
      rw [← hplace]
      rfl
    rw [hblocks, vqntCodes_of_l hl hok, vqntCodes_of_l hl hok, hscales, hscales, putCodes_ones hlen, putBits_ones] at hlands
    refine ⟨_, _, hlands, fun b' hb' => ?_⟩
    obtain rfl : b = b' := List.singleton_injective (hblocks.symm.trans hb')
    have hidx : f.idx.toNat < 16 := f.idx.isLt
    have hbpos : f.bpos.toNat < 8 := f.bpos.isLt
    exact ⟨fun e x he => extract_putCodes he (by omega), extract_putBits (by omega)⟩
  · exact issues_of_slot (fun hc => if_pos hc) (iss_eq_clear (by simp [hok, hsr, hstep, hidx]) rfl)

end Sys2Proof.Proofs.VectorSlot

/-! PROOFS. The correction lane and TSKIP (R172–R174, R177), and slots that act as NOP (R119, R120, R122). -/

namespace Sys2Proof.Proofs.CorrectionLane

open Sys2Proof Sys2Proof.Machine Sys2Proof.Claims Sys2Proof.Proofs.IssueRules

/-! ## The correction lane -/

theorem mapIdx_map_range {α β : Type} (n : Nat) (f : Nat → α) (g : Nat → α → β) :
    ((List.range n).map f).mapIdx g = (List.range n).map fun l => g l (f l) :=
  List.ext_getElem (by simp) (by simp)

section

variable {s : State} {c : Nat} (hfree : laneBusy s c = false)
include hfree

theorem laneBusyOr_of_free (x : Option (Nat × Nat)) : laneBusyOr s c x = x := by
  rw [laneBusyOr, hfree]
  rfl

/-- A stream inside the scratchpad leaves CDOT and CUP nothing to fault for. -/
theorem laneBusyOr_of_stream {w : Word} {last : Nat} (h : streamOk w last = true) :
    laneBusyOr s c (if streamOk w last then none else some (evAddrRange, 0)) = none :=
  (laneBusyOr_of_free hfree _).trans (if_pos h)

end

/-- Settles O10: with the lane free, each of its words issues with its results in flight. -/
theorem correctionLaneResults : Obligations.CorrectionLaneResults := by
  intro s c hfree r
  have hnone := laneBusyOr_of_free hfree none
  refine ⟨fun f hrsv => ?_, fun f hrsv => ?_, fun f hrsv => ?_, fun f hrsv => ?_, fun f hrsv => ?_, fun hready => ?_⟩
  · intro len nregs xs hfits hin
    exact issues_of_slot (fun hc => if_pos hc) (iss_eq_clear (by rw [decide_eq_true hrsv, decide_eq_true hfits]; rfl) (laneBusyOr_of_stream hfree hin))
  · intro rank per xs hfits hin
    exact issues_of_slot (fun hc => if_pos hc) (iss_eq_clear (by rw [decide_eq_true hrsv]; simp; exact hfits) (laneBusyOr_of_stream hfree hin))
  · intro out
    exact issues_of_slot (fun hc => if_pos hc) ((iss_eq_clear (by simp [hrsv]) hnone).trans (by
      rw [mapIdx_map_range, List.countP_map]; rfl))
  · intro x out
    exact issues_of_slot (fun hc => if_pos hc) ((iss_eq_clear (by simp [hrsv]) hnone).trans (by
      rw [List.map_map, List.countP_map]; rfl))
  · intro x
    refine ⟨fun hdir => ?_, fun hdir => ?_⟩
    · exact issues_of_slot (fun hc => if_pos hc) ((if_pos hdir).trans (iss_eq_clear (by simp [hrsv]) hnone))
    · exact issues_of_slot (fun hc => if_pos hc) ((if_neg (by rw [hdir]; decide)).trans (iss_eq_clear (by simp [hrsv]) hnone))
  · exact (if_pos hready.present).trans (congrArg _ (issueThen_of_ready hready))

/-! ## Slots that act as NOP -/

section

variable {s : State} {c : Nat} {sl : Slot} {x : Iss} {k : State → State} (hissues : canIssue s c (coreOf s c) = true) (hok : x.bad = false)
include hissues hok

/-- A slot that reads a register that awaits a result acts as NOP with EV_HAZARD (R122). -/
theorem issueThen_hazard (halone : clashes (coreOf s c) (x.writes.map (·.1)) = [])
    (hawaits : x.reads.any (awaits (coreOf s c) s.clk.cyc) = true) :
    issueThen s c sl x k = recordFault (issued s c sl x.writes [] []) c evHazard (coreOf s c).seq.pc s.clk.cyc 0 false := by
  simp [issueThen, hissues, hok, halone, hawaits, bundleFault, issued]

/-- A slot that names a destination of another slot of its bundle acts as NOP, and so does the other (R120). -/
theorem issueThen_clash (hclash : clashes (coreOf s c) (x.writes.map (·.1)) ≠ []) :
    issueThen s c sl x k = recordFault (setCore s c { cancelSlots (coreOf s c) s.clk.cyc (clashes (coreOf s c) (x.writes.map (·.1))) with
      bundle := (coreOf s c).bundle ++ [(sl, x.writes.map (·.1))] }) c evIllegalBundle (coreOf s c).seq.pc s.clk.cyc 0 false := by
  simp [issueThen, hissues, hok, hclash, bundleFault, cancelSlots]

end

/-- An ADD whose reserved bits are zero asks for its result. -/
theorem exec_add {s : State} {c : Nat} {f : FmtA} (hc : c < nCores) (honward : Onward s c) : exec (.add c f) s =
    .next (issueThen s c .ctl (issS (true && decide (f.rsv = 0)) [f.ra.toNat, f.rb.toNat] f.rd.toNat 1
      (rdS (coreOf s c).regs f.ra.toNat + rdS (coreOf s c).regs f.rb.toNat)) id) :=
  (if_pos hc).trans (congrArg _ (issueCtl_of_onward honward _ _))

/-- A scalar word with reserved bits set is not accepted. -/
theorem scalarOp_refused {s : State} {c : Nat} {f : FmtA} {ok : Bool} {op : Word → Word → Word} {n : Nat}
    (hissues : canIssue s c (coreOf s c) = true) (honward : Onward s c) (hrsv : f.rsv ≠ 0) :
    scalarOp c f n ok op s = recordFault (setCore s c { coreOf s c with bundle := (coreOf s c).bundle ++ [(.ctl, [])] }) c evIllegalBundle
      (coreOf s c).seq.pc s.clk.cyc 0 false :=
  (issueCtl_of_onward honward _ _).trans (issueThen_refused hissues (by simpa [issS] using Or.inr hrsv))

/-- Settles O11: each clause is one way in which a slot acts as NOP. -/
theorem refusedSlotsActAsNop : Obligations.RefusedSlotsActAsNop := by
  intro s c hc hissues co faults
  refine ⟨fun sl rsv hrsv honward => ?_, fun f hrsv honward halone hawaits => ?_, fun f hrsv honward hclash => ?_, fun f hrsv honward i hi => ?_⟩
  · have hbad : (issCheck (decide (rsv = 0)) issNone).bad = true := by simpa [issCheck] using Or.inr hrsv
    refine (if_pos hc).trans (congrArg _ ?_)
    by_cases hsl : sl = .ctl
    · exact (if_pos hsl).trans ((issueCtl_of_onward (honward hsl) _ _).trans (hsl ▸ issueThen_refused hissues hbad))
    · exact (if_neg hsl).trans (issueThen_refused hissues hbad)
  · exact (exec_add hc honward).trans (congrArg _ (issueThen_hazard hissues (by simp [issS, hrsv]) halone (by simpa [issS] using hawaits)))
  · exact (exec_add hc honward).trans (congrArg _ (issueThen_clash hissues (by simp [issS, hrsv]) hclash))
  · simp only [List.mem_cons, List.not_mem_nil, or_false] at hi
    rcases hi with rfl | rfl | rfl | rfl | rfl | rfl | rfl | rfl
    all_goals exact (if_pos hc).trans (congrArg _ (scalarOp_refused hissues honward hrsv))

end Sys2Proof.Proofs.CorrectionLane

/-! PROOFS. The parts of a core's cycle: landings, the router, ingress, held entries and egress (R98, R121, R194, R206, R207). -/

namespace Sys2Proof.Proofs.CycleParts

open Sys2Proof Sys2Proof.Machine Sys2Proof.Claims Sys2Proof.Proofs.BelfryComplete

section

variable {s : State} {c : Nat}

/-! ## Parts that a cycle has had, or has -/

theorem not_gated_of_clocked (h : clocked s = true) : s.clk.gated = false := by
  simp only [clocked, Bool.and_eq_true, Bool.not_eq_true'] at h
  exact h.2

theorem cyc_lt_of_clocked (h : clocked s = true) : s.clk.cyc < schedCycles s := by
  simp only [clocked, Bool.and_eq_true, decide_eq_true_eq] at h
  exact h.1

/-- A part that the cycle has had is not repeated. -/
theorem oncePerCycle_done {x : CycStep} {f : State → State} (h : (coreOf s c).steps.contains x = true) : oncePerCycle s c x f = s := by
  simp only [oncePerCycle, h, Bool.or_true, if_true]

/-- A part of a running clock's cycle that it has not had. -/
theorem oncePerCycle_due {x : CycStep} {f : State → State} (hgate : s.clk.gated = false) (h : (coreOf s c).steps.contains x = false) :
    oncePerCycle s c x f = modCore (f s) c fun co => { co with steps := x :: co.steps } := by
  simp only [oncePerCycle, h, hgate, Bool.or_self, Bool.false_eq_true, if_false]

/-! ## Landings -/

/-- The units that are still at work after cycle t. -/
def unitsKept (co : Core) (t : Nat) : List UnitOp := co.ops.filter fun o => decide (t < o.issue + o.lat - 1 ∨ t < o.issue + lastAccess o)

/-- A result that writes a register file and is alone and due lands. -/
theorem landCore_single {p : Pend} {r : RegFiles} (hpend : (coreOf s c).pend = [p]) (hdue : p.due ≤ s.clk.cyc) (hrank : effRank p.eff = 3)
    (hland : landEff s c p = setCore s c { coreOf s c with regs := r }) :
    landCore s c = setCore s c { coreOf s c with regs := r, pend := [], ops := unitsKept (coreOf s c) s.clk.cyc } := by
  have hlate : ¬ s.clk.cyc < p.due := Nat.not_lt.2 hdue
  simp [landCore, hpend, hdue, hlate, hrank, hland, List.range_succ, modCore_setCore, unitsKept]

/-- A result that is not due stays in flight. -/
theorem landCore_early {p : Pend} (hpend : (coreOf s c).pend = [p]) (hdue : s.clk.cyc < p.due) :
    landCore s c = setCore s c { coreOf s c with ops := unitsKept (coreOf s c) s.clk.cyc } := by
  have hearly : ¬ p.due ≤ s.clk.cyc := Nat.not_le.2 hdue
  simp only [landCore, hpend, unitsKept, List.filter_cons, hdue, hearly, decide_true, decide_false, if_true, List.filter_nil,
    Bool.false_eq_true, if_false, List.foldl_nil, List.foldl_fixed, modCore]

theorem exec_resultLanding (hc : c < nCores) (hclk : clocked s = true) (hports : (coreOf s c).steps.contains .ports = true) :
    exec (.resultLanding c) s = .next (landCore s c) := by
  have hdone : doPorts s c = s := oncePerCycle_done hports
  exact (if_pos hc).trans (congrArg _ ((if_pos hclk).trans (by rw [hdone])))

/-! ## The router -/

/-- Rim sources with nothing held back, nothing to repeat and no stream do nothing. -/
theorem rimSources_quiet (hheld : s.net.rimHeld = []) (hrep : s.net.rimRepeat = []) (hstr : s.net.streams = []) : rimSources s c [] = s := by
  have hport (p : Nat) : streamPort c s p = s := by simp [streamPort, hstr]
  have hstate : { s with net := { s.net with rimHeld := [], rimRepeat := [] } } = s := 
    congrArg₂ (fun a b => { s with net := { s.net with rimHeld := a, rimRepeat := b } }) hheld.symm hrep.symm
  simp [rimSources, rimDue, rimNext, hheld, hrep, List.range_succ, hport, hstate]

/-- Lanes that came as they were sent leave the words as they are. -/
theorem checkPort_none (c : Nat) (x : State × List InWord) (p : Nat) : checkPort c [] x p = x := by simp [checkPort]

theorem routeScan_congr {t : State} (hroutes : (coreOf t c).routes = (coreOf s c).routes) (hstore : t.store = s.store) (n e u : Nat) :
    routeScan t c n e u = routeScan s c n e u := by
  induction n generalizing e u with
  | zero => rfl
  | succ n ih =>
    simp only [routeScan, storeEntry, hroutes, hstore, ih]
    rfl

/-- A router's program is that of its store and registers. -/
theorem routeEntry_setCore {co : Core} (h : co.routes = (coreOf s c).routes) (u : Nat) : routeEntry (setCore s c co) c u = routeEntry s c u := by
  have hscan := routeScan_congr (s := s) (c := c) (t := setCore s c co) (by rw [coreOf_setCore, h]) rfl
  simp only [routeEntry, rd_setCore, hscan]

/-- A router whose only word of the cycle is on time forwards it, and no ingress slot is left empty. -/
theorem routerCycle_single {w : InWord} (hheld : s.net.rimHeld = []) (hrep : s.net.rimRepeat = []) (hstr : s.net.streams = [])
    (hwords : (coreOf s c).inWords = [w]) (hcyc : w.cycle = s.clk.cyc) (hlate : w.late = false)
    (hslot : entryIng (routeEntry s c s.clk.cyc) = false ∨ selOf (routeEntry s c s.clk.cyc) 4 = 0) :
    routerCycle s c ⟨[], [], []⟩ =
      forwardWord (setCore s c { coreOf s c with inWords := [] }) c (routeEntry s c s.clk.cyc) [] w := by
  have hroute (u : Nat) := routeEntry_setCore (s := s) (c := c) (co := { coreOf s c with inWords := [] }) rfl u
  have hcheck (x : State × List InWord) : (List.range 4).foldl (checkPort c []) x = x := List.foldl_fixed' (fun p => checkPort_none c x p) _
  rcases hslot with hslot | hslot <;> simp [routerCycle, rimSources_quiet hheld hrep hstr, hcheck, hwords, hcyc, hlate, hroute, hslot, modCore]

/-- The routers of a tile without control traffic: the word's forwarding, noted as the cycle's router part. -/
theorem exec_routerForward (hc : c < nCores) (hclk : clocked s = true) (hegr : (coreOf s c).steps.contains .egress = true)
    (hrouter : (coreOf s c).steps.contains .router = false) {t : State}
    (hcycle : routerCycle s c ⟨[], [], []⟩ = t) (hquiet : ctlAt t c = blankCtl) :
    exec (.routerForward c ⟨[], [], []⟩) s = .next (modCore t c fun co => { co with steps := .router :: co.steps }) := by
  have honce : routerOnce s c ⟨[], [], []⟩ = modCore t c fun co => { co with steps := .router :: co.steps } := by
    rw [routerOnce, egressOnce, oncePerCycle_done hegr, oncePerCycle_due (not_gated_of_clocked hclk) hrouter,
      if_pos (cyc_lt_of_clocked hclk), hcycle]
  refine (if_pos hc).trans (congrArg _ ((congrArg (ctlOnce · c []) honce).trans ?_))
  exact if_pos (.inr (.inr hquiet))

/-- The core behind a port is another core. -/
theorem neighbour_ne {p d : Nat} (h : neighbour c p = some d) : d ≠ c := by
  have hcase {b : Prop} [Decidable b] {n : Nat} (h : (if b then none else some n) = some d) : ¬ b ∧ n = d := by simpa using h
  unfold neighbour at h
  split at h
  case h_5 => cases h
  all_goals
    have := hcase h
    unfold coreAt coreX coreY at this
    omega

/-- A word on time leaves through a port that no bypass and no dead link serves: it reaches the neighbour after the hop's cost. -/
theorem forwardHop_onTime {p d region : Nat} {w : NetWord} (hn : neighbour c p = some d) (hbypass : isBypass s c d = false)
    (hlink : linkOf s c p ∉ s.net.deadLinks) : forwardHop s c p false region w =
      modCore s d fun co => { co with inWords := co.inWords ++ [⟨backPort p, s.clk.cyc + hopCost c d, false, region, w⟩] } := by
  have hcost : fieldOf c = fieldOf d → hopCost c d = 1 := fun h => if_pos h
  simp only [forwardHop, hn]
  rw [if_neg (by simpa using hlink), hbypass]
  by_cases hf : fieldOf c = fieldOf d
  · simp [hf, hcost hf]
  · simp [hf, bit]

/-- A word on time that one output selects. -/
theorem forwardWord_one {entry : Word} {w : InWord} {o : Nat} (houts : outputsFor entry w.port = [o]) : forwardWord s c entry [] w =
    if o = 4 then deliverL s c entry w.late w.word else forwardHop s c o w.late w.region w.word := by
  simp [forwardWord, houts]

/-- A word on time is delivered to the transfer slot a cycle later. -/
theorem deliverL_slot {entry : Word} {w : NetWord} (hing : entryIng entry = false) : deliverL s c entry false w =
    modCore s c fun co => { co with deliv := co.deliv ++ [(s.clk.cyc + 1, w)] } := by
  simp [deliverL, hing, bit]

/-! ## Ingress, held entries and egress -/

/-- A row written through P7 where nothing has its bank. -/
theorem p7Write_free {row : Nat} {d : RowData} (hfree : bankBusy (coreOf s c) s.clk.cyc (bankOf row) = false) (hheld : (coreOf s c).held = [])
    (hbank : bankOf row ∉ (coreOf s c).egrBanks) : p7Write s c row d = setCore s c (putRow (coreOf s c) row d) := by
  simp [p7Write, hfree, hheld, hbank]

/-- The lower row of an ingress word is written through its free bank. -/
theorem ingressCycle_low {w : P7Word} (hp7 : (coreOf s c).p7 = [w]) (hlow : w.lowDone = false) (hfirst : w.first ≤ s.clk.cyc)
    (hheld : (coreOf s c).held = []) (hbank : bankOf w.row ∉ (coreOf s c).egrBanks) (hfree : bankBusy (coreOf s c) s.clk.cyc (bankOf w.row) = false) :
    ingressCycle s c = setCore s c { putRow (coreOf s c) w.row (w.word.setWidth 512) with p7 := [{ w with lowDone := true, first := s.clk.cyc }] } := by
  have hwrite : ingressCycle s c =
      p7Write (setCore s c { coreOf s c with p7 := [{ w with lowDone := true, first := s.clk.cyc }] }) c w.row (w.word.setWidth 512) := by
    simp [ingressCycle, ingressWord, hp7, hlow, hfirst, modCore]
  rw [hwrite, p7Write_free (by rw [coreOf_setCore]; exact hfree) (by rw [coreOf_setCore]; exact hheld) (by rw [coreOf_setCore]; exact hbank),
    setCore_setCore, coreOf_setCore]
  rfl

/-- A held entry whose bank is free lands. -/
theorem landHeld_single {h : Held} (hclk : clocked s = true) (hheld : (coreOf s c).held = [h]) (hlanded : h.landed = false) (hcyc : h.cyc < s.clk.cyc)
    (hfree : bankBusy (coreOf s c) s.clk.cyc (bankOf h.row) = false) :
    landHeld s c = setCore s c { putRow (coreOf s c) h.row h.data with held := [{ h with landed := true }] } := by
  simp [landHeld, cyc_lt_of_clocked hclk, landHeldList, hheld, hlanded, hcyc, hfree, putRow]

theorem wr_setCore (s : State) (c : Nat) (co : Core) (f : Field) (i v : Nat) : wr (setCore s c co) f i v = setCore (wr s f i v) c co := rfl

/-- The ring's position is none of what a core's status shows. -/
theorem rd_status_wr_pos (s : State) (c v : Nat) : rd (wr s F.NET_RING_POS_EGR c v) F.CORE_STATUS_REGION c = rd s F.CORE_STATUS_REGION c :=
  rd_wr_clear s c c v (by decide)

/-- An egress word whose halves are read enters the router, and the ring moves on. -/
theorem egressCycle_single {row : Nat} {lo hi : RowData} (hpos : 0 < s.clk.cyc) (hslot : egressAt s c (s.clk.cyc + 4) = false)
    (hlen : rd s F.NET_EGR_RING_LEN c ≠ 0) (hegr : (coreOf s c).egress = [⟨s.clk.cyc, row, some lo, some hi⟩]) :
    egressCycle s c = setCore (wr s F.NET_RING_POS_EGR c ((rd s F.NET_RING_POS_EGR c + 2) % rd s F.NET_EGR_RING_LEN c)) c { coreOf s c with
      egress := [], inWords := (coreOf s c).inWords ++
        [⟨5, s.clk.cyc, false, rd s F.CORE_STATUS_REGION c, BitVec.ofNat 1024 (lo.toNat + hi.toNat * 2 ^ 512)⟩] } := by
  have hstep : egressCycle s c = egressStep c (setCore s c { coreOf s c with egress := [] }) ⟨s.clk.cyc, row, some lo, some hi⟩ := by
    simp [egressCycle, hegr, hslot, hlen, Nat.ne_of_gt hpos]
  rw [hstep, egressStep]
  simp only [rd_setCore, hlen, setCore_clk, if_true, if_false, wr_setCore, modCore_setCore, rd_status_wr_pos]

end

/-- Settles O12: each part of the cycle, once and with nothing else in its way. -/
theorem cyclePartsAct : Obligations.CyclePartsAct := by
  intro s c hc hclk co t kept lands
  have hgate := not_gated_of_clocked hclk
  refine ⟨fun hports => ?_, fun p r w hegr hrouter hwords hquiet => ?_, fun w hing hp7 hlow hfirst hheld hbank hfree => ?_,
    fun h hdone hlast hheld hlanded hcyc hfree => ?_, fun row lo hi hdone hpos hslot hlen hegr => ?_⟩
  · have hlands {e : Eff} {r : RegFiles} (hrank : effRank e = 3)
        (hland : ∀ sl i pc d, landEff s c ⟨sl, i, pc, d, e⟩ = setCore s c { coreOf s c with regs := r }) : lands e r := fun sl i pc d hd hpend =>
      (exec_resultLanding hc hclk hports).trans (congrArg _ (landCore_single hpend hd hrank (hland sl i pc d)))
    exact ⟨fun n x => hlands rfl fun _ _ _ _ => rfl, fun n x => hlands rfl fun _ _ _ _ => rfl, fun n x => hlands rfl fun _ _ _ _ => rfl,
      fun n x => hlands rfl fun _ _ _ _ => rfl, fun n x => hlands rfl fun _ _ _ _ => rfl,
      fun p hp hpend => (exec_resultLanding hc hclk hports).trans (congrArg _ (landCore_early hpend hp))⟩
  · obtain ⟨hrimHeld, hrep, hstr, hctl⟩ := hquiet
    intro here
    have hcycle (hslot) := routerCycle_single (c := c) hrimHeld hrep hstr hwords rfl rfl hslot
    refine ⟨fun houts hing => ?_, fun o d ho houts hslot hn hbypass hlink => ?_⟩
    · rw [exec_routerForward hc hclk hegr hrouter (hcycle (.inl hing)) (by rw [forwardWord_one houts, if_pos rfl, deliverL_slot hing]; exact hctl),
        forwardWord_one houts, if_pos rfl, deliverL_slot hing]
      simp [modCore, here, co]
      rfl
    · have hne := neighbour_ne hn
      have hforward := (forwardWord_one (s := setCore s c { co with inWords := [] }) (w := ⟨p, t, false, r, w⟩) houts).trans
        ((if_neg (Nat.ne_of_lt ho)).trans (forwardHop_onTime hn hbypass hlink))
      refine ⟨_, exec_routerForward hc hclk hegr hrouter ((hcycle hslot).trans hforward) hctl, ?_, ?_⟩
      · rw [coreOf_modCore, modCore, coreOf_setCore_other _ _ hne.symm, coreOf_setCore]
      · rw [modCore, coreOf_setCore_other _ _ hne, coreOf_modCore, coreOf_setCore_other _ _ hne]
        rfl
  · have h : ingressOnce s c = setCore s c { putRow co w.row (w.word.setWidth 512) with
        p7 := [{ w with lowDone := true, first := t }], steps := .ingress :: co.steps } := by
      rw [ingressOnce, oncePerCycle_due hgate hing, if_pos (cyc_lt_of_clocked hclk), ingressCycle_low hp7 hlow hfirst hheld hbank hfree, modCore_setCore]
      rfl
    exact (if_pos hc).trans (congrArg _ h)
  · have hland : oncePerCycle s c .held (landHeld · c) = setCore s c { putRow co h.row h.data with
        held := [{ h with landed := true }], steps := .held :: co.steps } := by
      rw [oncePerCycle_due hgate hdone, landHeld_single hclk hheld hlanded hcyc hfree, modCore_setCore]
      rfl
    exact (if_pos hc).trans (congrArg _ ((congrArg (fun u => if u.clk.cyc = lastCycle u then dropHeld u c else u) hland).trans (if_neg hlast)))
  · refine (if_pos hc).trans (congrArg _ ((oncePerCycle_due hgate hdone).trans ?_))
    rw [if_pos (cyc_lt_of_clocked hclk), egressCycle_single hpos hslot hlen hegr, modCore_setCore]

end Sys2Proof.Proofs.CycleParts

/-! PROOFS. Every command answers, but for one that names a core outside the logical array (R33). -/

namespace Sys2Proof.Proofs.Totality

open Sys2Proof Sys2Proof.Machine Sys2Proof.Claims

/-- A meaning answers a next state. -/
def Answers (o : Host.Outcome State Fault Refusal) : Prop := ∃ t, o = .next t

theorem Answers.next (t : State) : Answers (.next t) := ⟨t, rfl⟩

theorem Answers.ite {p : Prop} [Decidable p] {a b : Host.Outcome State Fault Refusal} (ha : Answers a) (hb : Answers b) :
    Answers (if p then a else b) := by
  split
  · exact ha
  · exact hb

/-! ## Register accesses -/

section

variable (s : State) (a : Agent)

theorem answers_writeUnitCtl (r : Nat) (v : Word) : Answers (writeUnitCtl s a r v) := by
  unfold writeUnitCtl
  dsimp only
  split <;> exact .next _

theorem answers_writeCaskOp (v : Word) : Answers (writeCaskOp s a v) := by
  unfold writeCaskOp
  split <;> exact .next _

theorem answers_writeRack (v : Word) : Answers (writeRack s a v) := by
  unfold writeRack
  split <;> exact .next _

theorem answers_writeRestart (v : Word) : Answers (writeRestart s a v) := by
  unfold writeRestart
  split <;> exact .next _

/-- A write of a register of the tables answers, whichever register's own command it is. -/
theorem answers_writeReg (g : Reg) (i : Nat) (v : Word) : Answers (writeReg s a g i v) :=
  .ite (.next _) <| .ite (.next _) <| .ite (answers_writeUnitCtl ..) <| .ite (.next _) <| .ite (.ite (.next _) (.next _)) <|
    .ite (answers_writeCaskOp ..) <| .ite (answers_writeRack ..) <| .ite (.ite (.next _) (.next _)) <| .ite (answers_writeRestart ..) <|
    .ite (.ite (.next _) (.next _)) <| .ite (.ite (.next _) (.next _)) <| .ite (.next _) <| .ite (.next _) <| .ite (.next _) (.next _)

theorem answers_writePlace (key : Nat) (v : Word) : Answers (writePlace s a key v) := by
  refine .ite (.ite (.next _) (.next _)) <| .ite (.next _) ?_
  split
  · exact .next _
  · exact .ite (.next _) <| .ite (.next _) <| .ite (.next _) (.next _)

theorem answers_readPlace (key : Nat) : Answers (readPlace s a key) := by
  refine .ite (.next _) <| .ite (.next _) <| .ite (.next _) ?_
  split <;> exact .next _

theorem answers_registerWrite (addr width : Nat) (v : Word) : Answers (execRegisterWrite a addr width v s) := by
  unfold execRegisterWrite
  split
  · exact .next _
  · refine .ite (.next _) ?_
    split
    · exact answers_writeReg ..
    · exact answers_writePlace ..

theorem answers_readClear (addr width : Nat) : Answers (execReadClear a addr width s) := by
  unfold execReadClear
  split
  · exact .next _
  · refine .ite (.next _) ?_
    split
    · exact .ite (.next _) (.next _)
    · exact answers_readPlace ..

end

/-! ## All commands -/

/-- A command that names a core stops the machine exactly where that core does not exist. -/
theorem exec_of_named {i : Instr} {c : Nat} (s : State) (h : Laws.CoreNamed.coreOf i = some c) :
    (c < nCores → Answers (exec i s)) ∧ (¬ c < nCores → exec i s = .fault (.noSuchCore c)) := by
  cases i <;> simp only [Laws.CoreNamed.coreOf, Option.some.injEq, reduceCtorEq] at h
  all_goals
    subst h
    exact ⟨fun hc => ⟨_, if_pos hc⟩, fun hc => if_neg hc⟩

/-- A command that names no core answers a next state. -/
theorem answers_of_unnamed {i : Instr} (s : State) (h : Laws.CoreNamed.coreOf i = none) : Answers (exec i s) := by
  cases i <;> simp only [Laws.CoreNamed.coreOf, reduceCtorEq] at h
  case registerWrite => exact answers_registerWrite ..
  case readClear => exact answers_readClear ..
  all_goals exact ⟨_, rfl⟩

/-- A well-formed command names a core of the logical array. -/
theorem core_exists_of_wellFormed {i : Instr} {c : Nat} (hwf : wellFormed i = true) (h : Laws.CoreNamed.coreOf i = some c) : c < nCores := by
  by_contra hc
  have hbad : coreOk c = false := decide_eq_false hc
  cases i <;> simp only [Laws.CoreNamed.coreOf, Option.some.injEq, reduceCtorEq] at h
  all_goals
    subst h
    simp [wellFormed, hbad] at hwf

/-- Settles O57: only `onCore` stops the machine, and a command that names no core never meets it. -/
theorem onlyMissingCoresStop : Obligations.OnlyMissingCoresStop := by
  intro i s
  have after (h : Answers (exec i s)) : After (exec i s) fun _ => True := h.imp fun _ ht => ⟨ht, trivial⟩
  cases h : Laws.CoreNamed.coreOf i with
  | none => exact ⟨fun _ => after (answers_of_unnamed s h), .inl (answers_of_unnamed s h)⟩
  | some c =>
    obtain ⟨hpresent, hmissing⟩ := exec_of_named s h
    refine ⟨fun hwf => after (hpresent (core_exists_of_wellFormed hwf h)), ?_⟩
    by_cases hc : c < nCores
    · exact .inl (hpresent hc)
    · exact .inr ⟨c, Nat.le_of_not_lt hc, hmissing hc⟩

end Sys2Proof.Proofs.Totality

/-! PROOFS. The machine as a whole: one step, and the state after reset (R18). -/

namespace Sys2Proof.Proofs.Reset

open Sys2Proof Sys2Proof.Machine Sys2Proof.Claims Sys2Proof.Proofs.BelfryComplete

/-- Settles O53: the queue's two cases are those of `step`. -/
theorem stepRunsFrontCommand : Obligations.StepRunsFrontCommand := ⟨fun _ _ _ => rfl, fun _ => rfl⟩

/-- No register of the field's array has address k, but for the first where the array begins there. -/
abbrev MissesKey (f : Field) (k : Nat) : Prop :=
  k < f.base ∨ lastKey f < k ∨ k % f.stride ≠ f.base % f.stride ∨ (f.base = k ∧ 0 < f.stride)

/-- The addresses of tenant 0's limits and of the root's descriptor. -/
def presetKeys : List Nat := [0x10501000, 0x10501008, 0x10510000]

/-- Every field of the tables lies in all of its register's instances, and misses the registers with reset values of their own. -/
theorem allRegs_missPreset : ∀ g ∈ F.allRegs, ∀ f ∈ g.fields, g.count ≤ f.count ∧ ∀ k ∈ presetKeys, MissesKey f k := by
  decide +kernel

theorem fkey_ne_of_misses {f : Field} {i k : Nat} (hi : i < f.count) (hmiss : MissesKey f k) (hpos : f.base = k → 0 < i) :
    fkey f i ≠ k := by
  rcases hmiss with h | h | h | ⟨h, hstride⟩
  · exact (h.trans_le (base_le_fkey f i)).ne'
  · exact ((fkey_le_lastKey (Nat.zero_lt_of_lt hi) i).trans_lt h).ne
  · exact fun heq => h (heq ▸ fkey_mod_stride f i)
  · rw [fkey, Nat.mod_eq_of_lt hi, ← h]
    exact (Nat.lt_add_of_pos_right (Nat.mul_pos hstride (hpos h))).ne'

/-- After reset a register at an address without a value of its own holds its table's. -/
theorem regWord_reset {f : Field} {i : Nat} (h : ∀ k ∈ presetKeys, fkey f i ≠ k) : regWord State.reset f i = BitVec.ofNat 64 f.regRst := by
  have hdefault (t : Table Word) (ht : ∀ e ∈ t, e.1 ≠ fkey f i) (d : Word) : tget t (fkey f i) d = d := by
    induction t with
    | nil => rfl
    | cons e t ih => exact (if_neg (ht e List.mem_cons_self)).trans (ih fun e he => ht e (List.mem_cons_of_mem _ he))
  refine hdefault _ (fun e he => (h e.1 ?_).symm) _
  revert e
  decide

/-- Settles O54: the preset registers are the only ones that hold a word, and every field of the tables misses them. -/
theorem resetState : Obligations.ResetState := by
  refine ⟨fun g hg f hf i hi hpreset => ?_, rfl, rfl, rfl, rfl, rfl, rfl, rfl, rfl, rfl, rfl, fun c => ⟨rfl, rfl⟩⟩
  obtain ⟨hcount, hmiss⟩ := allRegs_missPreset g hg f hf
  refine congrArg (getF f) (regWord_reset fun k hk => fkey_ne_of_misses (hi.trans_le hcount) (hmiss k hk) fun hbase => hpreset ?_)
  simpa [presetKeys, hbase] using hk

end Sys2Proof.Proofs.Reset

/-! PROOFS. What the raise of a source or of an event leaves: every part of the state but the Belfry, the PCIe functions and the log, and every
register field that shares no bit with those it writes (R476–R481). -/

namespace Sys2Proof.Proofs.Raising

open Sys2Proof Sys2Proof.Machine Sys2Proof.Claims Sys2Proof.Proofs.BelfryComplete

/-! ## Register fields -/

/-- The field shares no bit with those that raising a source writes. -/
abbrev ClearOfSources (f : Field) : Prop :=
  Clear F.BELFRY_SRC_STATUS_PENDING f ∧ Clear F.BELFRY_SRC_STATUS_SAT f ∧ Clear F.BELFRY_SRC_STATUS_DUE f ∧ Clear F.BELFRY_CNT_SAT_LOST f ∧
    Clear F.BELFRY_CNT_MSI_DROP f

/-- Nor with the log's sequence number. -/
abbrev ClearOfEvents (f : Field) : Prop := Clear F.KEEP_EV_SEQ_SEQ f ∧ ClearOfSources f

section

variable {f : Field} (s : State) (i : Nat)

theorem rd_sendMsi (h : ClearOfSources f) (p v : Nat) : rd (sendMsi s p v).1 f i = rd s f i := by
  obtain ⟨-, -, -, -, hdrop⟩ := h
  unfold sendMsi
  dsimp only
  split
  · exact rd_wr_clear s 0 i _ hdrop
  · split <;> rfl

theorem rd_takePending (h : ClearOfSources f) (src : Nat) : rd (takePending s src) f i = rd s f i := by
  obtain ⟨hpending, -, hdue, -, -⟩ := h
  exact (rd_wr_clear _ src i _ hdue).trans (rd_wr_clear s src i _ hpending)

theorem rd_notifyHost (h : ClearOfSources f) (src t : Nat) : rd (notifyHost src s t) f i = rd s f i := by
  unfold notifyHost
  split
  · split
    · rfl
    · dsimp only
      split
      · exact (rd_takePending _ i h src).trans (rd_sendMsi s i h ..)
      · exact rd_sendMsi s i h ..
  · rfl

theorem rd_evalSource (h : ClearOfSources f) (src : Nat) : rd (evalSource s src) f i = rd s f i :=
  (rd_notifyHost _ i h src 9).trans ((rd_notifyHost _ i h src 8).trans (rd_wr_clear s src i _ h.2.2.1))

theorem rd_evalAll (h : ClearOfSources f) : rd (evalAll s) f i = rd s f i :=
  List.foldlRecOn (motive := fun t => rd t f i = rd s f i) _ evalSource rfl fun t ht src _ => (rd_evalSource t i h src).trans ht

theorem rd_addPending (h : ClearOfSources f) (src : Nat) : rd (addPending s src) f i = rd s f i := by
  obtain ⟨hpending, hsat, -, hlost, -⟩ := h
  have hcount (t : State) (v : Nat) : rd (wr t F.BELFRY_SRC_STATUS_PENDING src v) f i = rd t f i := rd_wr_clear t src i v hpending
  have hfull (t : State) (v : Nat) : rd (wr t F.BELFRY_SRC_STATUS_SAT src v) f i = rd t f i := rd_wr_clear t src i v hsat
  unfold addPending
  dsimp only
  split
  · exact (rd_wr_clear _ 0 i _ hlost).trans (hfull ..)
  · split <;> split
    · exact (hfull ..).trans (hcount ..)
    · exact (hfull ..).trans (hcount ..)
    · exact hcount ..
    · exact hcount ..

/-- Raising a source leaves every field clear of those it writes. -/
theorem rd_raiseSource (h : ClearOfSources f) (src : Nat) : rd (raiseSource s src) f i = rd s f i := by
  unfold raiseSource
  split
  · split <;> rfl
  · exact (rd_evalSource _ i h src).trans (rd_addPending s i h src)

/-- So does raising an event. -/
theorem rd_raiseEv (h : ClearOfEvents f) (k : EvKind) (code tenant region unit : Nat) (data : Word) :
    rd (raiseEv s k code tenant region unit data) f i = rd s f i := by
  unfold raiseEv
  dsimp only
  refine (rd_raiseSource _ i h.2 _).trans ?_
  split
  · split <;> exact rd_wr_clear _ 0 i _ h.1
  · exact rd_wr_clear _ 0 i _ h.1

theorem rd_raiseEngine (h : ClearOfEvents f) (k : EvKind) (code unit data : Nat) : rd (raiseEngine s k code unit data) f i = rd s f i :=
  rd_raiseEv s i h ..

theorem rd_raiseRegion (h : ClearOfEvents f) (k : EvKind) (code r unit data : Nat) : rd (raiseRegion s k code r unit data) f i = rd s f i :=
  rd_raiseEv s i h ..

end

/-! ## The log -/

/-- The event that was raised last is the newest record. -/
theorem logged_raiseEv {s t : State} (hhall : hallNs t = hallNs s) (hseq : rd t F.KEEP_EV_SEQ_SEQ 0 = rd s F.KEEP_EV_SEQ_SEQ 0) (k : EvKind)
    (code tenant region unit : Nat) (data : Word) : Logged s (raiseEv t k code tenant region unit data) k code tenant region unit data := by
  rw [Logged, raiseEv_events, hhall, hseq]
  rfl

/-! ## The rest of the state -/

section

variable (s : State) (src : Nat) (k : EvKind) (code tenant region unit : Nat) (data : Word)

@[simp] theorem raiseSource_shadow : (raiseSource s src).shadow = s.shadow := by obtain ⟨_, _, _, h⟩ := (BelfryOnly.raiseSource s src).same; rw [h]
@[simp] theorem raiseSource_captured : (raiseSource s src).captured = s.captured := by obtain ⟨_, _, _, h⟩ := (BelfryOnly.raiseSource s src).same; rw [h]
@[simp] theorem raiseSource_clk : (raiseSource s src).clk = s.clk := by obtain ⟨_, _, _, h⟩ := (BelfryOnly.raiseSource s src).same; rw [h]
@[simp] theorem raiseSource_cores : (raiseSource s src).cores = s.cores := by obtain ⟨_, _, _, h⟩ := (BelfryOnly.raiseSource s src).same; rw [h]
@[simp] theorem raiseSource_events : (raiseSource s src).events = s.events := by obtain ⟨_, _, _, h⟩ := (BelfryOnly.raiseSource s src).same; rw [h]
@[simp] theorem raiseSource_alarmFlash : (raiseSource s src).alarmFlash = s.alarmFlash := by obtain ⟨_, _, _, h⟩ := (BelfryOnly.raiseSource s src).same; rw [h]
@[simp] theorem raiseSource_alarmsDeferred : (raiseSource s src).alarmsDeferred = s.alarmsDeferred := by obtain ⟨_, _, _, h⟩ := (BelfryOnly.raiseSource s src).same; rw [h]
@[simp] theorem raiseSource_bifurcated : (raiseSource s src).bifurcated = s.bifurcated := by obtain ⟨_, _, _, h⟩ := (BelfryOnly.raiseSource s src).same; rw [h]
@[simp] theorem raiseSource_keep : (raiseSource s src).keep = s.keep := by obtain ⟨_, _, _, h⟩ := (BelfryOnly.raiseSource s src).same; rw [h]
@[simp] theorem raiseSource_ctlSent : (raiseSource s src).ctlSent = s.ctlSent := by obtain ⟨_, _, _, h⟩ := (BelfryOnly.raiseSource s src).same; rw [h]
@[simp] theorem raiseSource_net : (raiseSource s src).net = s.net := by obtain ⟨_, _, _, h⟩ := (BelfryOnly.raiseSource s src).same; rw [h]
@[simp] theorem raiseSource_units : (raiseSource s src).units = s.units := by obtain ⟨_, _, _, h⟩ := (BelfryOnly.raiseSource s src).same; rw [h]
@[simp] theorem raiseSource_store : (raiseSource s src).store = s.store := by obtain ⟨_, _, _, h⟩ := (BelfryOnly.raiseSource s src).same; rw [h]
@[simp] theorem raiseSource_strm : (raiseSource s src).strm = s.strm := by obtain ⟨_, _, _, h⟩ := (BelfryOnly.raiseSource s src).same; rw [h]
@[simp] theorem raiseSource_twin : (raiseSource s src).twin = s.twin := by obtain ⟨_, _, _, h⟩ := (BelfryOnly.raiseSource s src).same; rw [h]
@[simp] theorem raiseSource_fab : (raiseSource s src).fab = s.fab := by obtain ⟨_, _, _, h⟩ := (BelfryOnly.raiseSource s src).same; rw [h]
@[simp] theorem raiseSource_pwr : (raiseSource s src).pwr = s.pwr := by obtain ⟨_, _, _, h⟩ := (BelfryOnly.raiseSource s src).same; rw [h]
@[simp] theorem raiseSource_thm : (raiseSource s src).thm = s.thm := by obtain ⟨_, _, _, h⟩ := (BelfryOnly.raiseSource s src).same; rw [h]
@[simp] theorem raiseSource_freeCtr : (raiseSource s src).freeCtr = s.freeCtr := by obtain ⟨_, _, _, h⟩ := (BelfryOnly.raiseSource s src).same; rw [h]
@[simp] theorem raiseSource_pending : (raiseSource s src).pending = s.pending := by obtain ⟨_, _, _, h⟩ := (BelfryOnly.raiseSource s src).same; rw [h]

@[simp] theorem raiseEv_shadow : (raiseEv s k code tenant region unit data).shadow = s.shadow := by
  obtain ⟨_, _, _, _, _, _, h⟩ := (RaiseOnly.raiseEv s k code tenant region unit data).same; rw [h]
@[simp] theorem raiseEv_captured : (raiseEv s k code tenant region unit data).captured = s.captured := by
  obtain ⟨_, _, _, _, _, _, h⟩ := (RaiseOnly.raiseEv s k code tenant region unit data).same; rw [h]
@[simp] theorem raiseEv_clk : (raiseEv s k code tenant region unit data).clk = s.clk := by
  obtain ⟨_, _, _, _, _, _, h⟩ := (RaiseOnly.raiseEv s k code tenant region unit data).same; rw [h]
@[simp] theorem raiseEv_cores : (raiseEv s k code tenant region unit data).cores = s.cores := by
  obtain ⟨_, _, _, _, _, _, h⟩ := (RaiseOnly.raiseEv s k code tenant region unit data).same; rw [h]
@[simp] theorem raiseEv_bifurcated : (raiseEv s k code tenant region unit data).bifurcated = s.bifurcated := by
  obtain ⟨_, _, _, _, _, _, h⟩ := (RaiseOnly.raiseEv s k code tenant region unit data).same; rw [h]
@[simp] theorem raiseEv_keep : (raiseEv s k code tenant region unit data).keep = s.keep := by
  obtain ⟨_, _, _, _, _, _, h⟩ := (RaiseOnly.raiseEv s k code tenant region unit data).same; rw [h]
@[simp] theorem raiseEv_ctlSent : (raiseEv s k code tenant region unit data).ctlSent = s.ctlSent := by
  obtain ⟨_, _, _, _, _, _, h⟩ := (RaiseOnly.raiseEv s k code tenant region unit data).same; rw [h]
@[simp] theorem raiseEv_net : (raiseEv s k code tenant region unit data).net = s.net := by
  obtain ⟨_, _, _, _, _, _, h⟩ := (RaiseOnly.raiseEv s k code tenant region unit data).same; rw [h]
@[simp] theorem raiseEv_units : (raiseEv s k code tenant region unit data).units = s.units := by
  obtain ⟨_, _, _, _, _, _, h⟩ := (RaiseOnly.raiseEv s k code tenant region unit data).same; rw [h]
@[simp] theorem raiseEv_store : (raiseEv s k code tenant region unit data).store = s.store := by
  obtain ⟨_, _, _, _, _, _, h⟩ := (RaiseOnly.raiseEv s k code tenant region unit data).same; rw [h]
@[simp] theorem raiseEv_strm : (raiseEv s k code tenant region unit data).strm = s.strm := by
  obtain ⟨_, _, _, _, _, _, h⟩ := (RaiseOnly.raiseEv s k code tenant region unit data).same; rw [h]
@[simp] theorem raiseEv_twin : (raiseEv s k code tenant region unit data).twin = s.twin := by
  obtain ⟨_, _, _, _, _, _, h⟩ := (RaiseOnly.raiseEv s k code tenant region unit data).same; rw [h]
@[simp] theorem raiseEv_fab : (raiseEv s k code tenant region unit data).fab = s.fab := by
  obtain ⟨_, _, _, _, _, _, h⟩ := (RaiseOnly.raiseEv s k code tenant region unit data).same; rw [h]
@[simp] theorem raiseEv_pwr : (raiseEv s k code tenant region unit data).pwr = s.pwr := by
  obtain ⟨_, _, _, _, _, _, h⟩ := (RaiseOnly.raiseEv s k code tenant region unit data).same; rw [h]
@[simp] theorem raiseEv_thm : (raiseEv s k code tenant region unit data).thm = s.thm := by
  obtain ⟨_, _, _, _, _, _, h⟩ := (RaiseOnly.raiseEv s k code tenant region unit data).same; rw [h]
@[simp] theorem raiseEv_freeCtr : (raiseEv s k code tenant region unit data).freeCtr = s.freeCtr := by
  obtain ⟨_, _, _, _, _, _, h⟩ := (RaiseOnly.raiseEv s k code tenant region unit data).same; rw [h]
@[simp] theorem raiseEv_pending : (raiseEv s k code tenant region unit data).pending = s.pending := by
  obtain ⟨_, _, _, _, _, _, h⟩ := (RaiseOnly.raiseEv s k code tenant region unit data).same; rw [h]

end

end Sys2Proof.Proofs.Raising

/-! PROOFS. Control packets at their receivers (R140, R211, R284, R464). -/

namespace Sys2Proof.Proofs.ControlPackets

open Sys2Proof Sys2Proof.Machine Sys2Proof.Claims

/-- A packet of its type that arrives whole acts. -/
theorem onPacket_arrived {s : State} {p : CtlPacket} {type : BitVec 4} (hlen : p.flits.length = p.len.toNat) (hok : Machine.packetOk p = true)
    (haddr : addressOk p.dest.toNat = true) (htype : p.type = type) (k : State → State) : onPacket type.toNat p s k = k (takeIn s p) :=
  if_pos ⟨hok, congrArg BitVec.toNat htype, hlen, haddr⟩

/-- A region's unit mailbox has its address among the control addresses. -/
theorem unitAddress_bounds {d r : Nat} (haddr : addressOk d = true) (hd : d = 0x7000 + r) (hr : 1 ≤ r) : ¬ d < nCores ∧ 0x7001 ≤ d ∧ d ≤ 0x7FFF := by
  simp only [addressOk, Bool.or_eq_true, Bool.and_eq_true, decide_eq_true_eq] at haddr
  unfold nCores at haddr ⊢
  omega

/-- A word of the tick that runs waits for the clean close of it. -/
theorem mailToUnit_now {s : State} {r sender tag : Nat} {w : Word} (htag : tag = tickCount s % 256) (hopen : (unitOf s r).closedTick < tickCount s) :
    mailToUnit s r sender tag w = modUnit s r fun u => { u with outWait := u.outWait ++ [(tickCount s, sender, w)] } := by
  simp [mailToUnit, htag, Nat.not_le.2 hopen]

/-- Settles O15: each packet arrives whole, and its receiver does what its type asks. -/
theorem controlPacketsAct : Obligations.ControlPacketsAct := by
  intro s p hlen hok haddr d q w
  have arrived {type : BitVec 4} (htype : p.type = type) (k : State → State) : onPacket type.toNat p s k = k q :=
    onPacket_arrived hlen hok haddr htype k
  refine ⟨fun htype hans => ?_, fun htype hans => ?_, fun htype hmissed => ?_, fun htype htag => ?_, fun htype => congrArg _ (arrived htype _),
    fun htype => congrArg _ (arrived htype _), fun a addr g i hreg hcore => ?_⟩
  · have hans' : ¬ answers q d = false := by rw [Bool.not_eq_false]; exact hans
    refine ⟨fun hnone => congrArg Host.Outcome.next ((arrived htype _).trans ((if_neg hans').trans ?_)), fun g i hsome => ?_⟩
    · rw [flit, hnone]
      rfl
    · refine ⟨_, congrArg Host.Outcome.next ((arrived htype _).trans (if_neg hans')), ?_⟩
      rw [flit, hsome]
      exact congrArg List.head? (sendCtl_ctlSent ..)
  · intro v
    have hans' : ¬ answers q d = false := by rw [Bool.not_eq_false]; exact hans
    refine ⟨fun hnone => congrArg Host.Outcome.next ((arrived htype _).trans ((if_neg hans').trans ?_)), fun g i hsome => ?_⟩
    · rw [flit, hnone]
      rfl
    · refine ⟨_, congrArg Host.Outcome.next ((arrived htype _).trans (if_neg hans')), ?_⟩
      rw [flit, hsome]
      exact congrArg List.head? (sendCtl_ctlSent ..)
  · have hnone : s.net.missed.find? (fun m => decide (m.1 = p.src.toNat)) = none := by simpa using hmissed
    refine congrArg Host.Outcome.next ((arrived htype _).trans ?_)
    show (match s.net.missed.find? fun m => decide (m.1 = p.src.toNat) with | some m => _ | none => _) = _
    rw [hnone]
  · refine ⟨fun hd hrun => congrArg Host.Outcome.next ((arrived htype _).trans ((if_pos hd).trans ((if_neg (not_not.2 hrun)).trans (if_pos htag)))),
      fun r hd hr hopen => ?_⟩
    obtain ⟨hcore, hlo, hhi⟩ := unitAddress_bounds haddr hd hr
    have hr' : d - 0x7000 = r := by omega
    refine congrArg Host.Outcome.next ((arrived htype _).trans ((if_neg hcore).trans ((if_pos ⟨hlo, hhi⟩).trans ?_)))
    rw [hr']
    exact mailToUnit_now htag hopen
  · refine congrArg Host.Outcome.next ?_
    rw [hreg]
    exact if_pos hcore

end Sys2Proof.Proofs.ControlPackets

/-! PROOFS. A core whose heartbeat is missing is read, found dead or stopped (R111, R148, R537). -/

namespace Sys2Proof.Proofs.Heartbeats

open Sys2Proof Sys2Proof.Machine Sys2Proof.Claims Sys2Proof.Proofs.Raising Sys2Proof.Proofs.BelfryComplete
  Sys2Proof.Proofs.ControlPackets

/-- What a core that missed its heartbeat brings about: the event, and the read of its CORE_STATUS. -/
structure Asked (s : State) (c : Nat) (t : State) : Prop where
  logged : Logged s t .report evHeartbeatMiss (regionTenant s (regionOfCore s c)) (regionOfCore s c) c
    (putF F.CORE_FAULT_EVENT (regWord s F.CORE_FAULT_EVENT c) 0)
  missed : t.net.missed = (c, false) :: s.net.missed
  sent : t.ctlSent = ⟨5, 2, 1, 0, BitVec.ofNat 16 c, BitVec.ofNat 16 (0x6000 + c % 152 / 19), 0, [0x8]⟩ :: s.ctlSent

theorem asked_missCore {s : State} {c : Nat} (h : ∀ m ∈ s.net.missed, m.1 ≠ c) : Asked s c (missCore s c) := by
  let r := regionOfCore s c
  let u := raiseEv s .report evHeartbeatMiss (regionTenant s r) r c (putF F.CORE_FAULT_EVENT (regWord s F.CORE_FAULT_EVENT c) 0)
  have hnone : (u.net.missed.any fun m => decide (m.1 = c)) = false := by simpa [u] using h
  obtain ⟨g, hsend⟩ := DebugWindow.sendCtl_eq u ⟨5, 2, 1, 0, BitVec.ofNat 16 c, BitVec.ofNat 16 (keepPort c), 0, [0x8]⟩
  have hcore : missCore s c = _ := (if_neg (Bool.eq_false_iff.1 hnone)).trans (congrArg (fun v : State => { v with net := { v.net with missed := (c, false) :: v.net.missed } }) hsend)
  rw [hcore]
  exact ⟨logged_raiseEv rfl rfl .., congrArg _ (congrArg NetSt.missed (raiseEv_net ..)), congrArg _ (raiseEv_ctlSent ..)⟩

/-- The state agrees with another in what a core's owner is read from. -/
theorem ownerOf_setNet (s : State) (n : NetSt) (c : Nat) : ownerOf { s with net := n } c = ownerOf s c :=
  DebugWindow.SameRights.ownerOf (s := s) (t := { s with net := n }) ⟨rfl, fun _ _ _ => rfl, rfl, rfl⟩ c

/-- A core of no plan region dies: the alarm, and its state. -/
theorem coreDies_unowned {s : State} {c : Nat} (halive : coreState s c ≠ csDead) (howner : ownerOf s c = 0) :
    coreDies s c = setCoreState (raiseRegion s .alarm evCoreDead (regionOfCore s c) c 0) c csDead :=
  (if_neg halive).trans (if_pos howner)

/-- Settles O14. -/
theorem missingCoresAreReadAndStopped : Obligations.MissingCoresAreReadAndStopped := by
  intro s
  refine ⟨⟨fun c hc hmissed hexpect hcame => ?_, fun m e hfield htick hall hlast hentries hcore hmiss hmissed => ?_⟩,
    fun c hc hmissed halive hregion howner => ?_, fun p hok htype hlen hdest hrun => ?_⟩
  · have hdue : (lanternOf s (fieldOf c)).expect.contains c = true ∧ (!(lanternOf s (fieldOf c)).hbs.any fun h => decide (h.core = c)) = true := by
      simpa using ⟨hexpect, hcame⟩
    obtain ⟨hlog, hnet, hsent⟩ := asked_missCore hmissed
    exact ⟨missCore s c, (if_pos hc).trans (congrArg _ (if_pos hdue)), hlog, hnet, hsent⟩
  · obtain ⟨hlog, hnet, hsent⟩ := asked_missCore (s := takeIn s (sumPacket m)) hmissed
    have hentry (tick : Nat) : takeEntry tick (takeIn s (sumPacket m)) e = missCore (takeIn s (sumPacket m)) e.core :=
      (if_neg (Nat.not_le.2 hcore)).trans (if_pos hmiss)
    have hin : ¬ (48 ≤ m.field ∨ m.tick ≠ BitVec.ofNat 16 (lanternOf s m.field).tick) := by simp [htick, hfield]
    refine ⟨missCore (takeIn s (sumPacket m)) e.core, congrArg Host.Outcome.next ((if_neg hin).trans ?_), hlog, hnet, hsent⟩
    simp [hall, hlast, hentries, hentry]
  · let u := { s with net := { s.net with missed := s.net.missed.filter fun m => decide (m.1 ≠ c) } }
    have hasked : (s.net.missed.any fun m => decide (m.1 = c)) = true := by simpa using hmissed
    have hnote (f : FaultRec) : noteFault u c f = u := if_pos hregion
    have hdies : coreDies u c = setCoreState (raiseRegion u .alarm evCoreDead (regionOfCore u c) c 0) c csDead :=
      coreDies_unowned halive ((ownerOf_setNet ..).trans howner)
    refine ⟨coreDies u c, (if_pos hc).trans (congrArg _ ((if_pos hasked).trans (congrArg (coreDies · c) (hnote _)))), ?_⟩
    rw [hdies, show regionOfCore u c = 0 from hregion]
    refine ⟨rd_wr_same _ _ _ _ (by decide), logged_raiseEv rfl rfl .., fun a ha => ?_⟩
    have hnet : (raiseRegion u .alarm evCoreDead 0 c 0).net = u.net := raiseEv_net ..
    rw [setCoreState, wr_net, hnet] at ha
    simp [u] at ha
  · have hcase : p.dest.toNat < nCores ∧ coreState (takeIn s p) p.dest.toNat = csRunning := ⟨hdest, hrun⟩
    have haddr : addressOk p.dest.toNat = true := by simp [addressOk, hdest]
    exact congrArg Host.Outcome.next ((onPacket_arrived hlen hok haddr htype _).trans (if_pos hcase))

end Sys2Proof.Proofs.Heartbeats

/-! PROOFS. The opening of a tick, and losses of lock and of the reference with the return from them (R44–R46, R180, R184, R523). -/

namespace Sys2Proof.Proofs.Clocks

open Sys2Proof Sys2Proof.Machine Sys2Proof.Claims Sys2Proof.Proofs.BelfryComplete Sys2Proof.Proofs.DebugWindow

/-! ## The opening of a tick -/

section

variable (s : State) (t : Nat)

theorem openTick_cyc : (openTick s t).clk.cyc = 0 := rfl

/-- What the opening of tick t shows. -/
def tickWrites : List (Field × Nat) :=
  [(F.TICK_COUNT_COUNT, t), (F.TICK_STAMP_HALL, hallNs (pruneRim s t)), (F.TICK_STRETCH_CUR, chooseStretch (pruneRim s t))]

/-- The clock at cycle 0 of a tick, with the stretch of the tick before. -/
def atCycle0 (stretch : Nat) : State := { s with clk := { s.clk with cyc := 0, lastStretch := stretch } }

theorem rd_atCycle0 (n : Nat) (f : Field) (i : Nat) : rd (atCycle0 s n) f i = rd s f i := rfl

theorem hallNs_atCycle0 (n : Nat) : hallNs (atCycle0 s n) = hallNs s := rfl

theorem openTick_eq : openTick s t = atCycle0 (wrAll (pruneRim s t) 0 (tickWrites s t)) (stretchOf (pruneRim s t)) := rfl

theorem rd_openTick (f : Field) (i : Nat) : rd (openTick s t) f i = rd (wrAll (pruneRim s t) 0 (tickWrites s t)) f i :=
  (congrArg (rd · f i) (openTick_eq s t)).trans (rd_atCycle0 ..)

theorem tickWrites_apart : ((tickWrites s t).map Prod.fst).Pairwise fun a b => Apart b a := by
  show [F.TICK_COUNT_COUNT, F.TICK_STAMP_HALL, F.TICK_STRETCH_CUR].Pairwise _
  decide

theorem openTick_count : rd (openTick s t) F.TICK_COUNT_COUNT 0 = t % 2 ^ 64 :=
  (rd_openTick ..).trans (rd_wrAll_mem _ 0 t (tickWrites_apart s t) (by decide) (by simp [tickWrites]))

theorem hallNs_openTick : hallNs (openTick s t) = hallNs s := by
  rw [openTick_eq, hallNs_atCycle0, hallNs, wrAll_clk]
  rfl

theorem openTick_stamp : rd (openTick s t) F.TICK_STAMP_HALL 0 = hallNs (openTick s t) % 2 ^ 64 := by
  rw [hallNs_openTick, rd_openTick, rd_wrAll_mem _ 0 (hallNs (pruneRim s t)) (tickWrites_apart s t) (by decide) (by simp [tickWrites])]
  rfl

end

theorem restartHalves_eq_openTick (s : State) : ∃ u, restartHalves s = openTick u (tickCount s + 1) := ⟨_, rfl⟩

/-- What a restart of the halves leaves is the opening of a tick. -/
theorem restartHalves_opens (s : State) : (restartHalves s).clk.cyc = 0 ∧
    rd (restartHalves s) F.TICK_STAMP_HALL 0 = hallNs (restartHalves s) % 2 ^ 64 := by
  obtain ⟨u, hu⟩ := restartHalves_eq_openTick s
  rw [hu]
  exact ⟨openTick_cyc .., openTick_stamp ..⟩

/-! ## Losses of lock -/

/-- The clock after a loss: the loss is dated, and a second one within an hour holds the halves. -/
def lostClock (s : State) (x : Clk) : Clk :=
  { x with steady := false, lossAt := some (hallNs s)
           held := x.held || (match s.clk.lossAt with | some h => decide (hallNs s < h + 3600000000000) | none => false) }

/-- A loss where the halves do not run from their main PLLs counts, and is dated. -/
theorem lossOfLock_fallen {s : State} (h : s.clk.fallback = true ∨ s.clk.gated = true) :
    lossOfLock s = bump { s with clk := lostClock s s.clk } F.TICK_CLK_STATUS_FALLBACK_CNT 0 1 := if_pos h.symm

/-- A loss where they do restarts them. -/
theorem lossOfLock_running {s : State} (hfall : s.clk.fallback = false) (hgate : s.clk.gated = false) : ∃ u, lossOfLock s = restartHalves u :=
  ⟨_, if_neg fun h => h.elim (fun hg => Bool.false_ne_true (hgate.symm.trans hg)) fun hf => Bool.false_ne_true (hfall.symm.trans hf)⟩

theorem clear_lockField (half : Nat) : Clear (lockField half) F.TICK_CLK_STATUS_FALLBACK_CNT ∧ Clear F.TICK_CLK_STATUS_FALLBACK_CNT (lockField half) ∧
    (lockField half).lo + (lockField half).width ≤ 64 := by
  unfold lockField
  split <;> decide

/-- A relock of a half that is on its fallback PLL, or that stands still, is noted. -/
theorem pllRelock_noted {s : State} {half : Nat} (hhalf : half < 2) (href : s.clk.refLost = false) (h : s.clk.fallback = true ∨ s.clk.gated = true) :
    exec (.pllRelock half) s = .next (wr s (lockField half) 0 1) := by
  have hpresent : ¬ (2 ≤ half ∨ s.clk.refLost) := by simp [href, hhalf]
  have hrest : ¬ (bothLocked (wr s (lockField half) 0 1) ∧ ¬ (wr s (lockField half) 0 1).clk.fallback ∧ ¬ (wr s (lockField half) 0 1).clk.gated) := by
    rcases h with h | h <;> simp [h]
  exact congrArg Host.Outcome.next ((if_neg hpresent).trans (if_neg hrest))

/-! ## The return -/

/-- A request for a clock step changes no register and leaves the PLLs in use as they are. -/
theorem requestStep_keeps (s : State) (step : Nat) :
    (requestStep s step).regs = s.regs ∧ (requestStep s step).clk = { s.clk with nextStep := (requestStep s step).clk.nextStep } := by
  unfold requestStep
  dsimp only
  split <;> exact ⟨rfl, rfl⟩

theorem leaveFallback_leaves (s : State) : (leaveFallback s).clk.fallback = false ∧ (leaveFallback s).clk.held = false ∧
    rd (leaveFallback s) F.TICK_CLK_STATUS_FALLBACK 0 = 0 := by
  obtain ⟨hregs, hclk⟩ := requestStep_keeps
    (wr { s with clk := { s.clk with fallback := false, steady := false, held := false } } F.TICK_CLK_STATUS_FALLBACK 0 0) s.pwr.sel
  have heq : leaveFallback s = requestStep
    (wr { s with clk := { s.clk with fallback := false, steady := false, held := false } } F.TICK_CLK_STATUS_FALLBACK 0 0) s.pwr.sel := rfl
  rw [heq, hclk]
  exact ⟨rfl, rfl, (rd_congr hregs ..).trans (rd_wr_same _ _ _ _ (by decide))⟩

/-- A counter bumped after a change of the clock. -/
theorem rd_bump_lost (s : State) (x : Clk) : rd (bump { s with clk := x } F.TICK_CLK_STATUS_FALLBACK_CNT 0 1) F.TICK_CLK_STATUS_FALLBACK_CNT 0 =
    min (rd s F.TICK_CLK_STATUS_FALLBACK_CNT 0 + 1) (2 ^ F.TICK_CLK_STATUS_FALLBACK_CNT.width - 1) :=
  rd_bump_same { s with clk := x } _ 0 1 (by decide)

/-- A half that has lost its lock: a loss of lock of the state in which its bit is cleared. -/
theorem exec_pllLockLoss {s : State} {half : Nat} (hhalf : half < 2) (hlock : rd s (lockField half) 0 ≠ 0) :
    exec (.pllLockLoss half) s = .next (lossOfLock (wr s (lockField half) 0 0)) :=
  congrArg Host.Outcome.next (if_neg fun h => h.elim (Nat.not_le.2 hhalf) hlock)

/-- Settles O17: each loss and return is a branch of its command; only a restart from running PLLs takes a boundary of its own. -/
theorem clockLossAndReturn : Obligations.ClockLossAndReturn := by
  intro s
  refine ⟨?_, rfl, fun half hhalf href h => pllRelock_noted hhalf href h, fun hfall hlocked href => ⟨fun hheld => ?_, fun hheld => ?_⟩,
    fun a hop => ?_⟩
  · intro lost counted
    refine ⟨fun half hhalf hlock => ⟨fun hfallen => ?_, fun hfall hgate => ?_⟩, fun href hfall => ?_⟩
    · obtain ⟨hcnt, hcnt', hfits⟩ := clear_lockField half
      refine ⟨_, (exec_pllLockLoss hhalf hlock).trans (congrArg _ (lossOfLock_fallen hfallen)), ?_, rfl, ?_⟩
      · exact (rd_wr_clear _ 0 0 _ hcnt').trans (rd_wr_same s _ 0 0 hfits)
      · exact (rd_bump_lost _ _).trans (by rw [rd_wr_clear s 0 0 0 hcnt])
    · obtain ⟨u, hu⟩ := lossOfLock_running (s := wr s (lockField half) 0 0) hfall hgate
      exact ⟨restartHalves u, (exec_pllLockLoss hhalf hlock).trans (congrArg _ hu), restartHalves_opens u⟩
    · let v := wr { s with clk := { s.clk with refLost := true } } F.TICK_CLK_STATUS_W_LOCK 0 0
      let w := wr v F.TICK_CLK_STATUS_E_LOCK 0 0
      have hexec : exec .refclkLoss s = .next (lossOfLock w) := congrArg Host.Outcome.next (if_neg (by simp [href]))
      refine ⟨_, hexec.trans (congrArg _ (lossOfLock_fallen (.inl hfall))), rfl, ?_, ?_, ?_⟩
      · refine (rd_bump_lost _ _).trans ?_
        rw [rd_wr_clear v 0 0 0 (by decide), rd_wr_clear _ 0 0 0 (by decide)]
        rfl
      · exact (rd_wr_clear _ 0 0 _ (by decide)).trans ((rd_wr_clear v 0 0 0 (by decide)).trans (rd_wr_same _ _ 0 0 (by decide)))
      · exact (rd_wr_clear _ 0 0 _ (by decide)).trans (rd_wr_same v _ 0 0 (by decide))
  · exact congrArg Host.Outcome.next ((if_neg (by simp [hfall, hlocked, href])).trans (if_pos hheld))
  · obtain ⟨hfall', -, hshown⟩ := leaveFallback_leaves s
    refine ⟨leaveFallback s, congrArg Host.Outcome.next ((if_neg (by simp [hfall, hlocked, href])).trans (if_neg (by simp [hheld]))), hfall', hshown⟩
  · let u := wr { s with clk := { s.clk with held := false } } F.TICK_CLK_STATUS_FALLBACK 0 0
    obtain ⟨hfall', hheld', hshown'⟩ := leaveFallback_leaves u
    by_cases hback : s.clk.fallback = true ∧ s.clk.steady = true
    · exact ⟨leaveFallback u, congrArg Host.Outcome.next ((if_pos hop).trans (if_pos hback)), hheld', hshown', fun _ _ => hfall'⟩
    · exact ⟨u, congrArg Host.Outcome.next ((if_pos hop).trans (if_neg hback)), rfl, rd_wr_same _ _ 0 0 (by decide), fun hf hs => absurd ⟨hf, hs⟩ hback⟩

end Sys2Proof.Proofs.Clocks

/-! PROOFS. Reading a register field through the changes of the other parts of the state, which no read sees. -/

namespace Sys2Proof.Proofs.ReadRules

open Sys2Proof Sys2Proof.Machine Sys2Proof.Claims Sys2Proof.Proofs.BelfryComplete

section

variable (s : State) (f : Field) (i : Nat)

@[simp] theorem rd_modFab (g : FabricSt → FabricSt) : rd (modFab s g) f i = rd s f i := rfl
@[simp] theorem rd_modPwr (g : PowerSt → PowerSt) : rd (modPwr s g) f i = rd s f i := rfl
@[simp] theorem rd_modThm (g : ThermSt → ThermSt) : rd (modThm s g) f i = rd s f i := rfl
@[simp] theorem rd_modTwin (g : TwinSt → TwinSt) : rd (modTwin s g) f i = rd s f i := rfl
@[simp] theorem rd_modUnit (r : Nat) (g : Region → Region) : rd (modUnit s r g) f i = rd s f i := rfl
@[simp] theorem rd_modStream (k : Nat) (g : Stream → Stream) : rd (modStream s k g) f i = rd s f i := rfl
@[simp] theorem rd_modBoot (g : BootSt → BootSt) : rd (modBoot s g) f i = rd s f i := rfl
@[simp] theorem rd_modMctp (g : MctpSt → MctpSt) : rd (modMctp s g) f i = rd s f i := rfl

theorem hallNs_wr (v : Nat) : hallNs (wr s f i v) = hallNs s := rfl

theorem hallNs_bump (n : Nat) : hallNs (bump s f i n) = hallNs s := rfl

/-- The bit written reads as the flag. -/
theorem rd_wr_bit {b : Bool} (h : f.lo + f.width ≤ 64 ∧ 0 < f.width) : rd (wr s f i (bit b)) f i = bit b := by
  obtain ⟨hfits, hwidth⟩ := h
  rw [rd_wr_same s f i _ hfits]
  refine Nat.mod_eq_of_lt ?_
  calc bit b ≤ 1 := by cases b <;> decide
    _ < 2 ^ f.width := Nat.one_lt_two_pow hwidth.ne'

/-- A field reads as a number that its width holds. -/
theorem rd_lt : rd s f i < 2 ^ f.width := Nat.mod_lt _ (Nat.two_pow_pos _)

/-- A flag of one bit reads as its truth value. -/
theorem rd_eq_bit (h : f.width = 1) : rd s f i = bit (rdB s f i) := by
  have hlt := rd_lt s f i
  rw [h] at hlt
  unfold rdB bit
  by_cases hone : rd s f i = 1
  · simp [hone]
  · simp [hone]
    omega

end

end Sys2Proof.Proofs.ReadRules

/-! PROOFS. Hall time follows its parent, and holds over without one (R406, R407). -/

namespace Sys2Proof.Proofs.HallTime

open Sys2Proof Sys2Proof.Machine Sys2Proof.Claims Sys2Proof.Proofs.BelfryComplete Sys2Proof.Proofs.DebugWindow
  Sys2Proof.Proofs.Raising Sys2Proof.Proofs.ReadRules

section

variable (s : State) (v : Bool)

theorem rd_setLocked : rd (setLocked s v) F.NET_PTP_LOCKED 0 = bit v := by
  unfold setLocked
  split
  · next h => rw [rd_eq_bit s _ 0 rfl, h]
  · exact (rd_raiseSource _ 0 (by decide) 29).trans (rd_wr_bit s _ 0 (by decide))

/-- A change of LOCKED leaves every register field clear of it and of what a source writes. -/
theorem rd_setLocked_clear {f : Field} (h : Clear F.NET_PTP_LOCKED f ∧ ClearOfSources f) (i : Nat) : rd (setLocked s v) f i = rd s f i := by
  unfold setLocked
  split
  · rfl
  · exact (rd_raiseSource _ i h.2 29).trans (rd_wr_clear s 0 i _ h.1)

@[simp] theorem setLocked_fab : (setLocked s v).fab = s.fab := by
  unfold setLocked
  split
  · rfl
  · rw [raiseSource_fab, wr_fab]

@[simp] theorem setLocked_clk : (setLocked s v).clk = s.clk := by
  unfold setLocked
  split
  · rfl
  · rw [raiseSource_clk, wr_clk]

end

/-- Once the engine was locked, a correction is slewed. -/
theorem correct_of_everLocked {s : State} (h : s.fab.everLocked = true) (n : Int) : correct s n = { s with clk := { s.clk with slew := -(n * 84) } } :=
  if_neg fun hnew => hnew.1 h

theorem correct_fab (s : State) (n : Int) : (correct s n).fab = s.fab := by
  unfold correct
  dsimp only
  split <;> rfl

/-- What a message of the parent shows. -/
def followedWrites (m : PtpMsg) : List (Field × Nat) :=
  [(F.NET_PTP_OFFSET, offsetField m.offsetNs), (F.NET_PTP_STEPS, min 15 (m.steps.toNat + 1)), (F.NET_PTP_TRACEABLE, bit m.traceable),
    (F.NET_PTP_GM, 0), (F.NET_PTP_VALID, 1)]

theorem followedWrites_apart (m : PtpMsg) : ((followedWrites m).map Prod.fst).Pairwise fun a b => Apart b a := by
  show [F.NET_PTP_OFFSET, F.NET_PTP_STEPS, F.NET_PTP_TRACEABLE, F.NET_PTP_GM, F.NET_PTP_VALID].Pairwise _
  decide

/-- The state once a message of the parent is taken, but for LOCKED. -/
def followed (s : State) (m : PtpMsg) : State :=
  wrAll (modFab (correct s m.offsetNs) fun f => { f with parent := true, everLocked := true }) 0
    (followedWrites m)

/-- Settles O39: a message that is selected is followed and LOCKED set; the other branches write the fields that they name. -/
theorem hallTimeFollowsItsParent : Obligations.HallTimeFollowsItsParent := by
  intro s
  refine ⟨fun m hcarries hmode hdomain => ⟨fun hbetter => ?_, fun hbetter hparent => ?_⟩, fun hparent => ?_, fun hparent hvalid => ?_⟩
  · have hexec : exec (.ptpMessage m) s = .next (setLocked (followed s m) true) :=
      congrArg Host.Outcome.next ((if_neg (not_not_intro hcarries)).trans ((if_neg hmode).trans ((if_neg (not_not_intro hdomain)).trans
        (if_neg (not_not_intro hbetter)))))
    have hread {f : Field} (hclear : Clear F.NET_PTP_LOCKED f ∧ ClearOfSources f) := rd_setLocked_clear (followed s m) true hclear 0
    have htakes {f : Field} {v : Nat} (hfits : f.lo + f.width ≤ 64) (hmem : (f, v) ∈ followedWrites m) :
        rd (followed s m) f 0 = v % 2 ^ f.width := rd_wrAll_mem _ 0 v (followedWrites_apart m) hfits hmem
    refine ⟨_, hexec, ?_, rd_setLocked .., ?_, ?_, ?_, ?_, fun hlocked => ?_⟩
    · rw [setLocked_fab, followed, wrAll_fab, modFab_fab]
    · rw [hread (by decide), htakes (v := 1) (by decide) (by simp [followedWrites])]
      rfl
    · rw [hread (by decide), htakes (v := 0) (by decide) (by simp [followedWrites])]
      rfl
    · rw [hread (by decide), htakes (v := min 15 (m.steps.toNat + 1)) (by decide) (by simp [followedWrites])]
      exact Nat.mod_eq_of_lt (Nat.lt_of_le_of_lt (Nat.min_le_left ..) (by decide))
    · rw [hread (by decide), htakes (v := bit m.traceable) (by decide) (by simp [followedWrites])]
      cases m.traceable <;> rfl
    · rw [setLocked_clk, followed, wrAll_clk, modFab_clk, correct_of_everLocked hlocked]
      exact ⟨rfl, rfl⟩
  · have hexec : exec (.ptpMessage m) s = .next (wrAll s 0 [(F.NET_PTP_GM, 1), (F.NET_PTP_STEPS, 0), (F.NET_PTP_TRACEABLE, 0)]) :=
      congrArg Host.Outcome.next ((if_neg (not_not_intro hcarries)).trans ((if_neg hmode).trans ((if_neg (not_not_intro hdomain)).trans
        ((if_pos (by simp [hbetter])).trans (if_neg (by simp [hparent]))))))
    exact ⟨_, hexec, rd_wrAll_mem s 0 1 (by decide) (by decide) (by simp), rd_wrAll_mem s 0 0 (by decide) (by decide) (by simp)⟩
  · refine ⟨_, congrArg Host.Outcome.next (if_pos hparent), ?_, rd_setLocked .., ?_⟩
    · rw [setLocked_fab, modFab_fab]
    · exact (rd_setLocked_clear _ _ (by decide) 0).trans (rd_modFab ..)
  · refine ⟨_, congrArg Host.Outcome.next (if_neg (by simp [hparent, hvalid])), ?_⟩
    exact (rd_raiseSource _ 0 (by decide) 29).trans (rd_wr_same _ _ 0 0 (by decide))

end Sys2Proof.Proofs.HallTime

/-! PROOFS. Resets, links and trainings of the PCIe ports (R316, R317, R499, R521). -/

namespace Sys2Proof.Proofs.PciePorts

open Sys2Proof Sys2Proof.Machine Sys2Proof.Claims

/-! ## What the Belfry changes of a function: its pending messages alone (R481) -/

/-- From s to t a function changes in its pending bits alone. -/
structure Linked (s t : State) : Prop where
  function : ∀ p, pcieOf t p = { pcieOf s p with pba := (pcieOf t p).pba }

theorem Linked.refl (s : State) : Linked s s := ⟨fun _ => rfl⟩

section

variable {s t u : State}

theorem Linked.trans (h : Linked s t) (k : Linked t u) : Linked s u := ⟨fun p => (k.function p).trans (by rw [h.function p])⟩

theorem Linked.of_pcie (h : Linked s t) (hpcie : u.pcie = t.pcie) : Linked s u :=
  h.trans ⟨fun p => by simp only [pcieOf, hpcie]⟩

theorem Linked.bme (h : Linked s t) (p : Nat) : (pcieOf t p).bme = (pcieOf s p).bme := by rw [h.function p]

theorem Linked.up (h : Linked s t) (p : Nat) : (pcieOf t p).up = (pcieOf s p).up := by rw [h.function p]

theorem Linked.sendMsi (h : Linked s t) (p v : Nat) : Linked s (sendMsi t p v).1 := by
  unfold Machine.sendMsi
  dsimp only
  split
  · exact h.of_pcie (bump_pcie ..)
  · split
    · refine h.trans ⟨fun q => ?_⟩
      by_cases hq : q = p
      · subst hq
        simp [pcieOf]
      · simp [pcieOf, tget_tset_other _ _ _ hq]
    · exact h.of_pcie rfl

theorem Linked.takePending (h : Linked s t) (src : Nat) : Linked s (takePending t src) := h.of_pcie (wrAll_pcie ..)

theorem Linked.notifyHost (h : Linked s t) (src n : Nat) : Linked s (notifyHost src t n) := by
  unfold Machine.notifyHost
  split
  · split
    · exact h
    · dsimp only
      split
      · exact (h.sendMsi ..).takePending src
      · exact (h.sendMsi ..).of_pcie rfl
  · exact h.of_pcie rfl

theorem Linked.evalSource (h : Linked s t) (src : Nat) : Linked s (evalSource t src) := ((h.of_pcie (wr_pcie ..)).notifyHost src 8).notifyHost src 9

theorem Linked.evalAll (h : Linked s t) : Linked s (evalAll t) :=
  List.foldlRecOn (motive := Linked s) _ Machine.evalSource h fun _ ht src _ => ht.evalSource src

theorem Linked.addPending (h : Linked s t) (src : Nat) : Linked s (addPending t src) := by
  refine h.of_pcie ?_
  unfold Machine.addPending
  dsimp only
  split
  · rw [bump_pcie, wr_pcie]
  · split <;> split <;> simp only [wr_pcie]

theorem Linked.raiseSource (h : Linked s t) (src : Nat) : Linked s (raiseSource t src) := by
  unfold Machine.raiseSource
  split
  · split
    · exact h
    · exact h.of_pcie rfl
  · exact (h.addPending src).evalSource src

theorem Linked.raiseEv (h : Linked s t) (k : EvKind) (code tenant region unit : Nat) (data : Word) :
    Linked s (raiseEv t k code tenant region unit data) := by
  unfold Machine.raiseEv
  refine Linked.raiseSource (h.of_pcie ?_) _
  split
  · split <;> rw [wr_pcie]
  · rw [wr_pcie]

theorem Linked.releaseSource (h : Linked s t) (n : Nat) : Linked s (releaseSource t n) := h.of_pcie ((wr_pcie ..).trans (wrAll_pcie ..))

theorem Linked.completeAllOf (h : Linked s t) (n : Nat) : Linked s (completeAllOf t n) :=
  Linked.evalAll (List.foldlRecOn (motive := Linked s) _ Machine.releaseSource h fun _ ht src _ => ht.releaseSource src)

end

/-! ## Resets and links -/

theorem portReset_bme (s : State) (p : Nat) : (pcieOf (portReset s p) p).bme = false := by
  refine (((Linked.refl _).completeAllOf (8 + p)).raiseSource (26 + p)).bme p |>.trans ?_
  simp [pcieOf]

/-- The link of a port is down. -/
def linkless (s : State) (p : Nat) : State := { s with pcie := tset s.pcie p { pcieOf s p with up := false } }

theorem linkless_up (s : State) (p : Nat) : (pcieOf (linkless s p) p).up = false := by simp [linkless, pcieOf]

theorem linkless_bme (s : State) (p : Nat) : (pcieOf (linkless s p) p).bme = (pcieOf s p).bme := by simp [linkless, pcieOf]

theorem portDown_eq (s : State) (p : Nat) : portDown s p = linkless (portReset s p) p := rfl

theorem portDown_bme (s : State) (p : Nat) : (pcieOf (portDown s p) p).bme = false := by
  rw [portDown_eq, linkless_bme, portReset_bme]

theorem portDown_up (s : State) (p : Nat) : (pcieOf (portDown s p) p).up = false := by
  rw [portDown_eq, linkless_up]

theorem exec_pcieLinkDown {s : State} {p : Nat} (hp : portExists s p = true) (ide : Bool) :
    exec (.pcieLinkDown p ide) s = .next (if ide then raiseEngine (portDown s p) .alarm evHostLink p 0 else portDown s p) :=
  congrArg Host.Outcome.next (if_neg (not_not_intro hp))

/-- Settles O26: a reset clears Bus Master Enable before it raises its source, which changes pending bits alone. -/
theorem pciePortsAct : Obligations.PciePortsAct := by
  intro s p hp
  refine ⟨⟨_, congrArg Host.Outcome.next (if_pos hp), portReset_bme s p⟩,
    ⟨_, congrArg Host.Outcome.next (if_pos hp), portDown_bme s p, portDown_up s p⟩, fun ide => ?_, fun two bme masked bar2 hzero => ?_⟩
  · refine ⟨_, exec_pcieLinkDown hp ide, ?_⟩
    cases ide
    · rw [if_neg Bool.false_ne_true]
      exact ⟨portDown_bme s p, portDown_up s p⟩
    · rw [if_pos rfl]
      have hraise := (Linked.refl (portDown s p)).raiseEv .alarm evHostLink 0 0 p (BitVec.ofNat 64 0)
      exact ⟨(hraise.bme p).trans (portDown_bme s p), (hraise.up p).trans (portDown_up s p)⟩
  · subst hzero
    refine ⟨fun hrim => ?_, fun hrim => ?_⟩
    · exact ⟨_, congrArg Host.Outcome.next (if_pos ⟨rfl, by simpa using hrim⟩), rfl, tget_tset_same ..⟩
    · exact congrArg Host.Outcome.next (if_neg fun h => by simpa [hrim] using h.2)

end Sys2Proof.Proofs.PciePorts

/-! PROOFS. What the Spire reports: telemetry, buttresses, droop and the cap (R415, R420, R421, R428–R430, R437, R440). -/

namespace Sys2Proof.Proofs.PowerReports

open Sys2Proof Sys2Proof.Machine Sys2Proof.Claims Sys2Proof.Proofs.BelfryComplete Sys2Proof.Proofs.DebugWindow Sys2Proof.Proofs.Raising
  Sys2Proof.Proofs.ReadRules

/-- An engine-wide event is the newest record of the log. -/
theorem logged_raiseEngine {s t : State} (hhall : hallNs t = hallNs s) (hseq : rd t F.KEEP_EV_SEQ_SEQ 0 = rd s F.KEEP_EV_SEQ_SEQ 0) (k : EvKind)
    (code unit data : Nat) : Logged s (raiseEngine t k code unit data) k code 0 0 unit (BitVec.ofNat 64 data) :=
  logged_raiseEv hhall hseq ..

/-! ## Buttresses -/

/-- A number of w bits with one more bit set is one still. -/
theorem add_two_pow_lt {w n b : Nat} (hn : n < 2 ^ w) (hb : b < w) (hbit : n.testBit b = false) : n + 2 ^ b < 2 ^ w := by
  have hpow : 2 ^ b * (2 * 2 ^ (w - 1 - b)) = 2 ^ w := by
    rw [← pow_succ', ← pow_add]
    congr 1
    omega
  have heven : n / 2 ^ b % 2 = 0 := by simpa [Nat.testBit_eq_decide_div_mod_eq] using hbit
  have hquot : n / 2 ^ b < 2 * 2 ^ (w - 1 - b) := Nat.div_lt_of_lt_mul (hpow ▸ hn)
  calc n + 2 ^ b < 2 ^ b * (n / 2 ^ b + 1) + 2 ^ b := Nat.add_lt_add_right (Nat.lt_mul_div_succ n (Nat.two_pow_pos b)) _
    _ = 2 ^ b * (n / 2 ^ b + 2) := by ring
    _ ≤ 2 ^ b * (2 * 2 ^ (w - 1 - b)) := Nat.mul_le_mul_left _ (by omega)
    _ = 2 ^ w := hpow

section

variable (s : State) (f b : Nat)

/-- The state once the failure of a buttress is counted and reported. -/
def buttressLost : State :=
  raiseEngine (wrAll s f [(F.PWR_BUTT_FAILED, rd s F.PWR_BUTT_FAILED f + 2 ^ b), (F.PWR_FIELD_FAILED, rd s F.PWR_FIELD_FAILED f + 1)])
    .alarm evButtressFail f 0

/-- What the failure does then: the fifth derates the wafer, the sixth drops the field. -/
def buttressActs : State :=
  if rd s F.PWR_FIELD_FAILED f + 1 = 5 then raiseEngine (wr (buttressLost s f b) F.PWR_STATUS_DERATE 0 1) .alarm evButtressDerate f 0
  else if rd s F.PWR_FIELD_FAILED f + 1 = 6 then modPwr (buttressLost s f b) fun p => { p with drop := f :: p.drop, ramps := tdel p.ramps f }
  else buttressLost s f b

theorem rd_buttressActs {g : Field} (i : Nat) (h : Clear F.PWR_STATUS_DERATE g ∧ ClearOfEvents g) :
    rd (buttressActs s f b) g i = rd (buttressLost s f b) g i := by
  unfold buttressActs
  split
  · exact (rd_raiseEngine _ i h.2 ..).trans (rd_wr_clear _ 0 i 1 h.1)
  · split <;> rfl

theorem buttressLost_failed (hb : b < 64) (hbit : (rd s F.PWR_BUTT_FAILED f).testBit b = false) :
    rd (buttressLost s f b) F.PWR_BUTT_FAILED f = rd s F.PWR_BUTT_FAILED f + 2 ^ b := by
  refine (rd_raiseEngine _ f (by decide) ..).trans ((rd_wrAll_mem s f _ (by simp only [List.map]; decide) (by decide) List.mem_cons_self).trans ?_)
  exact Nat.mod_eq_of_lt (add_two_pow_lt (rd_lt s _ f) hb hbit)

theorem buttressLost_count : rd (buttressLost s f b) F.PWR_FIELD_FAILED f = (rd s F.PWR_FIELD_FAILED f + 1) % 128 :=
  (rd_raiseEngine _ f (by decide) ..).trans (rd_wrAll_mem s f _ (by simp only [List.map]; decide) (by decide) (by simp))

theorem buttressLost_logged : Logged s (buttressLost s f b) .alarm evButtressFail 0 0 f 0 :=
  logged_raiseEngine (by rw [hallNs, wrAll_clk]; rfl) (rd_wrAll_clear s f 0 (by simp only [List.map]; decide)) ..

end

/-! ## Droop -/

section

variable (s : State) (f mv : Nat)

/-- The minimum of a field writes its own registers alone. -/
theorem rd_noteVmin {g : Field} (i : Nat) (h : Clear F.PWR_VMIN_VMIN g ∧ Clear F.PWR_VMIN_TICK g ∧ Clear F.PWR_VMIN_STAMP_HALL g) :
    rd (noteVmin s f mv) g i = rd s g i := by
  unfold noteVmin
  split
  · exact rd_wrAll_clear s f i (by simpa using h)
  · rfl

@[simp] theorem noteVmin_pwr : (noteVmin s f mv).pwr = s.pwr := by
  unfold noteVmin
  split
  · exact wrAll_pwr ..
  · rfl

theorem hallNs_noteVmin : hallNs (noteVmin s f mv) = hallNs s := by
  unfold noteVmin
  split
  · rw [hallNs, wrAll_clk]
    rfl
  · rfl

theorem tickCount_noteVmin : tickCount (noteVmin s f mv) = tickCount s := rd_noteVmin s f mv 0 (by decide)

theorem setpoint_noteVmin : setpoint (noteVmin s f mv) f = setpoint s f := by
  simp only [setpoint, voltStep, trimOf, noteVmin_pwr, rd_noteVmin s f mv 0 (g := F.TICK_CLK_STATUS_STEP) (by decide),
    rd_noteVmin s f mv f (g := F.PWR_FIELD_TRIM) (by decide)]

theorem droopLimits_noteVmin : droopLimits (noteVmin s f mv) = droopLimits s := by
  simp only [droopLimits, rd_noteVmin s f mv 0 (g := F.PWR_CTL_DROOP) (by decide), rd_noteVmin s f mv 0 (g := F.PWR_THR_DROOP_WARN) (by decide),
    rd_noteVmin s f mv 0 (g := F.PWR_THR_DROOP_CRIT) (by decide)]

end

/-! ## Minima -/

/-- A field whose minimum is restarted. -/
def restartField (s : State) (f : Nat) : State := wrAll s f [(F.PWR_VMIN_VMIN, 0xFFF), (F.PWR_VMIN_TICK, 0), (F.PWR_VMIN_STAMP_HALL, 0)]

theorem restartField_same (s : State) (f : Nat) : rd (restartField s f) F.PWR_VMIN_VMIN f = 0xFFF :=
  rd_wrAll_mem s f 0xFFF (by decide) (by decide) (by simp)

theorem restartField_other (s : State) {f g : Nat} (hf : f < 48) (hg : g < 48) (h : g ≠ f) :
    rd (restartField s f) F.PWR_VMIN_VMIN g = rd s F.PWR_VMIN_VMIN g :=
  calc rd (restartField s f) F.PWR_VMIN_VMIN g
      = rd (wr (wr s F.PWR_VMIN_VMIN f 0xFFF) F.PWR_VMIN_TICK f 0) F.PWR_VMIN_VMIN g := rd_wr_clear _ f g 0 (by decide)
    _ = rd (wr s F.PWR_VMIN_VMIN f 0xFFF) F.PWR_VMIN_VMIN g := rd_wr_clear _ f g 0 (by decide)
    _ = rd s F.PWR_VMIN_VMIN g := rd_wr_other s _ _ f g _ (fkey_ne_of_ne (by decide) hf hg h)

/-- After the minima of the fields of a list restart, each of them reads as the highest value. -/
theorem restartFields_read (l : List Nat) (hl : ∀ f ∈ l, f < 48) {g : Nat} (hg : g < 48) :
    ∀ s : State, (g ∈ l ∨ rd s F.PWR_VMIN_VMIN g = 0xFFF) → rd (l.foldl restartField s) F.PWR_VMIN_VMIN g = 0xFFF := by
  induction l with
  | nil => exact fun s h => h.resolve_left (List.not_mem_nil)
  | cons f l ih =>
    obtain ⟨hf, hl⟩ := List.forall_mem_cons.1 hl
    refine fun s h => ih hl (restartField s f) ?_
    by_cases hgf : g = f
    · exact .inr (hgf ▸ restartField_same s f)
    · rw [restartField_other s hf hg hgf]
      exact h.imp_left fun hmem => (List.mem_cons.1 hmem).resolve_left hgf

/-- Settles O40: each report is a branch of its command; the reads go through the events that follow the writes. -/
theorem powerReports : Obligations.PowerReports := by
  intro s
  refine ⟨fun m => ?_, rfl, fun f b hf hb hbit => ?_, fun f mv hf hon => ⟨fun hlow hfirst => ?_, fun hlow hfirst => ?_⟩, fun f => ?_, ?_, ?_⟩
  · refine ⟨_, rfl, ?_, ?_, ?_, ?_⟩
    · rw [bump_pwr, wrAll_pwr]
      rfl
    · rw [bump_pwr, wrAll_pwr]
      rfl
    · exact (rd_wr_clear _ 0 0 _ (by decide)).trans (rd_wrAll_mem _ 0 _ (by simp only [List.map]; decide) (by decide) (by simp))
    · exact (rd_wr_clear _ 0 0 _ (by decide)).trans (rd_wrAll_mem _ 0 _ (by simp only [List.map]; decide) (by decide) (by simp))
  · have hpresent : ¬ (48 ≤ f ∨ 64 ≤ b ∨ (rd s F.PWR_BUTT_FAILED f).testBit b = true) := by
      rw [not_or, not_or]
      exact ⟨Nat.not_le.2 hf, Nat.not_le.2 hb, by simp [hbit]⟩
    have hexec : exec (.buttressFail f b) s = .next (buttressActs s f b) := congrArg Host.Outcome.next (if_neg hpresent)
    refine ⟨_, hexec, ?_, ?_, fun hderate => ?_, fun hdrop => ?_, fun hderate => ?_⟩
    · exact (rd_buttressActs s f b f ⟨by decide, by decide⟩).trans (buttressLost_failed s f b hb hbit)
    · exact (rd_buttressActs s f b f ⟨by decide, by decide⟩).trans (buttressLost_count s f b)
    · rw [buttressActs, if_pos (by omega)]
      exact (rd_raiseEngine _ 0 (by decide) ..).trans (rd_wr_same _ _ 0 1 (by decide))
    · rw [buttressActs, if_neg (by omega), if_pos (by omega)]
      simp
    · rw [buttressActs, if_neg (by omega)]
      split
      · exact buttressLost_logged s f b
      · exact buttressLost_logged s f b
  · have hlow' : ¬ (setpoint (noteVmin s f mv) f ≤ mv + (droopLimits (noteVmin s f mv)).1 ∨
        tget (noteVmin s f mv).pwr.warnTick f 0 = tickCount (noteVmin s f mv) + 1) := by
      rw [setpoint_noteVmin, droopLimits_noteVmin, tickCount_noteVmin, noteVmin_pwr]
      exact not_or.2 ⟨Nat.not_le.2 hlow, hfirst⟩
    refine ⟨_, congrArg Host.Outcome.next ((if_neg (by simp [hf, hon])).trans (if_neg hlow')), ?_, ?_⟩
    · rw [raiseEngine, raiseEv_pwr, bump_pwr, modPwr_pwr, tget_tset_same, tickCount_noteVmin]
    · refine logged_raiseEngine ?_ ?_ ..
      · exact hallNs_noteVmin s f mv
      · exact (rd_wr_clear _ 0 0 _ (by decide)).trans (rd_noteVmin s f mv 0 (by decide))
  · have hlow' : ¬ (setpoint (noteVmin s f mv) f ≤ mv + (droopLimits (noteVmin s f mv)).2 ∨
        tget (noteVmin s f mv).pwr.critTick f 0 = tickCount (noteVmin s f mv) + 1) := by
      rw [setpoint_noteVmin, droopLimits_noteVmin, tickCount_noteVmin, noteVmin_pwr]
      exact not_or.2 ⟨Nat.not_le.2 hlow, hfirst⟩
    refine ⟨_, congrArg Host.Outcome.next ((if_neg (by simp [hf, hon])).trans (if_neg hlow')), ?_, ?_, ?_⟩
    · rw [modPwr_pwr, tget_tset_same, tickCount_noteVmin]
    · rw [modPwr_pwr, tget_tset_same, hallNs_noteVmin]
      rfl
    · refine (rd_modPwr ..).trans ((rd_bump_same _ _ 0 1 (by decide)).trans ?_)
      rw [rd_noteVmin s f mv 0 (by decide)]
  · exact ⟨_, rfl, by simp [modPwr], rfl⟩
  · exact ⟨_, rfl, fun f hf => restartFields_read (List.range 48) (fun _ => List.mem_range.1) hf s (.inl (List.mem_range.2 hf))⟩
  · refine ⟨fun c hcap hover => ?_, fun c hcap hunder hnear => ?_, fun hcap => ?_⟩
    · exact ⟨_, rfl, by simp only [modPwr_pwr, hcap, if_pos hover]⟩
    · have hrest : ¬ 100 * rd s F.PWR_TELEM_POWER 0 < 95 * c := Nat.not_lt.2 hnear
      show Host.Outcome.next (modPwr s _) = _
      simp only [hcap, if_neg (Nat.not_lt.2 hunder), if_neg hrest]
      rfl
    · exact ⟨_, rfl, by simp only [modPwr_pwr, hcap]⟩

end Sys2Proof.Proofs.PowerReports

/-! PROOFS. What a change may reach: the parts of the state and the register fields that it is allowed, and the rules by which changes follow one
another within that allowance. -/

namespace Sys2Proof.Proofs.Frames

open Sys2Proof Sys2Proof.Machine Sys2Proof.Claims Sys2Proof.Proofs.BelfryComplete Sys2Proof.Proofs.Tables

/-! ## Parts and fields -/

/-- The parts of the state but the live registers; the lanterns are named apart from the rest of the network. -/
inductive Part where
  | shadow | captured | clk | cores | events | alarmFlash | alarmsDeferred | bel | pcie | bifurcated | keep | ctlSent | net | lanterns | units | store
  | strm | twin | fab | pwr | thm | freeCtr | pending
  deriving DecidableEq

/-- The part is the same in s and t. -/
def Part.Same (s t : State) : Part → Prop
  | .shadow => t.shadow = s.shadow
  | .captured => t.captured = s.captured
  | .clk => t.clk = s.clk
  | .cores => t.cores = s.cores
  | .events => t.events = s.events
  | .alarmFlash => t.alarmFlash = s.alarmFlash
  | .alarmsDeferred => t.alarmsDeferred = s.alarmsDeferred
  | .bel => t.bel = s.bel
  | .pcie => t.pcie = s.pcie
  | .bifurcated => t.bifurcated = s.bifurcated
  | .keep => t.keep = s.keep
  | .ctlSent => t.ctlSent = s.ctlSent
  | .net => t.net = s.net
  | .lanterns => t.net.lanterns = s.net.lanterns
  | .units => t.units = s.units
  | .store => t.store = s.store
  | .strm => t.strm = s.strm
  | .twin => t.twin = s.twin
  | .fab => t.fab = s.fab
  | .pwr => t.pwr = s.pwr
  | .thm => t.thm = s.thm
  | .freeCtr => t.freeCtr = s.freeCtr
  | .pending => t.pending = s.pending

theorem Part.Same.refl (s : State) (p : Part) : p.Same s s := by cases p <;> rfl

theorem Part.Same.trans {s t u : State} {p : Part} (h : p.Same s t) (k : p.Same t u) : p.Same s u := by
  cases p <;> exact Eq.trans k h

/-- The live registers r' come from r by writes of fields that are allowed. -/
inductive Writes (allowed : Field → Bool) : Table Word → Table Word → Prop where
  | refl (r : Table Word) : Writes allowed r r
  | put {r r' : Table Word} (h : Writes allowed r r') (f : Field) (hf : allowed f = true) (i v : Nat) :
      Writes allowed r (tset r' (fkey f i) (putF f (tget r' (fkey f i) (BitVec.ofNat 64 f.regRst)) v))

theorem Writes.trans {allowed : Field → Bool} {r r' r'' : Table Word} (h : Writes allowed r r') (k : Writes allowed r' r'') : Writes allowed r r'' := by
  induction k with
  | refl => exact h
  | put _ f hf i v ih => exact ih.put f hf i v

/-- The parts and fields that a change may reach. -/
structure Allow where
  part : Part → Bool
  field : Field → Bool

/-- From s to t nothing changes but what is allowed. -/
structure Within (a : Allow) (s t : State) : Prop where
  parts : ∀ p, a.part p = false → p.Same s t
  regs : Writes a.field s.regs t.regs

/-- What an operation reaches. -/
structure Foot where
  parts : List Part
  fields : List Field

/-- The allowance covers what the operation reaches. -/
abbrev Foot.Fits (b : Foot) (a : Allow) : Prop := (b.parts.all a.part && b.fields.all a.field) = true

section

variable {b : Foot} {a : Allow}

theorem Foot.Fits.part {p : Part} (h : b.Fits a) (hp : p ∈ b.parts) : a.part p = true := List.all_eq_true.1 (Bool.and_eq_true_iff.1 h).1 p hp

theorem Foot.Fits.field {f : Field} (h : b.Fits a) (hf : f ∈ b.fields) : a.field f = true := List.all_eq_true.1 (Bool.and_eq_true_iff.1 h).2 f hf

end

/-! ## The rules -/

theorem Within.refl (a : Allow) (s : State) : Within a s s := ⟨fun p _ => .refl s p, .refl _⟩

section

variable {a : Allow} {s t u : State}

theorem Within.trans (h : Within a s t) (k : Within a t u) : Within a s u :=
  ⟨fun p hp => (h.parts p hp).trans (k.parts p hp), h.regs.trans k.regs⟩

/-- A change of one part that is allowed. -/
theorem Within.change (h : Within a s t) (p : Part) (hp : a.part p = true) (hsame : ∀ q, q ≠ p → q.Same t u) (hregs : u.regs = t.regs) : Within a s u :=
  h.trans ⟨fun q hq => hsame q fun heq => Bool.false_ne_true (hq.symm.trans (heq ▸ hp)), by rw [hregs]; exact .refl _⟩

theorem Within.ite {p : Prop} [Decidable p] {x y : State} (hx : Within a s x) (hy : Within a s y) : Within a s (if p then x else y) := by
  split
  · exact hx
  · exact hy

theorem Within.foldl {α : Type} {f : State → α → State} {l : List α} (h : Within a s t) (hf : ∀ t, Within a s t → ∀ x, Within a s (f t x)) :
    Within a s (l.foldl f t) :=
  List.foldlRecOn (motive := Within a s) l f h fun _ ht x _ => hf _ ht x

/-! ### Registers -/

theorem Within.wr {f : Field} {i v : Nat} (h : Within a s t) (hf : a.field f = true) : Within a s (wr t f i v) :=
  ⟨fun p hp => (h.parts p hp).trans (by cases p <;> rfl), h.regs.put f hf i v⟩

theorem Within.bump {f : Field} {i n : Nat} (h : Within a s t) (hf : a.field f = true) : Within a s (bump t f i n) := h.wr hf

theorem Within.wrAll {i : Nat} {l : List (Field × Nat)} (h : Within a s t) (hl : ∀ f ∈ l.map Prod.fst, a.field f = true) : Within a s (wrAll t i l) :=
  List.foldlRecOn (motive := Within a s) l _ h fun _ ht _ hfv => ht.wr (hl _ (List.mem_map_of_mem hfv))

/-! ### Parts -/

variable (h : Within a s t)

include h

theorem Within.shadow (hp : a.part .shadow = true) (x : Table Word) : Within a s { t with shadow := x } :=
  h.change .shadow hp (fun q hq => by cases q <;> simp_all [Part.Same]) rfl

theorem Within.captured (hp : a.part .captured = true) (x : Table Word) : Within a s { t with captured := x } :=
  h.change .captured hp (fun q hq => by cases q <;> simp_all [Part.Same]) rfl

theorem Within.clk (hp : a.part .clk = true) (x : Clk) : Within a s { t with clk := x } :=
  h.change .clk hp (fun q hq => by cases q <;> simp_all [Part.Same]) rfl

theorem Within.cores (hp : a.part .cores = true) (x : Table Core) : Within a s { t with cores := x } :=
  h.change .cores hp (fun q hq => by cases q <;> simp_all [Part.Same]) rfl

theorem Within.events (hp : a.part .events = true) (x : List EvRec) : Within a s { t with events := x } :=
  h.change .events hp (fun q hq => by cases q <;> simp_all [Part.Same]) rfl

theorem Within.alarmFlash (hp : a.part .alarmFlash = true) (x : List EvRec) : Within a s { t with alarmFlash := x } :=
  h.change .alarmFlash hp (fun q hq => by cases q <;> simp_all [Part.Same]) rfl

theorem Within.alarmsDeferred (hp : a.part .alarmsDeferred = true) (x : List EvRec) : Within a s { t with alarmsDeferred := x } :=
  h.change .alarmsDeferred hp (fun q hq => by cases q <;> simp_all [Part.Same]) rfl

theorem Within.bel (hp : a.part .bel = true) (x : BelfrySt) : Within a s { t with bel := x } :=
  h.change .bel hp (fun q hq => by cases q <;> simp_all [Part.Same]) rfl

theorem Within.pcie (hp : a.part .pcie = true) (x : Table Pcie) : Within a s { t with pcie := x } :=
  h.change .pcie hp (fun q hq => by cases q <;> simp_all [Part.Same]) rfl

theorem Within.bifurcated (hp : a.part .bifurcated = true) (x : Bool) : Within a s { t with bifurcated := x } :=
  h.change .bifurcated hp (fun q hq => by cases q <;> simp_all [Part.Same]) rfl

theorem Within.keep (hp : a.part .keep = true) (x : KeepSt) : Within a s { t with keep := x } :=
  h.change .keep hp (fun q hq => by cases q <;> simp_all [Part.Same]) rfl

theorem Within.ctlSent (hp : a.part .ctlSent = true) (x : List CtlPacket) : Within a s { t with ctlSent := x } :=
  h.change .ctlSent hp (fun q hq => by cases q <;> simp_all [Part.Same]) rfl

theorem Within.units (hp : a.part .units = true) (x : Table Region) : Within a s { t with units := x } :=
  h.change .units hp (fun q hq => by cases q <;> simp_all [Part.Same]) rfl

theorem Within.store (hp : a.part .store = true) (x : StoreSt) : Within a s { t with store := x } :=
  h.change .store hp (fun q hq => by cases q <;> simp_all [Part.Same]) rfl

theorem Within.strm (hp : a.part .strm = true) (x : StreamSt) : Within a s { t with strm := x } :=
  h.change .strm hp (fun q hq => by cases q <;> simp_all [Part.Same]) rfl

theorem Within.twin (hp : a.part .twin = true) (x : TwinSt) : Within a s { t with twin := x } :=
  h.change .twin hp (fun q hq => by cases q <;> simp_all [Part.Same]) rfl

theorem Within.fab (hp : a.part .fab = true) (x : FabricSt) : Within a s { t with fab := x } :=
  h.change .fab hp (fun q hq => by cases q <;> simp_all [Part.Same]) rfl

theorem Within.pwr (hp : a.part .pwr = true) (x : PowerSt) : Within a s { t with pwr := x } :=
  h.change .pwr hp (fun q hq => by cases q <;> simp_all [Part.Same]) rfl

theorem Within.thm (hp : a.part .thm = true) (x : ThermSt) : Within a s { t with thm := x } :=
  h.change .thm hp (fun q hq => by cases q <;> simp_all [Part.Same]) rfl

theorem Within.freeCtr (hp : a.part .freeCtr = true) (x : Nat) : Within a s { t with freeCtr := x } :=
  h.change .freeCtr hp (fun q hq => by cases q <;> simp_all [Part.Same]) rfl

theorem Within.pending (hp : a.part .pending = true) (x : List Instr) : Within a s { t with pending := x } :=
  h.change .pending hp (fun q hq => by cases q <;> simp_all [Part.Same]) rfl

/-- A change of the network that leaves the lanterns. -/
theorem Within.net (hp : a.part .net = true) (x : NetSt) (hx : x.lanterns = t.net.lanterns) : Within a s { t with net := x } :=
  h.change .net hp (fun q hq => by cases q <;> simp_all [Part.Same]) rfl

/-- A change of the network that the lanterns may take part in. -/
theorem Within.netAll (hp : a.part .net = true) (hl : a.part .lanterns = true) (x : NetSt) : Within a s { t with net := x } := by
  refine h.trans ⟨fun q hq => ?_, .refl _⟩
  cases q <;> simp_all [Part.Same]

end

/-! ## What a change within an allowance leaves -/

section

variable {a : Allow} {s t : State}

/-- A field that shares no bit with the allowed ones reads as before. -/
theorem Within.rd_eq {g : Field} (h : Within a s t) (hg : ∀ f, a.field f = true → Clear f g) (i : Nat) : rd t g i = rd s g i := by
  have hread {r r' : Table Word} (hw : Writes a.field r r') :
      getF g (tget r' (fkey g i) (BitVec.ofNat 64 g.regRst)) = getF g (tget r (fkey g i) (BitVec.ofNat 64 g.regRst)) := by
    induction hw with
    | refl => rfl
    | put _ f hf j v ih => exact (rd_wr_clear { s with regs := _ } j i v (hg f hf)).trans ih
  exact hread h.regs

/-- The registers at keys that no allowed field's registers have are the same. -/
theorem Within.tget?_eq (h : Within a s t) {k : Nat} (hk : ∀ f, a.field f = true → ∀ i, fkey f i ≠ k) : tget? t.regs k = tget? s.regs k := by
  have hregs := h.regs
  generalize t.regs = r at hregs
  induction hregs with
  | refl => rfl
  | put _ f hf j v ih => exact (tget?_tset_other _ _ fun heq => hk f hf j heq.symm).trans ih

/-- Every part of the state that is not allowed is that of the start. -/
theorem Within.eq (h : Within a s t) : t =
    { regs := t.regs
      shadow := bif a.part .shadow then t.shadow else s.shadow
      captured := bif a.part .captured then t.captured else s.captured
      clk := bif a.part .clk then t.clk else s.clk
      cores := bif a.part .cores then t.cores else s.cores
      events := bif a.part .events then t.events else s.events
      alarmFlash := bif a.part .alarmFlash then t.alarmFlash else s.alarmFlash
      alarmsDeferred := bif a.part .alarmsDeferred then t.alarmsDeferred else s.alarmsDeferred
      bel := bif a.part .bel then t.bel else s.bel
      pcie := bif a.part .pcie then t.pcie else s.pcie
      bifurcated := bif a.part .bifurcated then t.bifurcated else s.bifurcated
      keep := bif a.part .keep then t.keep else s.keep
      ctlSent := bif a.part .ctlSent then t.ctlSent else s.ctlSent
      net := bif a.part .net then t.net else s.net
      units := bif a.part .units then t.units else s.units
      store := bif a.part .store then t.store else s.store
      strm := bif a.part .strm then t.strm else s.strm
      twin := bif a.part .twin then t.twin else s.twin
      fab := bif a.part .fab then t.fab else s.fab
      pwr := bif a.part .pwr then t.pwr else s.pwr
      thm := bif a.part .thm then t.thm else s.thm
      freeCtr := bif a.part .freeCtr then t.freeCtr else s.freeCtr
      pending := bif a.part .pending then t.pending else s.pending } := by
  have hpart {α : Type} (b : Bool) {x y : α} (hxy : b = false → x = y) : (bif b then x else y) = x := by
    cases b
    · exact (hxy rfl).symm
    · rfl
  rw [hpart _ (h.parts .shadow), hpart _ (h.parts .captured), hpart _ (h.parts .clk), hpart _ (h.parts .cores), hpart _ (h.parts .events),
    hpart _ (h.parts .alarmFlash), hpart _ (h.parts .alarmsDeferred), hpart _ (h.parts .bel), hpart _ (h.parts .pcie),
    hpart _ (h.parts .bifurcated), hpart _ (h.parts .keep), hpart _ (h.parts .ctlSent), hpart _ (h.parts .net), hpart _ (h.parts .units),
    hpart _ (h.parts .store), hpart _ (h.parts .strm), hpart _ (h.parts .twin), hpart _ (h.parts .fab), hpart _ (h.parts .pwr),
    hpart _ (h.parts .thm), hpart _ (h.parts .freeCtr), hpart _ (h.parts .pending)]

end

/-- The allowance of these parts, and of the register fields that share no bit with g. -/
def besides (g : Field) (ps : List Part) : Allow := ⟨ps.contains, fun f => decide (Clear f g)⟩

/-- What such an allowance leaves is g. -/
theorem Within.reads {g : Field} {ps : List Part} {s t : State} (h : Within (besides g ps) s t) (i : Nat) : rd t g i = rd s g i :=
  h.rd_eq (fun _ hf => of_decide_eq_true hf) i

/-- The field's registers lie in one of these megabytes. -/
def inBlocks (bs : List Nat) (f : Field) : Bool :=
  decide (0 < f.count) && bs.contains (megabyteOf f.base) && decide (megabyteOf (lastKey f) = megabyteOf f.base)

/-- The allowance of these parts, and of the registers in these megabytes. -/
def blocks (bs : List Nat) (ps : List Part) : Allow := ⟨ps.contains, inBlocks bs⟩

theorem megabyteOf_mono {i j : Nat} (h : i ≤ j) : megabyteOf i ≤ megabyteOf j := by
  unfold megabyteOf
  split <;> split <;> omega

/-- Every register of a field lies in the megabyte of its first one. -/
theorem megabyteOf_fkey {bs : List Nat} {f : Field} (h : inBlocks bs f = true) (i : Nat) : megabyteOf (fkey f i) ∈ bs := by
  simp only [inBlocks, Bool.and_eq_true, decide_eq_true_eq, List.contains_iff_mem] at h
  obtain ⟨⟨hcount, hbase⟩, hlast⟩ := h
  have hlow := megabyteOf_mono (base_le_fkey f i)
  have hhigh := megabyteOf_mono (fkey_le_lastKey hcount i)
  rwa [Nat.le_antisymm (hlast ▸ hhigh) hlow]

theorem Within.onlyBlocks {bs : List Nat} {ps : List Part} {s t : State} (h : Within (blocks bs ps) s t) : OnlyBlocks bs s t :=
  fun _ hk => h.tget?_eq fun _ hf i heq => hk (heq ▸ megabyteOf_fkey hf i)

/-! ## The Belfry, events and draws -/

/-- What an evaluation of the sources reaches. -/
def sourceFoot : Foot :=
  ⟨[.bel, .pcie], [F.BELFRY_SRC_STATUS_PENDING, F.BELFRY_SRC_STATUS_SAT, F.BELFRY_SRC_STATUS_DUE, F.BELFRY_CNT_SAT_LOST, F.BELFRY_CNT_MSI_DROP]⟩

/-- What an event reaches. -/
def eventFoot : Foot := ⟨[.events, .alarmFlash, .alarmsDeferred], [F.KEEP_EV_SEQ_SEQ]⟩

/-- What raises an event: its record, and its source. -/
structure Raises (a : Allow) : Prop where
  source : sourceFoot.Fits a
  event : eventFoot.Fits a

section

variable {a : Allow} {s t : State}

theorem Within.sendMsi (h : Within a s t) (ha : sourceFoot.Fits a) (p v : Nat) : Within a s (sendMsi t p v).1 := by
  unfold Machine.sendMsi
  dsimp only
  split
  · exact h.bump (ha.field (by decide))
  · split
    · exact h.pcie (ha.part (by decide)) _
    · exact h.bel (ha.part (by decide)) _

theorem Within.takePending (h : Within a s t) (ha : sourceFoot.Fits a) (n : Nat) : Within a s (takePending t n) :=
  Within.bel (h.wrAll (by simpa using ⟨ha.field (by decide), ha.field (by decide)⟩)) (ha.part (by decide)) _

theorem Within.notifyHost (h : Within a s t) (ha : sourceFoot.Fits a) (n p : Nat) : Within a s (notifyHost n t p) := by
  unfold Machine.notifyHost
  split
  · split
    · exact h
    · dsimp only
      split
      · exact (h.sendMsi ha ..).takePending ha n
      · exact (h.sendMsi ha ..).bel (ha.part (by decide)) _
  · exact h.bel (ha.part (by decide)) _

theorem Within.evalSource (h : Within a s t) (ha : sourceFoot.Fits a) (n : Nat) : Within a s (evalSource t n) :=
  ((h.wr (ha.field (by decide))).notifyHost ha n 8).notifyHost ha n 9

theorem Within.evalAll (h : Within a s t) (ha : sourceFoot.Fits a) : Within a s (evalAll t) := h.foldl fun _ ht n => ht.evalSource ha n

theorem Within.addPending (h : Within a s t) (ha : sourceFoot.Fits a) (n : Nat) : Within a s (addPending t n) := by
  have hpending {u : State} (hu : Within a s u) (v : Nat) : Within a s (Machine.wr u F.BELFRY_SRC_STATUS_PENDING n v) := hu.wr (ha.field (by decide))
  have hsat {u : State} (hu : Within a s u) (v : Nat) : Within a s (Machine.wr u F.BELFRY_SRC_STATUS_SAT n v) := hu.wr (ha.field (by decide))
  unfold Machine.addPending
  dsimp only
  split
  · exact Within.bump (hsat h _) (ha.field (by decide))
  · split <;> split
    · exact hsat ((hpending h _).bel (ha.part (by decide)) _) _
    · exact hsat (hpending h _) _
    · exact (hpending h _).bel (ha.part (by decide)) _
    · exact hpending h _

theorem Within.raiseSource (h : Within a s t) (ha : sourceFoot.Fits a) (n : Nat) : Within a s (raiseSource t n) := by
  unfold Machine.raiseSource
  split
  · split
    · exact h
    · exact h.bel (ha.part (by decide)) _
  · exact (h.addPending ha n).evalSource ha n

theorem Within.raiseEv (h : Within a s t) (ha : Raises a) (k : EvKind) (code tenant region unit : Nat) (data : Word) :
    Within a s (raiseEv t k code tenant region unit data) := by
  have hrecord (l : List EvRec) (v : Nat) : Within a s (Machine.wr { t with events := l } F.KEEP_EV_SEQ_SEQ 0 v) :=
    (h.events (ha.event.part (by decide)) l).wr (ha.event.field (by decide))
  unfold Machine.raiseEv
  refine Within.raiseSource ?_ ha.source _
  split
  · split
    · exact (hrecord _ _).alarmsDeferred (ha.event.part (by decide)) _
    · exact (hrecord _ _).alarmFlash (ha.event.part (by decide)) _
  · exact hrecord _ _

theorem Within.raiseEngine (h : Within a s t) (ha : Raises a) (k : EvKind) (code unit data : Nat) : Within a s (raiseEngine t k code unit data) :=
  h.raiseEv ha ..

theorem Within.raiseRegion (h : Within a s t) (ha : Raises a) (k : EvKind) (code r unit data : Nat) : Within a s (raiseRegion t k code r unit data) :=
  h.raiseEv ha ..

/-- A value drawn takes one step of the free counter. -/
theorem Within.draw (h : Within a s t) (ha : a.part .freeCtr = true) (n : Nat) : Within a s (draw t n).2 := h.freeCtr ha _

end

end Sys2Proof.Proofs.Frames

/-! PROOFS. What the operations of power delivery and cooling reach (R412–R461). -/

namespace Sys2Proof.Proofs.Frames

open Sys2Proof Sys2Proof.Machine Sys2Proof.Claims

section

variable {a : Allow} {s t : State}

theorem Within.modPwr (h : Within a s t) (hp : a.part .pwr = true) (f : PowerSt → PowerSt) : Within a s (modPwr t f) := h.pwr hp _

theorem Within.modThm (h : Within a s t) (hp : a.part .thm = true) (f : ThermSt → ThermSt) : Within a s (modThm t f) := h.thm hp _

/-! ## Clock steps and ramps -/

theorem Within.requestStep (h : Within a s t) (hp : a.part .pwr = true) (hc : a.part .clk = true) (n : Nat) : Within a s (requestStep t n) := by
  unfold Machine.requestStep
  dsimp only
  split
  · exact (h.clk hc _).modPwr hp _
  · exact h.modPwr hp _

theorem Within.leaveFallback (h : Within a s t) (hp : a.part .pwr = true) (hc : a.part .clk = true)
    (hf : a.field F.TICK_CLK_STATUS_FALLBACK = true) : Within a s (leaveFallback t) :=
  ((h.clk hc _).wr hf).requestStep hp hc _

theorem Within.selectStep (h : Within a s t) (hp : a.part .pwr = true) (hc : a.part .clk = true) (n : Nat) : Within a s (selectStep t n) := by
  unfold Machine.selectStep
  dsimp only
  split
  · exact h.modPwr hp _
  · exact (h.modPwr hp _).requestStep hp hc n

theorem Within.setRamp (h : Within a s t) (hp : a.part .pwr = true) (f : Nat) (r : Ramp) : Within a s (setRamp t f r) := by
  unfold Machine.setRamp
  exact h.modPwr hp _

theorem Within.hibernateField (h : Within a s t) (hp : a.part .pwr = true) (f : Nat) : Within a s (hibernateField t f) :=
  .ite (h.setRamp hp ..) h

theorem Within.wakeField (h : Within a s t) (hp : a.part .pwr = true) (f : Nat) : Within a s (wakeField t f) := by
  unfold Machine.wakeField
  split
  · exact h
  · split
    · split
      · exact h.modPwr hp _
      · exact h
    · exact .ite h (h.setRamp hp ..)

/-! ## Droop -/

/-- The registers of a field's minimum. -/
def vminFields : List Field := [F.PWR_VMIN_VMIN, F.PWR_VMIN_TICK, F.PWR_VMIN_STAMP_HALL]

theorem Within.noteVmin (h : Within a s t) (hf : ∀ f ∈ vminFields, a.field f = true) (f mv : Nat) : Within a s (noteVmin t f mv) :=
  .ite (h.wrAll hf) h

theorem Within.restartVmin (h : Within a s t) (hf : ∀ f ∈ vminFields, a.field f = true) : Within a s (restartVmin t) :=
  h.foldl fun _ ht _ => ht.wrAll hf

/-! ## Calibration -/

theorem Within.noteProv (h : Within a s t) (hf : a.field F.PWR_STATUS_CAL_PROV = true) : Within a s (noteProv t) := h.wr hf

theorem Within.aimGuard (h : Within a s t) (hp : a.part .pwr = true) (kind item : Nat) : Within a s (aimGuard t kind item) := by
  unfold Machine.aimGuard
  dsimp only
  split
  · split
    · exact h.modPwr hp _
    · exact h.modPwr hp _
  · exact h

theorem Within.calItem (h : Within a s t) (hp : a.part .pwr = true) (ha : Raises a) (kind item : Nat) : Within a s (calItem t kind item) := by
  unfold Machine.calItem
  exact Within.aimGuard (.ite ((h.modPwr hp _).raiseEngine ha ..) (.ite (h.modPwr hp _) h)) hp ..

theorem Within.calEval (h : Within a s t) (hp : a.part .pwr = true) (ha : Raises a) (hf : a.field F.PWR_STATUS_CAL_PROV = true) :
    Within a s (calEval t) :=
  Within.noteProv (h.foldl fun _ ht k => ht.foldl fun _ hu i => hu.calItem hp ha k i) hf

/-! ## Channels -/

theorem Within.setChan (h : Within a s t) (hf : ∀ f ∈ [F.CHAN_VAL_STATE, F.CHAN_VAL_VALUE], a.field f = true) (n st : Nat) (v : Int) :
    Within a s (setChan t n st v) := h.wrAll hf

theorem Within.disabledChans (h : Within a s t) (ht : a.part .thm = true) (hf : ∀ f ∈ [F.CHAN_VAL_STATE, F.CHAN_VAL_VALUE], a.field f = true) :
    Within a s (disabledChans t) :=
  (h.modThm ht _).foldl fun _ hu n => .ite hu (hu.setChan hf n 0 0)

theorem Within.takeSample (h : Within a s t) (ht : a.part .thm = true) (ha : Raises a)
    (hf : ∀ f ∈ [F.CHAN_VAL_STATE, F.CHAN_VAL_VALUE], a.field f = true) (x : ChanSample) : Within a s (takeSample t x) := by
  unfold Machine.takeSample
  dsimp only
  split
  · exact h
  · split
    · exact .ite (((h.modThm ht _).wr (hf _ (by simp))).raiseEngine ha ..) (h.modThm ht _)
    · exact .ite (h.modThm ht _) ((h.modThm ht _).setChan hf ..)

theorem Within.noteWet (h : Within a s t) (ht : a.part .thm = true) : Within a s (noteWet t) := by
  unfold Machine.noteWet
  exact h.modThm ht _

/-! ## Stages, demand, flow and outputs -/

theorem Within.noteStage (h : Within a s t) (hf : a.field F.THM_STATUS_STAGE = true) : Within a s (noteStage t) := h.wr hf

theorem Within.setDemand (h : Within a s t) (ht : a.part .thm = true) (ha : Raises a) (hf : a.field F.THM_STATUS_DEMAND = true) :
    Within a s (setDemand t) := by
  unfold Machine.setDemand
  dsimp only
  split
  · exact .ite ((h.wr hf).raiseEngine ha ..) (h.wr hf)
  · exact .ite ((h.wr hf).modThm ht _) h

/-- What the evaluation of the flow shows. -/
def flowFields : List Field := [F.THM_STATUS_FLOW, F.THM_CNT_FLOW_LOW, F.THM_STATUS_DEMAND, F.THM_STATUS_STAGE]

theorem Within.evalFlow (h : Within a s t) (ht : a.part .thm = true) (ha : Raises a) (hf : ∀ f ∈ flowFields, a.field f = true) :
    Within a s (evalFlow t) := by
  have hshown (v : Nat) (f : ThermSt → ThermSt) : Within a s (Machine.modThm (Machine.wr t F.THM_STATUS_FLOW 0 v) f) :=
    (h.wr (hf _ (by decide))).modThm ht f
  unfold Machine.evalFlow
  dsimp only
  refine Within.noteStage (Within.setDemand ?_ ht ha (hf _ (by decide))) (hf _ (by decide))
  split
  · exact hshown _ _
  · refine Within.modThm (.ite (Within.modThm ?_ ht _) ?_) ht _
    · exact .ite ((((hshown _ _).modThm ht _).bump (hf _ (by decide))).raiseEngine ha ..) (hshown _ _)
    · exact .ite ((((hshown _ _).modThm ht _).bump (hf _ (by decide))).raiseEngine ha ..) (hshown _ _)

theorem Within.outputs (h : Within a s t) (hd : a.part .freeCtr = true) : Within a s (outputs t).2 := by
  unfold Machine.outputs
  split
  · exact h
  · split
    · exact h
    · split
      · exact h
      · exact Within.draw (h.draw hd 16001) hd 1001

/-! ## Thermal cycles -/

theorem Within.countCycle (h : Within a s t) (ht : a.part .thm = true) {c15 c30 : Field} (h15 : a.field c15 = true) (h30 : a.field c30 = true)
    (item i : Nat) (temp : Field) : Within a s (countCycle item i temp c15 c30 t) := by
  have hcount (f : ThermSt → ThermSt) (b : Int) :
      Within a s (if 60 ≤ b then Machine.bump (Machine.modThm t f) c15 i 1 else Machine.modThm t f) :=
    .ite ((h.modThm ht f).bump h15) (h.modThm ht f)
  unfold Machine.countCycle
  dsimp only
  split
  · exact h.modThm ht _
  · exact .ite (Within.bump (hcount _ _) h30) (hcount _ _)

theorem Within.noteLife (h : Within a s t) (hf : ∀ f ∈ [F.THM_LIFE_ITEM, F.THM_LIFE_USED, F.THM_LIFE_YEARS_LEFT], a.field f = true) :
    Within a s (noteLife t) := h.wrAll hf

end

end Sys2Proof.Proofs.Frames

/-! PROOFS. What cooling measures: channels, temperatures, the throttle, the flow, the outputs and the thermal cycles (R444, R446–R451, R457–R459). -/

namespace Sys2Proof.Proofs.CoolingMeasures

open Sys2Proof Sys2Proof.Machine Sys2Proof.Claims Sys2Proof.Proofs.BelfryComplete Sys2Proof.Proofs.DebugWindow Sys2Proof.Proofs.Raising
  Sys2Proof.Proofs.ReadRules Sys2Proof.Proofs.Tables Sys2Proof.Proofs.Frames Sys2Proof.Proofs.PowerReports

/-! ## Channels -/

/-- An entry whose key is kept stays in a table of which other entries are taken out. -/
theorem tget_filter_key {α : Type} {t : Table α} {p : Nat → Bool} {k : Nat} (h : p k = true) (d : α) :
    tget (t.filter fun e => p e.1) k d = tget t k d := by
  induction t with
  | nil => rfl
  | cons e t ih =>
    obtain ⟨j, x⟩ := e
    by_cases hjk : j = k
    · subst hjk
      simp [h, tget]
    · cases hj : p j
      · simpa [hj, tget, hjk] using ih
      · simpa [hj, tget, hjk] using ih

theorem setChan_other (s : State) {m n : Nat} (hm : m < 16) (hn : n < 16) (h : n ≠ m) (st : Nat) (v : Int) :
    rd (setChan s m st v) F.CHAN_VAL_STATE n = rd s F.CHAN_VAL_STATE n :=
  (rd_wr_clear (f := F.CHAN_VAL_VALUE) _ m n _ (by decide)).trans (rd_wr_other s _ _ m n _ (fkey_ne_of_ne (by decide) hm hn h))

theorem setChan_state (s : State) (n st : Nat) (v : Int) : rd (setChan s n st v) F.CHAN_VAL_STATE n = st % 8 :=
  (rd_wr_clear (f := F.CHAN_VAL_VALUE) _ n n _ (by decide)).trans (rd_wr_same s F.CHAN_VAL_STATE n st (by decide))

theorem setChan_value (s : State) (n st : Nat) (v : Int) : BitVec.ofNat 32 (rd (setChan s n st v) F.CHAN_VAL_VALUE n) = BitVec.ofInt 32 v := by
  have hread : rd (setChan s n st v) F.CHAN_VAL_VALUE n = (BitVec.ofInt 32 v).toNat % 2 ^ 32 :=
    rd_wr_same _ F.CHAN_VAL_VALUE n _ (by decide)
  rw [hread, Nat.mod_eq_of_lt (BitVec.ofInt 32 v).isLt, BitVec.ofNat_toNat, BitVec.setWidth_eq]

theorem setChan_en (s : State) (m n st : Nat) (v : Int) : rdB (setChan s m st v) F.CHAN_CFG_EN n = rdB s F.CHAN_CFG_EN n := by
  have hread : rd (setChan s m st v) F.CHAN_CFG_EN n = rd s F.CHAN_CFG_EN n := rd_wrAll_clear s m n (by simp only [List.map]; decide)
  unfold rdB
  rw [hread]

section

variable {s : State} {n : Nat}

/-- A channel that is enabled keeps its state when the disabled ones are cleared. -/
theorem disabledChans_state (hn : n < 16) (hen : rdB s F.CHAN_CFG_EN n = true) :
    rd (disabledChans s) F.CHAN_VAL_STATE n = rd s F.CHAN_VAL_STATE n ∧ rdB (disabledChans s) F.CHAN_CFG_EN n = true := by
  unfold disabledChans
  refine List.foldlRecOn (motive := fun t => rd t F.CHAN_VAL_STATE n = rd s F.CHAN_VAL_STATE n ∧ rdB t F.CHAN_CFG_EN n = true) _ _ ⟨rfl, hen⟩ ?_
  intro t ⟨hstate, ht⟩ m hm
  split
  · exact ⟨hstate, ht⟩
  · next hoff =>
    have hnm : n ≠ m := fun heq => hoff (.inl (heq ▸ ht))
    exact ⟨(setChan_other t (List.mem_range.1 hm) hn hnm ..).trans hstate, (setChan_en ..).trans ht⟩

theorem disabledChans_thm (s : State) : (disabledChans s).thm =
    { s.thm with bad := s.thm.bad.filter fun e => rdB s F.CHAN_CFG_EN e.1, clean := s.thm.clean.filter fun e => rdB s F.CHAN_CFG_EN e.1 } := by
  unfold disabledChans
  refine List.foldlRecOn (motive := fun t : State => t.thm =
    { s.thm with bad := s.thm.bad.filter fun e => rdB s F.CHAN_CFG_EN e.1, clean := s.thm.clean.filter fun e => rdB s F.CHAN_CFG_EN e.1 }) _ _ rfl ?_
  intro t ht m _
  split
  · exact ht
  · rw [setChan, wrAll_thm, ht]

theorem disabledChans_faulty (hn : n < 16) (hen : rdB s F.CHAN_CFG_EN n = true) : chanFaulty (disabledChans s) n = chanFaulty s n := by
  simp only [chanFaulty, (disabledChans_state hn hen).1]

theorem disabledChans_bad (hen : rdB s F.CHAN_CFG_EN n = true) (d : Nat) : tget (disabledChans s).thm.bad n d = tget s.thm.bad n d := by
  rw [disabledChans_thm]
  exact tget_filter_key (p := rdB s F.CHAN_CFG_EN) hen d

end

/-- The state after the samples of one channel. -/
def sampled (s : State) (x : ChanSample) : State := takeSample (disabledChans s) x

/-- What follows the samples leaves the channels' registers. -/
theorem channelSample_reads (s : State) (x : ChanSample) : ∃ t, exec (.channelSample [x]) s = .next t ∧
    (∀ i, rd t F.CHAN_VAL_STATE i = rd (sampled s x) F.CHAN_VAL_STATE i) ∧ ∀ i, rd t F.CHAN_VAL_VALUE i = rd (sampled s x) F.CHAN_VAL_VALUE i := by
  have hafter {a : Allow} {u : State} {f : ThermSt → ThermSt} (ht : a.part .thm = true) (ha : sourceFoot.Fits a) (hf : a.field F.THM_STATUS_STAGE = true) :
      Within a u (raiseSource (noteStage (modThm (noteWet u) f)) 22) :=
    Within.raiseSource (Within.noteStage ((Within.noteWet (.refl a u) ht).modThm ht f) hf) ha 22
  exact ⟨_, rfl, fun i => (hafter (a := besides F.CHAN_VAL_STATE [.thm, .bel, .pcie]) (by decide) (by decide) (by decide)).reads i,
    fun i => (hafter (a := besides F.CHAN_VAL_VALUE [.thm, .bel, .pcie]) (by decide) (by decide) (by decide)).reads i⟩

/-- A clean sample of a channel that is enabled and not in fault is its value. -/
theorem takeSample_clean {s : State} {x : ChanSample} (hx : x.chan < 16) (hen : rdB s F.CHAN_CFG_EN x.chan = true)
    (hok : chanFaulty s x.chan = false) (hcond : x.cond = 0) : ∃ u, takeSample s x = setChan u x.chan (if x.outOfSpan then 5 else 1) x.value := by
  refine ⟨_, (if_neg (by simp [hx, hen])).trans ((if_neg (not_not_intro hcond)).trans (if_neg fun h => ?_))⟩
  exact Bool.false_ne_true (hok.symm.trans h.1)

/-- The third sample in one condition enters fault. -/
theorem takeSample_third {s : State} {x : ChanSample} (hx : x.chan < 16) (hen : rdB s F.CHAN_CFG_EN x.chan = true)
    (hok : chanFaulty s x.chan = false) (hcond : x.cond ≠ 0) (hbad : tget s.thm.bad x.chan 0 = 16 * x.cond + 2) :
    ∃ u, takeSample s x = raiseEngine (wr u F.CHAN_VAL_STATE x.chan x.cond) .report evChanFault x.chan 0 := by
  have hcount : (if tget s.thm.bad x.chan 0 / 16 = x.cond then min 15 (tget s.thm.bad x.chan 0 % 16 + 1) else 1) = 3 := by
    rw [hbad, if_pos (by omega)]
    omega
  refine ⟨_, (if_neg (by simp [hx, hen])).trans ((if_pos hcond).trans (if_pos ⟨hcount.ge, fun h => ?_⟩))⟩
  exact Bool.false_ne_true (hok.symm.trans h)

/-! ## Temperatures -/

theorem setDemand_thm (s : State) : ∃ x, (setDemand s).thm = { s.thm with fallAt := x } := by
  unfold setDemand
  dsimp only
  split
  · split
    · exact ⟨s.thm.fallAt, by rw [raiseEngine, raiseEv_thm, wr_thm]⟩
    · exact ⟨s.thm.fallAt, rfl⟩
  · split
    · exact ⟨hallNs s, rfl⟩
    · exact ⟨s.thm.fallAt, rfl⟩

theorem calEval_thm (s : State) : (calEval s).thm = s.thm :=
  ((Within.refl ⟨fun p => decide (p ≠ .thm), fun _ => true⟩ s).calEval rfl ⟨rfl, rfl⟩ rfl).parts .thm rfl

/-- The state with the sensors' readings in their registers. -/
def sensed (s : State) (m : TempReading) : State :=
  wrAll (((m.hbm.take 48).zipIdx).foldl (fun s e => wr s F.THM_STACK_TEMP e.2 (tempField e.1))
    (((m.fields.take 48).zipIdx).foldl (fun s e => wr s F.THM_FIELD_TEMP e.2 (tempField (maxInt e.1))) s)) 0
    [(F.THM_STATUS_TJ_MAX, tempField (maxInt ((m.fields.map maxInt) ++ m.rims.map maxInt))), (F.THM_STATUS_THBM_MAX, tempField (maxInt m.hbm))]

theorem sensed_within (s : State) (m : TempReading) {a : Allow}
    (ha : ∀ f ∈ [F.THM_FIELD_TEMP, F.THM_STACK_TEMP, F.THM_STATUS_TJ_MAX, F.THM_STATUS_THBM_MAX], a.field f = true) : Within a s (sensed s m) :=
  Within.wrAll (Within.foldl (Within.foldl (.refl a s) fun _ h _ => h.wr (ha _ (by simp))) fun _ h _ => h.wr (ha _ (by simp)))
    (by simpa using ⟨ha _ (by simp), ha _ (by simp)⟩)

theorem tempField_lt (t : Int) : tempField t < 2 ^ 12 := (BitVec.ofInt 12 t).isLt

theorem tempRead_acts (s : State) (m : TempReading) : After (exec (.tempRead m) s) fun t =>
    t.thm.tj = maxInt ((m.fields.map maxInt) ++ m.rims.map maxInt) ∧ t.thm.thbm = maxInt m.hbm ∧ rd t F.THM_STATUS_TJ_MAX 0 = tempField t.thm.tj ∧
      t.thm.overLim = (if tjLimit s ≤ t.thm.tj ∨ thbmLimit s ≤ t.thm.thbm then s.thm.overLim + 1 else 0) := by
  let tj := maxInt ((m.fields.map maxInt) ++ m.rims.map maxInt)
  let hot : Bool := tjLimit (sensed s m) ≤ tj || thbmLimit (sensed s m) ≤ maxInt m.hbm
  let u := modThm (sensed s m) fun t => { t with tj := tj, thbm := maxInt m.hbm, overLim := if hot then t.overLim + 1 else 0 }
  have hexec : exec (.tempRead m) s = .next (calEval (setDemand u)) := rfl
  obtain ⟨x, hx⟩ := setDemand_thm u
  have hthm : (calEval (setDemand u)).thm = { u.thm with fallAt := x } := (calEval_thm _).trans hx
  have hlimits : tjLimit (sensed s m) = tjLimit s ∧ thbmLimit (sensed s m) = thbmLimit s := by
    refine ⟨?_, ?_⟩
    · simp only [tjLimit, (sensed_within s m (a := besides F.THM_THR_TJ_LIMIT []) (by decide)).reads 0]
    · simp only [thbmLimit, (sensed_within s m (a := besides F.THM_THR_THBM_LIMIT []) (by decide)).reads 0]
  have hkept : (sensed s m).thm = s.thm := (sensed_within s m (a := ⟨fun _ => false, fun _ => true⟩) (by simp)).parts .thm rfl
  have htj : (calEval (setDemand u)).thm.tj = tj := by rw [hthm]; rfl
  have hthbm : (calEval (setDemand u)).thm.thbm = maxInt m.hbm := by rw [hthm]; rfl
  refine ⟨_, hexec, htj, hthbm, ?_, ?_⟩
  · rw [htj]
    have hafter : Within (besides F.THM_STATUS_TJ_MAX [.thm, .pwr, .bel, .pcie, .events, .alarmFlash, .alarmsDeferred]) u (calEval (setDemand u)) :=
      ((Within.refl _ u).setDemand (by decide) ⟨by decide, by decide⟩ (by decide)).calEval (by decide) ⟨by decide, by decide⟩ (by decide)
    refine (hafter.reads 0).trans ((rd_modThm ..).trans ((rd_wrAll_mem _ 0 _ (by simp only [List.map]; decide) (by decide) List.mem_cons_self).trans ?_))
    exact Nat.mod_eq_of_lt (tempField_lt _)
  · rw [htj, hthbm, hthm]
    show (if hot then (sensed s m).thm.overLim + 1 else 0) = _
    simp only [hot, hlimits, hkept, Bool.or_eq_true, decide_eq_true_eq]

/-! ## The throttle -/

theorem selectStep_sel (s : State) (n : Nat) : (selectStep s n).pwr.sel = n := by
  unfold selectStep
  dsimp only
  split
  · rfl
  · unfold requestStep
    dsimp only
    split <;> rfl

theorem hallNs_selectStep (s : State) (n : Nat) : hallNs (selectStep s n) = hallNs s := by
  unfold selectStep
  dsimp only
  split
  · rfl
  · unfold requestStep
    dsimp only
    split <;> rfl

theorem throttleStepUp_acts {s : State} (htj : s.thm.tj < 4 * ((curve s).1 : Int) - 12) (hthbm : s.thm.thbm < 4 * ((curve s).2.2.1 : Int) - 12)
    (hsel : 0 < s.pwr.sel) : exec .throttleStepUp s = .next (selectStep s (s.pwr.sel - 1)) := by
  show execThrottleStepUp s = _
  rcases hcurve : curve s with ⟨a0, a1, b0, b1⟩
  rw [hcurve] at htj hthbm
  simp only [execThrottleStepUp, hcurve]
  rw [if_pos ⟨htj, hthbm, hsel⟩]

/-! ## The flow -/

/-- The state once the flow is shown. -/
def flowShown (s : State) : State :=
  modThm (wr s F.THM_STATUS_FLOW 0 (match flowNow s with | some n => min 0xFFE (n / 10) | none => 0xFFF)) fun t =>
    { t with noFlow := (flowNow s).isNone }

/-- A low flow is a warning, reported once. -/
def flowWarned (s : State) (n : Nat) : State :=
  if n < 100 * rd s F.THM_THR_FLOW_WARN 0 ∧ s.thm.warn = false then
    raiseEngine (bump (modThm s fun t => { t with warn := true }) F.THM_CNT_FLOW_LOW 0 1) .alarm evFlowLow 0 0
  else s

/-- A lower one begins shedding. -/
def flowShed (s : State) (n : Nat) : State :=
  if n < 100 * rd s F.THM_THR_FLOW_SHED 0 then modThm s fun t => { t with shedFlow := true } else s

/-- The flow's cap follows the warning. -/
def flowCapped (s : State) (n : Nat) : State := modThm s fun t => { t with flowCap := if t.warn then some (657 * n / 100) else none }

theorem flowWarned_thm (s : State) (n : Nat) :
    (flowWarned s n).thm = { s.thm with warn := s.thm.warn || decide (n < 100 * rd s F.THM_THR_FLOW_WARN 0) } := by
  unfold flowWarned
  split
  · next h =>
    rw [raiseEngine, raiseEv_thm, bump_thm, modThm_thm]
    simp [h.1]
  · next h =>
    rcases hwarn : s.thm.warn
    · have hlow : ¬ n < 100 * rd s F.THM_THR_FLOW_WARN 0 := fun hlow => h ⟨hlow, hwarn⟩
      simp [hlow, ← hwarn]
    · rw [Bool.true_or, ← hwarn]

/-- The evaluation of a flow that there is. -/
theorem evalFlow_some {s : State} {n : Nat} (h : flowNow s = some n) :
    evalFlow s = noteStage (setDemand (flowCapped (flowShed (flowWarned (flowShown s) n) n) n)) := by
  unfold evalFlow flowCapped flowShed flowWarned flowShown
  simp only [h, decide_eq_true_eq, Bool.not_eq_true]

theorem evalFlow_none {s : State} (h : flowNow s = none) : evalFlow s = noteStage (setDemand (flowShown s)) := by
  unfold evalFlow flowShown
  simp only [h]

theorem exec_flowEvaluation {s : State} (h : keepDown s = false) : exec .flowEvaluation s = .next (evalFlow s) :=
  congrArg Host.Outcome.next (if_neg (by simp [h]))

theorem flowShown_read {s : State} {v : Nat} (hv : (match flowNow s with | some n => min 0xFFE (n / 10) | none => 0xFFF) = v) (hfits : v < 2 ^ 12) :
    rd (flowShown s) F.THM_STATUS_FLOW 0 = v := by
  unfold flowShown
  rw [rd_modThm, rd_wr_same _ _ _ _ (by decide), hv]
  exact Nat.mod_eq_of_lt hfits

/-- What follows leaves the flow that is shown, and every part of the cooling's state but when DEMAND last fell. -/
theorem flowEnd_kept (s : State) : (∃ x, (noteStage (setDemand s)).thm = { s.thm with fallAt := x }) ∧
    rd (noteStage (setDemand s)) F.THM_STATUS_FLOW 0 = rd s F.THM_STATUS_FLOW 0 := by
  refine ⟨(setDemand_thm s).imp fun x hx => hx, ?_⟩
  exact (((Within.refl (besides F.THM_STATUS_FLOW [.thm, .bel, .pcie, .events, .alarmFlash, .alarmsDeferred]) s).setDemand (by decide)
    ⟨by decide, by decide⟩ (by decide)).noteStage (by decide)).reads 0

/-- The thresholds are those of the start, and the flow that is shown stays, through the warning. -/
theorem flowWarned_reads (s : State) (n : Nat) : rd (flowWarned s n) F.THM_STATUS_FLOW 0 = rd s F.THM_STATUS_FLOW 0 ∧
    rd (flowWarned s n) F.THM_THR_FLOW_SHED 0 = rd s F.THM_THR_FLOW_SHED 0 := by
  have hframe {a : Allow} (ht : a.part .thm = true) (ha : Raises a) (hf : a.field F.THM_CNT_FLOW_LOW = true) : Within a s (flowWarned s n) :=
    .ite ((((Within.refl a s).modThm ht _).bump hf).raiseEngine ha ..) (.refl a s)
  exact ⟨(hframe (a := besides F.THM_STATUS_FLOW [.thm, .bel, .pcie, .events, .alarmFlash, .alarmsDeferred]) (by decide)
      ⟨by decide, by decide⟩ (by decide)).reads 0,
    (hframe (a := besides F.THM_THR_FLOW_SHED [.thm, .bel, .pcie, .events, .alarmFlash, .alarmsDeferred]) (by decide)
      ⟨by decide, by decide⟩ (by decide)).reads 0⟩

theorem flowShown_threshold (s : State) : rd (flowShown s) F.THM_THR_FLOW_WARN 0 = rd s F.THM_THR_FLOW_WARN 0 ∧
    rd (flowShown s) F.THM_THR_FLOW_SHED 0 = rd s F.THM_THR_FLOW_SHED 0 := by
  unfold flowShown
  exact ⟨(rd_modThm ..).trans (rd_wr_clear s 0 0 _ (by decide)), (rd_modThm ..).trans (rd_wr_clear s 0 0 _ (by decide))⟩

theorem flowShed_thm (s : State) (n : Nat) :
    (flowShed s n).thm = { s.thm with shedFlow := s.thm.shedFlow || decide (n < 100 * rd s F.THM_THR_FLOW_SHED 0) } := by
  unfold flowShed
  split
  · next h => simp [h, modThm]
  · next h => simp [h]

theorem rd_flowShed (s : State) (n : Nat) (f : Field) (i : Nat) : rd (flowShed s n) f i = rd s f i := by
  unfold flowShed
  split <;> rfl

/-- The cooling's state after the evaluation of a flow that there is. -/
theorem evalFlow_thm {s : State} {n : Nat} (h : flowNow s = some n) : (evalFlow s).thm.noFlow = false ∧
    (n < 100 * rd s F.THM_THR_FLOW_WARN 0 → (evalFlow s).thm.warn = true ∧ (evalFlow s).thm.flowCap = some (657 * n / 100)) ∧
    (n < 100 * rd s F.THM_THR_FLOW_SHED 0 → (evalFlow s).thm.shedFlow = true) := by
  obtain ⟨⟨x, hx⟩, -⟩ := flowEnd_kept (flowCapped (flowShed (flowWarned (flowShown s) n) n) n)
  obtain ⟨hwarnThr, hshedThr⟩ := flowShown_threshold s
  rw [evalFlow_some h, hx]
  simp only [flowCapped, modThm_thm, flowShed_thm, flowWarned_thm, hwarnThr, (flowWarned_reads _ _).2, hshedThr]
  refine ⟨?_, fun hlow => ?_, fun hlow => ?_⟩
  · simp [flowShown, h]
  · simp [hlow]
  · simp [hlow]

theorem evalFlow_read {s : State} {n : Nat} (h : flowNow s = some n) : rd (evalFlow s) F.THM_STATUS_FLOW 0 = min 0xFFE (n / 10) := by
  rw [evalFlow_some h, (flowEnd_kept _).2, flowCapped, rd_modThm, rd_flowShed, (flowWarned_reads _ _).1]
  exact flowShown_read (by rw [h]) (Nat.lt_of_le_of_lt (Nat.min_le_left ..) (by decide))

/-! ## Valve and pump -/

/-- The outputs at these values, with the enabled channels that show them. -/
def driven (s : State) (v p : Nat) : State :=
  let t := modThm s fun t => { t with valve := v, pump := p }
  let u := if chanValid t 11 then wr t F.CHAN_VAL_VALUE 11 v else t
  if chanValid u 12 then wr u F.CHAN_VAL_VALUE 12 p else u

theorem driven_thm (s : State) (v p : Nat) : (driven s v p).thm = { s.thm with valve := v, pump := p } := by
  unfold driven
  dsimp only
  split <;> split <;> rfl

theorem exec_valvePumpControl {s : State} {v p : Nat} (hheld : outputsHeld s = false) (h : outputs s = ((v, p), s)) :
    exec .valvePumpControl s = .next (driven s v p) := by
  show execValvePumpControl s = _
  simp [execValvePumpControl, hheld, h, driven]

/-! ## Thermal cycles -/

/-- A cycle count leaves the other items' searches. -/
theorem countCycle_turns (s : State) (item i : Nat) (temp c15 c30 : Field) :
    (countCycle item i temp c15 c30 s).thm.turns = tset s.thm.turns item (turn (tget? s.thm.turns item) (tempOf s temp i)).1 := by
  unfold countCycle
  dsimp only
  split
  · rfl
  · split <;> split <;> rfl

/-- After the counts of items 0 to n − 1 each has taken one step of its search from its temperature. -/
theorem fieldCycles_turns (s : State) (n : Nat) :
    let t := (List.range n).foldl (fun s f => countCycle f f F.THM_FIELD_TEMP F.THM_FCYC_C15 F.THM_FCYC_C30 s) s
    (∀ f, tget? t.thm.turns f = if f < n then some (turn (tget? s.thm.turns f) (tempOf s F.THM_FIELD_TEMP f)).1 else tget? s.thm.turns f) ∧
      ∀ f, tempOf t F.THM_FIELD_TEMP f = tempOf s F.THM_FIELD_TEMP f := by
  induction n with
  | zero => exact ⟨fun f => rfl, fun f => rfl⟩
  | succ n ih =>
    obtain ⟨hturns, htemps⟩ := ih
    rw [List.range_succ, List.foldl_append]
    generalize (List.range n).foldl _ s = t at hturns htemps ⊢
    refine ⟨fun f => ?_, fun f => ?_⟩
    · show tget? (countCycle n n F.THM_FIELD_TEMP F.THM_FCYC_C15 F.THM_FCYC_C30 t).thm.turns f = _
      rw [countCycle_turns]
      by_cases hf : f = n
      · subst hf
        rw [tget?_tset_same, hturns, htemps, if_neg (Nat.lt_irrefl f), if_pos (Nat.lt_succ_self f)]
      · rw [tget?_tset_other _ _ hf, hturns]
        simp only [show f < n + 1 ↔ f < n by omega]
    · refine Eq.trans ?_ (htemps f)
      show tempOf (countCycle n n F.THM_FIELD_TEMP F.THM_FCYC_C15 F.THM_FCYC_C30 t) F.THM_FIELD_TEMP f = _
      unfold tempOf
      rw [((Within.refl (besides F.THM_FIELD_TEMP [.thm]) t).countCycle (by decide) (by decide) (by decide) ..).reads f]

/-- The counts of the stacks, whose items come after the fields', leave the fields' searches. -/
theorem stackCycles_turns (s : State) {f : Nat} (hf : f < 48) :
    tget? ((List.range 48).foldl (fun s i => countCycle (64 + i) i F.THM_STACK_TEMP F.THM_SCYC_C15 F.THM_SCYC_C30 s) s).thm.turns f =
      tget? s.thm.turns f := by
  refine List.foldlRecOn (motive := fun t : State => tget? t.thm.turns f = tget? s.thm.turns f) _ _ rfl fun t ht i _ => ?_
  rw [countCycle_turns, tget?_tset_other _ _ (by omega), ht]

theorem noteLife_thm (s : State) : (noteLife s).thm = s.thm :=
  ((Within.refl ⟨fun _ => false, fun _ => true⟩ s).noteLife (by simp)).parts .thm rfl

/-- Settles O42: each measurement is a branch of its command, and what follows it leaves the registers and the state that it showed. -/
theorem coolingMeasures : Obligations.CoolingMeasures := by
  intro s
  refine ⟨fun x hx hen hok => ⟨fun hcond => ?_, fun hlow hhigh hbad => ?_⟩, fun m => ?_, fun hdue hsel => ?_, fun htj hthbm hsel => ?_,
    fun hflow hkeep => ?_, fun n hflow hkeep => ⟨?_, fun hwarn hshed => ?_⟩, fun hheld => ⟨fun hleak => ?_, fun hleak hstop hctl => ?_⟩, ?_, ?_⟩
  · obtain ⟨t, hexec, hstate, hvalue⟩ := channelSample_reads s x
    obtain ⟨u, hu⟩ := takeSample_clean hx (disabledChans_state hx hen).2 ((disabledChans_faulty hx hen).trans hok) hcond
    refine ⟨t, hexec, ?_, ?_⟩
    · rw [hstate, sampled, hu, setChan_state]
      cases x.outOfSpan <;> rfl
    · rw [hvalue, sampled, hu, setChan_value]
  · obtain ⟨t, hexec, hstate, -⟩ := channelSample_reads s x
    obtain ⟨u, hu⟩ := takeSample_third hx (disabledChans_state hx hen).2 ((disabledChans_faulty hx hen).trans hok) (by omega)
      ((disabledChans_bad hen 0).trans hbad)
    refine ⟨t, hexec, (hstate _).trans ?_⟩
    rw [sampled, hu, rd_raiseEngine _ _ (by decide), rd_wr_same _ _ _ _ (by decide)]
    exact Nat.mod_eq_of_lt (show x.cond < 8 by omega)
  · exact tempRead_acts s m
  · have hexec : exec .throttleStepDown s = .next (raiseEngine (bump (selectStep s (s.pwr.sel + 1)) F.THM_CNT_STEP_DOWN 0 1) .report evThermThrottle 0 0) :=
      congrArg Host.Outcome.next (if_pos (And.intro hdue hsel))
    refine ⟨_, hexec, ?_, ?_⟩
    · rw [raiseEngine, raiseEv_pwr, bump_pwr, selectStep_sel]
    · have hhall : hallNs (bump (selectStep s (s.pwr.sel + 1)) F.THM_CNT_STEP_DOWN 0 1) = hallNs s := by
        rw [hallNs, bump_clk]
        exact hallNs_selectStep ..
      refine logged_raiseEngine hhall ?_ ..
      refine Within.reads (ps := [.pwr, .clk]) ?_ 0
      exact ((Within.refl _ s).selectStep (by decide) (by decide) _).bump (by decide)
  · exact ⟨_, throttleStepUp_acts htj hthbm hsel, selectStep_sel ..⟩
  · obtain ⟨⟨x, hx⟩, hread⟩ := flowEnd_kept (flowShown s)
    refine ⟨_, exec_flowEvaluation hkeep, ?_, ?_⟩
    · rw [evalFlow_none hflow, hx]
      simp [flowShown, hflow]
    · rw [evalFlow_none hflow, hread]
      exact flowShown_read (by rw [hflow]) (by decide)
  · obtain ⟨hthere, hlow, hshed⟩ := evalFlow_thm hflow
    exact ⟨_, exec_flowEvaluation hkeep, hthere, evalFlow_read hflow, hlow, hshed⟩
  · have hexec : exec .flowStageEnd s = .next (noteStage (modThm s fun t =>
        { t with warn := false, shedFlow := false, flowCap := none })) := by
      show execFlowStageEnd s = _
      simp [execFlowStageEnd, hflow, hkeep, Nat.not_lt.2 hwarn, Nat.not_lt.2 hshed]
    exact ⟨_, hexec, rfl, rfl, rfl⟩
  · refine ⟨_, exec_valvePumpControl hheld (if_pos hleak), ?_⟩
    simp only [driven_thm, and_self]
  · refine ⟨_, exec_valvePumpControl hheld ((if_neg (by simp [hleak])).trans ((if_neg (by simp [hstop])).trans (if_pos hctl))), ?_⟩
    simp only [driven_thm, and_self]
  · refine ⟨_, rfl, fun f hf => ?_⟩
    obtain ⟨hturns, -⟩ := fieldCycles_turns s 48
    rw [noteLife_thm, stackCycles_turns _ hf, hturns, if_pos hf]
  · have hexec : exec .cycleLogWrite s = .next (if sagLocked s = true then
          modPwr (modThm s fun t => { t with snaps := (hallNs s, cycleCounts s) :: t.snaps.take 720 }) fun p => { p with logsDue := true }
        else modThm (modThm s fun t => { t with snaps := (hallNs s, cycleCounts s) :: t.snaps.take 720 }) fun t => { t with flashed := cycleCounts s }) :=
      rfl
    refine ⟨_, hexec, ?_, fun hfree => ?_, fun hlocked => ?_⟩
    · split <;> rfl
    · rw [if_neg (by simp [hfree])]
      rfl
    · rw [if_pos hlocked]
      exact ⟨rfl, rfl⟩

end Sys2Proof.Proofs.CoolingMeasures

/-! PROOFS. Belfry sources: their events, claims and clock (R466, R478–R489). -/

namespace Sys2Proof.Proofs.BelfrySources

open Sys2Proof Sys2Proof.Machine Sys2Proof.Claims Sys2Proof.Proofs.BelfryComplete Sys2Proof.Proofs.Frames Sys2Proof.Proofs.Raising
  Sys2Proof.Proofs.ReadRules

/-! ## A source that no host takes -/

theorem not_deliverable_host {s : State} {n t : Nat} (ht : 8 ≤ t) (hmask : rd s F.BELFRY_SRC_CFG_MASK n < 256) : deliverable s n t = false := by
  have hbit : (rd s F.BELFRY_SRC_CFG_MASK n).testBit t = false :=
    Nat.testBit_lt_two_pow (hmask.trans_le (Nat.pow_le_pow_right (n := 2) (by decide) ht))
  simp [deliverable, hbit]

/-- A source whose MASK names no host: its delivery to a host changes no register. -/
theorem notifyHost_regs {s : State} {n t : Nat} (ht : 8 ≤ t) (hmask : rd s F.BELFRY_SRC_CFG_MASK n < 256) : (notifyHost n s t).regs = s.regs := by
  unfold notifyHost
  rw [if_neg (by rw [not_deliverable_host ht hmask]; exact Bool.false_ne_true)]

/-- Its evaluation writes DUE alone. -/
theorem evalSource_regs {s : State} {n : Nat} (hmask : rd s F.BELFRY_SRC_CFG_MASK n < 256) :
    (evalSource s n).regs = (wr s F.BELFRY_SRC_STATUS_DUE n (bit (srcDue s n))).regs := by
  have hdue : rd (wr s F.BELFRY_SRC_STATUS_DUE n (bit (srcDue s n))) F.BELFRY_SRC_CFG_MASK n < 256 := by
    rwa [rd_wr_clear s n n _ (by decide)]
  have hfirst := notifyHost_regs (t := 8) (by decide) hdue
  have hsecond := notifyHost_regs (s := notifyHost n (wr s F.BELFRY_SRC_STATUS_DUE n (bit (srcDue s n))) 8) (n := n) (t := 9) (by decide)
    (by rwa [rd_congr hfirst])
  exact hsecond.trans hfirst

theorem addPending_count {s : State} {n : Nat} (h : rd s F.BELFRY_SRC_STATUS_PENDING n < 255) :
    rd (addPending s n) F.BELFRY_SRC_STATUS_PENDING n = rd s F.BELFRY_SRC_STATUS_PENDING n + 1 := by
  have hcount : rd (wr s F.BELFRY_SRC_STATUS_PENDING n (rd s F.BELFRY_SRC_STATUS_PENDING n + 1)) F.BELFRY_SRC_STATUS_PENDING n =
      rd s F.BELFRY_SRC_STATUS_PENDING n + 1 :=
    (rd_wr_same _ _ n _ (by decide)).trans (Nat.mod_eq_of_lt (show _ < 256 by omega))
  have hsat (t : State) : rd (wr t F.BELFRY_SRC_STATUS_SAT n 1) F.BELFRY_SRC_STATUS_PENDING n = rd t F.BELFRY_SRC_STATUS_PENDING n :=
    rd_wr_clear t n n 1 (by decide)
  unfold addPending
  dsimp only
  rw [if_neg h.ne]
  split <;> split
  · exact (hsat _).trans hcount
  · exact (hsat _).trans hcount
  · exact hcount
  · exact hcount

theorem raiseSource_counts {s : State} {n : Nat} (hrun : s.bel.stopped = false) (hmask : rd s F.BELFRY_SRC_CFG_MASK n < 256)
    (h : rd s F.BELFRY_SRC_STATUS_PENDING n < 255) :
    rd (raiseSource s n) F.BELFRY_SRC_STATUS_PENDING n = rd s F.BELFRY_SRC_STATUS_PENDING n + 1 := by
  have hmask' : rd (addPending s n) F.BELFRY_SRC_CFG_MASK n < 256 := by
    rwa [((Within.refl (besides F.BELFRY_SRC_CFG_MASK [.bel, .pcie]) s).addPending (by decide) n).reads n]
  unfold raiseSource
  rw [if_neg (by simp [hrun]), rd_congr (evalSource_regs hmask'), rd_wr_clear _ n n _ (by decide), addPending_count h]

theorem raiseSource_latches {s : State} (n : Nat) (hstop : s.bel.stopped = true) : n ∈ (raiseSource s n).bel.latches := by
  unfold raiseSource
  rw [if_pos hstop]
  split
  · next h => exact List.contains_iff_mem.1 h
  · exact List.mem_append_right _ (List.mem_singleton.2 rfl)

/-! ## Claims and the clock -/

/-- What the evaluation of sources leaves of the Belfry's clock: whether it stands, and its latches. -/
structure SameClock (s t : State) : Prop where
  stopped : t.bel.stopped = s.bel.stopped
  latches : t.bel.latches = s.bel.latches

section

variable {s t : State}

theorem SameClock.of_bel (h : SameClock s t) {u : State} (hs : u.bel.stopped = t.bel.stopped) (hl : u.bel.latches = t.bel.latches) : SameClock s u :=
  ⟨hs.trans h.stopped, hl.trans h.latches⟩

theorem SameClock.sendMsi (h : SameClock s t) (p v : Nat) : SameClock s (sendMsi t p v).1 := by
  unfold Machine.sendMsi
  dsimp only
  split
  · exact h.of_bel rfl rfl
  · split
    · exact h.of_bel rfl rfl
    · exact h.of_bel rfl rfl

theorem SameClock.takePending (h : SameClock s t) (n : Nat) : SameClock s (takePending t n) :=
  h.of_bel (by simp [Machine.takePending]) (by simp [Machine.takePending])

theorem SameClock.notifyHost (h : SameClock s t) (n p : Nat) : SameClock s (notifyHost n t p) := by
  unfold Machine.notifyHost
  split
  · split
    · exact h
    · dsimp only
      split
      · exact (h.sendMsi ..).takePending n
      · exact (h.sendMsi ..).of_bel rfl rfl
  · exact h.of_bel rfl rfl

theorem SameClock.evalSource (h : SameClock s t) (n : Nat) : SameClock s (evalSource t n) :=
  ((h.of_bel (u := wr t F.BELFRY_SRC_STATUS_DUE n _) rfl rfl).notifyHost n 8).notifyHost n 9

theorem SameClock.evalAll (h : SameClock s t) : SameClock s (evalAll t) :=
  List.foldlRecOn (motive := SameClock s) _ Machine.evalSource h fun _ ht n _ => ht.evalSource n

theorem SameClock.addPending (h : SameClock s t) (n : Nat) : SameClock s (addPending t n) := by
  unfold Machine.addPending
  dsimp only
  split
  · exact h.of_bel rfl rfl
  · split <;> split <;> exact h.of_bel rfl rfl

end

/-- The clock starts again with its latches taken. -/
theorem belfryRestart_clock (s : State) : (belfryRestart s).bel.stopped = false ∧ (belfryRestart s).bel.latches = [] := by
  let u : State := { s with bel := { s.bel with stopped := false, latches := [] } }
  have hstart : SameClock u (belfryRestart s) :=
    SameClock.evalAll (List.foldlRecOn (motive := SameClock u) s.bel.latches
      (fun s n => addPending (wr s F.BELFRY_SRC_STATUS_LATCHED n 1) n) ⟨rfl, rfl⟩
      fun t ht n _ => (ht.of_bel (u := wr t F.BELFRY_SRC_STATUS_LATCHED n 1) rfl rfl).addPending n)
  exact ⟨hstart.stopped, hstart.latches⟩

theorem targetOf_lt {a : Agent} {k : Nat} (h : targetOf a = some k) : k < 10 := by
  cases a with
  | mc m =>
    simp only [targetOf, Option.ite_none_right_eq_some, Option.some.injEq] at h
    omega
  | host p =>
    simp only [targetOf, Option.ite_none_right_eq_some, Option.some.injEq] at h
    omega
  | session _ => cases h

/-- The source with the claim noted, before the sources are evaluated. -/
def claimed (s : State) (k n : Nat) : State := wrAll (takePending s n) n [(F.BELFRY_SRC_STATUS_ACTIVE, 1), (F.BELFRY_SRC_STATUS_CLAIMER, k)]

theorem claimFor_some {s : State} {k n : Nat} (h : bestSource s (candidates s k) = some n) : ∃ p,
    claimFor s k = (BitVec.ofNat 64 (rd s F.BELFRY_SRC_CFG_PRIO n * 2 ^ 18 + rd s F.BELFRY_SRC_STATUS_PENDING n * 2 ^ 10 + n),
      evalAll (setRunning { claimed s k n with bel := { (claimed s k n).bel with claimPrio := p } } k)) := by
  unfold claimFor
  rw [h]
  exact ⟨_, rfl⟩

/-- A source claimed reads ACTIVE, with its claimer, after the evaluation too. -/
theorem claimed_reads {s : State} {k n : Nat} (hk : k < 10) (p : Table Nat) :
    let t := evalAll (setRunning { claimed s k n with bel := { (claimed s k n).bel with claimPrio := p } } k)
    rd t F.BELFRY_SRC_STATUS_ACTIVE n = 1 ∧ rd t F.BELFRY_SRC_STATUS_CLAIMER n = k := by
  let u : State := { claimed s k n with bel := { (claimed s k n).bel with claimPrio := p } }
  have hafter {a : Allow} (ha : sourceFoot.Fits a) (hf : a.field F.BELFRY_TGT_RUNNING = true) : Within a u (evalAll (setRunning u k)) :=
    ((Within.refl a u).wr hf).evalAll ha
  have hactive : rd u F.BELFRY_SRC_STATUS_ACTIVE n = 1 :=
    (rd_wr_clear (f := F.BELFRY_SRC_STATUS_CLAIMER) (wr (takePending s n) F.BELFRY_SRC_STATUS_ACTIVE n 1) n n k (by decide)).trans
      (rd_wr_same (takePending s n) F.BELFRY_SRC_STATUS_ACTIVE n 1 (by decide))
  have hclaimer : rd u F.BELFRY_SRC_STATUS_CLAIMER n = k :=
    (rd_wr_same (wr (takePending s n) F.BELFRY_SRC_STATUS_ACTIVE n 1) F.BELFRY_SRC_STATUS_CLAIMER n k (by decide)).trans
      (Nat.mod_eq_of_lt (show k < 16 by omega))
  exact ⟨((hafter (a := besides F.BELFRY_SRC_STATUS_ACTIVE [.bel, .pcie]) (by decide) (by decide)).reads n).trans hactive,
    ((hafter (a := besides F.BELFRY_SRC_STATUS_CLAIMER [.bel, .pcie]) (by decide) (by decide)).reads n).trans hclaimer⟩

/-- A source with an event that TIME has made due is due. -/
theorem srcDue_forced {s : State} {n : Nat} (hpending : 0 < rd s F.BELFRY_SRC_STATUS_PENDING n) (hforced : n ∈ s.bel.forced) : srcDue s n = true := by
  simp [srcDue, hpending, hforced]

theorem returned_head (s : State) (x : Word) : (returned s x).keep.reads.head? = some x := rfl

theorem rd_returned (s : State) (x : Word) (f : Field) (i : Nat) : rd (returned s x) f i = rd s f i := rfl

/-- Settles O47: the evaluation of a source that no host takes writes DUE alone, and no evaluation changes the clock or a claim. -/
theorem belfrySourcesAndClaims : Obligations.BelfrySourcesAndClaims := by
  intro s
  refine ⟨fun n hlisted => ⟨?_, fun a hmay => ?_, fun hstop => raiseSource_latches n hstop, fun hrun hmask hroom => raiseSource_counts hrun hmask hroom⟩,
    fun n hpending htime => ⟨fun hstop => ?_, fun hrun hmask => ?_⟩, fun a k htarget => ⟨fun hnone => ?_, fun n hbest => ?_⟩, ?_, fun hidle => ?_,
    fun up => ?_, fun m hm => ⟨?_, fun a ha => ?_⟩⟩
  · exact congrArg Host.Outcome.next (if_pos hlisted)
  · exact congrArg Host.Outcome.next (if_pos ⟨hmay, hlisted⟩)
  · exact ⟨_, congrArg Host.Outcome.next ((if_pos ⟨hpending, htime⟩).trans (if_pos hstop)), rfl, rfl⟩
  · let u : State := { s with bel := { s.bel with forced := n :: s.bel.forced.filter (· ≠ n) } }
    have hexec : exec (.coalesceTimeout n) s = .next (evalSource u n) :=
      congrArg Host.Outcome.next ((if_pos ⟨hpending, htime⟩).trans (if_neg (by simp [hrun])))
    refine ⟨_, hexec, ?_⟩
    beta_reduce
    rw [rd_congr (evalSource_regs (s := u) hmask), srcDue_forced (s := u) hpending List.mem_cons_self, rd_wr_same _ _ _ _ (by decide)]
    rfl
  · have hclaim : claimFor s k = (0, bump s F.BELFRY_CNT_SPURIOUS 0 1) := by
      unfold claimFor
      rw [hnone]
    show execBelfryClaim a s = _
    simp only [execBelfryClaim, htarget, hclaim]
  · obtain ⟨p, hclaim⟩ := claimFor_some hbest
    obtain ⟨hactive, hclaimer⟩ := claimed_reads (s := s) (n := n) (targetOf_lt htarget) p
    refine ⟨_, ?_, returned_head .., (rd_returned ..).trans hactive, (rd_returned ..).trans hclaimer⟩
    show execBelfryClaim a s = _
    simp only [execBelfryClaim, htarget, hclaim]
  · exact ⟨_, rfl, belfryRestart_clock s⟩
  · exact congrArg Host.Outcome.next (if_pos hidle)
  · exact ⟨_, rfl, congrArg KeepSt.mgmtUp (raiseSource_keep ..)⟩
  · exact congrArg Host.Outcome.next (if_pos ⟨rfl, hm⟩)
  · exact congrArg Host.Outcome.next (if_neg fun h => ha h.1)

end Sys2Proof.Proofs.BelfrySources

/-! PROOFS. The answer to a request that came over the fabric is sent over the fabric (R475), so a mailbox command is not confined to the Keep. -/

namespace Sys2Proof.Proofs.ManagementFrames

open Sys2Proof Sys2Proof.Machine Sys2Proof.Claims

/-- A node that may originate, with a PING of node 7 in its queue of SENDs and no port up. -/
def asked : State := wr { State.reset with keep := { State.reset.keep with sends := [(7, List.replicate 16 0)] } } F.NET_FAB_CTL_NODE 0 1

/-- The row input that serves the oldest SEND. -/
def oldestSend : Req := ⟨4, 0, 0, 16, 0, 0, [], [], 0⟩

/-- The state after the PING. -/
def pinged : State := serve asked oldestSend 0x0000 .none fun s q _ => respond s q stOk []

/-- The answer finds no route to node 7, which UNREACH counts. -/
theorem pinged_unreach : tget? pinged.regs F.NET_FAB_STATUS_UNREACH.base ≠ tget? asked.regs F.NET_FAB_STATUS_UNREACH.base := by
  decide +kernel

/-- Refutes O59: the answer to a PING that came as a Gorla SEND is a message, and with no route to its node a register of the fabric's block counts it. -/
theorem not_managementFrames : ¬ Obligations.ManagementFrames := by
  intro h
  obtain ⟨-, hmailbox, -⟩ := h asked pinged (.mc 0) oldestSend 0 0 0 false false none 0 ⟨0, 0, []⟩ ⟨0, 0, 0, [], 0, 0, 0⟩ ⟨[], [], []⟩ []
  obtain ⟨hblocks, -⟩ := hmailbox (.ping oldestSend) (by simp) rfl
  exact pinged_unreach (hblocks _ (by decide))

end Sys2Proof.Proofs.ManagementFrames

/-! PROOFS. A summary that finds a rim link dead hands the streams over to the twin (R204, R376), whose journal goes out over the fabric (R360), so a
summary is not confined to the control network and the regions. -/

namespace Sys2Proof.Proofs.DataPathFrames

open Sys2Proof Sys2Proof.Machine Sys2Proof.Claims

/-- A rim link of the plan set is dead. -/
def linkDead : State :=
  { State.reset with net := { State.reset.net with deadLinks := [0] }, store := { State.reset.store with rimSlots := [(0, [1])] } }

/-- The journal's ring holds a record that is not sent. -/
def recordKept : State :=
  { linkDead with strm := { linkDead.strm with journal := { linkDead.strm.journal with ring := [⟨0, true, 0, 1, 0, 0, 0, [], true⟩] } } }

/-- The engine is paired, may originate, and has no port up. -/
def paired : State := wr (wr recordKept F.NET_FAB_CTL_NODE 0 1) F.TWIN_STATUS_STATE 0 twPaired

/-- The summary of field 0 with the entry of core 0, which has no fault. -/
def oneEntry : Summary := ⟨0, 0, 1, false, false, true, false, false, [⟨0, 0, true, false, false, false⟩]⟩

/-- A summary of the field's tick that is not its last packet acts by its entries. -/
theorem exec_summary_entries {s : State} {m : Summary} (hfield : m.field < 48) (htick : m.tick = BitVec.ofNat 16 (lanternOf s m.field).tick)
    (hall : m.allField = false) (hlast : m.last = false) :
    exec (.summary m) s = .next (m.entries.foldl (takeEntry (lanternOf s m.field).tick) (takeIn s (sumPacket m))) := by
  have hnow : ¬ (48 ≤ m.field ∨ m.tick ≠ BitVec.ofNat 16 (lanternOf s m.field).tick) := not_or.2 ⟨Nat.not_le.2 hfield, not_not_intro htick⟩
  exact congrArg Host.Outcome.next ((if_neg hnow).trans ((if_neg (by simp [hlast])).trans (if_neg (by simp [hall]))))

/-- The state after the entry. -/
def replanned : State := oneEntry.entries.foldl (takeEntry (lanternOf paired 0).tick) (takeIn paired (sumPacket oneEntry))

theorem summary_replans : exec (.summary oneEntry) paired = .next replanned :=
  exec_summary_entries (by decide) (by decide +kernel) (by decide) (by decide)

/-- The journal's message finds no route to the twin, which UNREACH counts. -/
theorem replanned_unreach : tget? replanned.regs F.NET_FAB_STATUS_UNREACH.base ≠ tget? paired.regs F.NET_FAB_STATUS_UNREACH.base := by
  decide +kernel

/-- Refutes O60: the summary that finds the link dead hands over, and a register of the fabric's block counts the journal's message. -/
theorem not_dataPathFrames : ¬ Obligations.DataPathFrames := by
  intro h
  obtain ⟨-, -, hsummary, -⟩ := h paired replanned (.mc 0) 0 0 0 false 0 none [] 0 [] ⟨0, false, 0, 0, 0, false⟩
    ⟨0, ⟨0, 0, false, false, false, false, false, 0, 0, 0, 0, 0, 0, 0, 0, 0, 0, 0⟩, [], false, 0⟩ ⟨0, 0, false, false, false, 0⟩ oneEntry
    ⟨0, 0, 0, 0, false, false, 0, [], 0, [], 0, false⟩ ⟨0, 0, 0, 0, false, false⟩ ⟨0, [], 0, 0, [], 0, 0, false, 0, 0, false⟩ ⟨false, []⟩
    ⟨0, 0, 0, false, 0⟩ ⟨0, false, [], none⟩ ⟨0, 0, 0, [], 0, 0, none⟩ [] 0 0 .frame [] [] [] 0 [] []
  obtain ⟨hblocks, -⟩ := hsummary summary_replans
  exact replanned_unreach (hblocks _ (by decide))

end Sys2Proof.Proofs.DataPathFrames

/-! PROOFS. What sending over the fabric reaches: the fabric's own state, and the count of what it could not reach (R387–R402). -/

namespace Sys2Proof.Proofs.Frames

open Sys2Proof Sys2Proof.Machine Sys2Proof.Claims

/-- What sending a message reaches. -/
def sendFoot : Foot := ⟨[.fab], [F.NET_FAB_STATUS_UNREACH]⟩

section

variable {a : Allow} {s t : State}

theorem Within.modFab (h : Within a s t) (hp : a.part .fab = true) (f : FabricSt → FabricSt) : Within a s (modFab t f) := h.fab hp _

theorem Within.sendHello (h : Within a s t) (hp : a.part .fab = true) (p : Nat) (node : Option Nat) : Within a s (sendHello t p node) := by
  unfold Machine.sendHello
  exact h.modFab hp _

theorem Within.solicit (h : Within a s t) (hp : a.part .fab = true) (ps : List Nat) : Within a s (solicit t ps) := by
  unfold Machine.solicit
  exact h.modFab hp _

theorem Within.firstUse (h : Within a s t) (hp : a.part .fab = true) (dst : Nat) (ps : List Nat) : Within a s (firstUse t dst ps) :=
  (h.solicit hp ps).foldl fun _ ht p => ht.sendHello hp p _

theorem Within.openPaths (h : Within a s t) (hp : a.part .fab = true) (dst : Nat) : Within a s (openPaths t dst) := by
  unfold Machine.openPaths
  refine Within.foldl (.ite (h.firstUse hp ..) h) fun u hu i => ?_
  split
  · split
    · exact hu.modFab hp _
    · exact hu
  · exact hu

theorem Within.setMsg (h : Within a s t) (hp : a.part .fab = true) (m : GMsg) : Within a s (setMsg t m) := by
  unfold Machine.setMsg
  exact h.modFab hp _

theorem Within.sendFrame (h : Within a s t) (hp : a.part .fab = true) (p : GPath) (g : GHdr) (payload : List Byte) :
    Within a s (sendFrame t p g payload) := by
  unfold Machine.sendFrame
  exact h.modFab hp _

theorem Within.sendSeg (h : Within a s t) (hp : a.part .fab = true) (retx : Bool) (key seg : Nat) : Within a s (sendSeg retx t key seg) := by
  unfold Machine.sendSeg
  split
  · exact h
  · split
    · exact h.setMsg hp _
    · exact ((h.sendFrame hp ..).modFab hp _).setMsg hp _

theorem Within.pumpMsg (h : Within a s t) (hp : a.part .fab = true) (key : Nat) : Within a s (pumpMsg t key) := by
  unfold Machine.pumpMsg
  split
  · split
    · exact h
    · exact h.foldl fun _ hu seg => hu.sendSeg hp ..
  · exact h

theorem Within.pumpTo (h : Within a s t) (hp : a.part .fab = true) (dst : Nat) : Within a s (pumpTo t dst) := h.foldl fun _ hu _ => hu.pumpMsg hp _

theorem Within.sendKeyed (h : Within a s t) (ha : sendFoot.Fits a) (key op tc tenant offset : Nat) (data : List Byte) (mlen : Nat) (user : GUser) :
    Within a s (sendKeyed t key op tc tenant offset data mlen user).2 := by
  have hp : a.part .fab = true := ha.part (by decide)
  unfold Machine.sendKeyed
  dsimp only
  split
  · exact h
  · split
    · exact (h.openPaths hp _).bump (ha.field (by decide))
    · exact ((h.openPaths hp _).modFab hp _).pumpMsg hp _

theorem Within.sendMessage (h : Within a s t) (ha : sendFoot.Fits a) (dst op tc tenant offset : Nat) (data : List Byte) (mlen : Nat) (user : GUser) :
    Within a s (sendMessage t dst op tc tenant offset data mlen user).2 := by
  unfold Machine.sendMessage
  dsimp only
  exact .ite ((h.sendKeyed ha ..).modFab (ha.part (by decide)) _) (h.sendKeyed ha ..)

/-- A message that leaves the table lets those that waited for it go on. -/
theorem Within.dropMsg (h : Within a s t) (hp : a.part .fab = true) (key : Nat) : Within a s (dropMsg t key) := by
  unfold Machine.dropMsg
  exact ((h.modFab hp _).modFab hp _).pumpTo hp _

end

end Sys2Proof.Proofs.Frames

/-! PROOFS. How a mailbox request is served and answered (R470–R475, R505, R507). -/

namespace Sys2Proof.Proofs.MailboxRules

open Sys2Proof Sys2Proof.Machine Sys2Proof.Claims Sys2Proof.Proofs.Frames Sys2Proof.Proofs.Raising

/-! ## Answers -/

/-- What an answer reaches. -/
def answerFoot : Foot := ⟨[.keep, .fab, .bel, .pcie], sourceFoot.fields ++ sendFoot.fields⟩

theorem answer_fits {a : Allow} (h : answerFoot.Fits a) : sourceFoot.Fits a ∧ sendFoot.Fits a := by
  simp only [Foot.Fits, answerFoot, sourceFoot, sendFoot, List.all_cons, List.all_append, List.all_nil, Bool.and_eq_true] at h ⊢
  tauto

theorem respond_within {a : Allow} {s t : State} (h : Within a s t) (ha : answerFoot.Fits a) (q : Req) (status : Nat) (body : List Byte) :
    Within a s (respond t q status body) := by
  obtain ⟨hsource, hsend⟩ := answer_fits ha
  have hk : a.part .keep = true := ha.part (by decide)
  unfold respond
  split
  · exact Within.raiseSource (h.keep hk _) hsource _
  · unfold sendResponse
    exact .ite ((((Within.ite (h.keep hk _) h)).keep hk _).sendMessage hsend ..) ((Within.ite (h.keep hk _) h).keep hk _)

/-- An answer leaves every register field that shares no bit with those of the sources and with UNREACH. -/
theorem rd_respond (s : State) {g : Field} (h : answerFoot.Fits (besides g [.keep, .fab, .bel, .pcie])) (q : Req) (status : Nat) (body : List Byte)
    (i : Nat) : rd (respond s q status body) g i = rd s g i := (respond_within (.refl _ s) h q status body).reads i

theorem sendMessage_keep (s : State) (dst op tc tenant offset : Nat) (data : List Byte) (mlen : Nat) (user : GUser) :
    (sendMessage s dst op tc tenant offset data mlen user).2.keep = s.keep :=
  ((Within.refl ⟨fun p => decide (p ≠ .keep), fun _ => true⟩ s).sendMessage (by decide) ..).parts .keep rfl

theorem sendResponse_keep (s : State) (q : Req) (status : Nat) (body : List Byte) :
    (sendResponse s q status body).keep = { s.keep with responses := ⟨q.chan, q.node, responseBytes q status body⟩ :: s.keep.responses } := by
  unfold sendResponse
  dsimp only
  split
  · exact sendMessage_keep ..
  · rfl

/-- An answer to a host channel ends its request. -/
theorem respond_keep_host (s : State) {q : Req} (h : q.chan < 2) (status : Nat) (body : List Byte) : (respond s q status body).keep =
    (setMbox s q.chan { mboxOf s q.chan with busy := none, done := true, rsp := responseBytes q status body }).keep := by
  unfold respond
  rw [if_pos h]
  exact raiseSource_keep ..

/-- Another answer is the newest response, and a queued SEND that it answers leaves the queue. -/
theorem respond_keep_other (s : State) {q : Req} (h : ¬ q.chan < 2) (status : Nat) (body : List Byte) : ∃ l, (respond s q status body).keep =
    { s.keep with sends := l, responses := ⟨q.chan, q.node, responseBytes q status body⟩ :: s.keep.responses } := by
  unfold respond
  rw [if_neg h]
  split
  · exact ⟨_, sendResponse_keep ..⟩
  · exact ⟨s.keep.sends, sendResponse_keep ..⟩

/-- What an answer changes of the Keep's state: its mailboxes, its queue and its responses. -/
theorem respond_keep (s : State) (q : Req) (status : Nat) (body : List Byte) : ∃ b l r,
    (respond s q status body).keep = { s.keep with mbox := b, sends := l, responses := r } := by
  by_cases h : q.chan < 2
  · exact ⟨_, s.keep.sends, s.keep.responses, respond_keep_host s h ..⟩
  · obtain ⟨l, hl⟩ := respond_keep_other s h status body
    exact ⟨s.keep.mbox, l, _, hl⟩

theorem answered_respond (s : State) (q : Req) (status : Nat) (body : List Byte) : Answered (respond s q status body) q status body := by
  unfold Answered
  dsimp only
  split
  · next h =>
    simp only [mboxOf, respond_keep_host s h, setMbox, tget_tset_same]
    exact ⟨rfl, trivial, trivial⟩
  · next h =>
    obtain ⟨l, hl⟩ := respond_keep_other s h status body
    rw [hl]
    rfl

/-- An answer depends on the mailboxes and the responses alone. -/
theorem answered_congr {s t : State} {q : Req} {status : Nat} {body : List Byte} (h : Answered s q status body) (hm : t.keep.mbox = s.keep.mbox)
    (hr : t.keep.responses = s.keep.responses) : Answered t q status body := by
  unfold Answered at h ⊢
  simpa only [mboxOf, hm, hr] using h

/-! ## Service -/

/-- The state in which a session's request is served: the tag it used is noted where the channel carries one. -/
def tagged (s : State) (r : Req) (x : Session) : State := if 2 ≤ r.chan then noteTag s x.handle r.tag.toNat else s

theorem tagged_eq (s : State) (r : Req) (x : Session) : ∃ l, tagged s r x = { s with keep := { s.keep with sessions := l } } := by
  unfold tagged
  split
  · exact ⟨_, rfl⟩
  · exact ⟨s.keep.sessions, rfl⟩

section

variable {s : State} {q r : Req} {cmd : Nat} {need : Need} {k : State → Req → Option Session → State}

/-- A request without a session, of a command that needs none. -/
theorem serve_admitted_none (h : Admitted s q cmd r none) : serve s q cmd .none k = k s r none := by
  obtain ⟨hserved, hlen, hsession⟩ := h
  have hnone : sessionOf s r.session.toNat = none := by
    rw [hsession]
    rfl
  unfold serve
  simp only [hserved, hnone]
  rw [if_neg (not_not_intro hlen), if_pos trivial]

/-- Of a command that needs one it is refused. -/
theorem serve_admitted_none_refused (h : Admitted s q cmd r none) (hneed : need ≠ .none) : serve s q cmd need k = respond s r stBadHandle [] := by
  obtain ⟨hserved, hlen, hsession⟩ := h
  have hnone : sessionOf s r.session.toNat = none := by
    rw [hsession]
    rfl
  unfold serve
  simp only [hserved, hnone]
  rw [if_neg (not_not_intro hlen), if_neg hneed]

/-- A request in a session with the rights the command needs. -/
theorem serve_admitted {x : Session} (h : Admitted s q cmd r (some x)) (hneed : need = .operator → x.key = 0) :
    serve s q cmd need k = k (tagged s r x) r (some x) := by
  obtain ⟨hserved, hlen, -, hsession, htag⟩ := h
  unfold serve
  simp only [hserved, hsession]
  rw [if_neg (not_not_intro hlen), if_neg, if_neg fun hop => hop.2 (hneed hop.1)]
  · rfl
  · rintro ⟨hchan, hbad⟩
    rcases htag with htag | htag
    · omega
    · exact Bool.false_ne_true (hbad.symm.trans htag)

end

end Sys2Proof.Proofs.MailboxRules

/-! PROOFS. GO, and the commands without effect on the engine (R470–R474, R505). -/

namespace Sys2Proof.Proofs.MailboxCommands

open Sys2Proof Sys2Proof.Machine Sys2Proof.Claims Sys2Proof.Proofs.Raising Sys2Proof.Proofs.MailboxRules

section

variable {s : State} {p : Nat}

/-- The request that GO submits. -/
def submitted (s : State) (p : Nat) : Req := requestOf p (mboxOf s p).reqLen (windowBytes (mboxOf s p))

/-- The state with that request in progress. -/
def submitting (s : State) (p : Nat) : State :=
  raiseSource (setMbox s p { mboxOf s p with busy := some (submitted s p), done := false, rsp := [] }) (9 + p)

/-- The channel exists. -/
theorem channel_exists (hp : p = 0 ∨ p = 1 ∧ s.bifurcated = true) : ¬ (2 ≤ p ∨ p = 1 ∧ s.bifurcated = false) := by
  rintro (h | ⟨rfl, h⟩)
  · omega
  · rcases hp with hp | ⟨-, hp⟩
    · cases hp
    · exact Bool.false_ne_true (h.symm.trans hp)

theorem mboxGo_busy (hp : p = 0 ∨ p = 1 ∧ s.bifurcated = true) {b : Req} (h : (mboxOf s p).busy = some b) :
    mboxGo s p = bump s F.KEEP_CNT_MBOX_BUSY 0 1 := by
  unfold mboxGo
  rw [if_neg (channel_exists hp)]
  simp only [h]

theorem mboxGo_free (hp : p = 0 ∨ p = 1 ∧ s.bifurcated = true) (h : (mboxOf s p).busy = none) :
    mboxGo s p = if requestGood (submitted s p) then submitting s p else respond (submitting s p) (submitted s p) stInternal [] := by
  unfold mboxGo
  rw [if_neg (channel_exists hp)]
  simp only [h]
  rfl

theorem mboxOf_submitting (s : State) (p : Nat) :
    mboxOf (submitting s p) p = { mboxOf s p with busy := some (submitted s p), done := false, rsp := [] } := by
  unfold submitting
  rw [mboxOf, raiseSource_keep]
  exact tget_tset_same ..

end

/-- Settles O44: GO notes the request in its mailbox; every other command is served as its need of a session says. -/
theorem mailboxCommandsAnswer : Obligations.MailboxCommandsAnswer := by
  intro s
  refine ⟨?_, fun q r h => ?_, fun q r h => ?_, fun q r h => ?_, ?_, ?_⟩
  · intro p hp m q
    refine ⟨fun b hb => ?_, fun hfree hlen hknown => ?_, fun hfree hbad => ?_⟩
    · exact congrArg Host.Outcome.next (mboxGo_busy hp hb)
    · have hgood : requestGood (submitted s p) = true := by
        simp only [requestGood, Bool.and_eq_true, decide_eq_true_eq]
        exact ⟨hlen, hknown⟩
      exact ⟨_, congrArg Host.Outcome.next ((mboxGo_free hp hfree).trans (if_pos hgood)), mboxOf_submitting s p⟩
    · have hgood : ¬ requestGood (submitted s p) = true := by
        simp only [requestGood, Bool.and_eq_true, decide_eq_true_eq]
        rintro ⟨hlen, hknown⟩
        rcases hbad with hbad | hbad
        · exact hbad hlen
        · exact Bool.false_ne_true (hbad.symm.trans hknown)
      exact ⟨_, congrArg Host.Outcome.next ((mboxGo_free hp hfree).trans (if_neg hgood)), answered_respond ..⟩
  · exact ⟨_, congrArg Host.Outcome.next (serve_admitted_none h), answered_respond ..⟩
  · exact ⟨_, congrArg Host.Outcome.next (serve_admitted_none h), answered_respond ..⟩
  · exact ⟨_, congrArg Host.Outcome.next (serve_admitted_none h), answered_respond ..⟩
  · intro q r x h first most seen hmost hmax hall
    obtain ⟨l, htagged⟩ := tagged_eq s r x
    have hserve : exec (.eventRead q) s = .next (respond (tagged s r x) r stOk (seen.flatMap recordBytes ++ bytesOf 8 (max first (rd s F.KEEP_EV_SEQ_SEQ 0 + 1)))) := by
      refine congrArg Host.Outcome.next ((serve_admitted h (need := .any) nofun).trans ?_)
      rw [if_neg (show ¬ (numAt r.body 8 2 = 0 ∨ 127 < numAt r.body 8 2) by omega), htagged]
      show respond _ r stOk ((seen.take most).flatMap recordBytes ++ bytesOf 8 (if most < seen.length then _ else max first _)) = _
      rw [List.take_of_length_le hall, if_neg (Nat.not_lt.2 hall)]
      rfl
    exact ⟨_, hserve, answered_respond ..⟩
  · intro q e he r h
    simp only [List.mem_cons, List.not_mem_nil, or_false] at he
    have hrefused {cmd : Nat} {need : Need} {k : State → Req → Option Session → State} (h : Admitted s q cmd r none) (hneed : need ≠ .none) :
        Host.Outcome.next (serve s q cmd need k) = (.next (respond s r stBadHandle []) : Host.Outcome State Fault Refusal) :=
      congrArg Host.Outcome.next (serve_admitted_none_refused h hneed)
    rcases he with rfl | rfl | rfl | rfl | rfl | rfl | rfl | rfl | rfl | rfl | rfl
    all_goals exact hrefused h (by decide)

end Sys2Proof.Proofs.MailboxCommands

/-! PROOFS. Challenges, responses and the life of a session (R504–R508). -/

namespace Sys2Proof.Proofs.Sessions

open Sys2Proof Sys2Proof.Machine Sys2Proof.Claims Sys2Proof.Proofs.BelfryComplete Sys2Proof.Proofs.DebugWindow Sys2Proof.Proofs.Raising
  Sys2Proof.Proofs.ReadRules Sys2Proof.Proofs.Tables Sys2Proof.Proofs.Frames Sys2Proof.Proofs.PowerReports Sys2Proof.Proofs.MailboxRules

/-! ## What is kept -/

section

variable (s : State)

theorem respond_sessions (q : Req) (status : Nat) (body : List Byte) : (respond s q status body).keep.sessions = s.keep.sessions := by
  obtain ⟨b, l, r, h⟩ := respond_keep s q status body
  rw [h]

theorem respond_challenges (q : Req) (status : Nat) (body : List Byte) : (respond s q status body).keep.challenges = s.keep.challenges := by
  obtain ⟨b, l, r, h⟩ := respond_keep s q status body
  rw [h]

theorem respond_events (q : Req) (status : Nat) (body : List Byte) : (respond s q status body).events = s.events :=
  (respond_within (a := ⟨fun p => decide (p ≠ .events), fun _ => true⟩) (.refl _ s) (by decide) q status body).parts .events rfl

theorem countSessions_keep : (countSessions s).keep = s.keep := rfl

/-- Closing sessions changes none of the Keep's state but the sessions. -/
theorem closeSessions_keep (p : Session → Bool) : (closeSessions s p).keep = { s.keep with sessions := s.keep.sessions.filter fun x => !p x } := by
  unfold closeSessions dropPorts
  refine List.foldlRecOn (motive := fun t : State => t.keep = { s.keep with sessions := s.keep.sessions.filter fun x => !p x }) _ _ rfl ?_
  intro t ht port _
  split
  · exact ht
  · exact (wrAll_keep ..).trans ht

theorem selectSession_keep (p : Nat) (x : Session) : (selectSession s p x).keep = s.keep := wrAll_keep ..

end

/-! ## Opening -/

/-- The session that the right response opens. -/
def opened (s : State) (q : Req) (c : Challenge) (key : List Byte) : Session :=
  ⟨(draw s (2 ^ 16)).1 * 2 ^ 16 + (s.keep.serials + 1) % (2 ^ 16 - 1) + 1, c.key, q.chan,
    kmac256 key (c.nonce ++ c.context) (ascii "QB48-SKEY") 32, hallNs s + min 1440 (max 1 (rd s F.SEC_CTL_LIFE 0)) * 60000000000, none⟩

/-- The state with it open, and selected where the request asks for that. -/
def opening (s : State) (q : Req) (c : Challenge) (key : List Byte) : State :=
  let t := countSessions (bump { s with freeCtr := s.freeCtr + 1, keep := { s.keep with serials := s.keep.serials + 1, sessions := opened s q c key :: s.keep.sessions } }
    F.SEC_CNT_OPENED 0 1)
  if q.chan < 2 ∧ numAt q.body 36 1 % 2 = 1 then selectSession t q.chan (opened s q c key) else t

theorem openSession_eq (s : State) (q : Req) (c : Challenge) (key : List Byte) : openSession s q c key =
    respond (opening s q c key) q stOk (bytesOf 4 (opened s q c key).handle ++ bytesOf 8 (opened s q c key).expires) := rfl

theorem opening_sessions (s : State) (q : Req) (c : Challenge) (key : List Byte) :
    (opening s q c key).keep.sessions = opened s q c key :: s.keep.sessions := by
  unfold opening
  dsimp only
  split
  · rw [selectSession_keep]
    rfl
  · rfl

theorem openFailed_sessions (s : State) (chan : Nat) : (openFailed s chan).keep.sessions = s.keep.sessions := by
  unfold openFailed
  dsimp only
  split <;> simp [raiseEngine]

theorem openFailed_events (s : State) (chan : Nat) : (openFailed s chan).events =
    (raiseEngine (bump s F.SEC_CNT_OPEN_FAIL 0 1) .report evSessionFail 0 0).events := by
  unfold openFailed
  dsimp only
  split <;> rfl

theorem openFailed_logged (s : State) (chan : Nat) (q : Req) (status : Nat) (body : List Byte) :
    Logged s (respond (openFailed s chan) q status body) .report evSessionFail 0 0 0 0 := by
  have hraised : Logged s (raiseEngine (bump s F.SEC_CNT_OPEN_FAIL 0 1) .report evSessionFail 0 0) .report evSessionFail 0 0 0 0 :=
    logged_raiseEngine (hallNs_bump ..) (rd_wr_clear s 0 0 _ (by decide)) ..
  rwa [Logged, respond_events, openFailed_events]

/-! ## Challenges -/

/-- The challenge that is drawn. -/
def drawn (s : State) (q : Req) : Challenge :=
  ⟨(s.keep.serials + 1) % 2 ^ 32, numAt q.body 0 1, q.chan, bytesOf 32 (draw s (2 ^ 256)).1,
    challengeContext (draw s (2 ^ 256)).2 (numAt q.body 0 1) q.chan, hallNs s⟩

/-- The state with it noted. -/
def challenging (s : State) (q : Req) : State :=
  { s with freeCtr := s.freeCtr + 1, keep := { s.keep with serials := s.keep.serials + 1, challenges := drawn s q :: s.keep.challenges } }

/-- The state once the challenge that a response names is taken. -/
def answering (s : State) (q : Req) : State :=
  { s with keep := { s.keep with challenges := s.keep.challenges.filter fun c => c.id ≠ numAt q.body 0 4 } }

/-- A response to a challenge that was made to its channel, under a key that can be unsealed: right, it opens a session where one is free; wrong, it fails. -/
theorem sessionOpen_answers {s : State} {q r : Req} {c : Challenge} {key : List Byte} (h : Admitted s q 0x0101 r none)
    (hkey : unsealedKey s c.key = some key)
    (hfound : (s.keep.challenges.find? fun c => c.id = numAt r.body 0 4 && c.chan = r.chan && hallNs s ≤ c.made + 10000000000) = some c) :
    exec (.sessionOpen q) s = .next (
      if (r.body.drop 4).take 32 = kmac256 key (c.nonce ++ c.context) (ascii "QB48-OPEN") 32 ∧ uartShut (answering s r) r.chan = false then
        if 64 ≤ (answering s r).keep.sessions.length then respond (answering s r) r stNoSlot [] else openSession (answering s r) r c key
      else respond (openFailed (answering s r) r.chan) r stBadHandle []) := by
  refine congrArg Host.Outcome.next ((serve_admitted_none h).trans ?_)
  have hkey' : unsealedKey (answering s r) c.key = some key := hkey
  have hbind : ((s.keep.challenges.find? fun c => c.id = numAt r.body 0 4 && c.chan = r.chan && hallNs s ≤ c.made + 10000000000).bind
      fun c => (unsealedKey (answering s r) c.key).map fun k => (c, k)) = some (c, key) := by
    rw [hfound, Option.bind_some, hkey', Option.map_some]
  unfold answering at hbind ⊢
  simp only [hbind]

/-- Settles O45: each command is served by its session, and its answer leaves the sessions and the challenges. -/
theorem sessionsOpenAndClose : Obligations.SessionsOpenAndClose := by
  intro s
  refine ⟨fun q r h hopen => ⟨fun hlocked => ?_, fun hfree => ?_⟩, fun q r c key h hopen hkey hfound => ?_, fun q r x h => ?_, fun q r x h hchan => ?_,
    fun handle => ?_, fun ch => ?_⟩
  · exact congrArg Host.Outcome.next ((serve_admitted_none h).trans ((if_neg (by simp [hopen])).trans (if_pos hlocked)))
  · have hexec : exec (.sessionChallenge q) s =
        .next (respond (challenging s r) r stOk ((drawn s r).nonce ++ bytesOf 4 (drawn s r).id ++ (drawn s r).context)) :=
      congrArg Host.Outcome.next ((serve_admitted_none h).trans ((if_neg (by simp [hopen])).trans (if_neg (Nat.not_lt.2 hfree))))
    exact ⟨_, hexec, drawn s r, respond_challenges .., rfl, rfl, rfl, rfl, answered_respond ..⟩
  · have hexec := sessionOpen_answers h hkey hfound
    refine ⟨fun hright hroom => ?_, fun hwrong => ?_⟩
    · refine ⟨_, hexec.trans (congrArg Host.Outcome.next ((if_pos ⟨hright, hopen⟩).trans ((if_neg (Nat.not_le.2 hroom)).trans (openSession_eq ..)))),
        opened (answering s r) r c key, ?_, rfl, rfl, rfl, rfl, answered_respond ..⟩
      rw [respond_sessions, opening_sessions]
      rfl
    · refine ⟨_, hexec.trans (congrArg Host.Outcome.next (if_neg fun hboth => hwrong hboth.1)), ?_, ?_, answered_respond ..⟩
      · rw [respond_sessions, openFailed_sessions]
        rfl
      · exact openFailed_logged (answering s r) ..
  · refine ⟨_, congrArg Host.Outcome.next (serve_admitted h nofun), ?_, answered_respond ..⟩
    rw [respond_sessions, closeSessions_keep]
    intro y hy
    simpa using (List.mem_filter.1 hy).2
  · have hexec : exec (.sessionSelect q) s = .next (respond (selectSession (tagged s r x) r.chan x) r stOk []) := by
      refine congrArg Host.Outcome.next ((serve_admitted h (need := .any) nofun).trans ?_)
      exact if_pos hchan
    refine ⟨_, hexec, ?_, answered_respond ..⟩
    refine (rd_respond _ (by decide) ..).trans ?_
    exact rd_wrAll_mem _ _ x.handle (by simp only [List.map]; decide) (by decide) (by simp)
  · exact ⟨_, rfl, congrArg KeepSt.sessions (closeSessions_keep ..)⟩
  · exact ⟨_, rfl, tget?_tdel_same ..⟩

end Sys2Proof.Proofs.Sessions

/-! PROOFS. Keys, owners and settings in flash, and the sag lock (R290, R438, R498, R502, R504, R505). -/

namespace Sys2Proof.Proofs.Keys

open Sys2Proof Sys2Proof.Machine Sys2Proof.Claims Sys2Proof.Proofs.Tables Sys2Proof.Proofs.MailboxRules Sys2Proof.Proofs.Sessions

section

variable (s : State)

theorem respond_keys (q : Req) (status : Nat) (body : List Byte) : (respond s q status body).keep.keys = s.keep.keys := by
  obtain ⟨b, l, r, h⟩ := respond_keep s q status body
  rw [h]

theorem respond_owners (q : Req) (status : Nat) (body : List Byte) : (respond s q status body).keep.owners = s.keep.owners := by
  obtain ⟨b, l, r, h⟩ := respond_keep s q status body
  rw [h]

theorem respond_boot (q : Req) (status : Nat) (body : List Byte) : (respond s q status body).keep.boot = s.keep.boot := by
  obtain ⟨b, l, r, h⟩ := respond_keep s q status body
  rw [h]

/-- Setting or revoking a key changes the keys, and the sessions opened with it. -/
theorem putKey_keep (n : Nat) (key : Option (List Byte)) : (putKey s n key).keep =
    { s.keep with
      keys := match key with | some k => tset s.keep.keys n k | none => tdel s.keep.keys n
      sessions := s.keep.sessions.filter fun x => !decide (x.key = n) } := by
  unfold putKey
  dsimp only
  rw [closeSessions_keep]
  split <;> rfl

theorem putKey_closed (n : Nat) (key : Option (List Byte)) : ∀ y ∈ (putKey s n key).keep.sessions, y.key ≠ n := by
  rw [putKey_keep]
  intro y hy
  simpa using (List.mem_filter.1 hy).2

theorem answered_putKey (q : Req) (n : Nat) (key : Option (List Byte)) : Answered (putKey (respond s q stOk []) n key) q stOk [] :=
  answered_congr (answered_respond s q stOk []) (by rw [putKey_keep]) (by rw [putKey_keep])

theorem tagged_rest (r : Req) (x : Session) : (tagged s r x).regs = s.regs ∧ (tagged s r x).keep.keys = s.keep.keys ∧
    (tagged s r x).keep.owners = s.keep.owners ∧ (tagged s r x).keep.boot = s.keep.boot := by
  obtain ⟨l, h⟩ := tagged_eq s r x
  rw [h]
  exact ⟨rfl, rfl, rfl, rfl⟩

theorem sagLocked_tagged (r : Req) (x : Session) : sagLocked (tagged s r x) = sagLocked s := by
  obtain ⟨l, h⟩ := tagged_eq s r x
  rw [h]
  rfl

end

section

variable {s : State} {q r : Req} {x : Session} {cmd : Nat} {f : State → State}

/-- A command that writes flash is FROZEN under the sag lock. -/
theorem serve_frozen {k : State → Req → Option Session → State → State} (h : Admitted s q cmd r (some x)) (hkey : x.key = 0) (hlock : sagLocked s = true) :
    serve s q cmd .operator (fun s q x => unlessSag s q (k s q x)) = respond (tagged s r x) r stFrozen [] :=
  (serve_admitted h fun _ => hkey).trans (if_pos ((sagLocked_tagged s r x).trans hlock))

/-- Without the lock it goes on. -/
theorem serve_unlocked {k : State → Req → Option Session → State → State} (h : Admitted s q cmd r (some x)) (hkey : x.key = 0)
    (hlock : sagLocked s = false) :
    serve s q cmd .operator (fun s q x => unlessSag s q (k s q x)) = k (tagged s r x) r (some x) (tagged s r x) :=
  (serve_admitted h fun _ => hkey).trans (if_neg (by rw [sagLocked_tagged, hlock]; exact Bool.false_ne_true))

end

/-- Settles O46: under the lock each command only answers; without it each changes the part of flash that it names, and answers. -/
theorem keysAndSettingsAreKept : Obligations.KeysAndSettingsAreKept := by
  intro s q r
  refine ⟨fun x hkey hlock e he h => ?_, ?_⟩
  · obtain ⟨-, hkeys, howners, hboot⟩ := tagged_rest s r x
    have hfrozen {k : State → Req → Option Session → State → State} {cmd : Nat} (h : Admitted s q cmd r (some x)) :
        After (Host.Outcome.next (serve s q cmd .operator (fun s q x => unlessSag s q (k s q x)))) fun t =>
          Answered t r stFrozen [] ∧ t.keep.keys = s.keep.keys ∧ t.keep.owners = s.keep.owners ∧ t.keep.boot = s.keep.boot :=
      ⟨_, congrArg Host.Outcome.next (serve_frozen h hkey hlock), answered_respond .., (respond_keys ..).trans hkeys, (respond_owners ..).trans howners,
        (respond_boot ..).trans hboot⟩
    simp only [List.mem_cons, List.not_mem_nil, or_false] at he
    rcases he with rfl | rfl | rfl | rfl | rfl
    all_goals exact hfrozen h
  · intro hlock n hn closed
    have hclosed (t : State) (k : Nat) (key : Option (List Byte)) : closed k (putKey (respond t r stOk []) k key) :=
      ⟨answered_putKey .., putKey_closed _ k key⟩
    refine ⟨fun h hchan hfresh hlen => ?_, fun x hkey => ⟨fun h hlen => ?_, fun h hn0 => ?_, fun h hn32 hlen => ?_, fun h => ?_, fun h hsig => ?_⟩⟩
    · have hexec : exec (.keyInit q) s = .next (putKey (respond s r stOk []) 0 (some (r.body.take 32))) :=
        congrArg Host.Outcome.next ((serve_admitted_none h).trans ((if_neg (by simp [hchan, hfresh])).trans
          ((if_neg (by simp [hlock])).trans (if_neg (Nat.not_lt.2 hlen)))))
      refine ⟨_, hexec, ?_, hclosed ..⟩
      rw [putKey_keep]
      exact tget?_tset_same ..
    · subst hn
      have hexec : exec (.keySet q) s = .next (putKey (respond (tagged s r x) r stOk []) (numAt r.body 0 1) (some (List.zipWith (· ^^^ ·) ((r.body.drop 1).take 32)
          (kmac256 x.skey (ascii "QB48-WRAP" ++ bytesOf 4 r.tag.toNat) [] 32)))) := by
        refine congrArg Host.Outcome.next ((serve_unlocked h hkey hlock).trans ?_)
        exact if_neg (Nat.not_lt.2 hlen)
      refine ⟨_, hexec, hclosed .., ?_⟩
      rw [putKey_keep]
      exact tget?_tset_same ..
    · subst hn
      have hexec : exec (.keyRevoke q) s = .next (putKey (respond (tagged s r x) r stOk []) (numAt r.body 0 1) none) :=
        congrArg Host.Outcome.next ((serve_unlocked h hkey hlock).trans (if_neg hn0))
      refine ⟨_, hexec, hclosed .., ?_⟩
      rw [putKey_keep]
      exact tget?_tdel_same ..
    · subst hn
      let key := (r.body.drop 1).take 57
      let t := tagged s r x
      let owners := if key.all (· = 0) then tdel t.keep.owners (numAt r.body 0 1) else tset t.keep.owners (numAt r.body 0 1) key
      have hshape : ¬ (32 ≤ numAt r.body 0 1 ∨ key.length < 57) := not_or.2 ⟨Nat.not_le.2 hn32, hlen.not_lt⟩
      have hexec : exec (.ownerKeySet q) s = .next (respond { t with keep := { t.keep with owners := owners } } r stOk []) :=
        congrArg Host.Outcome.next ((serve_unlocked h hkey hlock).trans (if_neg hshape))
      refine ⟨_, hexec, answered_respond .., ?_⟩
      rw [respond_owners]
      show tget? (if _ then _ else _) _ = _
      split
      · exact tget?_tdel_same ..
      · exact tget?_tset_same ..
    · obtain ⟨l, htagged⟩ := tagged_eq s r x
      refine ⟨_, congrArg Host.Outcome.next (serve_unlocked h hkey hlock), ?_, ?_, answered_respond ..⟩
      · rw [respond_boot, htagged]
        rfl
      · rw [respond_boot, htagged]
        rfl
    · refine ⟨_, congrArg Host.Outcome.next ((serve_unlocked h hkey hlock).trans (if_pos hsig)), ?_, answered_respond ..⟩
      rw [respond_boot]

end Sys2Proof.Proofs.Keys

/-! PROOFS. O52: the messages of the management component transport, by the table of R352. -/

namespace Sys2Proof.Proofs.ManagementAnswers

open Sys2Proof Sys2Proof.Machine Sys2Proof.Claims

variable {s : State} {m : MctpMsg} {n : Nat} {k : State → State}

/-- State t has one answer more than s: number n with this body, to the endpoint that asked. -/
def Replied (s : State) (m : MctpMsg) (n : Nat) (body : List Byte) (t : State) : Prop :=
  t.keep.mctp.answers = ⟨m.port, m.eid, n, body⟩ :: s.keep.mctp.answers

/-- State t has the request m of number n waiting after those of s, and answers nothing more. -/
def Waits (s : State) (m : MctpMsg) (n : Nat) (t : State) : Prop :=
  t.keep.mctp.deferred = s.keep.mctp.deferred ++ [(n, m)] ∧ t.keep.mctp.answers = s.keep.mctp.answers

/-- A message on a port whose link is up is taken. -/
theorem onMctp_up (hup : (pcieOf s m.port).up = true) : onMctp m s k = k s :=
  if_pos hup

/-- Outside a Keep restart an SPDM or PLDM message is taken at once. -/
theorem unlessRestart_running (hup : (pcieOf s m.port).up = true) (hrun : bootPhase s ≠ phKeepRestart) : unlessRestart n m s k = k s :=
  (onMctp_up hup).trans (if_neg hrun)

/-- During a Keep restart it waits. -/
theorem unlessRestart_restarting (hup : (pcieOf s m.port).up = true) (hrestart : bootPhase s = phKeepRestart) :
    After (.next (unlessRestart n m s k)) (Waits s m n) :=
  ⟨_, congrArg Host.Outcome.next ((onMctp_up hup).trans (if_pos hrestart)), rfl, rfl⟩

/-- Where the responder is there, an SPDM message is taken outside a Keep restart. -/
theorem onSpdm_here (hup : (pcieOf s m.port).up = true) (hrun : bootPhase s ≠ phKeepRestart) (hhere : spdmHere s = true) : onSpdm n m s k = k s :=
  (unlessRestart_running hup hrun).trans (if_pos hhere)

/-- A message that is taken and only answered. -/
theorem replied_of_taken {t : State} {body : List Byte} (h : t = answerMctp s n m body) : After (.next t) (Replied s m n body) :=
  ⟨_, congrArg Host.Outcome.next h, rfl⟩

/-- With one hash offered, of those that the responder supports, no choice is left. -/
theorem doNegotiateAlgorithms_one {h : Byte} (hh : h.toNat ≤ 1) (hbody : m.body = [h]) :
    doNegotiateAlgorithms m s =
      answerMctp (modMctp { s with freeCtr := s.freeCtr + 1 } fun x => { x with hashes := tset x.hashes m.port h.toNat }) 7 m (bytesOf 1 h.toNat) := by
  simp [doNegotiateAlgorithms, hbody, hh, draw, Nat.mod_one]

/-- Settles O52: a message is taken, and answered with the body of its row of the table, unless a Keep restart makes it wait. -/
theorem managementAnswers : Obligations.ManagementAnswers := by
  intro s m hup ans d spdm pldm
  have control {body : List Byte} {n : Nat} : After (.next (onMctp m s fun s => answerMctp s n m body)) (ans n body) :=
    replied_of_taken (onMctp_up hup)
  refine ⟨fun e he => ?_, ⟨_, congrArg Host.Outcome.next (onMctp_up hup), rfl, tget_tset_same ..⟩, fun htype => ?_, fun hrun => ⟨fun e he => ?_,
    ⟨_, congrArg Host.Outcome.next (unlessRestart_running hup hrun), rfl, rfl⟩, fun hhere => ⟨fun e he => ?_, fun h hh hbody => ?_⟩⟩,
    fun hrestart e he => ?_⟩
  · simp only [List.mem_cons, List.not_mem_nil, or_false] at he
    rcases he with rfl | rfl | rfl | rfl
    all_goals exact replied_of_taken (onMctp_up hup)
  · have hexec : exec (.unsupportedMessage m) s = .next (onMctp m s (doUnsupportedMessage m)) := by
      show execUnsupportedMessage m s = _
      simp only [execUnsupportedMessage, htype]
    rw [hexec, ← htype]
    exact replied_of_taken (onMctp_up hup)
  · simp only [pldm, List.mem_cons, List.not_mem_nil, or_false] at he
    rcases he with rfl | rfl | rfl | rfl | rfl | rfl | rfl | rfl
    all_goals exact replied_of_taken (unlessRestart_running hup hrun)
  · simp only [spdm, List.mem_cons, List.not_mem_nil, or_false] at he
    rcases he with rfl | rfl | rfl | rfl | rfl | rfl
    all_goals exact replied_of_taken (onSpdm_here hup hrun hhere)
  · exact ⟨_, congrArg Host.Outcome.next ((onSpdm_here hup hrun hhere).trans (doNegotiateAlgorithms_one hh hbody)), rfl, tget_tset_same ..⟩
  · simp only [spdm, pldm, List.cons_append, List.nil_append, List.mem_cons, List.not_mem_nil, or_false] at he
    rcases he with rfl | rfl | rfl | rfl | rfl | rfl | rfl | rfl | rfl | rfl | rfl | rfl | rfl | rfl
    all_goals exact unlessRestart_restarting hup hrestart

end Sys2Proof.Proofs.ManagementAnswers

/-! PROOFS. What the journal, the emission of entries and a planned handover reach (R324, R345–R363, R375). -/

namespace Sys2Proof.Proofs.Frames

open Sys2Proof Sys2Proof.Machine Sys2Proof.Claims

/-- An operation that reaches less fits where one that reaches more does. -/
theorem Foot.Fits.mono {b c : Foot} {a : Allow} (h : c.Fits a) (hp : ∀ p ∈ b.parts, p ∈ c.parts) (hf : ∀ f ∈ b.fields, f ∈ c.fields) : b.Fits a :=
  Bool.and_eq_true_iff.2 ⟨List.all_eq_true.2 fun p hm => h.part (hp p hm), List.all_eq_true.2 fun f hm => h.field (hf f hm)⟩

/-- What raising an event reaches, its source included. -/
def raiseFoot : Foot := ⟨eventFoot.parts ++ sourceFoot.parts, eventFoot.fields ++ sourceFoot.fields⟩

theorem raises_of_fits {a : Allow} (h : raiseFoot.Fits a) : Raises a :=
  ⟨h.mono (by decide) (by decide), h.mono (by decide) (by decide)⟩

/-- What finishing a ledger command reaches. -/
def finishFoot : Foot := ⟨[.strm], [F.STRM_STATUS_OUTSTANDING, F.STRM_QP_STATUS_OUTSTANDING]⟩

/-- What writing entries to the rings reaches. -/
def emitFoot : Foot := ⟨.strm :: raiseFoot.parts, F.STRM_CNT_TOKENS :: F.STRM_QP_STATUS_HOLD :: raiseFoot.fields⟩

/-- What releasing committed entries reaches. -/
def releaseFoot : Foot := ⟨emitFoot.parts, finishFoot.fields ++ emitFoot.fields⟩

/-- What the counts of streams reach. -/
def countFoot : Foot := ⟨[], [F.STRM_STATUS_OWNED, F.STRM_STATUS_MIRRORED, F.STRM_STATUS_SEATED]⟩

/-- What a planned handover reaches. -/
def handoverFoot : Foot :=
  ⟨.twin :: sendFoot.parts ++ releaseFoot.parts, F.TWIN_STATUS_STATE :: F.STRM_QP_STATUS_ACTIVE :: sendFoot.fields ++ countFoot.fields ++ releaseFoot.fields⟩

section

variable {a : Allow} {s t : State}

theorem Within.modTwin (h : Within a s t) (hp : a.part .twin = true) (f : TwinSt → TwinSt) : Within a s (modTwin t f) := h.twin hp _

theorem Within.sendTwin (h : Within a s t) (hp : a.part .twin = true) (m : TwinOut) : Within a s (sendTwin t m) := h.twin hp _

theorem Within.setTwin (h : Within a s t) (hp : a.part .twin = true) (hf : a.field F.TWIN_STATUS_STATE = true) (n : Nat) : Within a s (setTwin t n) :=
  (h.wr hf).twin hp _

theorem Within.setStream (h : Within a s t) (hp : a.part .strm = true) (k : Nat) (x : Stream) : Within a s (setStream t k x) := h.strm hp _

theorem Within.modStream (h : Within a s t) (hp : a.part .strm = true) (k : Nat) (f : Stream → Stream) : Within a s (modStream t k f) := h.strm hp _

theorem Within.setQp (h : Within a s t) (hp : a.part .strm = true) (n : Nat) (q : QPair) : Within a s (setQp t n q) := h.strm hp _

theorem Within.addRecord (h : Within a s t) (hp : a.part .strm = true) (type handle qp version : Nat) (last : Bool) (body : List Byte) :
    Within a s (addRecord t type handle qp version last body).2 := h.strm hp _

theorem Within.countStreams (h : Within a s t) (ha : countFoot.Fits a) : Within a s (countStreams t) :=
  h.wrAll (by simpa using ⟨ha.field (by decide), ha.field (by decide), ha.field (by decide)⟩)

theorem Within.finishCmd (h : Within a s t) (ha : finishFoot.Fits a) (id qp : Nat) : Within a s (finishCmd t id qp) := by
  have hall : a.field F.STRM_STATUS_OUTSTANDING = true := ha.field (by decide)
  have hqp : a.field F.STRM_QP_STATUS_OUTSTANDING = true := ha.field (by decide)
  exact ((h.strm (ha.part (by decide)) _).wr hall).wr hqp

/-! ## Entries -/

theorem Within.ringWrite (h : Within a s t) (ha : emitFoot.Fits a) (n : Nat) (b : List Byte) (irq : Bool) : Within a s (ringWrite t n b irq) := by
  have hp : a.part .strm = true := ha.part (by decide)
  have hsource : sourceFoot.Fits a := ha.mono (by decide) (by decide)
  have htoken : a.field F.STRM_CNT_TOKENS = true := ha.field (by decide)
  unfold Machine.ringWrite
  exact .ite ((Within.ite ((h.setQp hp ..).bump htoken) (h.setQp hp ..)).raiseSource hsource _) (.ite ((h.setQp hp ..).bump htoken) (h.setQp hp ..))

theorem Within.noteHold (h : Within a s t) (ha : emitFoot.Fits a) (n : Nat) : Within a s (noteHold t n) := by
  have hp : a.part .strm = true := ha.part (by decide)
  have hraise : Raises a := raises_of_fits (ha.mono (by decide) (by decide))
  have hwr (v : Nat) : Within a s (Machine.wr t F.STRM_QP_STATUS_HOLD n v) := h.wr (ha.field (by decide))
  unfold Machine.noteHold
  exact .ite (((hwr _).setQp hp ..).raiseEngine hraise ..) (.ite ((hwr _).setQp hp ..) (hwr _))

theorem Within.emitEntry (h : Within a s t) (ha : emitFoot.Fits a) (n : Nat) (b : List Byte) (irq : Bool) : Within a s (emitEntry t n b irq) := by
  have hp : a.part .strm = true := ha.part (by decide)
  unfold Machine.emitEntry
  exact .ite (h.ringWrite ha ..) (.ite ((h.setQp hp ..).noteHold ha n) (h.setQp hp ..))

theorem Within.releaseEmit (h : Within a s t) (ha : releaseFoot.Fits a) (e : Emit) : Within a s (releaseEmit t e) := by
  have hemit : emitFoot.Fits a := ha.mono (by decide) (by decide)
  have hfinish : finishFoot.Fits a := ha.mono (by decide) (by decide)
  unfold Machine.releaseEmit
  split
  · exact .ite h (.ite (h.emitEntry hemit ..) h)
  · split
    · exact .ite ((h.finishCmd hfinish ..).emitEntry hemit ..) (h.finishCmd hfinish ..)
    · exact .ite (h.emitEntry hemit ..) h

theorem Within.releaseCommitted (h : Within a s t) (ha : releaseFoot.Fits a) : Within a s (releaseCommitted t) := by
  have hp : a.part .strm = true := ha.part (by decide)
  exact Within.strm (Within.foldl (h.strm hp _) fun _ hu e => hu.releaseEmit ha e) hp _

theorem Within.complete (h : Within a s t) (ha : releaseFoot.Fits a) (hf : a.field F.STRM_CNT_FAILED = true) (c : LCmd)
    (handle status detail next' aux : Nat) : Within a s (complete t c handle status detail next' aux) := by
  have hp : a.part .strm = true := ha.part (by decide)
  have hfinish : finishFoot.Fits a := ha.mono (by decide) (by decide)
  have hcount := Within.ite (p := 0x10 ≤ status) (h.bump (i := 0) (n := 1) hf) h
  unfold Machine.complete
  exact .ite (hcount.finishCmd hfinish ..) (((hcount.addRecord hp ..).strm hp _).releaseCommitted ha)

/-! ## Handover -/

theorem Within.sendJournal (h : Within a s t) (ha : sendFoot.Fits a) : Within a s (sendJournal t) := by
  unfold Machine.sendJournal
  exact .ite h (.ite h ((h.modFab (ha.part (by decide)) _).sendMessage ha ..))

theorem Within.stopQueues (h : Within a s t) (hp : a.part .strm = true) (hf : a.field F.STRM_QP_STATUS_ACTIVE = true) : Within a s (stopQueues t) :=
  h.foldl fun _ hu _ => .ite ((hu.setQp hp ..).wr hf) hu

theorem Within.handover (h : Within a s t) (ha : handoverFoot.Fits a) : Within a s (handover t) := by
  have htwin : a.part .twin = true := ha.part (by decide)
  have hstrm : a.part .strm = true := ha.part (by decide)
  have hstate : a.field F.TWIN_STATUS_STATE = true := ha.field (by decide)
  have hactive : a.field F.STRM_QP_STATUS_ACTIVE = true := ha.field (by decide)
  have hreleased := (h.sendJournal (ha.mono (by decide) (by decide))).releaseCommitted (ha.mono (by decide) (by decide))
  have hstopped (m : TwinOut) (f : TwinSt → TwinSt) (x : StreamSt) :=
    (((hreleased.modTwin htwin f).sendTwin htwin m).stopQueues hstrm hactive).strm hstrm x
  unfold Machine.handover
  exact .ite h (((hstopped ..).setTwin htwin hstate _).countStreams (ha.mono (by decide) (by decide)))

end

end Sys2Proof.Proofs.Frames

/-! PROOFS. What the stop of a region, the end of a rack and the loss of a field reach (R52, R113, R285, R313, R371, R376, R538). -/

namespace Sys2Proof.Proofs.Frames

open Sys2Proof Sys2Proof.Machine Sys2Proof.Claims

/-- What sending packets over the control network reaches. -/
def ctlFoot : Foot := ⟨[.ctlSent, .net], []⟩

/-- What ordering a region to stop reaches. -/
def stopFoot : Foot := ⟨[.units, .ctlSent, .net], [F.REG_UNIT_STATUS_STATE]⟩

/-- What putting a region's streams under cover reaches. -/
def coverFoot : Foot := ⟨.units :: .strm :: raiseFoot.parts, F.TWIN_CNT_COVERS :: raiseFoot.fields⟩

/-- What the completion of region commands reaches. -/
def settleFoot : Foot := ⟨.units :: raiseFoot.parts, F.REG_UNIT_STATUS_CMD_STATUS :: raiseFoot.fields⟩

/-- What landing exported rows reaches. -/
def landFoot : Foot := ⟨.strm :: sendFoot.parts, sendFoot.fields⟩

/-- What discarding a region's seats reaches. -/
def discardFoot : Foot := ⟨landFoot.parts, F.STRM_PAGER_CNT_REPREFILL :: countFoot.fields ++ landFoot.fields⟩

/-- What abandoning a rack reaches. -/
def rackFoot : Foot :=
  ⟨[.units, .store], [F.CASK_RACK_STATUS_PHASE, F.CASK_RACK_STATUS_CMD_STATUS, F.CASK_RACK_STATUS_DRAIN_LEFT, F.CORE_SPAD_WIN_BASE, F.CORE_SPAD_WIN_LEN,
    F.REG_UNIT_STATUS_STATE]⟩

/-- What the loss of a region reaches. -/
def regionLossFoot : Foot := ⟨stopFoot.parts ++ coverFoot.parts, F.CORE_SPAD_WIN_LEN :: stopFoot.fields ++ coverFoot.fields⟩

/-- What the loss of a field reaches. -/
def fieldLossFoot : Foot :=
  ⟨.lanterns :: .cores :: .pwr :: rackFoot.parts ++ regionLossFoot.parts ++ discardFoot.parts ++ handoverFoot.parts ++ settleFoot.parts,
    F.KEEP_FIELD_LOST_LOST :: F.CORE_STATUS_STATE :: rackFoot.fields ++ regionLossFoot.fields ++ discardFoot.fields ++ handoverFoot.fields ++ settleFoot.fields⟩

section

variable {a : Allow} {s t : State}

theorem Within.modUnit (h : Within a s t) (hp : a.part .units = true) (r : Nat) (f : Region → Region) : Within a s (modUnit t r f) := h.units hp _

theorem Within.setPhase (h : Within a s t) (hp : a.part .units = true) (r : Nat) (p : RPhase) : Within a s (setPhase t r p) := h.units hp _

theorem Within.finishPart (h : Within a s t) (hp : a.part .units = true) (r st : Nat) : Within a s (finishPart t r st) := h.units hp _

theorem Within.setRegionState (h : Within a s t) (hf : a.field F.REG_UNIT_STATUS_STATE = true) (r st : Nat) : Within a s (setRegionState t r st) := h.wr hf

theorem Within.setCoreState (h : Within a s t) (hf : a.field F.CORE_STATUS_STATE = true) (c st : Nat) : Within a s (setCoreState t c st) := h.wr hf

/-! ## Stops -/

theorem Within.sendCtl (h : Within a s t) (ha : ctlFoot.Fits a) (p : CtlPacket) : Within a s (sendCtl t p) := by
  have hsent := h.ctlSent (ha.part (by decide)) (p :: t.ctlSent)
  unfold Machine.sendCtl
  dsimp only
  split
  · exact hsent.net (ha.part (by decide)) _ rfl
  · exact hsent

theorem Within.sendAllCtl (h : Within a s t) (ha : ctlFoot.Fits a) (l : List CtlPacket) : Within a s (sendAllCtl t l) := h.foldl fun _ hu p => hu.sendCtl ha p

theorem Within.orderStop (h : Within a s t) (ha : stopFoot.Fits a) (r : Nat) : Within a s (orderStop t r) := by
  have hstate : a.field F.REG_UNIT_STATUS_STATE = true := ha.field (by decide)
  exact h.foldl fun _ hu _ => .ite (((hu.setRegionState hstate ..).sendAllCtl (ha.mono (by decide) (by decide)) _).modUnit (ha.part (by decide)) ..) hu

theorem Within.stopForFault (h : Within a s t) (ha : stopFoot.Fits a) (r : Nat) : Within a s (stopForFault t r) :=
  h.foldl fun _ hu _ => .ite ((hu.sendAllCtl (ha.mono (by decide) (by decide)) _).modUnit (ha.part (by decide)) ..) hu

/-! ## Cover and region commands -/

theorem Within.coverRegion (h : Within a s t) (ha : coverFoot.Fits a) (r : Nat) : Within a s (coverRegion t r) := by
  have hstrm : a.part .strm = true := ha.part (by decide)
  have hcount : a.field F.TWIN_CNT_COVERS = true := ha.field (by decide)
  have hraise : Raises a := raises_of_fits (ha.mono (by decide) (by decide))
  unfold Machine.coverRegion
  refine .ite (.ite h ?_) h
  exact Within.raiseRegion (Within.modUnit (h.foldl fun _ hu _ => ((hu.addRecord hstrm ..).modStream hstrm ..).bump hcount) (ha.part (by decide)) ..) hraise ..

theorem Within.settleUnit (h : Within a s t) (ha : settleFoot.Fits a) (r : Nat) : Within a s (settleUnit t r) := by
  have hstatus : a.field F.REG_UNIT_STATUS_CMD_STATUS = true := ha.field (by decide)
  have hraise : Raises a := raises_of_fits (ha.mono (by decide) (by decide))
  unfold Machine.settleUnit
  dsimp only
  split
  · exact h
  · exact .ite h (((h.modUnit (ha.part (by decide)) ..).wr hstatus).raiseRegion hraise ..)

theorem Within.settleAll (h : Within a s t) (ha : settleFoot.Fits a) : Within a s (settleAll t) := h.foldl fun _ hu r => hu.settleUnit ha r

theorem Within.closeRepair (h : Within a s t) (hp : a.part .units = true) (hf : a.field F.CORE_SPAD_WIN_LEN = true) (r c : Nat) :
    Within a s (closeRepair t r c) := by
  unfold Machine.closeRepair
  split
  · exact (h.wr hf).modUnit hp ..
  · exact h

theorem Within.closeRepairs (h : Within a s t) (hp : a.part .units = true) (hf : a.field F.CORE_SPAD_WIN_LEN = true) (r : Nat) :
    Within a s (closeRepairs t r) := h.foldl fun _ hu c => hu.closeRepair hp hf r c

/-! ## Exports and seats -/

theorem Within.landExport (h : Within a s t) (ha : landFoot.Fits a) (e : SealExport) : Within a s (landExport t e) := by
  have hlanded : Within a s (landRows { t with strm := { t.strm with exports := t.strm.exports.filter fun d => d ≠ e } } e) :=
    (h.strm (ha.part (by decide)) _).strm (ha.part (by decide)) _
  unfold Machine.landExport
  exact .ite (hlanded.sendMessage (ha.mono (by decide) (by decide)) ..) hlanded

theorem Within.landExports (h : Within a s t) (ha : landFoot.Fits a) (k : Nat) : Within a s (landExports t k) := h.foldl fun _ hu e => hu.landExport ha e

theorem Within.discardSeats (h : Within a s t) (ha : discardFoot.Fits a) (r : Nat) : Within a s (discardSeats t r) := by
  have hstrm : a.part .strm = true := ha.part (by decide)
  have hcount : a.field F.STRM_PAGER_CNT_REPREFILL = true := ha.field (by decide)
  have hland : landFoot.Fits a := ha.mono (by decide) (by decide)
  refine Within.countStreams (((h.foldl fun _ hu k => ?_).strm hstrm _).strm hstrm _) (ha.mono (by decide) (by decide))
  exact Within.strm (.ite (hu.landExports hland k) ((hu.landExports hland k).bump hcount)) hstrm _

/-! ## Racks -/

theorem Within.endRack (h : Within a s t) (ha : rackFoot.Fits a) (st : Nat) : Within a s (endRack t st) := by
  unfold Machine.endRack
  split
  · exact (h.store (ha.part (by decide)) _).wrAll (by simpa using ⟨ha.field (by decide), ha.field (by decide), ha.field (by decide)⟩)
  · exact h

theorem Within.restoreRack (h : Within a s t) (ha : rackFoot.Fits a) (r : Nat) : Within a s (restoreRack t r) := by
  have hunits : a.part .units = true := ha.part (by decide)
  have hstate : a.field F.REG_UNIT_STATUS_STATE = true := ha.field (by decide)
  have hwin : a.field F.CORE_SPAD_WIN_BASE = true ∧ a.field F.CORE_SPAD_WIN_LEN = true := ⟨ha.field (by decide), ha.field (by decide)⟩
  unfold Machine.restoreRack
  dsimp only
  split
  · exact h
  · exact h.finishPart hunits ..
  · refine .ite (Within.finishPart (.ite (Within.setRegionState (h.foldl ?_) hstate ..) h) hunits ..)
      (Within.setPhase (.ite (Within.setRegionState (h.foldl ?_) hstate ..) h) hunits ..)
    all_goals exact fun _ hu c => (hu.wr hwin.1).wr hwin.2

theorem Within.abandonRack (h : Within a s t) (ha : rackFoot.Fits a) (st : Nat) : Within a s (abandonRack t st) := by
  unfold Machine.abandonRack
  split
  · exact (h.endRack ha st).foldl fun _ hu r => hu.restoreRack ha r
  · exact h

/-! ## Losses -/

theorem Within.regionLost (h : Within a s t) (ha : regionLossFoot.Fits a) (r : Nat) : Within a s (regionLost t r) := by
  have hunits : a.part .units = true := ha.part (by decide)
  have hstate : a.field F.REG_UNIT_STATUS_STATE = true := ha.field (by decide)
  have hwin : a.field F.CORE_SPAD_WIN_LEN = true := ha.field (by decide)
  have hstopped := Within.ite (p := regionRuns t r) ((h.stopForFault (ha.mono (by decide) (by decide)) r).coverRegion (ha.mono (by decide) (by decide)) r) h
  unfold Machine.regionLost
  exact (((Within.ite hstopped (hstopped.finishPart hunits ..)).closeRepairs hunits hwin r).setRegionState hstate ..).modUnit hunits ..

theorem Within.fieldLoss (h : Within a s t) (ha : fieldLossFoot.Fits a) (f : Nat) : Within a s (fieldLoss t f) := by
  have hlost : a.field F.KEEP_FIELD_LOST_LOST = true := ha.field (by decide)
  have hstate : a.field F.CORE_STATUS_STATE = true := ha.field (by decide)
  have hcores : a.part .cores = true := ha.part (by decide)
  have hpwr : a.part .pwr = true := ha.part (by decide)
  have hstore : a.part .store = true := ha.part (by decide)
  have hnet : a.part .net = true ∧ a.part .lanterns = true := ⟨ha.part (by decide), ha.part (by decide)⟩
  have hraised : Within a s (Machine.raiseEngine (Machine.wr t F.KEEP_FIELD_LOST_LOST 0 (rd t F.KEEP_FIELD_LOST_LOST 0 + 2 ^ f)) .alarm evFieldLost f 0) :=
    (h.wr hlost).raiseEngine (raises_of_fits (ha.mono (by decide) (by decide))) ..
  have hregions (l : List Nat) := Within.foldl (l := l)
    (Within.foldl (l := l) hraised fun _ hu r => hu.regionLost (ha.mono (by decide) (by decide)) r)
    fun _ hu r => hu.discardSeats (ha.mono (by decide) (by decide)) r
  have hcleared (l : List Nat) := Within.foldl (l := fieldCores f) (hregions l) fun u hu c => (hu.cores hcores (tdel u.cores c)).setCoreState hstate c csOff
  unfold Machine.fieldLoss
  refine .ite h ((Within.handover ?_ (ha.mono (by decide) (by decide))).settleAll (ha.mono (by decide) (by decide)))
  exact ((((hcleared _).store hstore _).pwr hpwr _).abandonRack (ha.mono (by decide) (by decide)) _).netAll hnet.1 hnet.2 _

end

end Sys2Proof.Proofs.Frames

/-! PROOFS. What a start and a restart of the Keep leave in the Keep's own state (R379, R497, R511–R515). -/

namespace Sys2Proof.Proofs.StartRules

open Sys2Proof Sys2Proof.Machine Sys2Proof.Claims Sys2Proof.Proofs.Frames Sys2Proof.Proofs.Raising Sys2Proof.Proofs.ReadRules
  Sys2Proof.Proofs.Sessions Sys2Proof.Proofs.BelfryComplete

/-! ## What leaves the Keep's state -/

/-- The allowance of everything but the Keep's own state. -/
def besidesKeep : Allow := ⟨fun p => decide (p ≠ .keep), fun _ => true⟩

theorem within_keep {s t : State} (h : Within besidesKeep s t) : t.keep = s.keep := h.parts .keep rfl

theorem raiseEngine_keep (s : State) (k : EvKind) (code unit data : Nat) : (raiseEngine s k code unit data).keep = s.keep := raiseEv_keep ..

theorem handover_keep (s : State) : (handover s).keep = s.keep := within_keep ((Within.refl _ s).handover (by decide))

theorem orderStops_keep (s : State) (l : List Nat) : (l.foldl orderStop s).keep = s.keep :=
  within_keep ((Within.refl besidesKeep s).foldl fun _ ht r => ht.orderStop (by decide) r)

theorem releaseSource_within {a : Allow} {s t : State} (h : Within a s t) (hb : a.part .bel = true)
    (hf : a.field F.BELFRY_SRC_STATUS_ACTIVE = true ∧ a.field F.BELFRY_SRC_STATUS_CLAIMER = true ∧ a.field F.BELFRY_TGT_RUNNING = true) (n : Nat) :
    Within a s (releaseSource t n) := by
  obtain ⟨hactive, hclaimer, hrunning⟩ := hf
  unfold releaseSource setRunning
  exact Within.wr (Within.bel (Within.wr (h.wr hactive) hclaimer) hb _) hrunning

theorem belfryKeepRestart_keep (s : State) : (belfryKeepRestart s).keep = s.keep := by
  have hstopped : Within besidesKeep s { s with bel := { s.bel with stopped := true } } := (Within.refl _ s).bel rfl _
  exact within_keep (hstopped.foldl fun t ht n => ((releaseSource_within ht rfl ⟨rfl, rfl, rfl⟩ n).addPending (by decide) n).bel rfl _)

/-! ## Phases -/

/-- A phase that is entered is in progress. -/
theorem bootPhase_enterPhase (s : State) {n : Nat} (hn : n < 2 ^ F.BOOT_STATUS_PHASE.width) : bootPhase (enterPhase s n) = n := by
  refine (rd_modBoot ..).trans ((rd_wr_same s _ 0 n (by decide)).trans (Nat.mod_eq_of_lt hn))

/-- Entering a phase leaves the fields that share no bit with PHASE. -/
theorem rd_enterPhase (s : State) (n : Nat) (g : Field) (i : Nat) (h : Clear F.BOOT_STATUS_PHASE g) : rd (enterPhase s n) g i = rd s g i :=
  (rd_modBoot ..).trans (rd_wr_clear s 0 i n h)

theorem enterPhase_boot (s : State) (n : Nat) : (enterPhase s n).keep.boot = { s.keep.boot with phaseStart := s.clk.hall } := rfl

/-! ## Sessions that close -/

theorem closeSessions_within {a : Allow} {s t : State} (h : Within a s t) (hp : a.part .keep = true)
    (hf : a.field F.SEC_STATUS_SESSIONS = true ∧ a.field F.SEC_PORT_SESSION_SESSION = true ∧ a.field F.SEC_PORT_SESSION_TENANT = true)
    (p : Session → Bool) : Within a s (closeSessions t p) := by
  obtain ⟨hcount, hsession, htenant⟩ := hf
  exact ((h.keep hp _).wr hcount).foldl fun _ hu _ => .ite hu (hu.wrAll (by simpa using ⟨hsession, htenant⟩))

/-- What closing sessions may reach. -/
def sessionsOnly : Allow := ⟨fun p => decide (p = .keep), fun f => f = F.SEC_STATUS_SESSIONS || f = F.SEC_PORT_SESSION_SESSION || f = F.SEC_PORT_SESSION_TENANT⟩

theorem closeSessions_only (s : State) (p : Session → Bool) : Within sessionsOnly s (closeSessions s p) :=
  closeSessions_within (.refl _ s) rfl ⟨by decide, by decide, by decide⟩ p

@[simp] theorem closeSessions_clk (s : State) (p : Session → Bool) : (closeSessions s p).clk = s.clk := (closeSessions_only s p).parts .clk rfl

@[simp] theorem closeSessions_events (s : State) (p : Session → Bool) : (closeSessions s p).events = s.events := (closeSessions_only s p).parts .events rfl

@[simp] theorem closeSessions_twin (s : State) (p : Session → Bool) : (closeSessions s p).twin = s.twin := (closeSessions_only s p).parts .twin rfl

theorem closeSessions_all (s : State) : (closeSessions s fun _ => true).keep.sessions = [] := by
  rw [closeSessions_keep]
  exact List.filter_eq_nil_iff.2 fun _ _ => by simp

/-! ## Starts -/

section

variable (s : State) (kind : StartKind)

/-- Of the boot state a start keeps the flash, the record, the slots and the settings. -/
theorem beginStart_boot : (beginStart s kind).keep.boot =
    { s.keep.boot with kind := kind, origin := s.clk.hall, phaseStart := s.clk.hall, heldMcs := [], rerun := [], planned := false, toBind := [] } := by
  simp [beginStart, enterPhase_boot, modBoot, dropRequests, closeSessions_keep]

theorem bootPhase_beginStart : bootPhase (beginStart s kind) = phKeep := bootPhase_enterPhase _ (by decide)

theorem beginStart_sessions : (beginStart s kind).keep.sessions = [] := by
  simp [beginStart, enterPhase, modBoot, dropRequests, closeSessions_keep]

theorem beginStart_cores : (beginStart s kind).cores = [] := by simp [beginStart, enterPhase, modBoot]

theorem beginStart_events : (beginStart s kind).events = s.events := by simp [beginStart, enterPhase, modBoot, dropRequests]

theorem beginStart_clk : (beginStart s kind).clk.gated = true ∧ (beginStart s kind).clk.hall = s.clk.hall := by
  simp [beginStart, enterPhase, modBoot, dropRequests]

theorem beginStart_strm_cold : (beginStart s .cold).strm = StreamSt.initial := by simp [beginStart, enterPhase, modBoot]

end

/-! ## Restarts of the Keep -/

theorem beginKeepOnly_keep (s : State) (planned : Bool) : (beginKeepOnly s planned).keep =
    { (if planned then s else dropRequests (closeSessions s fun _ => true)).keep with
      boot := { s.keep.boot with kind := .keepOnly, origin := s.clk.hall, phaseStart := s.clk.hall, rerun := runningRegions s, planned := planned,
                                 heldMcs := [] } } := by
  unfold beginKeepOnly
  cases planned <;> simp [orderStops_keep, enterPhase, modBoot, dropRequests, closeSessions_keep]

/-- A planned restart keeps the sessions. -/
theorem plannedRestart_keep (s : State) : (plannedRestart s).keep =
    { s.keep with boot := { s.keep.boot with kind := .keepOnly, origin := s.clk.hall, phaseStart := s.clk.hall,
                                             rerun := runningRegions (countRestart s 4), planned := true, heldMcs := [] } } := by
  unfold plannedRestart
  rw [belfryKeepRestart_keep, beginKeepOnly_keep, if_pos rfl]
  simp [countRestart]

theorem storedCal_keep (s : State) : (storedCal s).keep = s.keep := rfl

theorem handover_hall (s : State) : (handover s).clk = s.clk := ((Within.refl ⟨fun p => decide (p ≠ .clk), fun _ => true⟩ s).handover (by decide)).parts .clk rfl

/-- Of the boot state a full restart keeps what a start keeps. -/
theorem fullRestart_boot (s : State) (kind : StartKind) : (fullRestart s kind).keep.boot =
    { s.keep.boot with kind := kind, origin := s.clk.hall, phaseStart := s.clk.hall, heldMcs := [], rerun := [], planned := false, toBind := [] } := by
  rw [fullRestart, beginStart_boot, wr_keep, wr_clk, handover_keep, handover_hall]

/-! ## Trials (R512) -/

/-- What the boot record and the trial's kind say of a trial. -/
structure Trial where
  active : Nat
  fallback : Option Nat
  trial : Bool
  kind : StartKind

def trialOf (b : BootSt) : Trial :=
  let r := b.record.getD ⟨0, 0, none, false, 0, 0, 0⟩
  ⟨r.active, r.fallback, r.trial, b.trialKind⟩

theorem plannedRestart_trial (s : State) : trialOf (plannedRestart s).keep.boot = trialOf s.keep.boot := by rw [plannedRestart_keep]; rfl

theorem fullRestart_trial (s : State) (kind : StartKind) : trialOf (fullRestart s kind).keep.boot = trialOf s.keep.boot := by rw [fullRestart_boot]; rfl

/-- A fall-back makes the other slot ACTIVE and ends the trial. -/
theorem endTrial_trial (s : State) : trialOf (endTrial s).keep.boot =
    ⟨(bootRecord s).fallback.getD (bootRecord s).active, none, false, s.keep.boot.trialKind⟩ := by
  rw [endTrial, raiseEngine_keep, wrAll_keep]
  rfl

theorem fallBack_trial (s : State) : trialOf (fallBack s).keep.boot =
    ⟨(bootRecord s).fallback.getD (bootRecord s).active, none, false, s.keep.boot.trialKind⟩ := by
  unfold fallBack
  split
  · rw [plannedRestart_trial, endTrial_trial]
  · rw [fullRestart_trial, storedCal_keep, endTrial_trial]

end Sys2Proof.Proofs.StartRules

/-! PROOFS. O51: firmware updates through their slot and a trial (R510–R512, R517). -/

namespace Sys2Proof.Proofs.Updates

open Sys2Proof Sys2Proof.Machine Sys2Proof.Claims Sys2Proof.Proofs.Frames Sys2Proof.Proofs.Raising Sys2Proof.Proofs.ReadRules
  Sys2Proof.Proofs.MailboxRules Sys2Proof.Proofs.Keys Sys2Proof.Proofs.StartRules Sys2Proof.Proofs.BelfryComplete Sys2Proof.Proofs.Tables
  Sys2Proof.Proofs.DebugWindow Sys2Proof.Proofs.Sessions

section

variable {s : State} {q r : Req} {x : Session} {cmd : Nat}

/-! ## Service -/

/-- Outside the recovery ROM an update command is served in an operator session. -/
theorem serveUpdate_admitted {k : State → Req → State} (h : Admitted s q cmd r (some x)) (hkey : x.key = 0) (hphase : bootPhase s ≠ phRecovery) :
    serveUpdate s q cmd k = k (tagged s r x) r :=
  (if_pos hphase).trans (serve_admitted h fun _ => hkey)

/-- Noting a session's tag leaves the registers, the boot state, the store and the units. -/
theorem tagged_same (s : State) (r : Req) (x : Session) : (tagged s r x).regs = s.regs ∧ (tagged s r x).keep.boot = s.keep.boot ∧
    (tagged s r x).store = s.store ∧ (tagged s r x).units = s.units := by
  obtain ⟨l, h⟩ := tagged_eq s r x
  rw [h]
  exact ⟨rfl, rfl, rfl, rfl⟩

/-! ## Answers -/

theorem updDone_boot (s : State) (q : Req) (st : Nat) : (updDone s q st).keep.boot = s.keep.boot := respond_boot ..

theorem updDone_answered (s : State) (q : Req) (st : Nat) : Answered (updDone s q st) q st [] := answered_respond ..

theorem rd_updDone (s : State) (q : Req) (st : Nat) {g : Field} (i : Nat)
    (h : answerFoot.Fits (besides g [.keep, .fab, .bel, .pcie]) ∧ Clear F.BOOT_UPD_STATUS g) : rd (updDone s q st) g i = rd s g i :=
  (rd_respond _ h.1 ..).trans (rd_wr_clear _ _ _ _ h.2)

theorem updState_updDone (s : State) (q : Req) (st : Nat) : updState (updDone s q st) = updState s := rd_updDone s q st 0 ⟨by decide, by decide⟩

theorem bootPhase_updDone (s : State) (q : Req) (st : Nat) : bootPhase (updDone s q st) = bootPhase s := rd_updDone s q st 0 ⟨by decide, by decide⟩

/-! ## Slots -/

theorem slotImg_setSlot (s : State) (n : Nat) (x : SlotImg) : tget (setSlot s n x).keep.boot.slots n ⟨[], [], false⟩ = x := tget_tset_same ..

/-- A slot image is read from the boot state. -/
theorem slotImg_congr {s t : State} (h : t.keep.boot = s.keep.boot) (n : Nat) : slotImg t n = slotImg s n := by unfold slotImg; rw [h]

theorem bootRecord_congr {s t : State} (h : t.keep.boot = s.keep.boot) : bootRecord t = bootRecord s := by unfold bootRecord; rw [h]

/-- A piece that fits is programmed. -/
theorem program_fits {i off : Nat} {data : List Byte} (hstate : updState s = updStaging) (hlock : sagLocked s = false)
    (hcomp : i < compCount (slotImg s (stagingSlot s)).manifest)
    (hlen : off + data.length ≤ compLength (slotImg s (stagingSlot s)).manifest i) :
    Answered (program s r i off data) r stOk [] ∧ slotImg (program s r i off data) (stagingSlot s) =
      { slotImg s (stagingSlot s) with chunks := (i, off, data) :: (slotImg s (stagingSlot s)).chunks } := by
  have hfits : ¬ (updState s ≠ updStaging ∨ compCount (slotImg s (stagingSlot s)).manifest ≤ i ∨
      compLength (slotImg s (stagingSlot s)).manifest i < off + data.length) := by
    simp only [not_or, not_not, not_le, not_lt]
    exact ⟨hstate, hcomp, hlen⟩
  have heq : program s r i off data = updDone (noteProgress (setSlot s (stagingSlot s)
      { slotImg s (stagingSlot s) with chunks := (i, off, data) :: (slotImg s (stagingSlot s)).chunks })) r stOk :=
    (if_neg hfits).trans (if_neg (by simp [hlock]))
  rw [heq]
  refine ⟨updDone_answered .., ?_⟩
  exact (slotImg_congr (updDone_boot ..) _).trans (slotImg_setSlot ..)

/-! ## Activation -/

theorem convertSettings_trial (s : State) : trialOf (convertSettings s).keep.boot = trialOf s.keep.boot := by
  unfold convertSettings
  dsimp only
  split
  · rfl
  · rfl

theorem runSlot0_trial (s : State) (n : Nat) : trialOf (execActivate.runSlot0 s n).keep.boot = trialOf s.keep.boot := by
  refine Eq.trans ?_ (convertSettings_trial s)
  unfold execActivate.runSlot0 modBoot
  rw [wrAll_keep]
  rfl

end

/-- A start whose kind is that of its trial. -/
def Tried (t : State) (active : Nat) (fallback : Option Nat) : Prop :=
  (bootRecord t).active = active ∧ (bootRecord t).fallback = fallback ∧ (bootRecord t).trial = true ∧
    (t.keep.boot.kind = .keepOnly ∨ t.keep.boot.kind = .warm) ∧ t.keep.boot.trialKind = t.keep.boot.kind

theorem tried_of_trial {t : State} {active : Nat} {fallback : Option Nat} {kind : StartKind} (htrial : trialOf t.keep.boot = ⟨active, fallback, true, kind⟩)
    (hkind : t.keep.boot.kind = kind) (h : kind = .keepOnly ∨ kind = .warm) : Tried t active fallback := by
  injection htrial with hactive hfallback htrial htrialKind
  exact ⟨hactive, hfallback, htrial, hkind ▸ h, htrialKind.trans hkind.symm⟩

/-- The new firmware may start by a restart of the Keep alone. -/
def keepsFields (s : State) (r : Req) : Bool :=
  keepOnlyChange (slotImg s (bootRecord s).active).manifest (slotImg s (1 - (bootRecord s).active)).manifest && !(numAt r.body 0 1).testBit 0

/-- The record names the trial, and the command is answered. -/
def trialBegun (s : State) (r : Req) (keepOnly : Bool) : State :=
  let n := 1 - (bootRecord s).active
  let recorded := writeRecord s fun y => { y with active := n, fallback := some y.active, trial := true }
  updDone (modBoot (wr recorded F.BOOT_UPD_STATE 0 updTrial) fun b => { b with trialKind := if keepOnly then .keepOnly else .warm }) r stOk

/-- The restart that begins the trial. -/
def trialStart (s : State) (r : Req) (keepOnly : Bool) : State :=
  if keepOnly then plannedRestart (execActivate.runSlot0 (trialBegun s r keepOnly) (1 - (bootRecord s).active))
  else fullRestart (storedCal (trialBegun s r keepOnly)) .warm

theorem trialBegun_trial (s : State) (r : Req) (keepOnly : Bool) : trialOf (trialBegun s r keepOnly).keep.boot =
    ⟨1 - (bootRecord s).active, some (bootRecord s).active, true, if keepOnly then .keepOnly else .warm⟩ := by
  rw [trialBegun, updDone_boot]
  rfl

theorem trialStart_tried (s : State) (r : Req) (keepOnly : Bool) :
    Tried (trialStart s r keepOnly) (1 - (bootRecord s).active) (some (bootRecord s).active) := by
  cases keepOnly with
  | true =>
    refine tried_of_trial ((plannedRestart_trial _).trans ((runSlot0_trial ..).trans (trialBegun_trial ..))) ?_ (.inl rfl)
    exact congrArg (fun k : KeepSt => k.boot.kind) (plannedRestart_keep _)
  | false =>
    refine tried_of_trial ((fullRestart_trial ..).trans (trialBegun_trial ..)) ?_ (.inr rfl)
    exact congrArg (fun b : BootSt => b.kind) (fullRestart_boot ..)

/-! ## Answers that stand through a restart -/

/-- A channel without a request in progress keeps its mailbox. -/
theorem mboxOf_dropRequests {s : State} {p : Nat} (h : (mboxOf s p).busy = none) : mboxOf (dropRequests s) p = mboxOf s p := by
  unfold mboxOf dropRequests at *
  dsimp only at h ⊢
  generalize s.keep.mbox = boxes at h ⊢
  induction boxes with
  | nil => rfl
  | cons e t ih =>
    obtain ⟨k, m⟩ := e
    simp only [List.map_cons, tget] at h ⊢
    split
    next heq =>
      rw [if_pos heq] at h
      rw [if_neg (by simp [h])]
    next hne =>
      rw [if_neg hne] at h
      exact ih h

theorem answered_dropRequests {s : State} {q : Req} {status : Nat} {body : List Byte} (h : Answered s q status body) :
    Answered (dropRequests s) q status body := by
  unfold Answered at *
  dsimp only at h ⊢
  split
  next hhost =>
    rw [if_pos hhost] at h
    rwa [mboxOf_dropRequests h.2.2]
  next hother =>
    rwa [if_neg hother] at h

/-- The answer to a request that orders a restart stands. -/
theorem answered_plannedRestart {s : State} {q : Req} {status : Nat} {body : List Byte} (h : Answered s q status body) :
    Answered (plannedRestart s) q status body := by
  refine answered_congr h ?_ ?_
  all_goals rw [plannedRestart_keep]

theorem answered_beginStart {s : State} (kind : StartKind) {q : Req} {status : Nat} {body : List Byte} (h : Answered s q status body) :
    Answered (beginStart s kind) q status body := by
  have hclosed : Answered (closeSessions s fun _ => true) q status body := by
    refine answered_congr h ?_ ?_
    all_goals rw [closeSessions_keep]
  refine answered_congr (answered_dropRequests hclosed) ?_ ?_
  all_goals simp [beginStart, enterPhase, modBoot]

theorem answered_fallBack {s : State} {q : Req} {status : Nat} {body : List Byte} (h : Answered s q status body) :
    Answered (fallBack s) q status body := by
  have hended : Answered (endTrial s) q status body := by
    refine answered_congr h ?_ ?_
    all_goals rw [endTrial, raiseEngine_keep, wrAll_keep]; rfl
  unfold fallBack
  split
  · exact answered_plannedRestart hended
  · refine answered_beginStart _ (answered_congr hended ?_ ?_)
    all_goals rw [wr_keep, handover_keep, storedCal_keep]

/-! ## The commands -/

/-- Settles O51: each command is served by the operator's session, and does what its branch says to the slot, the record or the trial. -/
theorem updatesGoThroughATrial : Obligations.UpdatesGoThroughATrial := by
  intro s q r x hkey hphase hlock n old may fits
  obtain ⟨hregs, hboot, hstore, hunits⟩ := tagged_same s r x
  have hphaseT : bootPhase (tagged s r x) ≠ phRecovery := (rd_congr hregs ..).trans_ne hphase
  have hlockT : sagLocked (tagged s r x) = false := by
    unfold sagLocked rdB at hlock ⊢
    rwa [rd_congr hregs]
  have hstateT : updState (tagged s r x) = updState s := rd_congr hregs ..
  have hrecT : bootRecord (tagged s r x) = bootRecord s := bootRecord_congr hboot
  have hslotT (k : Nat) : slotImg (tagged s r x) k = slotImg s k := slotImg_congr hboot k
  have hstagT : stagingSlot (tagged s r x) = n := by
    show stagingSlot _ = stagingSlot s
    unfold stagingSlot
    rw [if_neg hphaseT, if_neg hphase, hrecT]
  have hservedU {cmd : Nat} {k : State → Req → State} (h : may cmd) : serveUpdate s q cmd k = k (tagged s r x) r := serveUpdate_admitted h hkey hphase
  have hserved {cmd : Nat} {k : State → Req → Option Session → State} (h : may cmd) : serve s q cmd .operator k = k (tagged s r x) r (some x) :=
    serve_admitted h fun _ => hkey
  generalize tagged s r x = T at *
  have hprogram {i off : Nat} {data : List Byte} (h : fits i off data.length) : Answered (program T r i off data) r stOk [] ∧
      slotImg (program T r i off data) n = { old with chunks := (i, off, data) :: old.chunks } := by
    obtain ⟨hstate, hcomp, hlen⟩ := h
    have h := program_fits (s := T) (r := r) (hstateT.trans hstate) hlockT (by rw [hstagT, hslotT]; exact hcomp) (by rw [hstagT, hslotT]; exact hlen)
    rwa [hstagT, hslotT] at h
  refine ⟨fun h hns hnt hsig hsvn hpresent => ?_, fun h hlo hhi hfits => ?_, fun b h hfits => ?_, fun h hstate hsvn hdig => ?_, fun h hstate => ?_,
    fun h hstate hmay hbusy hpair => ?_, fun htrial => ⟨fun h hstate => ?_, fun k h hfall => ?_⟩⟩
  · let opened := wrAll (setSlot T (stagingSlot T) ⟨r.body, [], false⟩) 0
      [(F.BOOT_UPD_STATE, updStaging), (F.BOOT_UPD_SVN, Config.manifestField r.body 0), (F.BOOT_UPD_PROGRESS, 0)]
    have hfree : ¬ (updState T = updStaging ∨ updState T = updTrial ∨ sagLocked T = true) := by simp [hstateT, hns, hnt, hlockT]
    have hgood : ¬ ¬ (Config.manifestSigOk r.body = true ∧ svnOk T r.body = true ∧ slotPresent T (stagingSlot T) = true) := by
      have hpresentT : slotPresent T n = slotPresent s n := by unfold slotPresent; rw [hboot]
      simpa [hsig, svnOk, hrecT, hstagT, hpresentT, hpresent] using hsvn
    have hexec : exec (.updateBegin q) s = .next (updDone opened r stOk) :=
      congrArg Host.Outcome.next ((hservedU h).trans ((if_neg hfree).trans (if_neg hgood)))
    refine ⟨_, hexec, ?_, ?_, updDone_answered ..⟩
    · refine (slotImg_congr ((updDone_boot ..).trans (congrArg KeepSt.boot (wrAll_keep ..))) _).trans ?_
      rw [hstagT]
      exact slotImg_setSlot ..
    · rw [updState_updDone]
      exact rd_wrAll_mem _ 0 updStaging (by simp only [List.map]; decide) (by decide) (by simp)
  · have hexec : exec (.updateData q) s = .next (program T r (numAt r.body 0 4) (numAt r.body 4 4) (r.body.drop 8)) :=
      congrArg Host.Outcome.next ((hservedU h).trans (if_neg (by omega)))
    exact ⟨_, hexec, hprogram (by rwa [List.length_drop])⟩
  · exact ⟨_, congrArg Host.Outcome.next (hservedU h), hprogram hfits⟩
  · let raised := raiseEngine T .report evUpdate 0 0
    let ended := updDone (wr (setSlot raised (stagingSlot T) { slotImg T (stagingSlot T) with verified := true }) F.BOOT_UPD_STATE 0 updStaged) r stOk
    have hrec : bootRecord raised = bootRecord s := (bootRecord_congr (congrArg KeepSt.boot (raiseEngine_keep ..))).trans hrecT
    have hgood : ¬ ¬ (svnOk raised (slotImg T (stagingSlot T)).manifest = true ∧ digestsOk (slotImg T (stagingSlot T)) = true) := by
      unfold svnOk at hsvn ⊢
      rw [hrec, hstagT, hslotT]
      exact not_not_intro ⟨hsvn, hdig⟩
    have hrunning : bootPhase ended ≠ phRecovery := by
      rw [bootPhase_updDone]
      exact (((rd_wr_clear _ _ _ _ (by decide)).trans (rd_modBoot ..)).trans (rd_raiseEngine _ _ ⟨by decide, by decide⟩ ..)).trans_ne hphaseT
    have hexec : exec (.updateEnd q) s = .next ended :=
      congrArg Host.Outcome.next ((hservedU h).trans ((if_neg (not_not_intro (hstateT.trans hstate))).trans
        ((if_neg (by simp [hlockT])).trans ((if_neg hgood).trans (if_pos hrunning)))))
    refine ⟨_, hexec, ?_, ?_, updDone_answered ..⟩
    · refine (slotImg_congr (updDone_boot ..) _).trans ?_
      rw [hstagT, hslotT]
      exact slotImg_setSlot ..
    · rw [updState_updDone]
      exact rd_wr_same _ _ _ _ (by decide)
  · let aborted := wrAll (setSlot T (stagingSlot T) { slotImg T (stagingSlot T) with chunks := [], verified := false }) 0
      [(F.BOOT_UPD_STATE, updIdle), (F.BOOT_UPD_SVN, 0), (F.BOOT_UPD_PROGRESS, 0)]
    have hexec : exec (.updateAbort q) s = .next (updDone aborted r stOk) :=
      congrArg Host.Outcome.next ((hservedU h).trans (if_pos (by rwa [hstateT])))
    refine ⟨_, hexec, ?_, ?_, updDone_answered ..⟩
    · refine (slotImg_congr ((updDone_boot ..).trans (congrArg KeepSt.boot (wrAll_keep ..))) _).trans ?_
      rw [hstagT, hslotT]
      exact slotImg_setSlot ..
    · rw [updState_updDone]
      exact rd_wrAll_mem _ 0 updIdle (by simp only [List.map]; decide) (by decide) (by simp)
  · have hfree : mayRestart T = true ∧ regionsBusy T = false ∧ pairingForbids T = false := by
      unfold mayRestart bootPhase regionsBusy pairingForbids twState at *
      simp only [rd_congr hregs, hstore, hunits]
      exact ⟨hmay, hbusy, hpair⟩
    have hexec : exec (.activate q) s = .next (trialStart T r (keepsFields T r)) := by
      refine congrArg Host.Outcome.next ((hserved h).trans ((if_neg ?_).trans (if_neg ?_)))
      · simp [hphaseT, hstateT, hstate]
      · simp [hfree, hlockT]
    have htried := trialStart_tried T r (keepsFields T r)
    rw [hrecT] at htried
    exact ⟨_, hexec, htried⟩
  · let svn := Config.manifestField (slotImg T (bootRecord T).active).manifest 0
    let recorded := writeRecord T fun y => { y with trial := false, minSvn := svn }
    let confirmed := modBoot (wrAll recorded 0 [(F.BOOT_UPD_STATE, updIdle), (F.BOOT_STATUS_TRIAL, 0)]) fun b => { b with settingsPrev := none }
    have hexec : exec (.updateConfirm q) s = .next (updDone (raiseEngine confirmed .report evUpdate 0 0) r stOk) := by
      refine congrArg Host.Outcome.next ((hserved h).trans ((if_neg ?_).trans (if_neg (by simp [hlockT]))))
      simp [hphaseT, hrecT, htrial, hstateT, hstate]
    have hboot' : (updDone (raiseEngine confirmed .report evUpdate 0 0) r stOk).keep.boot = confirmed.keep.boot :=
      (updDone_boot ..).trans (congrArg KeepSt.boot (raiseEngine_keep ..))
    have hrec' : bootRecord confirmed = { bootRecord T with trial := false, minSvn := svn, seq := (bootRecord T).seq + 1 } := by
      show (modBoot (wrAll _ _ _) _).keep.boot.record.getD _ = _
      unfold modBoot
      rw [wrAll_keep]
      rfl
    refine ⟨_, hexec, ?_, ?_, ?_, updDone_answered ..⟩
    · rw [bootRecord_congr hboot', hrec']
    · rw [updState_updDone]
      refine (rd_raiseEngine _ _ ⟨by decide, by decide⟩ ..).trans ((rd_modBoot ..).trans ?_)
      exact rd_wrAll_mem _ 0 updIdle (by simp only [List.map]; decide) (by decide) (by simp)
    · rw [bootRecord_congr hboot', hrec', ← hslotT, ← hrecT]
  · have hexec : exec (.rollback q) s = .next (fallBack (updDone T r stOk)) := by
      refine congrArg Host.Outcome.next ((hserved h).trans ((if_neg ?_).trans (if_neg (by simp [hlockT]))))
      simp [hphaseT, hrecT, htrial, hfall]
    have htrialOf := fallBack_trial (updDone T r stOk)
    rw [bootRecord_congr (updDone_boot ..), hrecT, hfall] at htrialOf
    injection htrialOf with hactive hfallback htrial' hkind
    exact ⟨_, hexec, hactive, htrial', answered_fallBack (updDone_answered ..)⟩

end Sys2Proof.Proofs.Updates

/-! PROOFS. O49: what restarts the Keep, and what a restart leaves (R350, R466–R468, R511, R514, R515). -/

namespace Sys2Proof.Proofs.KeepRestarts

open Sys2Proof Sys2Proof.Machine Sys2Proof.Claims Sys2Proof.Proofs.Frames Sys2Proof.Proofs.Raising Sys2Proof.Proofs.ReadRules
  Sys2Proof.Proofs.Sessions Sys2Proof.Proofs.StartRules Sys2Proof.Proofs.BelfryComplete

/-! ## Unplanned restarts -/

/-- The halves are gated, no session stays, and these are the times of the restarts. -/
structure Crashed (restarts : List Nat) (t : State) : Prop where
  gated : t.clk.gated = true
  sessions : t.keep.sessions = []
  restarts : t.keep.boot.restarts = restarts

section

variable {s : State} {l : List Nat}

/-- What changes neither the clock nor the Keep's own state leaves a crash as it is. -/
theorem Crashed.within {t : State} (h : Crashed l s) (hw : Within ⟨fun p => decide (p ≠ .keep ∧ p ≠ .clk), fun _ => true⟩ s t) : Crashed l t := by
  have hclk : t.clk = s.clk := hw.parts .clk rfl
  have hkeep : t.keep = s.keep := hw.parts .keep rfl
  exact ⟨hclk ▸ h.gated, hkeep ▸ h.sessions, hkeep ▸ h.restarts⟩

theorem Crashed.modBoot (h : Crashed l s) (f : BootSt → BootSt) (hf : ∀ b, (f b).restarts = b.restarts) : Crashed l (modBoot s f) :=
  ⟨h.gated, h.sessions, (hf _).trans h.restarts⟩

theorem Crashed.beginStart (h : Crashed l s) (kind : StartKind) : Crashed l (beginStart s kind) :=
  ⟨(beginStart_clk s kind).1, beginStart_sessions s kind, by rw [beginStart_boot]; exact h.restarts⟩

theorem Crashed.endTrial (h : Crashed l s) : Crashed l (endTrial s) := by
  unfold Machine.endTrial
  refine Crashed.within ?_ (((Within.refl _ _).wrAll fun _ _ => rfl).raiseEngine ⟨by decide, by decide⟩ ..)
  exact Crashed.modBoot (Crashed.modBoot h _ fun _ => by rfl) _ fun _ => by rfl

theorem Crashed.fencedStart (h : Crashed l s) : Crashed l (fencedStart s) :=
  (h.within (((((Within.refl _ s).stopQueues rfl rfl).modTwin rfl _).setTwin rfl rfl _).raiseEngine ⟨by decide, by decide⟩ ..)).beginStart _

theorem Crashed.beginReload (h : Crashed l s) : Crashed l (beginReload s) := by
  unfold Machine.beginReload enterPhase
  refine Crashed.modBoot (Crashed.modBoot (h.within ?_) _ fun _ => by rfl) _ fun _ => by rfl
  exact ((Within.refl _ s).wrAll fun _ _ => rfl).wr rfl

theorem Crashed.afterCrash (h : Crashed l s) (lately : Bool) : Crashed l (afterCrash s lately) := by
  unfold Machine.afterCrash
  extract_lets r inStart onTrial u kind
  have hu : Crashed l u := by
    show Crashed l (if onTrial = true then _ else _)
    split
    · exact h.endTrial
    · exact h
  split
  · exact hu.fencedStart
  · split
    · exact (hu.within ((Within.refl _ u).modPwr rfl _)).beginStart _
    · split
      · exact hu.beginStart _
      · split
        · exact hu.beginStart _
        · exact hu.beginReload

end

/-- What an unplanned restart does before it goes on: the halves are gated, and the sessions close. -/
def crashing (s : State) (cause : Nat) : State :=
  let s : State := { s with clk := { s.clk with gated := true } }
  let s := if cause = causeWatchdog then raiseEngine s .alarm evKeepWdt 0 0 else s
  belfryKeepRestart (dropRequests (closeSessions (countRestart (raiseEngine s .report evKeepRestart 0 0) cause) fun _ => true))

theorem unplannedRestart_eq (s : State) (cause : Nat) : unplannedRestart s cause =
    afterCrash (modBoot (crashing s cause) fun b => { b with restarts := hallNs (crashing s cause) :: b.restarts }) (restartedLately (crashing s cause)) := rfl

theorem belfryKeepRestart_clk (s : State) : (belfryKeepRestart s).clk = s.clk := by
  have hstopped : Within ⟨fun p => decide (p ≠ .clk), fun _ => true⟩ s { s with bel := { s.bel with stopped := true } } := (Within.refl _ s).bel rfl _
  exact (hstopped.foldl fun t ht n => ((releaseSource_within ht rfl ⟨rfl, rfl, rfl⟩ n).addPending (by decide) n).bel rfl _).parts .clk rfl

theorem dropRequests_same (s : State) : (dropRequests s).clk = s.clk ∧ (dropRequests s).keep.sessions = s.keep.sessions ∧
    (dropRequests s).keep.boot = s.keep.boot := ⟨rfl, rfl, rfl⟩

/-- The events of a restart leave the clock and the Keep's own state. -/
theorem restartEvents_same (s : State) (cause : Nat) (p : Prop) [Decidable p] :
    (countRestart (raiseEngine (if p then raiseEngine s .alarm evKeepWdt 0 0 else s) .report evKeepRestart 0 0) cause).clk = s.clk ∧
      (countRestart (raiseEngine (if p then raiseEngine s .alarm evKeepWdt 0 0 else s) .report evKeepRestart 0 0) cause).keep = s.keep := by
  have hraised := (Within.ite (p := p) ((Within.refl ⟨fun p => decide (p ≠ .keep ∧ p ≠ .clk), fun _ => true⟩ s).raiseEngine ⟨by decide, by decide⟩ .alarm
    evKeepWdt 0 0) (.refl _ s)).raiseEngine ⟨by decide, by decide⟩ .report evKeepRestart 0 0
  unfold countRestart
  rw [wrAll_clk, wrAll_keep]
  exact ⟨hraised.parts .clk rfl, hraised.parts .keep rfl⟩

theorem crashing_clk (s : State) (cause : Nat) : (crashing s cause).clk = { s.clk with gated := true } := by
  unfold crashing
  rw [belfryKeepRestart_clk, (dropRequests_same _).1, closeSessions_clk, (restartEvents_same ..).1]

theorem crashing_keep (s : State) (cause : Nat) : (crashing s cause).keep.sessions = [] ∧ (crashing s cause).keep.boot = s.keep.boot := by
  unfold crashing
  rw [belfryKeepRestart_keep, (dropRequests_same _).2.1, (dropRequests_same _).2.2]
  refine ⟨closeSessions_all _, ?_⟩
  rw [closeSessions_keep, (restartEvents_same ..).2]

theorem crashed_noted {s : State} (hgated : s.clk.gated = true) (hsessions : s.keep.sessions = []) (n : Nat) :
    Crashed (n :: s.keep.boot.restarts) (modBoot s fun b => { b with restarts := n :: b.restarts }) :=
  ⟨hgated, hsessions, rfl⟩

theorem unplannedRestart_crashed (s : State) (cause : Nat) : Crashed (hallNs s :: s.keep.boot.restarts) (unplannedRestart s cause) := by
  obtain ⟨hsessions, hboot⟩ := crashing_keep s cause
  have hclk := crashing_clk s cause
  have hhall : hallNs (crashing s cause) = hallNs s := by unfold hallNs; rw [hclk]
  have hnoted := crashed_noted (congrArg Clk.gated hclk) hsessions (hallNs (crashing s cause))
  rw [hhall, hboot] at hnoted
  rw [unplannedRestart_eq, hhall]
  exact hnoted.afterCrash _

/-! ## One failed core -/

theorem passRoles_within {a : Allow} {s t : State} (h : Within a s t) (hf : a.field F.BELFRY_SRC_CFG_MASK = true) (m : Nat) : Within a s (passRoles t m) := by
  unfold passRoles
  exact h.foldl fun _ hu _ => .ite (hu.wr hf) hu

/-- The passing of roles leaves the fields that share no bit with the masks. -/
theorem rd_passRoles (s : State) (m : Nat) {g : Field} (h : Clear F.BELFRY_SRC_CFG_MASK g) (i : Nat) : rd (passRoles s m) g i = rd s g i :=
  (passRoles_within (.refl (besides g []) s) (decide_eq_true h) m).reads i

theorem passRoles_keep (s : State) (m : Nat) : (passRoles s m).keep = s.keep := within_keep (passRoles_within (.refl _ s) rfl m)

/-- A core held in reset. -/
def heldDown (s : State) (m : Nat) : State :=
  let s := modBoot s fun b => { b with heldMcs := m :: b.heldMcs }
  bump (wr s F.KEEP_STATUS_MC_DOWN 0 (rd s F.KEEP_STATUS_MC_DOWN 0 ||| 2 ^ m)) F.KEEP_CNT_SELFTEST_FAIL 0 1

theorem holdCore_eq {s : State} {m : Nat} (hm : m < 8) (hheld : s.keep.boot.heldMcs = []) : holdCore s m = passRoles (heldDown s m) m :=
  if_neg (by simp [hheld]; omega)

theorem heldDown_down {s : State} {m : Nat} (hm : m < 8) : (rd (heldDown s m) F.KEEP_STATUS_MC_DOWN 0).testBit m = true := by
  refine (congrArg (Nat.testBit · m) ((rd_wr_clear _ _ _ _ (by decide)).trans (rd_wr_same _ _ _ _ (by decide)))).trans ?_
  rw [Nat.testBit_mod_two_pow, Nat.testBit_or, Nat.testBit_two_pow_self]
  simp [hm, show F.KEEP_STATUS_MC_DOWN.width = 8 from rfl]

theorem heldDown_fails (s : State) (m : Nat) : rd (heldDown s m) F.KEEP_CNT_SELFTEST_FAIL 0 =
    min (rd s F.KEEP_CNT_SELFTEST_FAIL 0 + 1) (2 ^ F.KEEP_CNT_SELFTEST_FAIL.width - 1) := by
  refine (rd_bump_same _ _ _ _ (by decide)).trans ?_
  rw [rd_wr_clear _ _ _ _ (by decide), rd_modBoot]

/-! ## The end of a restart -/

/-- Answering a request that waited leaves the registers, the boot state and what still waits. -/
theorem answerDeferred_same (s : State) (e : Nat × MctpMsg) : (answerDeferred s e).regs = s.regs ∧ (answerDeferred s e).keep.boot = s.keep.boot ∧
    (answerDeferred s e).keep.mctp.deferred = s.keep.mctp.deferred := by
  have hite {p : Prop} [Decidable p] {t : State} (h : t.regs = s.regs ∧ t.keep.boot = s.keep.boot ∧ t.keep.mctp.deferred = s.keep.mctp.deferred) :
      (if p then t else s).regs = s.regs ∧ (if p then t else s).keep.boot = s.keep.boot ∧ (if p then t else s).keep.mctp.deferred = s.keep.mctp.deferred := by
    split
    · exact h
    · exact ⟨rfl, rfl, rfl⟩
  have hnegotiate : (doNegotiateAlgorithms e.2 s).regs = s.regs ∧ (doNegotiateAlgorithms e.2 s).keep.boot = s.keep.boot ∧
      (doNegotiateAlgorithms e.2 s).keep.mctp.deferred = s.keep.mctp.deferred := by
    unfold doNegotiateAlgorithms
    dsimp only
    split
    · exact ⟨rfl, rfl, rfl⟩
    · exact ⟨rfl, rfl, rfl⟩
  unfold answerDeferred
  dsimp only
  split
  case h_3 => exact hite hnegotiate
  case h_1 | h_2 | h_4 | h_5 | h_6 | h_7 => exact hite ⟨rfl, rfl, rfl⟩
  all_goals exact ⟨rfl, rfl, rfl⟩

theorem answerAllDeferred_same (s : State) : (answerAllDeferred s).regs = s.regs ∧ (answerAllDeferred s).keep.boot = s.keep.boot ∧
    (answerAllDeferred s).keep.mctp.deferred = [] := by
  refine List.foldlRecOn (motive := fun t : State => t.regs = s.regs ∧ t.keep.boot = s.keep.boot ∧ t.keep.mctp.deferred = []) _ _ ⟨rfl, rfl, rfl⟩ ?_
  rintro t ⟨hregs, hboot, hdeferred⟩ e -
  obtain ⟨hregs', hboot', hdeferred'⟩ := answerDeferred_same t e
  exact ⟨hregs'.trans hregs, hboot'.trans hboot, hdeferred'.trans hdeferred⟩

theorem bootPhase_noteKeepOk (s : State) : bootPhase (noteKeepOk s) = bootPhase s := rd_wr_clear _ _ _ _ (by decide)

theorem freshCores_held (s : State) : (freshCores s).keep.boot.heldMcs = [] := by
  unfold freshCores
  exact congrArg (fun k : KeepSt => k.boot.heldMcs) (within_keep (Within.foldl (.refl besidesKeep _) fun _ hu _ => hu.wr rfl))

theorem resumeReady_ready (s : State) : bootPhase (resumeReady s) = phReady ∧ (resumeReady s).keep.boot.heldMcs = [] ∧
    (resumeReady s).keep.mctp.deferred = [] := by
  obtain ⟨hregs, hboot, hdeferred⟩ := answerAllDeferred_same (noteKeepOk (enterPhase (wr (freshCores s) F.KEEP_STATUS_PLANNED_RESTART 0 0) phReady))
  refine ⟨?_, ?_, hdeferred⟩
  · refine (rd_congr hregs ..).trans ?_
    exact (bootPhase_noteKeepOk _).trans (bootPhase_enterPhase _ (by decide))
  · exact (congrArg BootSt.heldMcs hboot).trans (freshCores_held s)

theorem belfryRunning_same (s : State) : (belfryRunning s).keep = s.keep ∧ (belfryRunning s).pwr = s.pwr := by
  have hwithin : Within ⟨fun p => decide (p ≠ .keep ∧ p ≠ .pwr), fun _ => true⟩ s (belfryRunning s) := by
    unfold belfryRunning belfryRestart
    exact .ite (Within.evalAll (((Within.refl _ s).bel rfl _).foldl fun _ hu n => (hu.wr rfl).addPending (by decide) n) (by decide)) (.refl _ s)
  exact ⟨hwithin.parts .keep rfl, hwithin.parts .pwr rfl⟩

/-! ## Ordered restarts -/

theorem restartRequest_allowed {s : State} {a : Agent} (ha : isOperator s a = true) (hmay : mayRestart s = true) (k : State → State) :
    restartRequest a s false k = k (wr s F.BOOT_RESTART_STATUS 0 stOk) :=
  (if_neg (not_not_intro ha)).trans (if_neg (by simp [hmay]))

theorem restartRequest_refused {s : State} {a : Agent} (ha : isOperator s a = true) (k : State → State) :
    restartRequest a s true k = wr s F.BOOT_RESTART_STATUS 0 stFrozen :=
  (if_neg (not_not_intro ha)).trans (if_pos (.inr rfl))

/-- Settles O49: every unplanned restart ends in a crash's state, however it goes on; the others are single writes or a start. -/
theorem keepRestarts : Obligations.KeepRestarts := by
  intro s crashed
  have hcrash (t : State) (cause : Nat) (hhall : hallNs t = hallNs s) (hrestarts : t.keep.boot.restarts = s.keep.boot.restarts) :
      crashed (unplannedRestart t cause) := by
    obtain ⟨hgated, hsessions, hnoted⟩ := unplannedRestart_crashed t cause
    rw [hhall, hrestarts] at hnoted
    exact ⟨hgated, hsessions, hnoted⟩
  refine ⟨fun m hm hheld hen => ⟨fun hstage => ?_, fun hstage => ?_⟩, fun m hm hheld => ?_, fun n => ⟨congrArg Host.Outcome.next (if_neg Bool.false_ne_true), ?_⟩,
    fun cause hlo hhi => ⟨_, congrArg Host.Outcome.next (if_pos ⟨hlo, hhi⟩), hcrash _ _ rfl rfl⟩, fun hphase hcase => ?_, fun a ha hmay => ⟨fun hbusy => ?_,
    fun hbusy => ?_, fun hpair => ⟨?_, ?_⟩, fun hpair => ⟨?_, ?_⟩⟩⟩
  · have hexec : exec (.watchdogStage m) s = .next (raiseSource (wr s F.KEEP_WDT_STAGE m 1) (m + 1)) := by
      refine congrArg Host.Outcome.next ((if_neg (by simp [hheld, hen]; omega)).trans ?_)
      simp only [hstage]
    refine ⟨_, hexec, ?_⟩
    exact (rd_raiseSource _ _ (by decide) _).trans (rd_wr_same _ _ _ _ (by decide))
  · have hexec : exec (.watchdogStage m) s = .next (unplannedRestart (noteKeepOk (wr s F.KEEP_WDT_STAGE m 2)) causeWatchdog) := by
      refine congrArg Host.Outcome.next ((if_neg (by simp [hheld, hen]; omega)).trans ?_)
      simp only [hstage]
    exact ⟨_, hexec, hcrash _ _ rfl rfl⟩
  · have hheldMcs : (noteKeepOk (holdCore s m)).keep.boot.heldMcs = [m] := by
      show (holdCore s m).keep.boot.heldMcs = _
      rw [holdCore_eq hm hheld, passRoles_keep]
      show m :: s.keep.boot.heldMcs = _
      rw [hheld]
    have hexec : exec (.keepSelftest [m]) s = .next (noteKeepOk (holdCore s m)) := by
      refine congrArg Host.Outcome.next (if_neg ?_)
      show ¬ (_ ∧ 2 ≤ (noteKeepOk (holdCore s m)).keep.boot.heldMcs.length)
      rw [hheldMcs]
      simp
    have hread {g : Field} (h : Clear F.KEEP_STATUS_OK g ∧ Clear F.BELFRY_SRC_CFG_MASK g) : rd (noteKeepOk (holdCore s m)) g 0 = rd (heldDown s m) g 0 := by
      rw [holdCore_eq hm hheld]
      exact (rd_wr_clear _ _ _ _ h.1).trans (rd_passRoles _ _ h.2 _)
    refine ⟨_, hexec, hheldMcs, ?_, ?_⟩
    · rw [hread ⟨by decide, by decide⟩]
      exact heldDown_down hm
    · rw [hread ⟨by decide, by decide⟩]
      exact heldDown_fails s m
  · exact ⟨_, congrArg Host.Outcome.next (if_pos rfl), hcrash _ _ rfl rfl⟩
  · obtain ⟨hkeep, hpwr⟩ := belfryRunning_same s
    obtain ⟨hready, hheld, hdeferred⟩ := resumeReady_ready (belfryRunning s)
    rcases hcase with ⟨hplanned, hrerun⟩ | ⟨hplanned, hrails⟩
    · have hexec : exec .keepRestartComplete s = .next (modBoot (resumeReady (belfryRunning s)) fun b => { b with rerun := [] }) := by
        refine congrArg Host.Outcome.next ((if_neg (by simp [hphase, hrerun])).trans ((if_pos hplanned).trans ?_))
        rw [hrerun]
        rfl
      exact ⟨_, hexec, hready, hheld, hdeferred⟩
    · have hexec : exec .keepRestartComplete s = .next (resumeReady (belfryRunning s)) :=
        congrArg Host.Outcome.next ((if_neg (by simp [hphase, hplanned])).trans ((if_neg (by simp [hplanned])).trans (if_neg (by simp [hpwr, hrails]))))
      exact ⟨_, hexec, hready, hheld, hdeferred⟩
  · have hexec : exec (.restartKeepOnly a) s = .next (plannedRestart (wr s F.BOOT_RESTART_STATUS 0 stOk)) := by
      refine congrArg Host.Outcome.next (Eq.trans ?_ (restartRequest_allowed ha hmay _))
      rw [hbusy]
    refine ⟨_, hexec, ?_⟩
    beta_reduce
    rw [plannedRestart_keep]
    exact ⟨rfl, rfl, rfl⟩
  · refine congrArg Host.Outcome.next (Eq.trans ?_ (restartRequest_refused ha plannedRestart))
    rw [hbusy]
  · have hexec : exec (.restartWarm a) s = .next (fullRestart (wr s F.BOOT_RESTART_STATUS 0 stOk) .warm) := by
      refine congrArg Host.Outcome.next (Eq.trans ?_ (restartRequest_allowed ha hmay fun s => fullRestart s .warm))
      rw [hpair]
    refine ⟨_, hexec, ?_, bootPhase_beginStart .., beginStart_cores .., beginStart_sessions ..⟩
    rw [fullRestart_boot]
  · have hexec : exec (.restartCold a) s = .next (fullRestart (wr s F.BOOT_RESTART_STATUS 0 stOk) .cold) := by
      refine congrArg Host.Outcome.next (Eq.trans ?_ (restartRequest_allowed ha hmay fun s => fullRestart s .cold))
      rw [hpair]
    refine ⟨_, hexec, ?_, bootPhase_beginStart .., beginStart_strm_cold _, beginStart_sessions ..⟩
    rw [fullRestart_boot]
  · refine congrArg Host.Outcome.next (Eq.trans ?_ (restartRequest_refused ha fun s => fullRestart s .warm))
    rw [hpair]
  · refine congrArg Host.Outcome.next (Eq.trans ?_ (restartRequest_refused ha fun s => fullRestart s .cold))
    rw [hpair]

end Sys2Proof.Proofs.KeepRestarts

/-! PROOFS. O50: the phases of a start (R454, R491–R503, R512, R516, R528). -/

namespace Sys2Proof.Proofs.StartPhases

open Sys2Proof Sys2Proof.Machine Sys2Proof.Claims Sys2Proof.Proofs.Frames Sys2Proof.Proofs.Raising Sys2Proof.Proofs.ReadRules
  Sys2Proof.Proofs.StartRules Sys2Proof.Proofs.BelfryComplete Sys2Proof.Proofs.DebugWindow Sys2Proof.Proofs.Clocks

/-! ## What the phases call leaves the Keep's own state -/

theorem foldl_keep {α : Type} {f : State → α → State} (hf : ∀ s x, (f s x).keep = s.keep) (l : List α) (s : State) : (l.foldl f s).keep = s.keep :=
  List.foldlRecOn (motive := fun t : State => t.keep = s.keep) l f rfl fun _ ht x _ => (hf _ x).trans ht

theorem transitCores_keep (s : State) (l : List Nat) : (transitCores s l).keep = s.keep := foldl_keep (fun _ _ => by rfl) l s

theorem sweepCore_keep (s : State) (c : Nat) (full : Bool) : (sweepCore s c full).keep = s.keep := by
  unfold sweepCore
  rw [wrAll_keep]
  exact wrAll_keep ..

theorem modPwr_keep (s : State) (f : PowerSt → PowerSt) : (modPwr s f).keep = s.keep := rfl

theorem fieldUp_keep (s : State) (f : Nat) : (fieldUp s f).keep = s.keep := by
  unfold fieldUp
  rw [wr_keep, transitCores_keep, modPwr_keep]
  refine foldl_keep (fun t c => ?_) (fieldCores f) s
  split
  · rfl
  · exact sweepCore_keep t c true

theorem calibrate_keep (kind : Nat) (s : State) (item : Nat) : (calibrate kind s item).keep = s.keep := by
  unfold calibrate
  split
  · rfl
  · rfl

theorem raiseField_keep (s : State) (f : Nat) : (raiseField s f).keep = s.keep := by
  unfold raiseField
  split
  · rfl
  · split
    · rfl
    · rw [calibrate_keep, fieldUp_keep]

theorem publishMap_keep (s : State) : (publishMap s).keep = s.keep := by
  refine foldl_keep (fun t f => foldl_keep (fun u r => ?_) _ t) _ s
  unfold publishRow
  split
  · rfl
  · split
    · exact within_keep (((Within.refl besidesKeep u).wr rfl).fieldLoss (by decide) f)
    · rfl

theorem calEval_keep (s : State) : (calEval s).keep = s.keep := within_keep ((Within.refl _ s).calEval rfl ⟨by decide, by decide⟩ rfl)

/-- A dead tile that is noted changes no more of the boot state than the overlay. -/
theorem noteDeadTiles_start (l : List (Nat × Nat × Nat)) (s : State) :
    (l.foldl noteDeadTile s).keep.boot.kind = s.keep.boot.kind ∧ (l.foldl noteDeadTile s).keep.boot.startList = s.keep.boot.startList := by
  refine List.foldlRecOn (motive := fun t : State => t.keep.boot.kind = s.keep.boot.kind ∧ t.keep.boot.startList = s.keep.boot.startList) l _ ⟨rfl, rfl⟩ ?_
  intro t ht e _
  unfold noteDeadTile addOverlay
  dsimp only
  split
  · exact ht
  · split
    · exact ht
    · exact ht

/-! ## Phases that begin -/

/-- With no start list phase PLANS begins with nothing to bind. -/
theorem enterPlans_empty {s : State} (h : s.keep.boot.startList = []) : enterPlans s = modBoot (enterPhase s phPlans) fun b => { b with toBind := [] } := by
  have hlist : startListNow (enterPhase s phPlans) = [] := by
    unfold startListNow
    split
    · exact h
    · rfl
  unfold enterPlans startPlans startBinds
  simp only [hlist, List.foldl_nil]
  rfl

theorem enterPlans_same {s : State} (h : s.keep.boot.startList = []) : (enterPlans s).twin = s.twin ∧ (enterPlans s).strm = s.strm := by
  rw [enterPlans_empty h]
  exact ⟨rfl, rfl⟩

theorem bootPhase_enterPlans {s : State} (h : s.keep.boot.startList = []) : bootPhase (enterPlans s) = phPlans := by
  rw [enterPlans_empty h]
  exact bootPhase_enterPhase _ (by decide)

theorem enterRecovery_phase (s : State) (cause : Nat) (h : cause < 256) : bootPhase (enterRecovery s cause) = phRecovery ∧
    rd (enterRecovery s cause) F.BOOT_STATUS_CAUSE 0 = cause := by
  have hread (g : Field) : rd (enterRecovery s cause) g 0 =
      rd (raiseEngine (enterPhase (wr s F.BOOT_STATUS_CAUSE 0 cause) phRecovery) .alarm evRecoveryRom 0 0) g 0 := by
    unfold enterRecovery
    dsimp only
    split
    · rfl
    · rfl
  refine ⟨?_, ?_⟩
  · exact (hread _).trans ((rd_raiseEngine _ _ ⟨by decide, by decide⟩ ..).trans (bootPhase_enterPhase _ (by decide)))
  · refine (hread _).trans ((rd_raiseEngine _ _ ⟨by decide, by decide⟩ ..).trans ((rd_enterPhase _ _ _ _ (by decide)).trans ?_))
    exact (rd_wr_same _ _ _ _ (by decide)).trans (Nat.mod_eq_of_lt h)

/-! ## The phases one by one -/

theorem keepPhase_flash (s : State) {a b : Bool} (h : a = true ∨ b = true) : bootPhase (keepPhase s a b) = phIdentity ∧
    (keepPhase s a b).keep.boot.fl0 = a ∧ (keepPhase s a b).keep.boot.fl1 = b := by
  let found := modBoot (belfryDefaults (belfryRunning s)) fun x => { x with fl0 := a, fl1 := b }
  have heq : keepPhase s a b = enterPhase (if a = true ∧ b = true then found else raiseEngine found .alarm evBootManifest 0 4) phIdentity := by
    refine if_neg fun hnone => ?_
    rcases h with ha | hb
    · exact hnone.1 ha
    · exact hnone.2 hb
  have hfound : (if a = true ∧ b = true then found else raiseEngine found .alarm evBootManifest 0 4).keep = found.keep := by
    split
    · rfl
    · exact raiseEngine_keep ..
  rw [heq]
  refine ⟨bootPhase_enterPhase _ (by decide), ?_, ?_⟩
  · rw [enterPhase_boot, hfound]
    rfl
  · rw [enterPhase_boot, hfound]
    rfl

theorem runSlot_runs (s : State) (n : Nat) : bootPhase (runSlot s n) = phSettings ∧ (runSlot s n).keep.boot.running = n := by
  refine ⟨bootPhase_enterPhase _ (by decide), ?_⟩
  unfold runSlot
  dsimp only
  rw [enterPhase_boot]
  split
  · rw [wrAll_keep]
    rfl
  · rfl

/-- The engine with its rails on and the clock running. -/
def powered (s : State) : State :=
  { s with pwr := { s.pwr with rails := true, rims := [0, 1, 2, 3] }, thm := { s.thm with limit := false }, clk := { s.clk with gated := false, cyc := 0 } }

theorem railsPhase_powers {s : State} {m : PhaseResult} (hpresent : s.pwr.present = true) (hclamped : s.pwr.clamped = true)
    (hready : m.railsReady = true) (hlimit : s.thm.limit = false) : bootPhase (railsPhase m s) = phCellar ∧ (railsPhase m s).pwr.rails = true ∧
      (railsPhase m s).pwr.rims = [0, 1, 2, 3] ∧ (railsPhase m s).clk.gated = false := by
  have hstep (t : State) (n : Nat) : (requestStep t n).pwr.rails = t.pwr.rails ∧ (requestStep t n).pwr.rims = t.pwr.rims := by
    unfold requestStep
    dsimp only
    split
    · exact ⟨rfl, rfl⟩
    · exact ⟨rfl, rfl⟩
  have hgo : ¬ (¬ (s.pwr.present = true ∧ s.pwr.clamped = true ∧ m.railsReady = true) ∨ (s.thm.limit = true ∧ limitCleared s = false)) := by
    simp [hpresent, hclamped, hready, hlimit]
  have heq : ∃ (p : Bool) (t : State) (n : Nat), t.pwr = (powered s).pwr ∧ t.clk = (powered s).clk ∧
      railsPhase m s = enterPhase (if p = true then requestStep t n else t) phCellar := by
    refine ⟨_, noteStage (wrAll (powered s) 0 [(F.PWR_STATUS_ENG_FAULT, 0), (F.PWR_STATUS_VCORE_NOM, nominal 3)]), _, ?_, ?_, if_neg hgo⟩
    · exact wrAll_pwr ..
    · exact wrAll_clk ..
  obtain ⟨p, t, n, hpwr, hclk, heq⟩ := heq
  have ht : t.pwr.rails = true ∧ t.pwr.rims = [0, 1, 2, 3] ∧ t.clk.gated = false := by
    rw [hpwr, hclk]
    exact ⟨rfl, rfl, rfl⟩
  rw [heq]
  refine ⟨bootPhase_enterPhase _ (by decide), ?_⟩
  cases p with
  | true =>
    refine ⟨(hstep ..).1.trans ht.1, (hstep ..).2.trans ht.2.1, ?_⟩
    exact (congrArg Clk.gated (requestStep_keeps t n).2).trans ht.2.2
  | false => exact ht

theorem cellarPhase_read (m : PhaseResult) (s : State) : bootPhase (cellarPhase m s) = phFields ∧
    rd (cellarPhase m s) F.KEEP_ID_STACK_GIB 0 = m.stackGib.toNat := by
  refine ⟨bootPhase_enterPhase _ (by decide), ?_⟩
  have hcalibrate (kind : Nat) (l : List Nat) (t : State) : (l.foldl (calibrate kind) t).regs = t.regs := by
    refine List.foldlRecOn (motive := fun u : State => u.regs = t.regs) l _ rfl fun u hu item _ => ?_
    unfold calibrate
    split
    · exact hu
    · exact hu
  refine (rd_enterPhase _ _ _ _ (by decide)).trans ((rd_congr ((hcalibrate ..).trans ((hcalibrate ..).trans (hcalibrate ..))) ..).trans ?_)
  refine (rd_wrAll_mem _ 0 m.stackGib.toNat (by simp only [List.map]; decide) (by decide) (by simp)).trans (Nat.mod_eq_of_lt m.stackGib.isLt)

theorem fieldsPhase_next {s : State} {m : PhaseResult} (hstopped : s.thm.stopped = false) (hlist : s.keep.boot.startList = []) :
    bootPhase (fieldsPhase m s) = if s.keep.boot.kind = .warm then phJournal else phPlans := by
  obtain ⟨hkind, hstart⟩ := noteDeadTiles_start m.deadTiles s
  unfold fieldsPhase
  rw [if_neg (by simp [hstopped])]
  dsimp only
  generalize hraised : calEval ((List.range 48).foldl raiseField (publishMap (m.deadTiles.foldl noteDeadTile s))) = raised
  have hkeep : raised.keep = (m.deadTiles.foldl noteDeadTile s).keep := by
    rw [← hraised, calEval_keep, foldl_keep raiseField_keep, publishMap_keep]
  rw [hkeep, hkind]
  split
  · exact bootPhase_enterPhase _ (by decide)
  · refine bootPhase_enterPlans ?_
    rw [hkeep, hstart, hlist]

/-- The journal starts anew, and no marker stays. -/
def journalFresh (s : State) : State :=
  let old := s.strm
  let s := { s with strm := { old with frames := [], seqs := [], journal := ⟨1, 0, [], [], 1, 0, false, false⟩,
                                       cmds := old.cmds.map fun (c : LCmd) => { c with jsn := 0 } } }
  countStreams { s with twin := { s.twin with marker := false, recorded := twUnpaired } }

theorem journalFresh_same (s : State) : (journalFresh s).keep = s.keep ∧ (journalFresh s).twin.marker = false ∧ (journalFresh s).strm.journal.next = 1 ∧
    (journalFresh s).strm.journal.ring = [] := by
  unfold journalFresh countStreams
  dsimp only
  rw [wrAll_keep, wrAll_twin, wrAll_strm]
  exact ⟨rfl, rfl, rfl, rfl⟩

/-- The streams as phase JOURNAL leaves them: the twin's, or this engine's at their last committed state. -/
def journalRead (s : State) : State :=
  if twinHoldsStreams s then clearQps { s with strm := StreamSt.initial }
  else
    let s := releaseCommitted s
    ((s.strm.slots.filter fun e => e.2.state ≠ .closed).map (·.1)).foldl restoreStream s

theorem journalRead_keep (s : State) : (journalRead s).keep = s.keep := by
  unfold journalRead
  split
  · rfl
  · have hreleased : Within besidesKeep s (releaseCommitted s) := (Within.refl _ s).releaseCommitted (by decide)
    refine within_keep (hreleased.foldl fun u hu k => ?_)
    unfold restoreStream rollbackStream
    exact ((hu.modStream rfl ..).landExports (by decide) k).modStream rfl ..

theorem journalPhase_eq (s : State) : journalPhase s = enterPlans (journalFresh (journalRead s)) := by
  unfold journalPhase journalFresh journalRead
  dsimp only

theorem journalPhase_opens {s : State} (hlist : s.keep.boot.startList = []) : bootPhase (journalPhase s) = phPlans ∧
    (journalPhase s).twin.marker = false ∧ (journalPhase s).strm.journal.next = 1 ∧ (journalPhase s).strm.journal.ring = [] := by
  obtain ⟨hfresh, hmarker, hnext, hring⟩ := journalFresh_same (journalRead s)
  have hempty : (journalFresh (journalRead s)).keep.boot.startList = [] := by rw [hfresh, journalRead_keep, hlist]
  rw [journalPhase_eq]
  obtain ⟨htwin, hstrm⟩ := enterPlans_same hempty
  refine ⟨bootPhase_enterPlans hempty, ?_⟩
  rw [htwin, hstrm]
  exact ⟨hmarker, hnext, hring⟩

theorem startOffering_phase (s : State) : bootPhase (startOffering s) = bootPhase s := by
  have hwithin : Within (besides F.BOOT_STATUS_PHASE [.twin]) s (startOffering s) := by
    unfold startOffering
    exact .ite (Within.setTwin (((Within.refl _ s).wr (by decide)).wr (by decide)) rfl (by decide) _) (.refl _ s)
  exact hwithin.reads 0

theorem plansPhase_ready {s : State} (h : plansBusy s = false) : bootPhase (plansPhase s) = phReady := by
  have heq : ∃ t, plansPhase s = startOffering (noteKeepOk (enterPhase t phReady)) := ⟨_, if_neg (by simp [h])⟩
  obtain ⟨t, heq⟩ := heq
  rw [heq, startOffering_phase]
  exact (rd_wr_clear _ _ _ _ (by decide)).trans (bootPhase_enterPhase _ (by decide))

theorem settingsPhase_next (m : PhaseResult) (s : State) :
    ((m.mapOkFirst = true ∨ m.mapOkSecond = true) → bootPhase (settingsPhase m s) = phRails) ∧
      (m.mapOkFirst = false → m.mapOkSecond = false → bootPhase (settingsPhase m s) = phHalted ∧ rd (settingsPhase m s) F.BOOT_STATUS_CAUSE 0 = 3) := by
  refine ⟨fun h => ?_, fun hfirst hsecond => ?_⟩
  · have heq : ∃ t, settingsPhase m s = enterPhase t phRails := by
      refine ⟨_, if_neg fun hnone => ?_⟩
      rcases h with h | h
      · exact hnone.1 h
      · exact hnone.2 h
    obtain ⟨t, heq⟩ := heq
    rw [heq]
    exact bootPhase_enterPhase _ (by decide)
  · have heq : ∃ t, settingsPhase m s = noteKeepOk (enterPhase (wr t F.BOOT_STATUS_CAUSE 0 3) phHalted) :=
      ⟨_, if_pos (by simp [hfirst, hsecond])⟩
    obtain ⟨t, heq⟩ := heq
    rw [heq]
    refine ⟨(rd_wr_clear _ _ _ _ (by decide)).trans (bootPhase_enterPhase _ (by decide)), ?_⟩
    exact (rd_wr_clear _ _ _ _ (by decide)).trans ((rd_enterPhase _ _ _ _ (by decide)).trans (rd_wr_same _ _ _ _ (by decide)))

theorem identityDerived_shows (s : State) : (identityDerived s).keep = s.keep ∧ rd (identityDerived s) F.SEC_STATUS_IDENTITY 0 = 1 := by
  refine ⟨?_, ?_⟩
  · unfold identityDerived
    dsimp only
    rw [wrAll_keep, foldl_keep (fun _ _ => by rfl), foldl_keep (fun _ _ => by rfl)]
  · exact rd_wrAll_mem _ 0 1 (by simp only [List.map]; decide) (by decide) (by simp)

/-- The work of phase n. -/
def phaseWork (m : PhaseResult) (s : State) : Nat → State
  | 1 => keepPhase s m.flash0 m.flash1
  | 2 => identityPhase m s
  | 3 => manifestPhase m s
  | 4 => settingsPhase m s
  | 5 => railsPhase m s
  | 6 => cellarPhase m s
  | 7 => fieldsPhase m s
  | 8 => journalPhase s
  | 9 => plansPhase s
  | _ => s

theorem exec_phase (s : State) (m : PhaseResult) {n : Nat} (h : bootPhase s = n) : exec (.startPhaseComplete m) s = .next (phaseWork m s n) := by
  subst h
  rfl

/-- Settles O50: each phase's result by its own lemma, chosen by the phase in progress. -/
theorem startPhasesFollow : Obligations.StartPhasesFollow := by
  intro s
  refine ⟨fun m => ⟨fun hphase => ⟨fun h => ?_, fun h0 h1 => ?_⟩, fun hphase hpuf hid => ?_, fun hphase hrec hsome hactive hrun => ?_, fun hphase => ⟨fun h => ?_,
    fun h1 h2 => ?_⟩, fun hphase => ⟨fun hp hc hr hl => ?_, fun hc => ?_⟩, fun hphase => ?_, fun hphase hstop hlist => ?_, fun hphase hlist => ?_,
    fun hphase hbusy => ?_⟩, ?_, fun hrails hphase => ?_, fun low => rfl, fun a b hphase hcause h0 h1 hab => ?_, fun n htrial hfall hphase => ?_⟩
  · exact ⟨_, exec_phase s m hphase, keepPhase_flash s h⟩
  · have hnone : keepPhase s m.flash0 m.flash1 = enterRecovery (modBoot (belfryDefaults (belfryRunning s)) fun b => { b with fl0 := m.flash0, fl1 := m.flash1 }) 4 :=
      if_pos (by simp [h0, h1])
    exact ⟨_, (exec_phase s m hphase).trans (congrArg Host.Outcome.next hnone), enterRecovery_phase _ 4 (by decide)⟩
  · have hcount : identityPhase m s = enterPhase (wr (identityDerived s) F.BOOT_COUNT_COUNT 0 (bootCount s + 1)) phManifest :=
      (if_neg (not_not_intro hpuf)).trans (if_neg (not_not_intro hid))
    refine ⟨_, (exec_phase s m hphase).trans (congrArg Host.Outcome.next hcount), bootPhase_enterPhase _ (by decide), ?_⟩
    exact (rd_enterPhase _ _ _ _ (by decide)).trans (rd_wr_same _ _ _ _ (by decide))
  · have hruns : manifestPhase m s = runSlot s (bootRecord s).active :=
      (if_neg (by simp [hrec, hsome])).trans (if_pos ⟨hactive, hrun⟩)
    exact ⟨_, (exec_phase s m hphase).trans (congrArg Host.Outcome.next hruns), runSlot_runs ..⟩
  · exact ⟨_, exec_phase s m hphase, (settingsPhase_next m s).1 h⟩
  · exact ⟨_, exec_phase s m hphase, (settingsPhase_next m s).2 h1 h2⟩
  · exact ⟨_, exec_phase s m hphase, railsPhase_powers hp hc hr hl⟩
  · exact (exec_phase s m hphase).trans (congrArg Host.Outcome.next (if_pos (.inl (by simp [hc]))))
  · exact ⟨_, exec_phase s m hphase, cellarPhase_read m s⟩
  · exact ⟨_, exec_phase s m hphase, fieldsPhase_next hstop hlist⟩
  · exact ⟨_, exec_phase s m hphase, journalPhase_opens hlist⟩
  · exact ⟨_, exec_phase s m hphase, plansPhase_ready hbusy⟩
  · refine ⟨_, rfl, ?_, bootPhase_beginStart .., ?_, beginStart_events .., beginStart_cores .., beginStart_sessions ..⟩
    · rw [beginStart_boot]
    · exact (beginStart_clk ..).2
  · refine ⟨_, congrArg Host.Outcome.next (if_neg (by simp [hrails, hphase])), ?_, bootPhase_beginStart ..⟩
    rw [beginStart_boot]
  · have hexec : exec (.flashDiscoveryRetry a b) s = .next (identityDerived (modBoot s fun x => { x with fl0 := a, fl1 := b })) :=
      congrArg Host.Outcome.next (if_pos ⟨hphase, hcause, by simp [h0], by simp [h1], hab⟩)
    obtain ⟨hkeep, hidentity⟩ := identityDerived_shows (modBoot s fun x => { x with fl0 := a, fl1 := b })
    refine ⟨_, hexec, ?_, ?_, hidentity⟩
    · exact congrArg (fun k : KeepSt => k.boot.fl0) hkeep
    · exact congrArg (fun k : KeepSt => k.boot.fl1) hkeep
  · have hexec : exec .readyWaitExpiry s = .next (fallBack s) :=
      congrArg Host.Outcome.next (if_pos ⟨htrial, by simp [hfall], hphase⟩)
    have htrialOf := fallBack_trial s
    rw [hfall] at htrialOf
    injection htrialOf with hactive hfallback htrial' hkind
    exact ⟨_, hexec, hactive, htrial', hfallback⟩

end Sys2Proof.Proofs.StartPhases

/-! PROOFS. O31: RECLAIM where nothing is to be spilled, and the binding of a queue pair (R283, R320). -/

namespace Sys2Proof.Proofs.Reclaim

open Sys2Proof Sys2Proof.Machine Sys2Proof.Claims Sys2Proof.Proofs.BelfryComplete

variable {s : State}

/-! ## RECLAIM -/

/-- Where the use meets the quota, or no stream is left to go, the spilling ends at once. -/
theorem reclaimGo_ends {t : Nat} {l : List Nat} (park : Bool) (h : pageUse s t ≤ rd s F.REG_TENANT_LIM_B_PAGES t ∨ l = []) : reclaimGo t park l s = s := by
  cases l with
  | nil => rfl
  | cons k rest =>
    rcases h with hmet | hnil
    · exact if_pos hmet
    · exact absurd hnil (List.cons_ne_nil k rest)

/-- The status that RECLAIM shows where nothing was spilled. -/
def reclaimed (s : State) (t : Nat) : State :=
  wr (countPages s t) F.REG_TENANT_CTL_RECLAIM_STATUS t (if pageUse s t ≤ rd s F.REG_TENANT_LIM_B_PAGES t then stOk else stQuota)

theorem reclaimed_shows (t : Nat) : rd (reclaimed s t) F.REG_TENANT_CTL_RECLAIM_STATUS t =
    (if pageUse s t ≤ rd s F.REG_TENANT_LIM_B_PAGES t then stOk else stQuota) ∧ (reclaimed s t).strm = s.strm := by
  refine ⟨(rd_wr_same _ _ _ _ (by decide)).trans (Nat.mod_eq_of_lt ?_), ?_⟩
  · split
    · decide
    · decide
  · unfold reclaimed countPages
    rw [wr_strm, wrAll_strm, wrAll_strm]

theorem exec_reclaim {a : Agent} {t : Nat} (ha : isOperator s a = true) (hpos : 0 < t) (hlt : t < 256)
    (hbusy : rdB s F.REG_TENANT_CTL_RECLAIM_BUSY t = false)
    (h : pageUse s t ≤ rd s F.REG_TENANT_LIM_B_PAGES t ∨ (oldestOf s t .parked = [] ∧
      (oldestOf s t .ready).filter (fun k => (streamAt s k).seat.isSome) = [])) : exec (.reclaim a t) s = .next (reclaimed s t) := by
  have hparked := reclaimGo_ends false (h.imp_right And.left)
  have hready := reclaimGo_ends true (h.imp_right And.right)
  refine congrArg Host.Outcome.next ((if_neg (not_not_intro ha)).trans ((if_neg (by simp [hbusy]; omega)).trans ?_))
  dsimp only
  rw [hparked, hready]
  rfl

/-! ## Queue pairs -/

/-- The register of a field captured. -/
theorem captured_capture1 (f : Field) (i k : Nat) : tget (capture1 s f i).captured k 0 = if k = fkey f i then shadowWord s f i else tget s.captured k 0 := by
  unfold capture1
  split
  next heq => rw [heq, tget_tset_same]
  next hne => exact tget_tset_other _ _ _ hne

/-- A staged field's own bits in the shadow. -/
theorem shadowWord_stage_same (f : Field) (i v : Nat) : shadowWord (stage s f i v) f i = putF f (shadowWord s f i) v := tget_tset_same ..

/-- Staging in one register leaves the shadow of another. -/
theorem shadowWord_stage_other {f g : Field} {i j v : Nat} (h : fkey g j ≠ fkey f i) : shadowWord (stage s f i v) g j = shadowWord s g j :=
  tget_tset_other _ _ _ h

theorem shadowWord_wr_other {f g : Field} {i j v : Nat} (h : fkey g j ≠ fkey f i) : shadowWord (wr s f i v) g j = shadowWord s g j := by
  unfold shadowWord regWord
  rw [wr_shadow, wr_regs, tget_tset_other _ _ _ h]

/-- A queue pair's binding with EN staged. -/
def bindStaged (s : State) (a : Agent) (qp : Nat) : State := stage (wr s F.STRM_QP_CFG_TENANT qp ((rightsOf s a).getD 0)) F.STRM_QP_CFG_EN qp 1

/-- The binding with its registers captured. -/
def bindCaptured (s : State) (a : Agent) (qp : Nat) : State :=
  capture1 (capture1 (capture1 (capture1 (bindStaged s a qp) F.STRM_QP_CFG_EN qp) F.STRM_QP_LEDGER_ADDR qp) F.STRM_QP_EMIT_ADDR qp) F.STRM_QP_IDX_ADDR qp

theorem fkey_qp (qp : Nat) : fkey F.STRM_QP_LEDGER_ADDR qp ≠ fkey F.STRM_QP_CFG_EN qp ∧ fkey F.STRM_QP_EMIT_ADDR qp ≠ fkey F.STRM_QP_CFG_EN qp ∧
    fkey F.STRM_QP_IDX_ADDR qp ≠ fkey F.STRM_QP_CFG_EN qp ∧ fkey F.STRM_QP_EMIT_ADDR qp ≠ fkey F.STRM_QP_LEDGER_ADDR qp ∧
      fkey F.STRM_QP_IDX_ADDR qp ≠ fkey F.STRM_QP_LEDGER_ADDR qp := by
  refine ⟨?_, ?_, ?_, ?_, ?_⟩
  all_goals exact fun heq => absurd (Nat.add_right_cancel (m := 0x40 * (qp % 192)) heq) (by decide)

theorem bindCaptured_shows (s : State) (a : Agent) (qp : Nat) :
    getF F.STRM_QP_CFG_EN (tget (bindCaptured s a qp).captured (fkey F.STRM_QP_CFG_EN qp) 0) = 1 ∧
      tget (bindCaptured s a qp).captured (fkey F.STRM_QP_LEDGER_ADDR qp) 0 = shadowWord s F.STRM_QP_LEDGER_ADDR qp := by
  obtain ⟨hledger, hemit, hidx, hemit', hidx'⟩ := fkey_qp qp
  unfold bindCaptured
  refine ⟨?_, ?_⟩
  · rw [captured_capture1, if_neg hidx.symm, captured_capture1, if_neg hemit.symm, captured_capture1, if_neg hledger.symm, captured_capture1, if_pos rfl,
      bindStaged, shadowWord_stage_same, getF_putF_same _ _ _ (by decide)]
    rfl
  · rw [captured_capture1, if_neg hidx'.symm, captured_capture1, if_neg hemit'.symm, captured_capture1, if_pos rfl]
    exact (shadowWord_stage_other hledger).trans (shadowWord_wr_other hledger)

/-- Settles O31: without a stream to spill RECLAIM only counts and shows its status; binding stages EN and captures the four registers. -/
theorem reclaimAndQueuePairs : Obligations.ReclaimAndQueuePairs := by
  intro s a
  refine ⟨fun t ha hpos hlt hbusy => ⟨fun hmet => ?_, fun hover hparked hready => ?_⟩, fun qp hmay => ⟨fun hen => ?_, fun hen => ?_⟩⟩
  · obtain ⟨hstatus, hstrm⟩ := reclaimed_shows (s := s) t
    exact ⟨_, exec_reclaim ha hpos hlt hbusy (.inl hmet), hstatus.trans (if_pos hmet), hstrm⟩
  · obtain ⟨hstatus, hstrm⟩ := reclaimed_shows (s := s) t
    exact ⟨_, exec_reclaim ha hpos hlt hbusy (.inr ⟨hparked, hready⟩), hstatus.trans (if_neg (Nat.not_le.2 hover)), hstrm⟩
  · have hexec : exec (.qpEnable a qp) s = .next (bindCaptured s a qp) := congrArg Host.Outcome.next (if_pos ⟨hmay, hen⟩)
    obtain ⟨hcaptured, hledger⟩ := bindCaptured_shows s a qp
    exact ⟨_, hexec, hcaptured, hledger, rd_wr_same s _ qp _ (by decide), rfl⟩
  · refine ⟨_, congrArg Host.Outcome.next (if_pos ⟨hmay, hen⟩), ?_, rfl⟩
    rw [captured_capture1, if_pos rfl, shadowWord_stage_same, getF_putF_same _ _ _ (by decide)]
    rfl

end Sys2Proof.Proofs.Reclaim

/-! PROOFS. O19: a staged register write, a register read and COMMIT (R18, R20, R21). -/

namespace Sys2Proof.Proofs.RegisterCommands

open Sys2Proof Sys2Proof.Machine Sys2Proof.Claims Sys2Proof.Proofs.BelfryComplete Sys2Proof.Proofs.DebugWindow Sys2Proof.Proofs.Tables

/-! ## TICK_CTL -/

/-- The register of TICK_CTL. -/
def tickCtl : Reg := ⟨"TICK_CTL", .tick, 0x10400000, 0x0, 1, [F.TICK_CTL_SHADOW_VIEW, F.TICK_CTL_EXPERT_EN, F.TICK_CTL_K]⟩

/-- What a write of TICK_CTL's live fields leaves of K. -/
structure SameK (s t : State) : Prop where
  live : rd t F.TICK_CTL_K 0 = rd s F.TICK_CTL_K 0
  staged : getF F.TICK_CTL_K (shadowWord t F.TICK_CTL_K 0) = getF F.TICK_CTL_K (shadowWord s F.TICK_CTL_K 0)
  running : anyRunning t = anyRunning s

theorem SameK.refl (s : State) : SameK s s := ⟨rfl, rfl, rfl⟩

theorem SameK.trans {s t u : State} (h : SameK s t) (h' : SameK t u) : SameK s u :=
  ⟨h'.live.trans h.live, h'.staged.trans h.staged, h'.running.trans h.running⟩

/-- A field of the tick's block that stands beside K. -/
abbrev BesideK (f : Field) : Prop :=
  f.base = 0x10400000 ∧ f.stride = 0 ∧ f.regRst = 0xC ∧ 5 ≤ f.lo ∧ f.acc = .rw ∧ f.cs = false ∧ f.fr = false ∧ f.ex = false

theorem fkey_besideK {f : Field} (h : BesideK f) : fkey f 0 = 0x10400000 := by
  obtain ⟨hbase, hstride, -⟩ := h
  simp [fkey, hbase, hstride]

/-- No field of a region's registers lies in TICK_CTL. -/
theorem rd_wr_besideK {f g : Field} (h : BesideK f) (hg : 0x10400000 < g.base) (s : State) (r v : Nat) : rd (wr s f 0 v) g r = rd s g r := by
  refine rd_wr_other _ _ _ _ _ _ (Nat.ne_of_gt ?_)
  rw [fkey_besideK h]
  exact Nat.lt_of_lt_of_le hg (Nat.le_add_right ..)

theorem anyRunning_wr_besideK {f : Field} (h : BesideK f) (s : State) (v : Nat) : anyRunning (wr s f 0 v) = anyRunning s := by
  have hdescs : allDescs (wr s f 0 v) = allDescs s := by
    unfold allDescs
    rw [wr_regs, filterMap_tset_of_dropped _ _ _ fun _ => if_neg fun hdesc => by rw [fkey_besideK h] at hdesc; omega]
  unfold anyRunning boundRegions hasPlan regionState
  simp only [hdescs, rd_wr_besideK h (show 0x10400000 < F.REG_PLAN_PLAN_ID.base by decide),
    rd_wr_besideK h (show 0x10400000 < F.REG_UNIT_STATUS_STATE.base by decide)]

theorem sameK_wr {f : Field} (h : BesideK f) (s : State) (v : Nat) : SameK s (wr s f 0 v) := by
  have hkey := fkey_besideK h
  have hrun := anyRunning_wr_besideK h s v
  obtain ⟨-, -, hrst, hlo, -⟩ := h
  have hlive : rd (wr s f 0 v) F.TICK_CTL_K 0 = rd s F.TICK_CTL_K 0 :=
    rd_wr_beside _ _ _ _ _ _ (show (0x10400000 : Nat) = _ from hkey.symm) hrst.symm (by decide) (.inl hlo)
  refine ⟨hlive, ?_, hrun⟩
  unfold shadowWord
  rw [wr_shadow]
  cases hput : tget? s.shadow (fkey F.TICK_CTL_K 0) with
  | none =>
    simp only [tget_eq_getD, hput, Option.getD_none]
    exact hlive
  | some w => simp only [tget_eq_getD, hput, Option.getD_some]

/-- What a management core's write of TICK_CTL is refused for: a K that is written while a region runs. -/
theorem refusal_tickCtl {f : Field} {x : Nat} (m : Nat) (s : State) (hex : f.ex = false) (hval : expertValue f x = false) (hfr : (f.fr && anyRunning s) = false) :
    refusal s (.mc m) tickCtl 0 f x = none := by
  have hmay : mayWrite s (.mc m) tickCtl 0 f = true := rfl
  have hfrozen : fieldFrozen s tickCtl 0 f x = false := hfr
  simp [refusal, hmay, hex, hval, hfrozen, show perCore tickCtl.blk = false from rfl]

theorem inert_tickCtl {f : Field} {x : Nat} (hf : f ≠ F.BOOT_CTL_BIST_LEVEL) : inert tickCtl 0 f x = false := by
  simp [inert, hf, show isReg tickCtl F.REG_DESC0_KIND = false by decide, show isReg tickCtl F.REG_DESC1_W = false by decide,
    show isReg tickCtl F.REG_TENANT_LIM_A_CORES = false by decide, show isReg tickCtl F.REG_TENANT_LIM_B_PAGES = false by decide,
    show tickCtl.blk = .tick from rfl]

/-- A live field of TICK_CTL that a management core writes takes its value or keeps it. -/
theorem writeField_besideK {f : Field} (h : BesideK f) (m : Nat) (v : Word) (s : State) : SameK s (writeField (.mc m) tickCtl 0 v s f) := by
  obtain ⟨hbase, -, -, -, hacc, hcs, hfr, hex⟩ := id h
  have hother {g : Field} (hg : g.base ≠ 0x10400000) : f ≠ g := fun heq => hg (heq ▸ hbase)
  have hval (x : Nat) : expertValue f x = false := by
    simp [expertValue, hother (show F.CORE_TASTE_CTL_RATE.base ≠ _ by decide), hother (show F.CORE_TASTE_CTL_DRIFT.base ≠ _ by decide),
      hother (show F.BELFRY_SRC_CFG_COAL.base ≠ _ by decide)]
  have href (x : Nat) : refusal s (.mc m) tickCtl 0 f x = none := refusal_tickCtl m s hex (hval x) (by rw [hfr, Bool.false_and])
  unfold writeField
  dsimp only
  split
  · exact .refl s
  · rw [href]
    have hput : putField s (.mc m) f 0 (getF f v) = wr s f 0 (getF f v) := by
      simp [putField, hother (show F.STRM_QP_CFG_EN.base ≠ _ by decide), hacc, hcs]
    exact hput ▸ sameK_wr h s _

/-- K itself, while nothing runs, is staged. -/
theorem writeField_K {s : State} (m : Nat) (v : Word) (hrun : anyRunning s = false)
    (hv : getF F.TICK_CTL_K v ≠ getF F.TICK_CTL_K (shadowWord s F.TICK_CTL_K 0)) :
    writeField (.mc m) tickCtl 0 v s F.TICK_CTL_K = stage s F.TICK_CTL_K 0 (getF F.TICK_CTL_K v) := by
  have hval (x : Nat) : expertValue F.TICK_CTL_K x = false := by
    simp [expertValue, show F.TICK_CTL_K ≠ F.CORE_TASTE_CTL_RATE by decide, show F.TICK_CTL_K ≠ F.CORE_TASTE_CTL_DRIFT by decide,
      show F.TICK_CTL_K ≠ F.BELFRY_SRC_CFG_COAL by decide]
  have hheld : heldValue s F.TICK_CTL_K 0 = getF F.TICK_CTL_K (shadowWord s F.TICK_CTL_K 0) := rfl
  have href : refusal s (.mc m) tickCtl 0 F.TICK_CTL_K (getF F.TICK_CTL_K v) = none :=
    refusal_tickCtl m s rfl (hval _) (by rw [hrun, Bool.and_false])
  unfold writeField
  dsimp only
  rw [if_neg (by simp [inert_tickCtl (show F.TICK_CTL_K ≠ F.BOOT_CTL_BIST_LEVEL by decide), hheld, hv, show F.TICK_CTL_K.acc = .rw from rfl]), href]
  rfl

theorem rd_stage (s : State) (f : Field) (i v : Nat) : rd (stage s f i v) F.TICK_CTL_K 0 = rd s F.TICK_CTL_K 0 := rfl

/-- A register write of TICK_CTL is its fields' writes. -/
theorem exec_write_tickCtl (m : Nat) (v : Word) (s : State) :
    exec (.registerWrite (.mc m) 0x10400000 8 v) s = .next (writeFields s (.mc m) tickCtl 0 v) := by
  have hreg : findReg (.mc m) 0x10400000 = some (tickCtl, 0) := by
    show regAt 0x10400000 = _
    decide +kernel
  show execRegisterWrite (.mc m) 0x10400000 8 v s = _
  unfold execRegisterWrite
  simp only [show stagingPlace s (.mc m) 0x10400000 8 = none from rfl, hreg]
  rfl

/-! ## Reads and COMMIT -/

/-- An address that names a register lies in no staging area. -/
theorem stagingPlace_of_findReg {a : Agent} {addr : Nat} {p : Reg × Nat} (h : findReg a addr = some p) (s : State) (width : Nat) :
    stagingPlace s a addr width = none := by
  have hnone : regAt 0 = none := by decide +kernel
  unfold stagingPlace
  split
  next q hq =>
    refine if_neg fun hplace => ?_
    cases a with
    | host x => simp [findReg, keyOf, show ¬ addr < 0x4000000 by omega, hnone] at h
    | session x => exact absurd hq (by simp [portOf])
    | mc x => exact absurd hq (by simp [portOf])
  next => rfl

theorem exec_readClear {s : State} {a : Agent} {addr i : Nat} {g : Reg} (haddr : addr % 8 = 0) (hreg : findReg a addr = some (g, i))
    (hbox : isReg g F.REG_UNIT_MBOX_WORD = false) :
    exec (.readClear a addr 8) s = .next (returned (readReg s a g i).2 (readReg s a g i).1) := by
  show execReadClear a addr 8 s = _
  unfold execReadClear
  simp [stagingPlace_of_findReg hreg, whole64, haddr, hreg, hbox]

theorem commitBlock_accepted {s : State} {a : Agent} {b : Block} {i : Nat} (hstatus : (statusFields b).isSome) (hcore : perCore b = false)
    (hmay : mayCommit s a b i = true) : commitBlock s a b i = captureBlock s b i := by
  simp [commitBlock, Option.isSome_iff_ne_none.1 hstatus, hcore, hmay]

theorem statusFields_of_isCommitReg {g : Reg} (h : isCommitReg g = true) : (statusFields g.blk).isSome := by
  unfold isCommitReg at h
  split at h
  next heq => exact heq ▸ rfl
  next => cases h

/-- Settles O19: of TICK_CTL's fields SHADOW_VIEW and EXPERT_EN, written first, leave K and what runs, and K is staged; a read and COMMIT are their
registers' cases. -/
theorem registerCommandsAct : Obligations.RegisterCommandsAct := by
  intro s a
  refine ⟨fun m v hrun hv => ?_, fun addr g i haddr hreg hbox => ⟨_, exec_readClear haddr hreg hbox, rfl⟩, fun addr g i haddr hreg hcommit hcore hmay => ?_⟩
  · have hview := writeField_besideK (f := F.TICK_CTL_SHADOW_VIEW) (by decide) m v s
    have hlive := hview.trans (writeField_besideK (f := F.TICK_CTL_EXPERT_EN) (by decide) m v _)
    refine ⟨_, exec_write_tickCtl m v s, ?_⟩
    have hwritten := writeField_K m v (hlive.running.trans hrun) (fun heq => hv (heq.trans hlive.staged))
    have hall : writeFields s (.mc m) tickCtl 0 v = _ := hwritten
    rw [hall]
    refine ⟨(rd_stage ..).trans hlive.live, ?_⟩
    rw [Reclaim.shadowWord_stage_same, getF_putF_same _ _ _ (by decide)]
    exact Nat.mod_eq_of_lt (Nat.mod_lt _ (by decide))
  · refine congrArg Host.Outcome.next ?_
    simp only [hreg, hcommit, if_true, commitBlock_accepted (statusFields_of_isCommitReg hcommit) hcore hmay]

end Sys2Proof.Proofs.RegisterCommands

/-! PROOFS. O25: the commands of a rack (R307–R309, R314). -/

namespace Sys2Proof.Proofs.Racks

open Sys2Proof Sys2Proof.Machine Sys2Proof.Claims Sys2Proof.Proofs.BelfryComplete Sys2Proof.Proofs.DebugWindow Sys2Proof.Proofs.Tables
  Sys2Proof.Proofs.Raising Sys2Proof.Proofs.ReadRules

variable {s : State}

/-! ## A region's record -/

theorem unitOf_modUnit_same (s : State) (r : Nat) (f : Region → Region) : unitOf (modUnit s r f) r = f (unitOf s r) := tget_tset_same ..

theorem unitOf_setPhase (s : State) (r : Nat) (p : RPhase) : (unitOf (setPhase s r p) r).phase = p :=
  congrArg Region.phase (unitOf_modUnit_same s r fun u => { u with phase := p })

theorem rd_setPhase (s : State) (r : Nat) (p : RPhase) (f : Field) (i : Nat) : rd (setPhase s r p) f i = rd s f i := rfl

/-! ## LOAD -/

/-- Where no master is missing, the rack of a BOUND region is open and its load begins. -/
theorem rackValidate_bound {p : Nat} {k : Rack} (hstate : regionState s p = rsBound) (hplan : planStatus s k.successor (regionTenant s p) = stOk)
    (hmissing : missingOf s (tget s.store.plans k.successor []) = []) (hbind : bindStatus s p k.successor (regionTenant s p) true = stOk) :
    rackValidate s p k = setPhase (setRegionState (openRack s k) p rsBinding) p .begin := by
  have hfetch : fetchMissing s [] (regionTenant s p) = s := rfl
  unfold rackValidate
  simp only [hplan, hmissing, hfetch, hbind, hstate, ne_eq, not_true_eq_false, if_false, if_true, List.any_nil, Bool.false_eq_true]
  exact if_neg (by decide)

theorem openRack_shows (s : State) (k : Rack) (p : Nat) :
    (setPhase (setRegionState (openRack s k) p rsBinding) p .begin).store.rack = some k ∧
      rd (setPhase (setRegionState (openRack s k) p rsBinding) p .begin) F.CASK_RACK_STATUS_PHASE 0 = 1 ∧
      rd (setPhase (setRegionState (openRack s k) p rsBinding) p .begin) F.CASK_RACK_STATUS_CMD_STATUS 0 = stAccepted := by
  have hshown (f : Field) (hf : Clear F.REG_UNIT_STATUS_STATE f) :
      rd (setPhase (setRegionState (openRack s k) p rsBinding) p .begin) f 0 = rd (openRack s k) f 0 :=
    (rd_setPhase ..).trans (rd_wr_clear _ _ _ _ hf)
  refine ⟨?_, (hshown _ (by decide)).trans ?_, (hshown _ (by decide)).trans ?_⟩
  · show (openRack s k).store.rack = _
    unfold openRack
    rw [wrAll_store]
  · unfold openRack
    exact rd_wrAll_mem _ 0 1 (by simp only [List.map]; decide) (by decide) (by simp)
  · unfold openRack
    exact rd_wrAll_mem _ 0 stAccepted (by simp only [List.map]; decide) (by decide) (by simp)

/-! ## FLIP, ABORT and the drain's deadline -/

theorem rackStatus_shows (s : State) (st : Nat) (h : st < 256) : rd (rackStatus s st) F.CASK_RACK_STATUS_CMD_STATUS 0 = st ∧ (rackStatus s st).store = s.store :=
  ⟨(rd_wr_same _ _ _ _ (by decide)).trans (Nat.mod_eq_of_lt h), rfl⟩

theorem endRack_shows (k : Rack) (hk : s.store.rack = some k) :
    (endRack s stOk).store.rack = none ∧ rd (endRack s stOk) F.CASK_RACK_STATUS_CMD_STATUS 0 = stOk ∧ rd (endRack s stOk) F.CASK_RACK_STATUS_PHASE 0 = 0 := by
  unfold endRack
  simp only [hk]
  refine ⟨?_, rd_wrAll_mem _ 0 stOk (by simp only [List.map]; decide) (by decide) (by simp), rd_wrAll_mem _ 0 0 (by simp only [List.map]; decide) (by decide) (by simp)⟩
  rw [wrAll_store]

/-- What OLD_STREAMS counts is not read from a rack's own status. -/
theorem oldStreams_drained (s : State) (k : Rack) (v : Nat) : oldStreams (wr s F.CASK_RACK_STATUS_DRAIN_LEFT 0 v) k = oldStreams s k := by
  have hbelow (a n r : Nat) : beneathGo (wr s F.CASK_RACK_STATUS_DRAIN_LEFT 0 v) a n r = beneathGo s a n r := by
    induction n generalizing r with
    | zero => rfl
    | succ n ih =>
      have hparent : parentOf (wr s F.CASK_RACK_STATUS_DRAIN_LEFT 0 v) r = parentOf s r := rd_wr_clear _ _ _ _ (by decide)
      simp only [beneathGo, hparent, ih]
  have hversion : rackOldVersion (wr s F.CASK_RACK_STATUS_DRAIN_LEFT 0 v) k = rackOldVersion s k := rfl
  unfold oldStreams beneath
  simp only [hbelow, hversion, wr_strm]

theorem retire_shows (s : State) (k : Rack) : (retire s k).store.rack = none ∧ rd (retire s k) F.CASK_RACK_STATUS_DRAIN_LEFT 0 = 0 := by
  unfold retire
  refine ⟨?_, (rd_raiseRegion _ _ (by decide) ..).trans ?_⟩
  · unfold raiseRegion
    rw [raiseEv_store, wrAll_store]
  · exact rd_wrAll_mem _ 0 0 (by simp only [List.map]; decide) (by decide) (by simp)

theorem exec_drainDeadline {r : Nat} {k : Rack} (hk : s.store.rack = some k) (hflip : k.flip = true) (hregion : k.region = r)
    (hdrain : rd s F.CASK_CTL_DRAIN_S 0 ≠ 0) (hold : oldStreams s k = []) :
    exec (.drainDeadline r) s = .next (retire (wr s F.CASK_RACK_STATUS_DRAIN_LEFT 0 0) k) := by
  have hcheck : retireCheck (wr s F.CASK_RACK_STATUS_DRAIN_LEFT 0 0) = retire (wr s F.CASK_RACK_STATUS_DRAIN_LEFT 0 0) k := by
    unfold retireCheck
    simp [wr_store, hk, hflip, oldStreams_drained, hold]
  show execDrainDeadline r s = _
  unfold execDrainDeadline
  simp only [hk, hflip, hregion, hdrain, hold, ne_eq, not_false_eq_true, and_true, if_true, List.foldl_nil, ite_self]
  exact congrArg Host.Outcome.next hcheck

/-! ## Rights -/

theorem rackCommand_operator {a : Agent} (h : isOperator s a = true) (f : State → State) : rackCommand a s f = f s := if_pos h

theorem rackCommand_refused {a : Agent} (h : isOperator s a = false) (hnone : rd s F.CASK_COMMIT_WRITE_STATUS 0 = 0) (f : State → State) :
    rackCommand a s f = wr s F.CASK_COMMIT_WRITE_STATUS 0 stBadHandle := (if_neg (by simp [h])).trans (if_pos hnone)

/-- Settles O25: each command is the branch of its checks, and the deadline without pinned streams retires the old version. -/
theorem rackCommandsAct : Obligations.RackCommandsAct := by
  intro s a
  refine ⟨fun ha => ⟨fun r p plan hnone hbusy hfind hfates hstate hplan hmissing hbind => ?_, fun k hk hphase hreq => ⟨fun peer hpeer => ?_, ?_⟩⟩,
    fun ha hfree peer => ⟨congrArg Host.Outcome.next (rackCommand_refused ha hfree _), congrArg Host.Outcome.next (rackCommand_refused ha hfree _)⟩,
    fun r k hk hflip hregion hdrain hold => ⟨_, exec_drainDeadline hk hflip hregion hdrain hold, ?_⟩⟩
  · have hexec : exec (.rackLoad a r plan) s =
        .next (setPhase (setRegionState (openRack s ⟨r, plan, rd s F.REG_PLAN_PLAN_ID p, false, false, 0⟩) p rsBinding) p .begin) := by
      refine congrArg Host.Outcome.next ((rackCommand_operator ha _).trans ?_)
      rw [if_neg (by simp [hnone, hbusy]), hfind]
      dsimp only
      rw [if_neg (by simp [hfates]), if_neg (by simp [hstate])]
      exact rackValidate_bound (k := ⟨r, plan, rd s F.REG_PLAN_PLAN_ID p, false, false, 0⟩) hstate hplan hmissing hbind
    obtain ⟨hrack, hloading, hstatus⟩ := openRack_shows s ⟨r, plan, rd s F.REG_PLAN_PLAN_ID p, false, false, 0⟩ p
    exact ⟨_, hexec, hrack, unitOf_setPhase .., hloading, hstatus⟩
  · have hexec : exec (.rackFlip a peer) s = .next (rackStatus { s with store := { s.store with rack := some { k with flipReq := true } } } stAccepted) := by
      refine congrArg Host.Outcome.next ((rackCommand_operator ha _).trans ?_)
      simp only [hk]
      exact if_neg (by simpa [hphase, hreq] using hpeer)
    obtain ⟨hstatus, hstore⟩ := rackStatus_shows { s with store := { s.store with rack := some { k with flipReq := true } } } stAccepted (by decide)
    exact ⟨_, hexec, congrArg (·.rack) hstore, hstatus⟩
  · have hexec : exec (.rackAbort a) s = .next (endRack s stOk) := by
      refine congrArg Host.Outcome.next ((rackCommand_operator ha _).trans ?_)
      simp only [hk]
      exact if_pos ⟨hphase, hreq⟩
    exact ⟨_, hexec, endRack_shows k hk⟩
  · obtain ⟨hrack, hleft⟩ := retire_shows (wr s F.CASK_RACK_STATUS_DRAIN_LEFT 0 0) k
    exact ⟨hleft, hrack⟩

end Sys2Proof.Proofs.Racks

/-! PROOFS. O23: the FULL sweep of a core that no region sweeps, and the unit mailbox (R102, R277, R280, R284). -/

namespace Sys2Proof.Proofs.SweepAndMailbox

open Sys2Proof Sys2Proof.Machine Sys2Proof.Claims Sys2Proof.Proofs.BelfryComplete Sys2Proof.Proofs.DebugWindow Sys2Proof.Proofs.Racks

variable {s : State}

/-! ## The sweep -/

theorem sweepCore_full (s : State) (c : Nat) :
    (coreOf (sweepCore s c true) c).rows = [] ∧ (coreOf (sweepCore s c true) c).regs = blankRegs ∧ rd (sweepCore s c true) F.CORE_STATUS_LEES c = 0 := by
  have hlees : rd (sweepCore s c true) F.CORE_STATUS_LEES c = 0 := rd_wrAll_mem _ c 0 (by simp only [List.map]; decide) (by decide) (by simp)
  have hcore : ∃ u, (sweepCore s c true).cores = (setCore u c { blankCore with
      rows := [], code := (coreOf u c).code, routes := (coreOf u c).routes, planSeed := (coreOf u c).planSeed, entryPc := (coreOf u c).entryPc }).cores :=
    ⟨clearDebug s c, wrAll_cores ..⟩
  obtain ⟨u, hcore⟩ := hcore
  have hat : coreOf (sweepCore s c true) c = _ := (congrArg (tget · c blankCore) hcore).trans (coreOf_setCore u c _)
  exact ⟨congrArg Core.rows hat, congrArg Core.regs hat, hlees⟩

theorem exec_sweepComplete {c : Nat} (hc : c < nCores) (hstate : coreState s c = csSweeping) (hsweeper : sweeper s c = none) :
    exec (.sweepComplete c) s = .next (setCoreState (sweepCore s c true) c csIdle) := by
  refine (if_pos hc).trans (congrArg Host.Outcome.next ((if_neg (not_not_intro hstate)).trans ?_))
  rw [hsweeper]

theorem setCoreState_idle (s : State) (c : Nat) : coreState (setCoreState s c csIdle) c = csIdle ∧ coreOf (setCoreState s c csIdle) c = coreOf s c ∧
    rd (setCoreState s c csIdle) F.CORE_STATUS_LEES c = rd s F.CORE_STATUS_LEES c :=
  ⟨rd_wr_same _ _ _ _ (by decide), rfl, rd_wr_clear _ _ _ _ (by decide)⟩

/-! ## The unit mailbox -/

theorem returned_same (s : State) (w : Word) (r : Nat) : (returned s w).keep.reads = w :: s.keep.reads ∧ unitOf (returned s w) r = unitOf s r ∧
    rd (returned s w) F.REG_UNIT_STATUS_OUT_COUNT r = rd s F.REG_UNIT_STATUS_OUT_COUNT r := ⟨rfl, rfl, rfl⟩

/-- The counts that a region's mailbox shows. -/
theorem noteMbox_shows (s : State) (r : Nat) (f : Region → Region) :
    unitOf (noteMbox (modUnit s r f) r) r = f (unitOf s r) ∧ (noteMbox (modUnit s r f) r).keep = s.keep ∧
      rd (noteMbox (modUnit s r f) r) F.REG_UNIT_STATUS_IN_COUNT r = (f (unitOf s r)).inq.length % 32 ∧
      rd (noteMbox (modUnit s r f) r) F.REG_UNIT_STATUS_OUT_COUNT r = (f (unitOf s r)).outq.length % 32 := by
  have hunit := unitOf_modUnit_same s r f
  have hnote : noteMbox (modUnit s r f) r = wrAll (modUnit s r f) r
      [(F.REG_UNIT_STATUS_IN_COUNT, (f (unitOf s r)).inq.length), (F.REG_UNIT_STATUS_OUT_COUNT, (f (unitOf s r)).outq.length)] := by
    unfold noteMbox
    rw [hunit]
  rw [hnote]
  refine ⟨?_, ?_, ?_, ?_⟩
  · rw [← hunit]
    unfold unitOf
    rw [wrAll_units]
  · rw [wrAll_keep, modUnit_keep]
  · exact rd_wrAll_mem _ r _ (by simp only [List.map]; decide) (by decide) List.mem_cons_self
  · exact rd_wrAll_mem _ r _ (by simp only [List.map]; decide) (by decide) (by simp)

/-- Settles O23: the sweep's clearing of the core and the mailbox's branches, with the counts they show. -/
theorem sweepAndUnitMailbox : Obligations.SweepAndUnitMailbox := by
  intro s
  refine ⟨fun c hc hstate hsweeper => ?_, fun a r v hplan hmay => ?_, fun a r w rest hplan hmay => ?_, fun a r href => ?_⟩
  · obtain ⟨hrows, hregs, hlees⟩ := sweepCore_full s c
    obtain ⟨hidle, hcore, hshown⟩ := setCoreState_idle (sweepCore s c true) c
    refine ⟨_, exec_sweepComplete hc hstate hsweeper, hidle, ?_, ?_, hshown.trans hlees⟩
    · rw [hcore, hrows]
    · rw [hcore, hregs]
  · intro h hroom
    obtain ⟨hunit, -, hin, -⟩ := noteMbox_shows s h fun u => { u with inq := u.inq ++ [v] }
    refine ⟨_, congrArg Host.Outcome.next ((if_neg (by simp [hplan])).trans ((if_neg (by simp [hmay])).trans (if_neg (Nat.not_le.2 hroom)))),
      congrArg Region.inq hunit, hin.trans ?_⟩
    show (_ ++ [v]).length % 32 = _
    rw [List.length_append, List.length_singleton, Nat.mod_eq_of_lt (by omega)]
  · intro h hout
    obtain ⟨hunit, hkeep, -, hcount⟩ := noteMbox_shows s h fun u => { u with outq := rest }
    have hexec : exec (.unitMboxRead a r) s = .next (returned (noteMbox (modUnit s h fun u => { u with outq := rest }) h) w) := by
      refine congrArg Host.Outcome.next ((if_neg (by simp [hplan, hmay])).trans ?_)
      simp only [show headOf s r = h from rfl, hout]
    obtain ⟨hreads, hsame, hshown⟩ := returned_same (noteMbox (modUnit s h fun u => { u with outq := rest }) h) w h
    refine ⟨_, hexec, ?_, ?_, hshown.trans hcount⟩
    · rw [hreads, hkeep]
    · rw [hsame, hunit]
  · exact congrArg Host.Outcome.next (if_pos href)

end Sys2Proof.Proofs.SweepAndMailbox

/-! PROOFS. O24 fails: the READ of FETCH_HALL (R296, R397). -/

namespace Sys2Proof.Proofs.CaskStore

open Sys2Proof Sys2Proof.Machine Sys2Proof.Claims

/-- Node 1 with a pod link to node 2 on port 7, and an operation's address in node 2's memory. -/
def hallLinked : State :=
  modFab (wrAll (wrAll State.reset 0 [(F.NET_FAB_CTL_NODE, 1), (F.CASK_OP_ADDR_ADDR, 2 ^ 49), (F.CASK_OP_LEN_LEN, 64)]) 7
    [(F.NET_PORT_MODE, 1), (F.NET_PORT_UP, 1), (F.NET_PORT_PEER_NODE, 2)]) fun f => { f with carry := [7] }

/-- The READ of an operation's bytes in a traffic class, for a tenant. -/
def readIn (s : State) (tc k : Nat) : Bool × State :=
  sendMessage s (rd s F.CASK_OP_ADDR_ADDR 0 / 2 ^ 48) 3 tc k (rd s F.CASK_OP_ADDR_ADDR 0 % 2 ^ 48) [] (rd s F.CASK_OP_LEN_LEN 0) .caskOp

theorem hallReads_leave : (readIn hallLinked 0 0).1 = true ∧ (readIn hallLinked 1 0).1 = true := by decide +kernel

/-- The two READs stand in the message table with their classes. -/
theorem hallReads_classes : (readIn hallLinked 0 0).2.fab.msgs.map (·.tc) = [0] ∧ (readIn hallLinked 1 0).2.fab.msgs.map (·.tc) = [1] := by decide +kernel

/-- The state behind a READ that has left: the operation is open. -/
def opOpened (s : State) (op : CaskOp) : State := wr { s with store := { s.store with op := some op } } F.CASK_OP_BUSY 0 1

theorem opOpened_fab (s : State) (op : CaskOp) : (opOpened s op).fab = s.fab := rfl

theorem caskOp_idle {s : State} {a : Agent} {k : Nat} (hright : rightsOf s a = some k) (hbusy : rdB s F.CASK_OP_BUSY 0 = false)
    (f : State → Nat → State) : caskOp a s f = f s k := by
  unfold caskOp
  simp only [hright]
  exact if_neg (by simp [hbusy])

/-- FETCH_HALL sends its READ in class 0. -/
theorem exec_fetchHall_left {s : State} {a : Agent} {k : Nat} (hright : rightsOf s a = some k) (hbusy : rdB s F.CASK_OP_BUSY 0 = false)
    (hleft : (readIn s 0 k).1 = true) : exec (.fetchHall a) s = .next (opOpened (readIn s 0 k).2 (newOp s true k)) := by
  refine congrArg Host.Outcome.next ((caskOp_idle hright hbusy _).trans ?_)
  show (match readIn s 0 k with
    | (ok, t) => if ok then opOpened t (newOp s true k) else endOp t stInternal causeNoSource) = _
  generalize readIn s 0 k = sent at hleft
  obtain ⟨ok, t⟩ := sent
  exact if_pos hleft

/-- What the statement says of a FETCH_HALL whose READ would leave in class 1. -/
theorem fetchHall_claim (h : Obligations.CaskStoreOperations) {s : State} {a : Agent} {k : Nat} (hright : rightsOf s a = some k)
    (hbusy : rdB s F.CASK_OP_BUSY 0 = false) (hleft : (readIn s 1 k).1 = true) :
    ∃ t, exec (.fetchHall a) s = .next t ∧ t.fab = (readIn s 1 k).2.fab := by
  obtain ⟨hops, -⟩ := h s
  obtain ⟨-, -, ⟨hclaim, -⟩, -⟩ := hops a k hright hbusy
  obtain ⟨t, ht, -, -, hfab⟩ := hclaim hleft
  exact ⟨t, ht, hfab⟩

/-- Refutes O24: FETCH_HALL's READ is of traffic class 0, the class of casks (R399), and the statement writes it in class 1, that of page fetches. -/
theorem not_caskStoreOperations : ¬ Obligations.CaskStoreOperations := by
  intro h
  have hbusy : rdB hallLinked F.CASK_OP_BUSY 0 = false := by decide +kernel
  obtain ⟨t, ht, hfab⟩ := fetchHall_claim h (s := hallLinked) (a := .mc 0) (k := 0) rfl hbusy hallReads_leave.2
  have hexec := exec_fetchHall_left (s := hallLinked) (a := .mc 0) (k := 0) rfl hbusy hallReads_leave.1
  have hnext := Host.Outcome.next.inj (hexec.symm.trans ht)
  have hopened : t.fab = (readIn hallLinked 0 0).2.fab := hnext ▸ opOpened_fab (readIn hallLinked 0 0).2 (newOp hallLinked true 0)
  have hsame : (readIn hallLinked 0 0).2.fab = (readIn hallLinked 1 0).2.fab := hopened.symm.trans hfab
  have hclass : [0] = [1] := hallReads_classes.1.symm.trans ((congrArg (fun f => f.msgs.map (·.tc)) hsame).trans hallReads_classes.2)
  exact absurd hclass (by decide)

end Sys2Proof.Proofs.CaskStore

/-! PROOFS. O22: the headers of a core's load (R264, R265, R297, R298). -/

namespace Sys2Proof.Proofs.Loading

open Sys2Proof Sys2Proof.Machine Sys2Proof.Claims

/-! ## What a load reads is of the registers and the store -/

theorem liveBankOf_congr {s t : State} (hstore : t.store = s.store) (plan : Nat) : liveBankOf t plan = liveBankOf s plan := by
  unfold liveBankOf liveEntry entryRetired
  rw [hstore]

theorem entryAt_congr {s t : State} (hstore : t.store = s.store) (es : List CaskEntry) (row : Nat) : entryAt t es row = entryAt s es row := by
  unfold entryAt masterAt
  rw [hstore]

section

variable {s t : State} (hregs : t.regs = s.regs)
include hregs

theorem beneath_congr (r a : Nat) : beneath t r a = beneath s r a := by
  have hparent (d : Nat) : parentOf t d = parentOf s d := rd_congr hregs ..
  have hgo (n d : Nat) : beneathGo t a n d = beneathGo s a n d := by
    induction n generalizing d with
    | zero => rfl
    | succ n ih => simp only [beneathGo, hparent, ih]
  exact hgo 4096 r

theorem inWindow_congr (c row : Nat) : inWindow t c row = inWindow s c row := by
  unfold inWindow
  rw [rd_congr hregs, rd_congr hregs]

theorem overProgram_congr (c lo n : Nat) : overProgram t c lo n = overProgram s c lo n := by
  unfold overProgram
  rw [rd_congr hregs, rd_congr hregs]

variable (hstore : t.store = s.store)
include hstore

theorem rackLoading_congr (r : Nat) : rackLoading t r = rackLoading s r := by
  unfold rackLoading
  rw [hstore]
  split
  next k _ => rw [rd_congr hregs F.CASK_RACK_STATUS_PHASE, rd_congr hregs F.REG_PLAN_PLAN_ID, beneath_congr hregs]
  next => rfl

theorem loadImage_congr (r : Nat) : loadImage t r = loadImage s r := by
  unfold loadImage boundPlan
  rw [rackLoading_congr hregs hstore, hstore, rd_congr hregs]

theorem planHeaders_congr (r c : Nat) : planHeaders t r c = planHeaders s r c := by
  unfold planHeaders
  rw [rackLoading_congr hregs hstore, loadImage_congr hregs hstore]

theorem reuseWin_congr (b : List Byte) (c : Nat) : reuseWin t b c = reuseWin s b c := by
  unfold reuseWin
  rw [hstore, rd_congr hregs, rd_congr hregs]

theorem caskRuns_congr (r c : Nat) : caskRuns t r c = caskRuns s r c := by
  unfold caskRuns loadSpan
  simp only [rackLoading_congr hregs hstore, loadImage_congr hregs hstore, liveBankOf_congr hstore, reuseWin_congr hregs hstore]

theorem loadEntries_congr (r c : Nat) : loadEntries t r c = loadEntries s r c := by
  unfold loadEntries
  simp only [rackLoading_congr hregs hstore, loadImage_congr hregs hstore, liveBankOf_congr hstore]

end

theorem routeProgramOk_congr {s t : State} (hregs : t.regs = s.regs) (hshadow : t.shadow = s.shadow) (hcores : t.cores = s.cores) (c : Nat) :
    routeProgramOk t c = routeProgramOk s c := by
  unfold routeProgramOk programOk tickK coreOf
  rw [hshadow, hcores, rd_congr hregs]

/-! ## Words put in place one after another -/

/-- After items have been put at consecutive places, each place holds its item. -/
theorem foldl_zipIdx_at {σ β γ : Type} (put : σ → β × Nat → σ) (look : σ → Nat → γ) (val : β → Nat → γ)
    (hsame : ∀ u e, look (put u e) e.2 = val e.1 e.2) (hother : ∀ u e j, j ≠ e.2 → look (put u e) j = look u j)
    (l : List β) (k : Nat) (u : σ) {i : Nat} {d : β} (hi : l[i]? = some d) : look ((l.zipIdx k).foldl put u) (k + i) = val d (k + i) := by
  have hbefore (l : List β) (k j : Nat) (u : σ) (hj : j < k) : look ((l.zipIdx k).foldl put u) j = look u j := by
    induction l generalizing k u with
    | nil => rfl
    | cons x l ih => exact (ih (k + 1) _ (Nat.lt_succ_of_lt hj)).trans (hother u (x, k) j (Nat.ne_of_lt hj))
  induction l generalizing k u i with
  | nil => cases hi
  | cons x l ih =>
    cases i with
    | zero =>
      obtain rfl : x = d := Option.some.inj hi
      exact (hbefore l (k + 1) k _ k.lt_succ_self).trans (hsame u (x, k))
    | succ i =>
      have hrest := ih (k + 1) (put u (x, k)) hi
      rwa [Nat.add_right_comm] at hrest

/-- The same of a table's entries from place lo on. -/
theorem tsetAll_zipIdx_at {α : Type} (t : Table α) (lo : Nat) (l : List α) (z : α) {i : Nat} {d : α} (hi : l[i]? = some d) :
    tget (tsetAll t (l.zipIdx.map fun e => (lo + e.2, e.1))) (lo + i) z = d := by
  have hat := foldl_zipIdx_at (fun (t : Table α) e => tset t (lo + e.2) e.1) (fun t j => tget t (lo + j) z) (fun d _ => d)
    (fun t e => tget_tset_same ..) (fun t e j hj => tget_tset_other _ _ _ fun h => hj (Nat.add_left_cancel h)) l 0 t hi
  unfold tsetAll
  rw [List.foldl_map]
  rwa [Nat.zero_add] at hat

theorem rowAt_putRow_same (co : Core) (a : Nat) (d : RowData) : rowAt (putRow co a d) a = ⟨d, rowCode d a, true, true⟩ := by
  have hlisted : blankEntry a ⟨d, rowCode d a, true, true⟩ = false := by simp [blankEntry]
  unfold rowAt putRow storeRow
  rw [hlisted]
  exact tget_tset_same ..

theorem rowAt_putRow_other (co : Core) {a b : Nat} (d : RowData) (h : b ≠ a) : rowAt (putRow co a d) b = rowAt co b := by
  have hlisted : blankEntry a ⟨d, rowCode d a, true, true⟩ = false := by simp [blankEntry]
  unfold rowAt putRow storeRow
  rw [hlisted]
  exact tget_tset_other _ _ _ h

theorem storeRows_at (s : State) (c lo : Nat) (rows : List RowData) {i : Nat} {d : RowData} (hi : rows[i]? = some d) :
    rowAt (coreOf (storeRows c lo rows s) c) (lo + i) = ⟨d, rowCode d (lo + i), true, true⟩ := by
  have hat := foldl_zipIdx_at (fun (co : Core) e => putRow co (lo + e.2) e.1) (fun co j => rowAt co (lo + j)) (fun d j => ⟨d, rowCode d (lo + j), true, true⟩)
    (fun co e => rowAt_putRow_same ..) (fun co e j hj => rowAt_putRow_other _ _ fun h => hj (Nat.add_left_cancel h)) rows 0 (coreOf s c) hi
  unfold storeRows
  rw [coreOf_modCore]
  rwa [Nat.zero_add] at hat

theorem storeCode_at (s : State) (c lo : Nat) (bs : List (BitVec 256)) {i : Nat} {b : BitVec 256} (hi : bs[i]? = some b) :
    tget (coreOf (storeCode c lo bs s) c).code (lo + i) 0 = b := by
  unfold storeCode
  rw [coreOf_modCore]
  exact tsetAll_zipIdx_at _ lo bs 0 hi

theorem storeRoutes_at (s : State) (c lo : Nat) (es : List Word) {i : Nat} {e : Word} (hi : es[i]? = some e) :
    tget (coreOf (storeRoutes c lo es s) c).routes (lo + i) 0 = e := by
  unfold storeRoutes
  rw [coreOf_modCore]
  exact tsetAll_zipIdx_at _ lo es 0 hi

/-! ## A header of the region that loads the core -/

/-- The header is counted in SEQ. -/
def counted (s : State) (r c : Nat) : State :=
  modUnit s r fun u => { u with seqs := tset u.seqs c (tget (unitOf s r).seqs c 0 + 1) }

theorem counted_same (s : State) (r c : Nat) : (counted s r c).regs = s.regs ∧ (counted s r c).store = s.store ∧ (counted s r c).shadow = s.shadow ∧
    (counted s r c).cores = s.cores := ⟨rfl, rfl, rfl, rfl⟩

/-- The region r has moved past the header of core c. -/
def Moved (s : State) (r c : Nat) (t : State) : Prop := tget (unitOf t r).seqs c 0 = tget (unitOf s r).seqs c 0 + 1

theorem unitOf_counted (s : State) (r c : Nat) :
    unitOf (counted s r c) r = { unitOf s r with seqs := tset (unitOf s r).seqs c (tget (unitOf s r).seqs c 0 + 1) } :=
  Racks.unitOf_modUnit_same s r _

theorem moved_of_units {s t : State} {r c : Nat} (h : t.units = (counted s r c).units) : Moved s r c t := by
  have hunit : unitOf t r = unitOf (counted s r c) r := congrArg (tget · r blankRegion) h
  unfold Moved
  rw [hunit, unitOf_counted]
  exact tget_tset_same ..

section

variable {s : State} {r c : Nat} {h : LoadHdr} {words : List NetWord} (hloader : loader s c = some r)
  (hend : endsWithEnd (loadImage s r) c = true) (hseq : h.seq.toNat = tget (unitOf s r).seqs c 0 % 65536)
include hloader hend hseq

/-- A header past its checks acts on the state in which it is counted. -/
theorem loadStep_counted (hkind : h.kind.toNat ≤ 5) :
    loadStep c h words true s = loadAct (counted s r c) r c h words (tget (unitOf s r).seqs c 0) := by
  unfold loadStep
  simp only [hloader]
  rw [if_neg (by simp [hend]), if_neg (by decide), if_neg (Nat.not_lt.2 hkind), if_neg (not_not_intro hseq)]
  rfl

end

section

variable {s : State} {r c place : Nat} {h : LoadHdr} {words : List NetWord}

theorem loadAct_code (hk : h.kind = 1) : loadAct s r c h words place = loadCode s r c h words := by
  unfold loadAct
  rw [hk]
  rfl

theorem loadAct_route (hk : h.kind = 2) : loadAct s r c h words place = loadRoute s r c h words := by
  unfold loadAct
  rw [hk]
  rfl

theorem loadAct_rows (hk : h.kind = 3) : loadAct s r c h words place = loadRows s r c h words place := by
  unfold loadAct
  rw [hk]
  rfl

theorem loadAct_reg (hk : h.kind = 4) : loadAct s r c h words place = loadRegister s r c h words := by
  unfold loadAct
  rw [hk]
  rfl

theorem loadAct_end (hk : h.kind = 5) : loadAct s r c h words place = loadEnd s r c place := by
  unfold loadAct
  rw [hk]
  rfl

theorem storeRows_units (rows : List RowData) (lo : Nat) : (storeRows c lo rows s).units = s.units := modCore_units ..

end

theorem loadCode_fits {s : State} {r c : Nat} {h : LoadHdr} {words : List NetWord}
    (hfits : h.dest.toNat + ((words.take h.n).flatMap wordBundles).length ≤ 4096) :
    loadCode s r c h words = storeCode c h.dest.toNat ((words.take h.n).flatMap wordBundles) s := if_neg (Nat.not_lt.2 hfits)

/-- Entries outside the program in force do not meet it. -/
theorem overProgram_outside {s : State} {c lo n : Nat}
    (h : lo + n ≤ rd s F.NET_RP_BASE c ∨ rd s F.NET_RP_BASE c + rd s F.NET_RP_LEN c ≤ lo) : overProgram s c lo n = false := by
  unfold overProgram runsMeet
  rcases h with hbefore | hafter
  · simp [Nat.not_lt.2 hbefore]
  · simp [Nat.not_lt.2 hafter]

theorem loadRoute_fits {s : State} {r c : Nat} {h : LoadHdr} {words : List NetWord}
    (hfits : h.dest.toNat + (wordRoutes (words.take h.n)).length ≤ 8192) (hok : ∀ e ∈ wordRoutes (words.take h.n), routeEntryOk e = true)
    (hover : overProgram s c h.dest.toNat (wordRoutes (words.take h.n)).length = false) :
    loadRoute s r c h words = storeRoutes c h.dest.toNat (wordRoutes (words.take h.n)) s := by
  unfold loadRoute
  dsimp only
  rw [if_neg (by simp [hover]; omega), if_neg (by simpa using hok)]

theorem loadRows_plan {s : State} {r c place : Nat} {h : LoadHdr} {words : List NetWord} (hplace : place < planHeaders s r c)
    (hfits : h.dest.toNat + (wordRows (words.take h.n) h.odd).length ≤ 131072)
    (hwin : ∀ i, i < (wordRows (words.take h.n) h.odd).length → inWindow s c (h.dest.toNat + i) = false) :
    loadRows s r c h words place = storeRows c h.dest.toNat (wordRows (words.take h.n) h.odd) s := by
  unfold loadRows
  dsimp only
  rw [if_neg (Nat.not_le.2 hplace), if_neg]
  intro hbad
  rcases hbad with hlong | hlive
  · exact absurd hfits (Nat.not_le.2 hlong)
  · obtain ⟨i, hi, hin⟩ := List.any_eq_true.1 hlive
    exact absurd hin (by simp [hwin i (List.mem_range.1 hi)])

theorem loadRows_run {s : State} {r c place : Nat} {h : LoadHdr} {words : List NetWord} (hplace : planHeaders s r c ≤ place)
    (hrun : (caskRuns s r c)[place - planHeaders s r c]? = some (h.dest.toNat, 2 * h.n - (if h.odd then 1 else 0))) :
    loadRows s r c h words place = putRun s r c h.dest.toNat (2 * h.n - (if h.odd then 1 else 0)) := by
  have hbit : bit h.odd = if h.odd then 1 else 0 := by cases h.odd <;> rfl
  unfold loadRows
  dsimp only
  rw [if_pos hplace, hrun]
  simp only [hbit, if_true]

/-- A row of a run that a master covers is the master's. -/
theorem putRun_at {s : State} {r c lo n i : Nat} {e : CaskEntry} {m : Master} (hi : i < n) (hentry : entryAt s (loadEntries s r c) (lo + i) = some (e, m)) :
    (rowAt (coreOf (putRun s r c lo n) c) (lo + i)).data = caskPayload m.image (lo + i - e.row) := by
  refine congrArg Row.data (storeRows_at s c lo _ (d := caskPayload m.image (lo + i - e.row)) ?_)
  simp [List.getElem?_map, List.getElem?_range hi, hentry]

theorem loadEnd_counts {s : State} {r c place : Nat} (hroute : routeProgramOk s c = true)
    (hplace : place = planHeaders s r c + (caskRuns s r c).length) :
    (unitOf (loadEnd s r c place) r).seqs = (unitOf s r).seqs ∧ c ∈ (unitOf (loadEnd s r c place) r).ended := by
  have hunit := Racks.unitOf_modUnit_same s r fun u => { u with ended := c :: u.ended.filter (· ≠ c) }
  unfold loadEnd
  rw [if_neg (by simp [hroute]), if_neg (not_not_intro hplace)]
  dsimp only
  split
  · have hlast (u : State) (cycles : Nat) : unitOf (setPhase (wr u F.REG_PLAN_LOADED r cycles) r .commit) r = { unitOf u r with phase := .commit } :=
      Racks.unitOf_modUnit_same (wr u F.REG_PLAN_LOADED r cycles) r _
    rw [hlast, hunit]
    exact ⟨rfl, List.mem_cons_self⟩
  · rw [hunit]
    exact ⟨rfl, List.mem_cons_self⟩

/-- Settles O22: past its checks a header is counted and acts by its KIND; what it puts in place is read back item by item. -/
theorem loadHeadersAct : Obligations.LoadHeadersAct := by
  intro s c h words hc lo ws
  have hon (f : State → State) : onCore c s f = .next (f s) := if_pos hc
  refine ⟨fun r hloader hrack hend => ?_, fun hnone hregion hrun hkind => ?_⟩
  · intro place hseq moved
    obtain ⟨hregs, hstore, hshadow, hcores⟩ := counted_same s r c
    have hact (ws : List NetWord) (hkind : h.kind.toNat ≤ 5) := loadStep_counted (words := ws) hloader hend hseq hkind
    have hcount (hkind : h.kind.toNat ≤ 5) : onCore c s (loadStep c h words true) = .next (loadAct (counted s r c) r c h words place) :=
      (hon _).trans (congrArg Host.Outcome.next (hact words hkind))
    have hmoved (t : State) (hu : t.units = (counted s r c).units) : moved t := moved_of_units hu
    have hheaders := planHeaders_congr hregs hstore r c
    have hruns := caskRuns_congr hregs hstore r c
    refine ⟨fun hk => ?_, fun hk hfits => ?_, fun hk hfits hok hout => ?_, fun hk hplace hfits hwin => ?_, fun hk hplace hrun => ?_, fun hk g w rest hreg hwords => ?_,
      fun hk hroute hplace => ?_⟩
    · refine (hcount (by simp [hk])).trans ?_
      simp only [loadAct, hk]
      rfl
    · have hstep : loadAct (counted s r c) r c h words place = storeCode c lo (ws.flatMap wordBundles) (counted s r c) := by
        exact (loadAct_code hk).trans (loadCode_fits hfits)
      refine ⟨_, (hcount (by simp [hk])).trans (congrArg _ hstep), hmoved _ rfl, fun i b hi => storeCode_at _ c lo _ hi⟩
    · have hstep : loadAct (counted s r c) r c h words place = storeRoutes c lo (wordRoutes ws) (counted s r c) := by
        exact (loadAct_route hk).trans <| loadRoute_fits hfits hok ((overProgram_congr hregs ..).trans (overProgram_outside hout))
      refine ⟨_, (hcount (by simp [hk])).trans (congrArg _ hstep), hmoved _ rfl, fun i e hi => storeRoutes_at _ c lo _ hi⟩
    · have hstep : loadAct (counted s r c) r c h words place = storeRows c lo (wordRows ws h.odd) (counted s r c) := by
        exact (loadAct_rows hk).trans <| loadRows_plan (Nat.lt_of_lt_of_eq hplace hheaders.symm) hfits fun i hi => (inWindow_congr hregs ..).trans (hwin i hi)
      refine ⟨_, (hcount (by simp [hk])).trans (congrArg _ hstep), hmoved _ (storeRows_units ..), fun i d hi => ?_⟩
      have hrow := storeRows_at (counted s r c) c lo (wordRows ws h.odd) hi
      exact ⟨congrArg Row.data hrow, congrArg Row.code hrow⟩
    · have hstep : loadAct (counted s r c) r c h words place = putRun (counted s r c) r c lo (2 * h.n - (if h.odd then 1 else 0)) := by
        refine (loadAct_rows hk).trans (loadRows_run (Nat.le_trans (Nat.le_of_eq hheaders) hplace) ?_)
        rw [hruns, hheaders]
        exact hrun
      refine ⟨_, (hcount (by simp [hk])).trans (congrArg _ hstep), hmoved _ (storeRows_units ..), fun i e m hi hentry => putRun_at hi ?_⟩
      rw [entryAt_congr hstore, loadEntries_congr hregs hstore]
      exact hentry
    · have hstep : loadAct (counted s r c) r c h words place =
          { counted s r c with shadow := tset (counted s r c).shadow (g.base + g.stride * c) ((w >>> 128).setWidth 64) } := by
        rw [loadAct_reg hk]
        unfold loadRegister
        simp only [show loadReg? h.dest.toNat = some g from hreg, hwords, List.head?_cons]
      exact ⟨_, (hcount (by simp [hk])).trans (congrArg _ hstep), hmoved _ rfl, tget_tset_same ..⟩
    · have hroute' : routeProgramOk (counted s r c) c = true := (routeProgramOk_congr hregs hshadow hcores c).trans hroute
      obtain ⟨hseqs, hended⟩ := loadEnd_counts (r := r) (place := place) hroute' (by rw [hheaders, hruns]; exact hplace)
      have hstep : loadAct (counted s r c) r c h [] place = loadEnd (counted s r c) r c place := loadAct_end hk
      refine ⟨_, (hon _).trans (congrArg Host.Outcome.next ((hact [] (by simp [hk])).trans hstep)), ?_, hended⟩
      show tget _ c 0 = _
      rw [hseqs, unitOf_counted]
      exact tget_tset_same ..
  · refine (hon _).trans (congrArg Host.Outcome.next ?_)
    unfold loadStep
    simp only [hnone]
    rw [if_neg (by simp [hregion, hrun]), if_neg, if_neg]
    · rcases hkind with hk | hk | hk
      all_goals rw [hk]; decide
    · rcases hkind with hk | hk | hk
      all_goals rw [hk]; decide

end Sys2Proof.Proofs.Loading

/-! PROOFS. O38 fails: a link that goes down may fail messages, whose events come after its own (R385, R400, R249). -/

namespace Sys2Proof.Proofs.PortLoss

open Sys2Proof Sys2Proof.Machine Sys2Proof.Claims

/-- The READ_REQ to node 2 that fetches page 4 of the stream in slot 3: this is the last try of the fetch, and the request has been retransmitted as often
as RETX_MAX allows. -/
def lastTry : GMsg := ⟨2 * 2 ^ 32, 3, 1, 0, 0, [], 64, 1024, 1, [], [(0, 8)], [(0, 512)], false, false, .fetch 3 4 1⟩

/-- The path by port 7 that carries the request. -/
def ownPath : GPath := ⟨2, 7, 0, 0, 1, 16, [⟨2 * 2 ^ 32, 0, 0⟩], 0, 100000, false, 0, false⟩

/-- Node 1 fetches a page from node 2 by the pod link on port 7. -/
def fetching : State :=
  modFab (wrAll (wr State.reset F.NET_FAB_CTL_NODE 0 1) 7 [(F.NET_PORT_MODE, 1), (F.NET_PORT_UP, 1), (F.NET_PORT_PEER_NODE, 2)]) fun f =>
    { f with carry := [7], msgs := [lastTry], paths := [(512, ownPath)] }

/-- The code of the newest event. -/
def newest (o : Host.Outcome State Fault Refusal) : Option Nat :=
  match o with
  | .next t => t.events.head?.map (·.code)
  | .fault _ => none
  | .refused _ => none

/-- The request fails with its port, and the newest event is that of the page that cannot be had back. -/
theorem newest_portLinkDown : newest (exec (.portLinkDown 7) fetching) = some evKvPageCheck := by decide +kernel

/-- Refutes O38: where the port's loss is the last retransmission of a page's fetch, EV_KV_PAGE_CHECK is logged after EV_PORT_DOWN, which the statement has as
the newest event. -/
theorem not_portsAndNeighbours : ¬ Obligations.PortsAndNeighbours := by
  intro h
  obtain ⟨hdown, -⟩ := h fetching 7 (by decide)
  obtain ⟨t, ht, -, -, hlogged⟩ := hdown (by decide +kernel)
  have hevent : newest (.next t) = some evPortDown := congrArg (Option.map EvRec.code) (hlogged (by decide +kernel) (by decide +kernel))
  have hcodes : some evPortDown = some evKvPageCheck := hevent.symm.trans (ht ▸ newest_portLinkDown)
  exact absurd hcodes (by decide)

end Sys2Proof.Proofs.PortLoss

/-! PROOFS. O37 fails of a state whose path table lists a path twice (R400). -/

namespace Sys2Proof.Proofs.PathProbe

open Sys2Proof Sys2Proof.Machine Sys2Proof.Claims Sys2Proof.Proofs.PortLoss

/-- The path that has closed, with a segment in flight. -/
def closedPath : GPath := { ownPath with expiries := 3, closed := true }

/-- A second entry for the same path, open, after two expiries in a row. -/
def openPath : GPath := { ownPath with expiries := 2, flight := [] }

/-- A message to node 2 with a segment that waits for window room. -/
def waitingMsg : GMsg := ⟨2 * 2 ^ 32 + 1, 2, 1, 0, 0, [], 0, 1024, 1, [0], [], [], false, false, .answer⟩

/-- The path 0 to node 2 stands twice in the table, first as closed. -/
def listedTwice : State :=
  modFab (wrAll (wr State.reset F.NET_FAB_CTL_NODE 0 1) 7 [(F.NET_PORT_MODE, 1), (F.NET_PORT_UP, 1), (F.NET_PORT_PEER_NODE, 2)]) fun f =>
    { f with carry := [7], msgs := [waitingMsg], paths := [(512, closedPath), (512, openPath)] }

/-- What path 512 shows after a command. -/
def pathAfter (o : Host.Outcome State Fault Refusal) : Option (Bool × Nat × Nat) :=
  match o with
  | .next t => (tget? t.fab.paths 512).map fun q => (q.closed, q.expiries, q.win)
  | .fault _ => none
  | .refused _ => none

/-- The probe opens the first entry with a full window of 1; the waiting segment goes out on the second, whose update is stored over the first. -/
theorem pathAfter_pathProbe : pathAfter (exec (.pathProbe 512) listedTwice) = some (false, 2, 16) := by decide +kernel

/-- Refutes O37: nothing in the statement keeps a table's keys apart, and where a path is listed twice the segment sent after the probe leaves the other
entry's expiries and window in place. -/
theorem not_gorlaRetransmission : ¬ Obligations.GorlaRetransmission := by
  intro h
  obtain ⟨-, -, hpaths, -⟩ := h listedTwice
  obtain ⟨-, hprobe⟩ := hpaths 512 closedPath (by decide +kernel)
  obtain ⟨t, ht, hshown⟩ := hprobe rfl
  have hshown' : pathAfter (.next t) = some (false, 0, 1) := hshown
  exact absurd (hshown'.symm.trans (ht ▸ pathAfter_pathProbe)) (by decide)

end Sys2Proof.Proofs.PathProbe

/-! PROOFS. O35: a planned handover (R375, R379). -/

namespace Sys2Proof.Proofs.TwinHandover

open Sys2Proof Sys2Proof.Machine Sys2Proof.Claims Sys2Proof.Proofs.BelfryComplete Sys2Proof.Proofs.Frames

/-! ## Tables whose entries are changed in place -/

theorem tget_map {α : Type} (g : Nat → α → α) (t : Table α) (k : Nat) (d : α) :
    tget (t.map fun e => (e.1, g e.1 e.2)) k d = if (tget? t k).isSome then g k (tget t k d) else d := by
  induction t with
  | nil => rfl
  | cons e t ih =>
    obtain ⟨j, x⟩ := e
    simp only [List.map_cons, tget, tget?]
    split
    next h => simp [h]
    next => exact ih

/-! ## The twin's state -/

theorem twState_setTwin (s : State) {n : Nat} (h : n < 16) : twState (setTwin s n) = n := (rd_wr_same _ _ _ _ (by decide)).trans (Nat.mod_eq_of_lt h)

theorem twState_countStreams (s : State) : twState (countStreams s) = twState s :=
  Within.reads (ps := []) ((Within.refl _ s).countStreams (by decide)) 0

theorem countStreams_same (s : State) : (countStreams s).twin = s.twin ∧ (countStreams s).strm = s.strm := ⟨wrAll_twin .., wrAll_strm ..⟩

/-! ## The streams that are handed away -/

/-- Every open stream of the table is the partner's. -/
def handedAway (slots : Table Stream) : Table Stream := slots.map fun e => if e.2.state = .closed then e else (e.1, handAway e.2)

theorem handedAway_at (slots : Table Stream) (k : Nat) (h : (tget (handedAway slots) k blankStream).state ≠ .closed) :
    (tget (handedAway slots) k blankStream).mirror = true ∧ (tget (handedAway slots) k blankStream).seat = none := by
  have hmap : handedAway slots = slots.map fun e => (e.1, if e.2.state = .closed then e.2 else handAway e.2) := by
    refine List.map_congr_left fun e _ => ?_
    split
    · rfl
    · rfl
  have hat : tget (handedAway slots) k blankStream = _ :=
    (congrArg (tget · k blankStream) hmap).trans (tget_map (fun _ x => if x.state = .closed then x else handAway x) slots k blankStream)
  rw [hat] at h ⊢
  split
  next hsome =>
    rw [if_pos hsome] at h
    split
    next hclosed => rw [if_pos hclosed] at h; exact absurd hclosed h
    next => exact ⟨rfl, rfl⟩
  next hnone => rw [if_neg hnone] at h; exact absurd rfl h

/-! ## The handover -/

/-- The engine that has announced its handover. -/
def marked (s : State) : State := modTwin s fun t => { t with hbSent := ownHb s true :: t.hbSent, marker := true }

/-- The engine that has announced its handover and stopped its queues. -/
def announced (s : State) : State := stopQueues (sendTwin (marked s) (.fenceAck (bootCount (marked s)) 0))

/-- The streams of an engine that has announced its handover. -/
def emptied (s : State) : State :=
  { s with strm := { s.strm with slots := handedAway s.strm.slots, emits := [], frames := [], exports := [] } }

theorem stopQueues_twin (s : State) : (stopQueues s).twin = s.twin :=
  ((Within.refl ⟨fun p => decide (p ≠ .twin), fun _ => true⟩ s).stopQueues rfl rfl).parts .twin rfl

theorem announced_twin (s : State) : (announced s).twin.marker = true ∧ (announced s).twin.hbSent = ownHb s true :: s.twin.hbSent := by
  unfold announced
  rw [stopQueues_twin]
  exact ⟨rfl, rfl⟩

theorem rd_announced (s : State) : rd (announced s) F.TWIN_CTL_PAIR_EN 0 = rd s F.TWIN_CTL_PAIR_EN 0 :=
  Within.reads (ps := [.twin, .strm]) ((((Within.refl _ s).modTwin rfl _).sendTwin rfl _).stopQueues rfl (by decide)) 0

theorem emptied_same (s : State) : (emptied s).twin = s.twin ∧ (emptied s).strm.slots = handedAway s.strm.slots ∧
    rd (emptied s) F.TWIN_CTL_PAIR_EN 0 = rd s F.TWIN_CTL_PAIR_EN 0 := ⟨rfl, rfl, rfl⟩

theorem setTwin_same (s : State) (n : Nat) : (setTwin s n).twin.marker = s.twin.marker ∧ (setTwin s n).twin.hbSent = s.twin.hbSent ∧
    (setTwin s n).strm = s.strm := ⟨rfl, rfl, rfl⟩

/-- What a planned handover leaves. -/
structure Given (t : State) : Prop where
  marker : t.twin.marker = true
  announced : t.twin.hbSent.head?.map (·.handover) = some true
  streams : ∀ k, (streamAt t k).state ≠ .closed → (streamAt t k).mirror = true ∧ (streamAt t k).seat = none

theorem Given.setTwin {t : State} (h : Given t) (n : Nat) : Given (setTwin t n) := ⟨h.marker, h.announced, h.streams⟩

theorem Given.countStreams {t : State} (h : Given t) : Given (countStreams t) := by
  obtain ⟨htwin, hstrm⟩ := countStreams_same t
  have hat (k : Nat) : streamAt (Machine.countStreams t) k = streamAt t k := by
    unfold streamAt
    rw [hstrm]
  refine ⟨?_, ?_, fun k => ?_⟩
  · rw [htwin]; exact h.marker
  · rw [htwin]; exact h.announced
  · rw [hat]; exact h.streams k

theorem given_emptied (s : State) : Given (emptied (announced s)) := by
  obtain ⟨htwin, hslots, -⟩ := emptied_same (announced s)
  obtain ⟨hmarker, hsent⟩ := announced_twin s
  refine ⟨?_, ?_, fun k => ?_⟩
  · rw [htwin, hmarker]
  · rw [htwin, hsent]; rfl
  · unfold streamAt
    rw [hslots]
    exact handedAway_at _ k

/-- With no entry waiting, what is released of the journal leaves the registers. -/
theorem releaseCommitted_regs {s : State} (h : s.strm.emits = []) : (releaseCommitted s).regs = s.regs := by
  unfold releaseCommitted
  rw [h]
  rfl

theorem sendJournal_emits (s : State) : (sendJournal s).strm = s.strm :=
  ((Within.refl ⟨fun p => decide (p ≠ .strm), fun _ => true⟩ s).sendJournal (by decide)).parts .strm rfl

/-- The handover of an engine whose journal has gone out. -/
def handedOver (u : State) : State :=
  countStreams (setTwin (emptied (announced u)) (if rdB (emptied (announced u)) F.TWIN_CTL_PAIR_EN 0 then twOffering else twUnpaired))

theorem handover_eq {s : State} (h : twState s = twPaired) : handover s = handedOver (releaseCommitted (sendJournal s)) := by
  unfold handover
  rw [if_neg (not_not_intro h)]
  generalize releaseCommitted (sendJournal s) = u
  unfold handedOver emptied announced marked handedAway
  rfl

theorem handover_gives {s : State} (hemits : s.strm.emits = []) (h : twState s = twPaired) :
    Given (handover s) ∧ twState (handover s) = if rdB s F.TWIN_CTL_PAIR_EN 0 then twOffering else twUnpaired := by
  have hpair : rdB (emptied (announced (releaseCommitted (sendJournal s)))) F.TWIN_CTL_PAIR_EN 0 = rdB s F.TWIN_CTL_PAIR_EN 0 := by
    obtain ⟨-, -, hread⟩ := emptied_same (announced (releaseCommitted (sendJournal s)))
    have hsent : rd (sendJournal s) F.TWIN_CTL_PAIR_EN 0 = rd s F.TWIN_CTL_PAIR_EN 0 :=
      Within.reads (ps := [.fab]) ((Within.refl _ s).sendJournal (by decide)) 0
    have hreleased : (releaseCommitted (sendJournal s)).regs = (sendJournal s).regs := releaseCommitted_regs (by rw [sendJournal_emits, hemits])
    unfold rdB
    rw [hread, rd_announced, rd_congr hreleased, hsent]
  rw [handover_eq h]
  unfold handedOver
  rw [hpair]
  refine ⟨((given_emptied _).setTwin _).countStreams, (twState_countStreams _).trans (twState_setTwin _ ?_)⟩
  split
  · decide
  · decide

/-- Settles O35: a handover announces itself, sets the marker and hands every open stream away; clearing PAIR_EN ends in UNPAIRED. -/
theorem twinsHandOver : Obligations.TwinsHandOver := by
  intro s hemits given
  refine ⟨fun hstate => ?_, fun hclear => ⟨fun hstate => ?_, fun hstate => ?_⟩⟩
  · obtain ⟨⟨hmarker, hsent, hstreams⟩, htw⟩ := handover_gives hemits hstate
    exact ⟨_, rfl, ⟨hmarker, hsent, hstreams⟩, htw⟩
  · have hexec : exec .pairEnClear s = .next (setTwin (handover s) twUnpaired) :=
      congrArg Host.Outcome.next ((if_neg (by simp [hclear])).trans (if_pos hstate))
    obtain ⟨hgiven, -⟩ := handover_gives hemits hstate
    obtain ⟨hmarker, hsent, hstreams⟩ := hgiven.setTwin twUnpaired
    exact ⟨_, hexec, ⟨hmarker, hsent, hstreams⟩, twState_setTwin _ (by decide)⟩
  · exact congrArg Host.Outcome.next ((if_neg (by simp [hclear])).trans ((if_neg (by rw [hstate]; decide)).trans (if_pos hstate)))

end Sys2Proof.Proofs.TwinHandover

/-! PROOFS. Streams and pages: what an operation on one leaves of the others (R246–R251, R325, R370). -/

namespace Sys2Proof.Proofs.Frames

open Sys2Proof Sys2Proof.Machine Sys2Proof.Claims

/-! ## The stream in a slot -/

section

variable (s : State) (k : Nat)

@[simp] theorem streamAt_setStream_same (x : Stream) : streamAt (setStream s k x) k = x := tget_tset_same ..

theorem streamAt_setStream_other {j : Nat} (x : Stream) (h : j ≠ k) : streamAt (setStream s k x) j = streamAt s j := tget_tset_other _ _ _ h

@[simp] theorem streamAt_modStream_same (f : Stream → Stream) : streamAt (modStream s k f) k = f (streamAt s k) := tget_tset_same ..

theorem streamAt_modStream_other {j : Nat} (f : Stream → Stream) (h : j ≠ k) : streamAt (modStream s k f) j = streamAt s j := tget_tset_other _ _ _ h

end

theorem streamAt_congr {s t : State} (h : t.strm = s.strm) (k : Nat) : streamAt t k = streamAt s k := by
  unfold streamAt
  rw [h]

theorem countPages_strm (s : State) (t : Nat) : (countPages s t).strm = s.strm := by
  unfold countPages
  rw [wrAll_strm, wrAll_strm]

theorem countStreams_strm (s : State) : (countStreams s).strm = s.strm := wrAll_strm ..

theorem countStreams_twin (s : State) : (countStreams s).twin = s.twin := wrAll_twin ..

/-! ## What they reach -/

/-- What the page counts reach. -/
def pageFoot : Foot :=
  ⟨[], [F.REG_TENANT_USE_A_SLOTS, F.REG_TENANT_USE_B_PAGES, F.STRM_PAGER_STATUS_CELLAR_PAGES, F.STRM_PAGER_STATUS_HALL_PAGES]⟩

/-- What restoring a mirror reaches. -/
def mirrorFoot : Foot := ⟨[.strm], pageFoot.fields⟩

section

variable {a : Allow} {s t : State}

theorem Within.countPages (h : Within a s t) (ha : pageFoot.Fits a) (tenant : Nat) : Within a s (countPages t tenant) := by
  unfold Machine.countPages
  refine (h.wrAll fun f hf => ha.field ?_).wrAll fun f hf => ha.field ?_
  · exact (by decide : ∀ g ∈ [F.REG_TENANT_USE_A_SLOTS, F.REG_TENANT_USE_B_PAGES], g ∈ pageFoot.fields) f hf
  · exact (by decide : ∀ g ∈ [F.STRM_PAGER_STATUS_CELLAR_PAGES, F.STRM_PAGER_STATUS_HALL_PAGES], g ∈ pageFoot.fields) f hf

theorem Within.newPage (h : Within a s t) (hp : a.part .strm = true) (tenant : Nat) : Within a s (newPage t tenant).2 := h.strm hp _

theorem Within.setPage (h : Within a s t) (hp : a.part .strm = true) (p : Nat) (x : Page) : Within a s (setPage t p x) := h.strm hp _

theorem Within.freePages (h : Within a s t) (hp : a.part .strm = true) : Within a s (freePages t) := h.strm hp _

theorem Within.restoreMirror (h : Within a s t) (ha : mirrorFoot.Fits a) (slot : Nat) : Within a s (restoreMirror t slot) := by
  have hp : a.part .strm = true := ha.part (by decide)
  have hcount : pageFoot.Fits a := ha.mono (by decide) (by decide)
  unfold Machine.restoreMirror
  exact Within.countPages (Within.foldl (h.modStream hp _ _) fun u hu j => ((hu.newPage hp _).setPage hp _ _).modStream hp _ _) hcount _

theorem Within.addMirrored (h : Within a s t) (hp : a.part .strm = true) (hf : a.field F.STRM_STATUS_OUTSTANDING = true) (cmds : List LCmd) (ph : CPhase)
    (place : Nat → Nat) : Within a s (addMirrored t cmds ph place) := (h.strm hp _).wr hf

end

end Sys2Proof.Proofs.Frames

/-! PROOFS. O34: fencing and the takeover (R368–R370, R391). -/

namespace Sys2Proof.Proofs.TwinFence

open Sys2Proof Sys2Proof.Machine Sys2Proof.Claims Sys2Proof.Proofs.BelfryComplete Sys2Proof.Proofs.Frames Sys2Proof.Proofs.Raising
  Sys2Proof.Proofs.TwinHandover Sys2Proof.Proofs.ReadRules

/-! ## Mirrors that are served here -/

/-- What a restored mirror keeps of the other streams. -/
structure Served (s t : State) (slot : Nat) : Prop where
  own : (streamAt t slot).mirror = false
  others : ∀ k, k ≠ slot → streamAt t k = streamAt s k

theorem Served.modStream {s t : State} {slot : Nat} (h : Served s t slot) (f : Stream → Stream) (hf : (f (streamAt t slot)).mirror = false) :
    Served s (modStream t slot f) slot :=
  ⟨(congrArg Stream.mirror (streamAt_modStream_same t slot f)).trans hf, fun k hk => (streamAt_modStream_other t slot f hk).trans (h.others k hk)⟩

theorem Served.of_slots {s t u : State} {slot : Nat} (h : Served s t slot) (hslots : u.strm.slots = t.strm.slots) : Served s u slot := by
  have hat (k : Nat) : streamAt u k = streamAt t k := by
    unfold streamAt
    rw [hslots]
  exact ⟨(congrArg Stream.mirror (hat slot)).trans h.own, fun k hk => (hat k).trans (h.others k hk)⟩

/-- A page that a mirror holds joins its stream. -/
def servePage (slot n tenant : Nat) (s : State) (j : Nat) : State :=
  let (p, s) := newPage s tenant
  let s := setPage s p (mirrorPage s slot n j (pageOf s p))
  modStream s slot fun x => { x with pages := x.pages ++ [p] }

theorem Served.servePage {s t : State} {slot : Nat} (h : Served s t slot) (n tenant j : Nat) : Served s (servePage slot n tenant t j) slot := by
  have hpage : Served s (setPage (newPage t tenant).2 (newPage t tenant).1 (mirrorPage (newPage t tenant).2 slot n j (pageOf (newPage t tenant).2
      (newPage t tenant).1))) slot := h.of_slots rfl
  exact hpage.modStream (fun x => { x with pages := x.pages ++ [(newPage t tenant).1] }) hpage.own

theorem served_restoreMirror (s : State) (slot : Nat) : Served s (restoreMirror s slot) slot := by
  unfold restoreMirror
  dsimp only
  refine Served.of_slots ?_ (congrArg StreamSt.slots (countPages_strm ..))
  generalize List.range _ = l
  have hfold (t : State) (ht : Served s t slot) (n tenant : Nat) : Served s (l.foldl (servePage slot n tenant) t) slot := by
    induction l generalizing t with
    | nil => exact ht
    | cons j l ih => exact ih _ (ht.servePage n tenant j)
  exact hfold _ ⟨congrArg Stream.mirror (streamAt_modStream_same ..), fun k hk => streamAt_modStream_other _ _ _ hk⟩ _ _

theorem foldl_restoreMirror_at (l : List Nat) (s : State) (k : Nat) :
    (k ∈ l → (streamAt (l.foldl restoreMirror s) k).mirror = false) ∧ (k ∉ l → streamAt (l.foldl restoreMirror s) k = streamAt s k) := by
  induction l generalizing s with
  | nil => exact ⟨fun hk => absurd hk List.not_mem_nil, fun _ => rfl⟩
  | cons j l ih =>
    obtain ⟨hin, hout⟩ := ih (restoreMirror s j)
    have hserved := served_restoreMirror s j
    refine ⟨fun hk => ?_, fun hk => (hout fun h => hk (List.mem_cons_of_mem _ h)).trans (hserved.others k fun h => hk (h ▸ List.mem_cons_self))⟩
    by_cases hl : k ∈ l
    · exact hin hl
    · obtain rfl := (List.mem_cons.1 hk).resolve_right hl
      exact (congrArg Stream.mirror (hout hl)).trans hserved.own

/-- An entry of a table is what a search finds, or the default. -/
theorem tget_mem {α : Type} (t : Table α) (k : Nat) (d : α) : tget t k d = d ∨ (k, tget t k d) ∈ t := by
  induction t with
  | nil => exact .inl rfl
  | cons e t ih =>
    obtain ⟨j, x⟩ := e
    simp only [tget]
    split
    next h => exact .inr (h ▸ List.mem_cons_self)
    next => exact ih.imp_right (List.mem_cons_of_mem _)

/-- The slots of the open mirrors. -/
def openMirrors (s : State) : List Nat := (s.strm.slots.filter fun e => e.2.mirror && e.2.state ≠ .closed).map (·.1)

/-- Once each open mirror is restored, no open stream is one. -/
theorem mirrors_restored (s : State) (k : Nat) (hopen : (streamAt ((openMirrors s).foldl restoreMirror s) k).state ≠ .closed) :
    (streamAt ((openMirrors s).foldl restoreMirror s) k).mirror = false := by
  obtain ⟨hin, hout⟩ := foldl_restoreMirror_at (openMirrors s) s k
  by_cases hk : k ∈ openMirrors s
  · exact hin hk
  · rw [hout hk] at hopen ⊢
    rcases tget_mem s.strm.slots k blankStream with hblank | hmem
    · exact congrArg Stream.mirror hblank
    · by_contra hmirror
      refine hk (List.mem_map.2 ⟨(k, streamAt s k), List.mem_filter.2 ⟨hmem, ?_⟩, rfl⟩)
      simpa [hopen] using hmirror

/-! ## The takeover -/

/-- The partner's mirrors are served here. -/
def mirrorsServed (s : State) : State := (openMirrors s).foldl restoreMirror s

/-- A command of the partner's as it waits here. -/
def takenCmd (base : Nat) (place : Nat → Nat) (i : Nat) (c : LCmd) : LCmd :=
  { c with id := base + i, jsn := 0, qp := place c.qp, phase := if c.phase = .accepted then .accepted else .mirrored }

theorem addMirrored_cmds (s : State) (cmds : List LCmd) (place : Nat → Nat) :
    (addMirrored s cmds .mirrored place).strm.cmds = s.strm.cmds ++ cmds.mapIdx (takenCmd s.strm.nextCmd place) := rfl

/-- What was served for the partner is this engine's own. -/
def ownCmd (place : Nat → Nat) (c : LCmd) : LCmd := if 128 ≤ c.qp then { c with qp := place (c.qp % 64) } else c

def ownStream (s : State) (place : Nat → Nat) (e : Nat × Stream) : Nat × Stream :=
  if partnerServed s e.1 then (e.1, { e.2 with covered := false, qp := place (e.2.qp % 64) }) else e

/-- The commands and streams that were served for the partner become this engine's own. -/
def madeOwn (s : State) (place : Nat → Nat) : State :=
  { s with strm := { s.strm with cmds := s.strm.cmds.map (ownCmd place), slots := s.strm.slots.map (ownStream s place) } }

/-- The state of the pair once the partner's own is taken. -/
def pairTaken (s : State) : State :=
  modTwin s fun t => { t with mcmds := [], owed := [], mirrorQps := [], resync := [], carrying := true, peerCarrying := false, taking := true,
                              fencedBoot := some t.peerBoot }

/-- The takeover but for its event. -/
def beforeTaken (s : State) : State :=
  let a := mirrorsServed s
  let b := madeOwn (addMirrored a (a.twin.mcmds.filter fun c => c.phase ≠ .fetched) .mirrored (adoptedQp a)) (adoptedQp a)
  countStreams (setTwin (wrAll (pairTaken b) 0 [(F.TWIN_FENCE_REQ, 0)]) twCarrying)

theorem mirrorsServed_within {a : Allow} (ha : mirrorFoot.Fits a) (s : State) : Within a s (mirrorsServed s) :=
  (Within.refl a s).foldl fun _ hu k => hu.restoreMirror ha k

theorem mirrorsServed_twin (s : State) : (mirrorsServed s).twin = s.twin :=
  (mirrorsServed_within (a := ⟨fun p => decide (p ≠ .twin), fun _ => true⟩) (by decide) s).parts .twin rfl

/-- What the takeover reaches before its event. -/
def takeFoot : Foot := ⟨[.strm, .twin], F.STRM_STATUS_OUTSTANDING :: F.TWIN_FENCE_REQ :: F.TWIN_STATUS_STATE :: pageFoot.fields ++ countFoot.fields⟩

theorem beforeTaken_within {a : Allow} (ha : takeFoot.Fits a) (s : State) : Within a s (beforeTaken s) := by
  have hstrm : a.part .strm = true := ha.part (by decide)
  have htwin : a.part .twin = true := ha.part (by decide)
  have hcount : a.field F.STRM_STATUS_OUTSTANDING = true := ha.field (by decide)
  have hreq : a.field F.TWIN_FENCE_REQ = true := ha.field (by decide)
  have hstate : a.field F.TWIN_STATUS_STATE = true := ha.field (by decide)
  have hserved := mirrorsServed_within (a := a) (ha.mono (by decide) (by decide)) s
  have hown := ((hserved.addMirrored hstrm hcount ((mirrorsServed s).twin.mcmds.filter fun c => c.phase ≠ .fetched) .mirrored
    (adoptedQp (mirrorsServed s))).strm hstrm (madeOwn (addMirrored (mirrorsServed s) ((mirrorsServed s).twin.mcmds.filter fun c => c.phase ≠ .fetched)
      .mirrored (adoptedQp (mirrorsServed s))) (adoptedQp (mirrorsServed s))).strm).twin htwin (pairTaken (mirrorsServed s)).twin
  unfold beforeTaken
  exact ((hown.wrAll (by simpa using hreq)).setTwin htwin hstate _).countStreams (ha.mono (by decide) (by decide))

/-- A takeover is complete. -/
def completed (u : State) : State :=
  raiseEngine (bump (modTwin u fun t => { t with taking := false }) F.TWIN_CNT_TAKEOVERS 0 1) .alarm evTwinTakeover 0 0

theorem completed_same (u : State) : (completed u).twin = { u.twin with taking := false } ∧ (completed u).strm = u.strm ∧
    twState (completed u) = twState u := by
  unfold completed
  refine ⟨?_, ?_, ?_⟩
  · rw [raiseEngine, raiseEv_twin]
    rfl
  · rw [raiseEngine, raiseEv_strm]
    rfl
  · exact (rd_raiseEngine _ _ (by decide) ..).trans (rd_wr_clear _ _ _ _ (by decide))

theorem completed_logged {s u : State} (hclk : u.clk = s.clk) (hseq : rd u F.KEEP_EV_SEQ_SEQ 0 = rd s F.KEEP_EV_SEQ_SEQ 0) :
    Logged s (completed u) .alarm evTwinTakeover 0 0 0 0 := by
  unfold completed raiseEngine
  refine logged_raiseEv ?_ ?_ ..
  · exact congrArg (fun c => c.hall / 84) hclk
  · exact (rd_wr_clear _ _ _ _ (by decide)).trans ((rd_congr rfl ..).trans hseq)

theorem noteTaken_completed {u : State} (htaking : u.twin.taking = true) (hadopted : u.twin.adopted = []) : noteTaken u = completed u := by
  unfold noteTaken
  rw [htaking, hadopted]
  rfl

theorem beforeTaken_twin (s : State) : (beforeTaken s).twin =
    { s.twin with mcmds := [], owed := [], mirrorQps := [], resync := [], carrying := true, peerCarrying := false, taking := true,
                  fencedBoot := some s.twin.peerBoot, recorded := twCarrying } := by
  have hserved := mirrorsServed_twin s
  unfold beforeTaken
  rw [countStreams_twin]
  show { (wrAll (pairTaken _) 0 _).twin with recorded := twCarrying } = _
  rw [wrAll_twin]
  show { (pairTaken (mirrorsServed s)).twin with recorded := twCarrying } = _
  unfold pairTaken modTwin
  rw [hserved]

theorem beforeTaken_strm (s : State) : ∃ u place, u.strm.slots = (mirrorsServed s).strm.slots ∧
    u.strm.cmds = (mirrorsServed s).strm.cmds ++ (s.twin.mcmds.filter fun c => c.phase ≠ .fetched).mapIdx
      (takenCmd (mirrorsServed s).strm.nextCmd place) ∧ (beforeTaken s).strm = (madeOwn u place).strm := by
  refine ⟨addMirrored (mirrorsServed s) (s.twin.mcmds.filter fun c => c.phase ≠ .fetched) .mirrored (adoptedQp (mirrorsServed s)),
    adoptedQp (mirrorsServed s), rfl, addMirrored_cmds .., ?_⟩
  unfold beforeTaken
  rw [countStreams_strm, mirrorsServed_twin]
  exact (congrArg State.strm rfl).trans (wrAll_strm ..)

theorem takeOver_noted {s : State} (hqps : s.twin.mirrorQps = []) : takeOver s = noteTaken (beforeTaken s) := by
  have hlast : (mirrorsServed s).twin.mirrorQps = [] := by rw [mirrorsServed_twin, hqps]
  have hserved : takeOver s = noteTaken (countStreams (setTwin (wrAll (pairTaken ((mirrorsServed s).twin.mirrorQps.foldl adoptQp
      (madeOwn (addMirrored (mirrorsServed s) ((mirrorsServed s).twin.mcmds.filter fun c => c.phase ≠ .fetched) .mirrored (adoptedQp (mirrorsServed s)))
        (adoptedQp (mirrorsServed s))))) 0 [(F.TWIN_FENCE_REQ, 0)]) twCarrying)) := by
    unfold takeOver mirrorsServed openMirrors pairTaken madeOwn ownStream ownCmd
    rfl
  rw [hserved, hlast]
  rfl

theorem takeOver_eq {s : State} (hqps : s.twin.mirrorQps = []) (hadopted : s.twin.adopted = []) : takeOver s = completed (beforeTaken s) := by
  rw [takeOver_noted hqps]
  refine noteTaken_completed ?_ ?_
  all_goals rw [beforeTaken_twin]
  exact hadopted

theorem twState_beforeTaken (s : State) : twState (beforeTaken s) = twCarrying := (twState_countStreams _).trans (twState_setTwin _ (by decide))

/-- The takeover's event is the newest one. -/
theorem takeOver_logged (s : State) : Logged s (completed (beforeTaken s)) .alarm evTwinTakeover 0 0 0 0 :=
  completed_logged ((beforeTaken_within (a := ⟨fun p => decide (p ≠ .clk), fun _ => true⟩) (by decide) s).parts .clk rfl)
    (Within.reads (ps := [.strm, .twin]) (beforeTaken_within (by decide) s) 0)

/-- The streams that the takeover leaves are no mirrors. -/
theorem takeOver_streams (s : State) (k : Nat) (hopen : (streamAt (completed (beforeTaken s)) k).state ≠ .closed) : (streamAt (completed (beforeTaken s)) k).mirror = false := by
  obtain ⟨-, hstrm, -⟩ := completed_same (beforeTaken s)
  obtain ⟨u, place, hslots, -, hmade⟩ := beforeTaken_strm s
  have hown : (streamAt (completed (beforeTaken s)) k).state = (streamAt (mirrorsServed s) k).state ∧
      (streamAt (completed (beforeTaken s)) k).mirror = (streamAt (mirrorsServed s) k).mirror := by
    have hmap : u.strm.slots.map (ownStream u place) = u.strm.slots.map fun e =>
        (e.1, if partnerServed u e.1 then { e.2 with covered := false, qp := place (e.2.qp % 64) } else e.2) := by
      refine List.map_congr_left fun e _ => ?_
      unfold ownStream
      split
      · rfl
      · rfl
    have hat := (streamAt_congr (hstrm.trans hmade) k).trans ((congrArg (tget · k blankStream) hmap).trans (tget_map (fun j x =>
        if partnerServed u j then { x with covered := false, qp := place (x.qp % 64) } else x) u.strm.slots k blankStream))
    have hbefore : streamAt (mirrorsServed s) k = tget u.strm.slots k blankStream := by rw [hslots]; rfl
    rw [hat, hbefore]
    split
    · split
      · exact ⟨rfl, rfl⟩
      · exact ⟨rfl, rfl⟩
    next hnone =>
      have hblank : tget u.strm.slots k blankStream = blankStream := by
        rw [Tables.tget_eq_getD, Option.not_isSome_iff_eq_none.1 hnone]
        rfl
      rw [hblank]
      exact ⟨rfl, rfl⟩
  obtain ⟨hstate, hmirror⟩ := hown
  rw [hmirror]
  exact mirrors_restored s k (hstate ▸ hopen)

/-- A whole command of the partner's waits here. -/
theorem takeOver_cmds (s : State) (c : LCmd) (hc : c ∈ s.twin.mcmds) (hwhole : c.phase ≠ .fetched) :
    ∃ d ∈ (completed (beforeTaken s)).strm.cmds, d.op = c.op ∧ d.handle = c.handle ∧ d.entry = c.entry ∧ d.emitted = c.emitted ∧
      d.phase = if c.phase = .accepted then .accepted else .mirrored := by
  obtain ⟨-, hstrm, -⟩ := completed_same (beforeTaken s)
  obtain ⟨u, place, -, hcmds, hmade⟩ := beforeTaken_strm s
  obtain ⟨i, hi, hat⟩ := List.mem_iff_getElem.1 (List.mem_filter (p := fun c : LCmd => c.phase ≠ .fetched).2 ⟨hc, decide_eq_true hwhole⟩)
  refine ⟨ownCmd place (takenCmd (mirrorsServed s).strm.nextCmd place i c), ?_, ?_⟩
  · rw [hstrm, hmade]
    refine List.mem_map_of_mem ?_
    rw [hcmds]
    refine List.mem_append_right _ (List.mem_mapIdx.2 ⟨i, hi, ?_⟩)
    rw [hat]
  · unfold ownCmd
    split
    · exact ⟨rfl, rfl, rfl, rfl, rfl⟩
    · exact ⟨rfl, rfl, rfl, rfl, rfl⟩

/-- What the statement asks of a takeover. -/
def Taken (s t : State) : Prop :=
  twState t = twCarrying ∧ t.twin.carrying = true ∧ t.twin.fencedBoot = some s.twin.peerBoot ∧
    (∀ k, (streamAt t k).state ≠ .closed → (streamAt t k).mirror = false) ∧ t.twin.mcmds = [] ∧ t.twin.owed = [] ∧
    (∀ c ∈ s.twin.mcmds, c.phase ≠ .fetched → ∃ d ∈ t.strm.cmds, d.op = c.op ∧ d.handle = c.handle ∧ d.entry = c.entry ∧ d.emitted = c.emitted ∧
      d.phase = if c.phase = .accepted then .accepted else .mirrored) ∧ Logged s t .alarm evTwinTakeover 0 0 0 0

theorem taken_takeOver {s : State} (hqps : s.twin.mirrorQps = []) (hadopted : s.twin.adopted = []) : Taken s (takeOver s) := by
  obtain ⟨htwin, -, hstate⟩ := completed_same (beforeTaken s)
  rw [takeOver_eq hqps hadopted]
  refine ⟨hstate.trans (twState_beforeTaken s), ?_, ?_, takeOver_streams s, ?_, ?_, takeOver_cmds s, takeOver_logged s⟩
  all_goals rw [htwin, beforeTaken_twin]

/-! ## Fenced -/

/-- The engine that has stopped what a FENCE ends. -/
def stoppedBy (s : State) (num : Nat) : State :=
  modTwin (stopAllRegions (stopQueues (dropJournal s))) fun t => { t with marker := true, lastFence := num }

theorem stopped_within {a : Allow} (hfab : a.part .fab = true) (hstrm : a.part .strm = true) (hunits : a.part .units = true)
    (hactive : a.field F.STRM_QP_STATUS_ACTIVE = true) (s : State) : Within a s (stopAllRegions (stopQueues (dropJournal s))) := by
  have hdropped : Within a s (dropJournal s) := (Within.refl a s).foldl fun _ hu m => hu.dropMsg hfab _
  exact (hdropped.stopQueues hstrm hactive).foldl fun _ hu r => .ite (hu.units hunits _) hu

theorem stopped_twin (s : State) : (stopAllRegions (stopQueues (dropJournal s))).twin = s.twin :=
  (stopped_within (a := ⟨fun p => decide (p ≠ .twin), fun _ => true⟩) rfl rfl rfl rfl s).parts .twin rfl

/-- An engine that has stopped is fenced, and answers so. -/
def fencedFrom (u : State) (num : Nat) : State := sendTwin (raiseEngine (setTwin u twFenced) .alarm evTwinFenced 0 0) (.fenceAck (bootCount u) num)

theorem fencedFrom_shows {s u : State} (num : Nat) (hclk : u.clk = s.clk) (hseq : rd u F.KEEP_EV_SEQ_SEQ 0 = rd s F.KEEP_EV_SEQ_SEQ 0) :
    twState (fencedFrom u num) = twFenced ∧ (fencedFrom u num).twin.marker = u.twin.marker ∧ (fencedFrom u num).twin.lastFence = u.twin.lastFence ∧
      (fencedFrom u num).twin.sent = .fenceAck (bootCount u) num :: u.twin.sent ∧ Logged s (fencedFrom u num) .alarm evTwinFenced 0 0 0 0 := by
  have htwin : (raiseEngine (setTwin u twFenced) .alarm evTwinFenced 0 0).twin = { u.twin with recorded := twFenced } := by
    rw [raiseEngine, raiseEv_twin]
    rfl
  have hstate : twState (raiseEngine (setTwin u twFenced) .alarm evTwinFenced 0 0) = twFenced :=
    (rd_raiseEngine _ _ (by decide) ..).trans (twState_setTwin u (by decide))
  have hlogged : Logged s (raiseEngine (setTwin u twFenced) .alarm evTwinFenced 0 0) .alarm evTwinFenced 0 0 0 0 := by
    unfold raiseEngine
    refine logged_raiseEv (congrArg (fun c => c.hall / 84) hclk) ?_ ..
    exact (rd_congr (t := wr u F.TWIN_STATUS_STATE 0 twFenced) rfl ..).trans ((rd_wr_clear _ _ _ _ (by decide)).trans hseq)
  unfold fencedFrom
  generalize raiseEngine (setTwin u twFenced) .alarm evTwinFenced 0 0 = x at htwin hstate hlogged ⊢
  refine ⟨hstate, ?_, ?_, ?_, hlogged⟩
  · show x.twin.marker = _
    rw [htwin]
  · show x.twin.lastFence = _
    rw [htwin]
  · show _ :: x.twin.sent = _
    rw [htwin]

theorem becomeFenced_shows (s : State) (num : Nat) : twState (becomeFenced s num) = twFenced ∧ (becomeFenced s num).twin.marker = true ∧
    (becomeFenced s num).twin.lastFence = num ∧ (becomeFenced s num).twin.sent = .fenceAck (bootCount s) num :: s.twin.sent ∧
    Logged s (becomeFenced s num) .alarm evTwinFenced 0 0 0 0 := by
  have htwin := stopped_twin s
  have hclk := (stopped_within (a := ⟨fun p => decide (p ≠ .clk), fun _ => true⟩) rfl rfl rfl rfl s).parts .clk rfl
  have hreads (f : Field) (hf : Clear F.STRM_QP_STATUS_ACTIVE f) : rd (stopAllRegions (stopQueues (dropJournal s))) f 0 = rd s f 0 :=
    Within.reads (ps := [.fab, .strm, .units]) (stopped_within rfl rfl rfl (decide_eq_true hf) s) 0
  have hseq := hreads F.KEEP_EV_SEQ_SEQ (by decide)
  have hboot := hreads F.BOOT_COUNT_COUNT (by decide)
  have hmade : becomeFenced s num = fencedFrom (stoppedBy s num) num := rfl
  rw [hmade]
  unfold stoppedBy
  generalize stopAllRegions (stopQueues (dropJournal s)) = u at htwin hclk hseq hboot ⊢
  obtain ⟨hstate, hmarker, hlast, hsent, hlogged⟩ :=
    fencedFrom_shows (s := s) (u := modTwin u fun t => { t with marker := true, lastFence := num }) num hclk ((rd_congr rfl ..).trans hseq)
  refine ⟨hstate, hmarker, hlast, hsent.trans ?_, hlogged⟩
  have hcount : bootCount (modTwin u fun t => { t with marker := true, lastFence := num }) = bootCount s := (rd_congr rfl ..).trans hboot
  rw [hcount]
  show _ :: u.twin.sent = _
  rw [htwin]

/-! ## The messages -/

/-- The takeover that a FENCE_ACK begins is that of the engine it finds. -/
theorem taken_acked {s : State} (hqps : s.twin.mirrorQps = []) (hadopted : s.twin.adopted = []) : Taken s (takeOver (wr s F.TWIN_FENCE_ACKED 0 1)) := by
  obtain ⟨hstate, hcarrying, hfenced, hstreams, hmcmds, howed, hcmds, hlogged⟩ := taken_takeOver (s := wr s F.TWIN_FENCE_ACKED 0 1) hqps hadopted
  refine ⟨hstate, hcarrying, hfenced, hstreams, hmcmds, howed, hcmds, ?_⟩
  have hseq : rd (wr s F.TWIN_FENCE_ACKED 0 1) F.KEEP_EV_SEQ_SEQ 0 = rd s F.KEEP_EV_SEQ_SEQ 0 := rd_wr_clear _ _ _ _ (by decide)
  have hhall : hallNs (wr s F.TWIN_FENCE_ACKED 0 1) = hallNs s := hallNs_wr ..
  unfold Logged at hlogged ⊢
  rwa [hseq, hhall] at hlogged

theorem exec_fenceAck_untagged {s : State} {m : FenceMsg} (hkey : s.twin.pairKey ≠ none) (htag : m.tagOk = false) :
    exec (.fenceAck m) s = .next (bump s F.NET_FAB_CNT_AUTH_FAIL 0 1) :=
  congrArg Host.Outcome.next ((if_neg hkey).trans (if_pos (by simp [htag])))

theorem exec_fenceAck_confirms {s : State} {m : FenceMsg} (hstate : twState s = twFencing ∨ twState s = twHolding) (hkey : s.twin.pairKey ≠ none)
    (htag : m.tagOk = true) (hnum : m.num = s.twin.fenceNum) (hboot : m.boot = s.twin.peerBoot) :
    exec (.fenceAck m) s = .next (takeOver (wr s F.TWIN_FENCE_ACKED 0 1)) :=
  congrArg Host.Outcome.next ((if_neg hkey).trans ((if_neg (by simp [htag])).trans ((if_pos hstate).trans (if_pos ⟨hnum, hboot⟩))))

theorem exec_fence_accepted {s : State} {m : FenceMsg} (hstate : journaled s = true ∨ twState s = twCarrying) (hkey : s.twin.pairKey ≠ none)
    (hport : rd s F.NET_PORT_MODE m.port ≠ pmTwin) (htag : m.tagOk = true) (hboot : m.boot = bootCount s) (hnum : s.twin.lastFence < m.num) :
    exec (.fence m) s = .next (becomeFenced s m.num) := by
  have hjoined : twState s = twPaired ∨ twState s = twSyncing ∨ twState s = twHandback ∨ twState s = twCarrying := by
    simpa [journaled, or_assoc] using hstate
  have hlive : twState s ≠ twFenced ∧ twState s ≠ twUnpaired ∧ twState s ≠ twFencing ∧ twState s ≠ twHolding := by
    rcases hjoined with h | h | h | h
    all_goals rw [h]; decide
  obtain ⟨hfenced, hunpaired, hfencing, hholding⟩ := hlive
  refine congrArg Host.Outcome.next ((if_neg ?_).trans ((if_neg hport).trans ((if_neg (by simp [htag])).trans ((if_neg ?_).trans (if_neg ?_)))))
  · simp [hkey, hfenced, hunpaired]
  · simp [hboot, hnum]
  · simp [hfencing, hholding]

/-- The event of a change of the twin's state. -/
theorem logged_setTwin (s : State) (n : Nat) (k : EvKind) (code : Nat) : Logged s (raiseEngine (setTwin s n) k code 0 0) k code 0 0 0 0 := by
  have hhall : hallNs (setTwin s n) = hallNs s := rfl
  have hseq : rd (setTwin s n) F.KEEP_EV_SEQ_SEQ 0 = rd s F.KEEP_EV_SEQ_SEQ 0 :=
    (rd_congr (t := wr s F.TWIN_STATUS_STATE 0 n) rfl ..).trans (rd_wr_clear _ _ _ _ (by decide))
  unfold raiseEngine
  exact logged_raiseEv hhall hseq ..

theorem twState_raiseEngine (s : State) (k : EvKind) (code unit data : Nat) : twState (raiseEngine s k code unit data) = twState s :=
  rd_raiseEngine _ _ (by decide) ..

/-- Settles O34: the takeover restores every open mirror and takes the partner's commands; a FENCE stops the queues and regions and is answered. -/
theorem twinsFence : Obligations.TwinsFence := by
  intro s taken
  refine ⟨fun hstate hqps hadopted => ⟨congrArg Host.Outcome.next (if_pos hstate), fun a ha => ?_, fun m hkey htag hnum hboot => ?_⟩, fun hstate => ?_,
    fun m hkey => ⟨exec_fenceAck_untagged hkey, fun hstate hport htag hboot hnum => ?_⟩⟩
  · have hexec : exec (.fenceConfirm a) s = .next (takeOver s) := congrArg Host.Outcome.next ((if_neg (by simp [ha])).trans (if_pos hstate))
    have htaken : Taken s (takeOver s) := taken_takeOver hqps hadopted
    exact ⟨_, hexec, htaken⟩
  · have htaken : Taken s (takeOver (wr s F.TWIN_FENCE_ACKED 0 1)) := taken_acked hqps hadopted
    exact ⟨_, exec_fenceAck_confirms hstate hkey htag hnum hboot, htaken⟩
  · have hexec : exec .fenceWaitExpiry s = .next (raiseEngine (setTwin s twHolding) .alarm evTwinFenceFail 0 0) :=
      congrArg Host.Outcome.next (if_pos hstate)
    exact ⟨_, hexec, (twState_raiseEngine ..).trans (twState_setTwin s (by decide)), logged_setTwin ..⟩
  · exact ⟨_, exec_fence_accepted hstate hkey hport htag hboot hnum, becomeFenced_shows s m.num⟩

end Sys2Proof.Proofs.TwinFence

/-! PROOFS. O32: from UNPAIRED to PAIRED (R357–R359, R381, R391). -/

namespace Sys2Proof.Proofs.TwinPairing

open Sys2Proof Sys2Proof.Machine Sys2Proof.Claims Sys2Proof.Proofs.BelfryComplete Sys2Proof.Proofs.DebugWindow Sys2Proof.Proofs.Frames
  Sys2Proof.Proofs.Raising Sys2Proof.Proofs.TwinHandover Sys2Proof.Proofs.TwinFence Sys2Proof.Proofs.ReadRules

variable {s : State}

/-! ## Offering -/

/-- What an engine shows when it begins to offer. -/
def offering (s : State) : State :=
  let s := wr s F.TWIN_FAMILY_DIGEST 0 (natOfBytes ((Config.familyDigest (planSetNow s)).take 8))
  setTwin (wr s F.TWIN_STATUS_CAUSE 0 (if twinPortsUp s = 0 then 6 else 0)) twOffering

theorem rd_setTwin_clear (s : State) (n : Nat) {f : Field} (h : Clear F.TWIN_STATUS_STATE f) : rd (setTwin s n) f 0 = rd s f 0 :=
  (rd_congr (t := wr s F.TWIN_STATUS_STATE 0 n) rfl ..).trans (rd_wr_clear _ _ _ _ h)

theorem offering_shows (s : State) : twState (offering s) = twOffering ∧ (twinPortsUp s ≠ 0 → rd (offering s) F.TWIN_STATUS_CAUSE 0 = 0) := by
  unfold offering
  refine ⟨twState_setTwin _ (by decide), fun hports => (rd_setTwin_clear _ _ (by decide)).trans ((rd_wr_same _ _ _ _ (by decide)).trans ?_)⟩
  have hup (x : Nat) : twinPortsUp (wr s F.TWIN_FAMILY_DIGEST 0 x) = twinPortsUp s := by
    unfold twinPortsUp
    rw [rd_wr_clear _ _ _ _ (by decide : Clear F.TWIN_FAMILY_DIGEST F.TWIN_STATUS_PORTS_UP),
      rd_wr_clear _ _ _ _ (by decide : Clear F.TWIN_FAMILY_DIGEST F.TWIN_CTL_PORTS)]
  rw [hup, if_neg hports]
  rfl

/-- An offer with a fresh nonce. -/
def nonced (s : State) : State := modTwin (draw s (2 ^ 64)).2 fun t => { t with nonce := (draw s (2 ^ 64)).1 }

theorem nonced_same (s : State) : (nonced s).twin.sent = s.twin.sent ∧ (nonced s).twin.peerNonce = s.twin.peerNonce ∧ (nonced s).freeCtr = s.freeCtr + 1 ∧
    twState (nonced s) = twState s := ⟨rfl, rfl, rfl, rfl⟩

/-- An offer names nothing that has been sent. -/
theorem ownOffer_sendTwin (s : State) (m : TwinOut) : ownOffer (sendTwin s m) = ownOffer s := by
  have hrd (f : Field) : rd (sendTwin s m) f 0 = rd s f 0 := rd_congr rfl ..
  have hstreams : ownedStreams (sendTwin s m) = ownedStreams s := rfl
  have hnode : ownNode (sendTwin s m) = ownNode s := by
    unfold ownNode
    rw [hrd]
    rfl
  have hset : planSetNow (sendTwin s m) = planSetNow s := hrd _
  have hboot : bootCount (sendTwin s m) = bootCount s := hrd _
  have htwin : (sendTwin s m).twin.nonce = s.twin.nonce ∧ (sendTwin s m).twin.peerNonce = s.twin.peerNonce := ⟨rfl, rfl⟩
  unfold ownOffer
  rw [hnode, hset, hboot, hstreams, hrd, hrd, htwin.1, htwin.2]

/-! ## A received offer -/

/-- The partner that an offer names. -/
def offered (s : State) (m : OfferMsg) : State :=
  wrAll (modTwin s fun t => { t with peerNonce := m.nonce, peerBoot := m.boot, peerCellar := cellarBytes m.order }) 0
    [(F.TWIN_PEER_PEER_NODE, m.node.toNat), (F.TWIN_PEER_FAMILY_DIGEST, natOfBytes (m.family.take 8))]

theorem offered_within (s : State) (m : OfferMsg) {a : Allow} (htwin : a.part .twin = true) (hnode : a.field F.TWIN_PEER_PEER_NODE = true)
    (hfamily : a.field F.TWIN_PEER_FAMILY_DIGEST = true) : Within a s (offered s m) :=
  ((Within.refl a s).modTwin htwin _).wrAll (by simpa using ⟨hnode, hfamily⟩)

theorem rd_offered (s : State) (m : OfferMsg) {f : Field} (hnode : Clear F.TWIN_PEER_PEER_NODE f) (hfamily : Clear F.TWIN_PEER_FAMILY_DIGEST f) (i : Nat) :
    rd (offered s m) f i = rd s f i :=
  Within.reads (ps := [.twin]) (offered_within s m rfl (decide_eq_true hnode) (decide_eq_true hfamily)) i

theorem offered_twin (s : State) (m : OfferMsg) : (offered s m).twin =
    { s.twin with peerNonce := m.nonce, peerBoot := m.boot, peerCellar := cellarBytes m.order } := wrAll_twin ..

/-- A register outside the descriptors' block names no descriptor. -/
theorem allDescs_wr (s : State) {f : Field} {i : Nat} (v : Nat) (h : ¬ (0x10510000 ≤ fkey f i ∧ fkey f i < 0x10550000)) :
    allDescs (wr s f i v) = allDescs s := by
  unfold allDescs
  rw [wr_regs, filterMap_tset_of_dropped _ _ _ fun _ => if_neg fun hdesc => h ⟨hdesc.1, hdesc.2.1⟩]

theorem boundRegions_offered (s : State) (m : OfferMsg) : boundRegions (offered s m) = boundRegions s := by
  have hdescs : allDescs (offered s m) = allDescs s :=
    (allDescs_wr (f := F.TWIN_PEER_FAMILY_DIGEST) (i := 0) _ _ (by decide)).trans (allDescs_wr (f := F.TWIN_PEER_PEER_NODE) (i := 0) _ _ (by decide))
  have hplan (r : Nat) : hasPlan (offered s m) r = hasPlan s r := by
    unfold hasPlan
    rw [rd_offered s m (by decide) (by decide)]
  unfold boundRegions
  rw [hdescs]
  exact List.filter_congr fun r _ => hplan r

theorem pairingCause_offered (s : State) (m : OfferMsg) : pairingCause (offered s m) m = pairingCause s m := by
  have hrd (f : Field) (hnode : Clear F.TWIN_PEER_PEER_NODE f) (hfamily : Clear F.TWIN_PEER_FAMILY_DIGEST f) := rd_offered s m hnode hfamily
  have hkey : peerKeyRegs (offered s m) = peerKeyRegs s := by
    unfold peerKeyRegs
    simp only [hrd F.TWIN_PEER_KEY_KEY (by decide) (by decide)]
  have hset : planSetNow (offered s m) = planSetNow s := hrd _ (by decide) (by decide) 0
  have hstore : (offered s m).store = s.store := wrAll_store ..
  have hstrm : (offered s m).strm = s.strm := wrAll_strm ..
  have htwin : (offered s m).twin.fencedBoot = s.twin.fencedBoot := by rw [offered_twin]
  have hplan (r : Nat) : boundPlan (offered s m) r = boundPlan s r := by
    unfold boundPlan
    rw [hstore, hrd _ (by decide) (by decide)]
  have hfoot (b : List Byte) : planFootprintBytes (offered s m) b = planFootprintBytes s b := by
    unfold planFootprintBytes masterAt
    rw [hstore]
  have hbytes : boundPlanBytes (offered s m) = boundPlanBytes s := by
    unfold boundPlanBytes
    simp only [boundRegions_offered, hplan, hfoot]
  have howns : ownsStreams (offered s m) = ownsStreams s := by
    unfold ownsStreams
    rw [hstrm]
  unfold pairingCause
  rw [hkey, hset, hbytes, howns, htwin, hrd _ (by decide) (by decide)]

theorem settleRole_offered (s : State) (m : OfferMsg) : settleRole (offered s m) m = settleRole s m := by
  have hstrm : (offered s m).strm = s.strm := wrAll_strm ..
  have htwin : (offered s m).twin.carrying = s.twin.carrying := by rw [offered_twin]
  unfold settleRole ownsStreams
  rw [hstrm, htwin, rd_offered s m (by decide) (by decide), rd_offered s m (by decide) (by decide)]

theorem pairingCause_lt (s : State) (m : OfferMsg) : pairingCause s m < 256 := by
  have hle {p : Prop} [Decidable p] {x y : Nat} (hx : x < 256) (hy : y < 256) : (if p then x else y) < 256 := by
    split
    · exact hx
    · exact hy
  unfold pairingCause
  exact hle (by decide) (hle (by decide) (hle (by decide) (hle (by decide) (hle (by decide) (by decide)))))

/-- An offer that fails a check. -/
def failed (u : State) (c : Nat) : State :=
  modTwin (wr u F.TWIN_STATUS_CAUSE 0 c) fun t => { t with slow := true, checked := false, causes := c :: t.causes.filter (· ≠ c) }

theorem failed_shows (u : State) {c : Nat} (hc : c < 256) : rd (failed u c) F.TWIN_STATUS_CAUSE 0 = c ∧ (failed u c).twin.checked = false ∧
    (failed u c).twin.slow = true :=
  ⟨(rd_congr (t := wr u F.TWIN_STATUS_CAUSE 0 c) rfl ..).symm.symm.trans ((rd_wr_same _ _ _ _ (by decide)).trans (Nat.mod_eq_of_lt hc)), rfl, rfl⟩

theorem raiseEngine_failed (u : State) (c : Nat) : rd (raiseEngine u .report evTwinPairFail 0 0) F.TWIN_STATUS_CAUSE c = rd u F.TWIN_STATUS_CAUSE c ∧
    (raiseEngine u .report evTwinPairFail 0 0).twin = u.twin := ⟨rd_raiseEngine _ _ (by decide) .., by rw [raiseEngine, raiseEv_twin]⟩

theorem exec_offer_fails {m : OfferMsg} (hstate : twState s = twOffering) (hc : pairingCause s m ≠ 0) :
    exec (.offer m) s = .next (if (offered s m).twin.causes.contains (pairingCause s m) then failed (offered s m) (pairingCause s m)
      else raiseEngine (failed (offered s m) (pairingCause s m)) .report evTwinPairFail 0 0) := by
  refine congrArg Host.Outcome.next ((if_neg (not_not_intro (.inl hstate))).trans ?_)
  have hcause := pairingCause_offered s m
  unfold offered at hcause ⊢
  dsimp only
  rw [hcause]
  exact if_pos hc

/-- The key exchange begins. -/
def keyed (u : State) (m : OfferMsg) : State :=
  sendTwin (modTwin u fun t => { t with slow := false, checked := true, peerCarrying := m.carrying }) .keyx

theorem keyed_same (u : State) (m : OfferMsg) : (keyed u m).twin.checked = true ∧ (keyed u m).twin.sent = .keyx :: u.twin.sent ∧
    (keyed u m).twin.peerNonce = u.twin.peerNonce ∧ (keyed u m).twin.peerBoot = u.twin.peerBoot ∧ (keyed u m).regs = u.regs := ⟨rfl, rfl, rfl, rfl, rfl⟩

/-- The roles that an accepted offer settles. -/
def roleShown (u : State) (role : Nat) : State :=
  wrAll u 0 [(F.TWIN_STATUS_CAUSE, 0), (F.TWIN_STATUS_ROLE, role), (F.TWIN_PEER_PEER_ROLE, 1 - role)]

theorem roleShown_shows (u : State) (role : Nat) : (roleShown u role).twin = u.twin ∧ rd (roleShown u role) F.TWIN_STATUS_CAUSE 0 = 0 ∧
    rd (roleShown u role) F.TWIN_STATUS_ROLE 0 = role % 2 := by
  unfold roleShown
  refine ⟨wrAll_twin .., rd_wrAll_mem _ 0 0 ?_ (by decide) (by simp), rd_wrAll_mem _ 0 role ?_ (by decide) (by simp)⟩
  all_goals simp only [List.map]; decide

/-- An offer that passes every check. -/
def accepted (u : State) (m : OfferMsg) : State := keyed (roleShown u (settleRole u m)) m

theorem accepted_shows (u : State) (m : OfferMsg) : (accepted u m).twin.checked = true ∧ (accepted u m).twin.sent = .keyx :: u.twin.sent ∧
    (accepted u m).twin.peerNonce = u.twin.peerNonce ∧ (accepted u m).twin.peerBoot = u.twin.peerBoot ∧ rd (accepted u m) F.TWIN_STATUS_CAUSE 0 = 0 ∧
    rd (accepted u m) F.TWIN_STATUS_ROLE 0 = settleRole u m % 2 := by
  obtain ⟨htwin, hcause, hrole⟩ := roleShown_shows u (settleRole u m)
  obtain ⟨hchecked, hsent, hnonce, hboot, hregs⟩ := keyed_same (roleShown u (settleRole u m)) m
  rw [htwin] at hsent hnonce hboot
  exact ⟨hchecked, hsent, hnonce, hboot, (rd_congr hregs ..).trans hcause, (rd_congr hregs ..).trans hrole⟩

theorem exec_offer_accepted {m : OfferMsg} (hstate : twState s = twOffering) (hc : pairingCause s m = 0) (hnew : s.twin.checked = false) :
    exec (.offer m) s = .next (accepted (offered s m) m) := by
  refine congrArg Host.Outcome.next ((if_neg (not_not_intro (.inl hstate))).trans ?_)
  have hcause := (pairingCause_offered s m).trans hc
  have hchecked : (offered s m).twin.checked = false := by rw [offered_twin]; exact hnew
  unfold accepted keyed roleShown
  unfold offered at hcause hchecked ⊢
  dsimp only
  rw [hcause, if_neg (not_not_intro rfl), if_neg (by rw [hchecked]; decide)]

/-! ## The key exchange -/

/-- With no entry waiting, releasing what is committed only brings the journal's through up to date. -/
theorem releaseCommitted_none (h : s.strm.emits = []) : releaseCommitted s = { s with strm := { s.strm with
    emits := [], journal := { s.strm.journal with through := max s.strm.journal.through (s.strm.journal.next - 1) } } } := by
  unfold releaseCommitted
  rw [h]
  rfl

/-- What copying a stream to the twin reaches. -/
def copyFoot : Foot := ⟨.strm :: landFoot.parts, landFoot.fields⟩

section

variable {a : Allow} {t : State}

theorem Within.mirrorWrite (h : Within a s t) (ha : sendFoot.Fits a) (tc place : Nat) (data : List Byte) (user : GUser) :
    Within a s (mirrorWrite t tc place data user) := h.sendMessage ha ..

theorem Within.copyPage (h : Within a s t) (ha : copyFoot.Fits a) (slot : Nat) (e : Nat × Nat) : Within a s (copyPage slot t e) := by
  have hsend : sendFoot.Fits a := ha.mono (by decide) (by decide)
  unfold Machine.copyPage
  exact .ite (h.modStream (ha.part (by decide)) ..) (h.foldl fun _ hu b => hu.foldl fun _ hv layer => Within.mirrorWrite hv hsend ..)

theorem Within.copyStream (h : Within a s t) (ha : copyFoot.Fits a) (slot : Nat) : Within a s (copyStream t slot) := by
  have hsend : sendFoot.Fits a := ha.mono (by decide) (by decide)
  have hstrm : a.part .strm = true := ha.part (by decide)
  have hland := (h.landExports (ha.mono (by decide) (by decide)) slot).modStream hstrm slot fun x => { x with mirrored := 0, gap := none }
  have hput {u : State} (hu : Within a s u) (place : Nat) (data : List Byte) (x : Nat) :
      Within a s (if data = [] then u else Machine.mirrorWrite u 0 place data (.mirrorLog x)) := .ite hu (Within.mirrorWrite hu hsend ..)
  unfold Machine.copyStream
  refine Within.foldl (Within.foldl (Within.foldl (hput (hland.addRecord hstrm ..) ..) fun _ hu e => hput hu ..) fun _ hu e => hput hu ..) fun _ hu e =>
    Within.copyPage hu ha slot e

theorem Within.copies (h : Within a s t) (ha : copyFoot.Fits a) (qps own : List Nat) : Within a s (own.foldl Machine.copyStream (qps.foldl noteQp t)) :=
  (h.foldl fun _ hu _ => hu.addRecord (ha.part (by decide)) ..).foldl fun _ hu k => Within.copyStream hu ha k

end

/-- The pair's state when the pair key is there. -/
def keyFormed (u : State) (shared : List Byte) : State :=
  let u := modTwin u fun t => { t with pairKey := some (pairKeyOf u shared), misses := 0, lastHb := none, hbWait := false }
  let cmds := u.strm.cmds.map fun (c : LCmd) => { c with jsn := 0 }
  { u with strm := { u.strm with journal := ⟨1, 0, [], [], 1, 0, false, false⟩, cmds := cmds }, fab := { u.fab with journalled := 0 } }

/-- Synchronisation begins. -/
def syncOpened (u : State) : State := setTwin (wr u F.TWIN_STATUS_SYNC 0 0) twSyncing

theorem syncOpened_same (u : State) : (syncOpened u).strm = u.strm ∧ (syncOpened u).twin = { u.twin with recorded := twSyncing } ∧
    twState (syncOpened u) = twSyncing := ⟨rfl, rfl, twState_setTwin _ (by decide)⟩

theorem keyFormed_same (u : State) (shared : List Byte) : (keyFormed u shared).strm.journal.next = 1 ∧ (keyFormed u shared).strm.journal.ring = [] ∧
    (keyFormed u shared).strm.slots = u.strm.slots ∧ (keyFormed u shared).strm.qps = u.strm.qps ∧
    (keyFormed u shared).twin.pairKey = some (pairKeyOf u shared) := ⟨rfl, rfl, rfl, rfl, rfl⟩

theorem exec_keyx {m : KeyxMsg} (hsig : m.sigOk = true) (hchecked : s.twin.checked = true) (hstate : twState s = twOffering) :
    exec (.keyx m) s = .next (noteJsn (startResync (syncOpened (keyFormed (releaseCommitted s) m.shared)))) :=
  congrArg Host.Outcome.next (if_pos ⟨hsig, hchecked, .inl hstate⟩)

/-- The slots of this engine's open streams. -/
def ownSlots (s : State) : List Nat := (s.strm.slots.filter fun e => e.2.state ≠ .closed && !e.2.mirror).map (·.1)

/-- The queue pairs that the twin learns of. -/
def ownQps (s : State) : List Nat := (s.strm.qps.filter fun e => e.2.bound && !s.twin.adopted.contains e.1).map (·.1)

/-- Each owned stream is to be copied. -/
def resyncNoted (s : State) : State :=
  modTwin s fun t => { t with resync := (ownSlots s).map fun k => (handleOf k (streamAt s k).gen, none), resyncAll := (ownSlots s).length }

theorem startResync_eq (s : State) : startResync s = (ownSlots s).foldl copyStream ((ownQps s).foldl noteQp (resyncNoted s)) := rfl

theorem resyncNoted_same (s : State) : (resyncNoted s).twin.pairKey = s.twin.pairKey ∧ (resyncNoted s).twin.resyncAll = (ownSlots s).length ∧
    (resyncNoted s).strm = s.strm ∧ (resyncNoted s).regs = s.regs := ⟨rfl, rfl, rfl, rfl⟩

theorem startResync_shows (s : State) : (startResync s).twin.pairKey = s.twin.pairKey ∧ (startResync s).twin.resyncAll = (ownSlots s).length ∧
    twState (startResync s) = twState s := by
  obtain ⟨hkey, hall, -, hregs⟩ := resyncNoted_same s
  have htwin := ((Within.copies (Within.refl ⟨fun p => decide (p ≠ .twin), fun _ => true⟩ (resyncNoted s)) (by decide) (ownQps s) (ownSlots s))).parts .twin rfl
  have hstate : rd _ F.TWIN_STATUS_STATE 0 = rd (resyncNoted s) F.TWIN_STATUS_STATE 0 :=
    Within.reads (ps := [.strm, .fab]) (Within.copies (Within.refl _ (resyncNoted s)) (by decide) (ownQps s) (ownSlots s)) 0
  rw [startResync_eq]
  refine ⟨?_, ?_, hstate.trans (rd_congr hregs ..)⟩
  · rw [htwin, hkey]
  · rw [htwin, hall]

theorem ownSlots_length (s : State) : (ownSlots s).length = ownedStreams s := List.length_map ..

/-- Without a stream and a queue pair of its own, an engine copies nothing. -/
theorem startResync_alone (howns : ownsStreams s = false) (hqps : s.strm.qps = []) : (startResync s).strm = s.strm := by
  obtain ⟨-, -, hstrm, -⟩ := resyncNoted_same s
  have hslots : ownSlots s = [] := by
    unfold ownSlots
    rw [List.map_eq_nil_iff, List.filter_eq_nil_iff]
    intro e he hown
    have hany : ownsStreams s = true := List.any_eq_true.2 ⟨e, he, hown⟩
    rw [howns] at hany
    cases hany
  have hbound : ownQps s = [] := by
    unfold ownQps
    rw [hqps]
    rfl
  rw [startResync_eq, hslots, hbound]
  exact hstrm

theorem noteJsn_same (s : State) : (noteJsn s).twin = s.twin ∧ (noteJsn s).strm = s.strm ∧ twState (noteJsn s) = twState s := by
  refine ⟨wrAll_twin .., wrAll_strm .., ?_⟩
  exact Within.reads (ps := []) ((Within.refl _ s).wrAll (by simp only [List.map]; decide)) 0

theorem pairKeyOf_released (h : s.strm.emits = []) (shared : List Byte) : pairKeyOf (releaseCommitted s) shared = pairKeyOf s shared := by
  rw [releaseCommitted_none h]
  rfl

/-- The key exchange opens SYNCING with a new journal. -/
theorem keyx_shows (h : s.strm.emits = []) (shared : List Byte) :
    let t := noteJsn (startResync (syncOpened (keyFormed (releaseCommitted s) shared)))
    t.twin.pairKey = some (pairKeyOf s shared) ∧ twState t = twSyncing ∧ t.twin.resyncAll = ownedStreams s ∧
      (ownsStreams s = false → s.strm.qps = [] → t.strm.journal.next = 1 ∧ t.strm.journal.ring = []) := by
  intro t
  have hreleased := releaseCommitted_none h
  have hslots : (releaseCommitted s).strm.slots = s.strm.slots ∧ (releaseCommitted s).strm.qps = s.strm.qps := by
    rw [hreleased]
    exact ⟨rfl, rfl⟩
  have hpair := pairKeyOf_released h shared
  obtain ⟨hnext, hring, hkslots, hkqps, hkey⟩ := keyFormed_same (releaseCommitted s) shared
  obtain ⟨hostrm, hotwin, hostate⟩ := syncOpened_same (keyFormed (releaseCommitted s) shared)
  obtain ⟨hrkey, hrall, hrstate⟩ := startResync_shows (syncOpened (keyFormed (releaseCommitted s) shared))
  obtain ⟨hntwin, hnstrm, hnstate⟩ := noteJsn_same (startResync (syncOpened (keyFormed (releaseCommitted s) shared)))
  have hsame : (syncOpened (keyFormed (releaseCommitted s) shared)).strm.slots = s.strm.slots := by rw [hostrm, hkslots, hslots.1]
  refine ⟨?_, hnstate.trans (hrstate.trans hostate), ?_, fun howns hqps => ?_⟩
  · rw [show t.twin = _ from hntwin, hrkey, hotwin, hkey, hpair]
  · rw [show t.twin = _ from hntwin, hrall, ownSlots_length]
    unfold ownedStreams
    rw [hsame]
  · have hnone : ownsStreams (syncOpened (keyFormed (releaseCommitted s) shared)) = false := by
      unfold ownsStreams
      rw [hsame]
      exact howns
    have halone := startResync_alone hnone (by rw [hostrm, hkqps, hslots.2, hqps])
    rw [show t.strm = _ from hnstrm, halone, hostrm]
    exact ⟨hnext, hring⟩

/-- The end of SYNCING. -/
def synced (s : State) : State := modTwin (wr s F.TWIN_STATUS_SYNC 0 100) fun t => { t with causes := [], checked := false }

theorem synced_logged (s : State) : Logged s (raiseEngine (setTwin (synced s) twPaired) .report evTwinPaired 0 0) .report evTwinPaired 0 0 0 0 := by
  have hhall : hallNs (synced s) = hallNs s := rfl
  have hseq : rd (synced s) F.KEEP_EV_SEQ_SEQ 0 = rd s F.KEEP_EV_SEQ_SEQ 0 :=
    (rd_congr (t := wr s F.TWIN_STATUS_SYNC 0 100) rfl ..).trans (rd_wr_clear _ _ _ _ (by decide))
  have hlogged := logged_setTwin (synced s) twPaired .report evTwinPaired
  unfold Logged at hlogged ⊢
  rwa [hhall, hseq] at hlogged

/-- Settles O32: each message or timer is the branch of its checks; what a check reads of an offer, and what copying reaches, leaves the pair's state. -/
theorem twinsPair : Obligations.TwinsPair := by
  intro s hemits
  refine ⟨fun hen hstate => ⟨_, congrArg Host.Outcome.next (if_pos ⟨hen, hstate⟩), offering_shows s⟩, fun hstate hports => ?_, fun m hstate => ⟨fun hc => ?_, fun hc hnew => ?_⟩,
    fun m hsig hchecked hstate => ?_, fun hstate hdone => ⟨fun hcarry => ?_, fun hown hpeer => ?_⟩⟩
  · have hexec : exec .offerTimer s = .next (sendTwin (nonced s) (.offer (ownOffer (nonced s)))) :=
      congrArg Host.Outcome.next (if_pos ⟨hstate, hports⟩)
    obtain ⟨hsent, hnonce, hfree, htw⟩ := nonced_same s
    refine ⟨_, hexec, ?_, hnonce, hfree, htw⟩
    rw [ownOffer_sendTwin, ← hsent]
    rfl
  · obtain ⟨hcause, hchecked, hslow⟩ := failed_shows (offered s m) (pairingCause_lt s m)
    obtain ⟨hraised, htwin⟩ := raiseEngine_failed (failed (offered s m) (pairingCause s m)) 0
    refine ⟨_, exec_offer_fails hstate hc, ?_⟩
    split
    · exact ⟨hcause, hchecked, hslow⟩
    · rw [hraised, htwin]
      exact ⟨hcause, hchecked, hslow⟩
  · obtain ⟨hkeyx, hsent, hnonce, hboot, hcause, hrole⟩ := accepted_shows (offered s m) m
    rw [offered_twin] at hsent hnonce hboot
    rw [settleRole_offered] at hrole
    exact ⟨_, exec_offer_accepted hstate hc hnew, hkeyx, hsent, hnonce, hboot, hcause, hrole⟩
  · exact ⟨_, exec_keyx hsig hchecked hstate, keyx_shows hemits m.shared⟩
  · have hexec : exec .syncComplete s = .next (setTwin (synced s) twHandback) :=
      congrArg Host.Outcome.next ((if_neg (by simp [hstate, hdone])).trans (if_pos hcarry))
    exact ⟨_, hexec, twState_setTwin _ (by decide)⟩
  · have hexec : exec .syncComplete s = .next (raiseEngine (setTwin (synced s) twPaired) .report evTwinPaired 0 0) :=
      congrArg Host.Outcome.next ((if_neg (by simp [hstate, hdone])).trans (if_neg (by simp [hown, hpeer])))
    exact ⟨_, hexec, (twState_raiseEngine ..).trans (twState_setTwin _ (by decide)), synced_logged s⟩

end Sys2Proof.Proofs.TwinPairing

/-! PROOFS. What the pager's words reach: frames, sequence numbers, the words themselves and the rows they write (R238–R246). -/

namespace Sys2Proof.Proofs.PagerRules

open Sys2Proof Sys2Proof.Machine Sys2Proof.Claims

/-- From s to t only the pager's own records and the rows of cores change. -/
structure PagerOnly (s t : State) : Prop where
  strm : ∃ fr sq pw, t.strm = { s.strm with frames := fr, seqs := sq, pagerWords := pw }
  rest : t = { s with strm := t.strm, cores := t.cores }

namespace PagerOnly

theorem refl (s : State) : PagerOnly s s := ⟨⟨_, _, _, rfl⟩, rfl⟩

theorem trans {s t u : State} (h : PagerOnly s t) (k : PagerOnly t u) : PagerOnly s u := by
  obtain ⟨⟨_, _, _, hstrm⟩, hrest⟩ := h
  obtain ⟨⟨_, _, _, kstrm⟩, krest⟩ := k
  refine ⟨⟨_, _, _, kstrm.trans (by rw [hstrm])⟩, krest.trans ?_⟩
  rw [hrest]

theorem foldl {α : Type} {s t : State} {f : State → α → State} {l : List α} (h : PagerOnly s t) (hf : ∀ u x, PagerOnly u (f u x)) :
    PagerOnly s (l.foldl f t) := by
  induction l generalizing t with
  | nil => exact h
  | cons x l ih => exact ih (h.trans (hf t x))

section

variable {s t : State} (h : PagerOnly s t)
include h

theorem regs : t.regs = s.regs := by rw [h.rest]

theorem slots : t.strm.slots = s.strm.slots := by
  obtain ⟨_, _, _, hstrm⟩ := h.strm
  rw [hstrm]

theorem journal : t.strm.journal = s.strm.journal := by
  obtain ⟨_, _, _, hstrm⟩ := h.strm
  rw [hstrm]

theorem pages : t.strm.pages = s.strm.pages := by
  obtain ⟨_, _, _, hstrm⟩ := h.strm
  rw [hstrm]

theorem cmds : t.strm.cmds = s.strm.cmds := by
  obtain ⟨_, _, _, hstrm⟩ := h.strm
  rw [hstrm]

theorem exports : t.strm.exports = s.strm.exports := by
  obtain ⟨_, _, _, hstrm⟩ := h.strm
  rw [hstrm]

theorem emits : t.strm.emits = s.strm.emits := by
  obtain ⟨_, _, _, hstrm⟩ := h.strm
  rw [hstrm]

theorem stepWords : t.strm.stepWords = s.strm.stepWords := by
  obtain ⟨_, _, _, hstrm⟩ := h.strm
  rw [hstrm]

theorem qps : t.strm.qps = s.strm.qps := by
  obtain ⟨_, _, _, hstrm⟩ := h.strm
  rw [hstrm]

theorem streamAt (k : Nat) : streamAt t k = streamAt s k := by
  unfold Machine.streamAt
  rw [h.slots]

theorem rd (f : Field) (i : Nat) : rd t f i = rd s f i := rd_congr h.regs f i

end

end PagerOnly

section

variable (s : State)

theorem pagerOnly_modCore (c : Nat) (f : Core → Core) : PagerOnly s (modCore s c f) := ⟨⟨_, _, _, rfl⟩, rfl⟩

theorem pagerOnly_pagerSend (core handle kind row n idx entry : Nat) (raw : List NetWord) : PagerOnly s (pagerSend s core handle kind row n idx entry raw) :=
  ⟨⟨_, _, _, rfl⟩, rfl⟩

theorem pagerOnly_pagerFill (fuel core handle row : Nat) (rows : List RowData) : PagerOnly s (pagerFill fuel s core handle row rows) := by
  induction fuel generalizing s row rows with
  | zero => exact .refl s
  | succ n ih =>
    unfold pagerFill
    split
    · exact .refl s
    · dsimp only
      refine PagerOnly.trans ?_ (ih ..)
      refine PagerOnly.trans ?_ (pagerOnly_modCore ..)
      split
      · exact pagerOnly_pagerSend ..
      · exact pagerOnly_pagerSend ..

theorem pagerOnly_fillRows (core handle row : Nat) (rows : List RowData) : PagerOnly s (fillRows s core handle row rows) := pagerOnly_pagerFill ..

theorem pagerOnly_pagerEntry (core handle table idx entry : Nat) : PagerOnly s (pagerEntry s core handle table idx entry) := by
  unfold pagerEntry
  exact (pagerOnly_pagerSend ..).trans (pagerOnly_modCore ..)

theorem pagerOnly_writeFrameEntry (f : KvFrame) (e : Nat × Nat) (valid : Bool) : PagerOnly s (writeFrameEntry s f e valid) := pagerOnly_pagerEntry ..

theorem pagerOnly_writeFrame (f : KvFrame) : PagerOnly s (writeFrame s f) := (PagerOnly.refl s).foldl fun _ _ => pagerOnly_writeFrameEntry ..

theorem pagerOnly_setFrame (f : KvFrame) : PagerOnly s (setFrame s f) := ⟨⟨_, _, _, rfl⟩, rfl⟩

theorem pagerOnly_freeFrames : PagerOnly s (freeFrames s) := ⟨⟨_, _, _, rfl⟩, rfl⟩

theorem pagerOnly_releaseFrames (pos slot first : Nat) : PagerOnly s (releaseFrames s pos slot first) := by
  unfold releaseFrames
  exact ((PagerOnly.refl s).foldl fun _ _ => ((pagerOnly_writeFrameEntry ..).trans (pagerOnly_setFrame ..)).trans (pagerOnly_writeFrame ..)).trans
    (pagerOnly_freeFrames _)

theorem pagerOnly_writeTailEntry (slot pos layer : Nat) : PagerOnly s (writeTailEntry s slot pos layer) := pagerOnly_pagerEntry ..

theorem pagerOnly_fillTail (slot pos layer x : Nat) (tail : List RowData) : PagerOnly s (fillTail s slot pos layer x tail) := pagerOnly_fillRows ..

theorem pagerOnly_seatTail (slot pos : Nat) : PagerOnly s (seatTail s slot pos) :=
  (PagerOnly.refl s).foldl fun _ _ => ((pagerOnly_fillTail ..).trans (pagerOnly_fillTail ..)).trans (pagerOnly_writeTailEntry ..)

theorem pagerOnly_pagerExport (core handle row n : Nat) : PagerOnly s (pagerExport s core handle row n).2 :=
  (PagerOnly.refl s).foldl fun _ _ => pagerOnly_pagerSend ..

theorem pagerOnly_exportTail (slot pos x : Nat) : PagerOnly s (exportTail s slot pos x).2 := by
  unfold exportTail
  generalize List.range _ = l
  have hfold (acc : Table (List RowData) × State) (h : PagerOnly s acc.2) : PagerOnly s (l.foldl (fun (acc : Table (List RowData) × State) layer =>
      let s := acc.2
      let tail := readTail s pos layer x
      let (_, s) := pagerExport s (tailCore s pos layer) (handleOf slot (Machine.streamAt s slot).gen) (tailBase s pos layer x) (bufferRows (kvNow s))
      (tset acc.1 layer tail, s)) acc).2 := by
    induction l generalizing acc with
    | nil => exact h
    | cons layer l ih => exact ih _ (h.trans (pagerOnly_pagerExport ..))
  exact hfold _ (.refl s)

end

end Sys2Proof.Proofs.PagerRules

/-! PROOFS. The partner ring keeps its records while they are applied (R361, R362). -/

namespace Sys2Proof.Proofs.PartnerRing

open Sys2Proof Sys2Proof.Machine Sys2Proof.Claims Sys2Proof.Proofs.Frames Sys2Proof.Proofs.PagerRules

/-- From s to t the partner ring and its next JSN stay. -/
structure SameRing (s t : State) : Prop where
  partner : t.strm.journal.partner = s.strm.journal.partner
  next : t.strm.journal.partnerNext = s.strm.journal.partnerNext

/-- The allowance of all but the streams. -/
def notStreams : Allow := ⟨fun p => decide (p ≠ .strm), fun _ => true⟩

theorem SameRing.refl (s : State) : SameRing s s := ⟨rfl, rfl⟩

section

variable {s t : State} (h : SameRing s t)
include h

theorem SameRing.trans {u : State} (k : SameRing t u) : SameRing s u := ⟨k.partner.trans h.partner, k.next.trans h.next⟩

theorem SameRing.within {u : State} (k : Within notStreams t u) : SameRing s u := by
  have hstrm : u.strm = t.strm := k.parts .strm rfl
  exact h.trans ⟨by rw [hstrm], by rw [hstrm]⟩

theorem SameRing.pager {u : State} (k : PagerOnly t u) : SameRing s u := h.trans ⟨by rw [k.journal], by rw [k.journal]⟩

theorem SameRing.ite {p : Prop} [Decidable p] {u : State} (k : SameRing s u) : SameRing s (if p then t else u) := by
  split
  · exact h
  · exact k

omit h in
theorem SameRing.foldl {α : Type} {f : State → α → State} {l : List α} (h : SameRing s t) (hf : ∀ u, SameRing s u → ∀ x, SameRing s (f u x)) :
    SameRing s (l.foldl f t) := by
  induction l generalizing t with
  | nil => exact h
  | cons x l ih => exact ih (hf t h x)

theorem SameRing.setStream (k : Nat) (x : Stream) : SameRing s (setStream t k x) := h.trans ⟨rfl, rfl⟩

theorem SameRing.modStream (k : Nat) (f : Stream → Stream) : SameRing s (modStream t k f) := h.trans ⟨rfl, rfl⟩

theorem SameRing.modTwin (f : TwinSt → TwinSt) : SameRing s (modTwin t f) := h.trans ⟨rfl, rfl⟩

theorem SameRing.setQp (n : Nat) (q : QPair) : SameRing s (setQp t n q) := h.trans ⟨rfl, rfl⟩

theorem SameRing.setPage (p : Nat) (x : Page) : SameRing s (setPage t p x) := h.trans ⟨rfl, rfl⟩

theorem SameRing.newPage (tenant : Nat) : SameRing s (newPage t tenant).2 := h.trans ⟨rfl, rfl⟩

theorem SameRing.freePages : SameRing s (freePages t) := h.trans ⟨rfl, rfl⟩

theorem SameRing.wr (f : Field) (i v : Nat) : SameRing s (wr t f i v) := h.trans ⟨rfl, rfl⟩

theorem SameRing.addRecord (type handle qp version : Nat) (last : Bool) (body : List Byte) : SameRing s (addRecord t type handle qp version last body).2 :=
  h.trans ⟨rfl, rfl⟩

theorem SameRing.countStreams : SameRing s (countStreams t) := h.within ((Within.refl notStreams t).countStreams (by decide))

theorem SameRing.countPages (tenant : Nat) : SameRing s (countPages t tenant) := h.within ((Within.refl notStreams t).countPages (by decide) tenant)

theorem SameRing.addMirrored (cmds : List LCmd) (ph : CPhase) (place : Nat → Nat) : SameRing s (addMirrored t cmds ph place) := h.trans ⟨rfl, rfl⟩

theorem SameRing.noteQp (n : Nat) : SameRing s (noteQp t n) := by
  unfold Machine.noteQp
  exact h.addRecord ..

theorem SameRing.bindQp (n : Nat) : SameRing s (bindQp t n) := ((h.setQp ..).wr ..).noteQp n

theorem SameRing.finishCmd (id qp : Nat) : SameRing s (finishCmd t id qp) := by
  unfold Machine.finishCmd
  refine (h.trans ?_).within ((Within.refl notStreams _).wrAll fun _ _ => rfl)
  exact ⟨rfl, rfl⟩

theorem SameRing.ringWrite (n : Nat) (b : List Byte) (irq : Bool) : SameRing s (ringWrite t n b irq) := by
  unfold Machine.ringWrite
  dsimp only
  have hcounted {u : State} (hu : SameRing s u) : SameRing s (if b.getD 4 0 = 1 then bump u F.STRM_CNT_TOKENS 0 1 else u) := SameRing.ite (hu.wr ..) hu
  exact SameRing.ite ((hcounted (h.setQp ..)).within ((Within.refl notStreams _).raiseSource (by decide) _)) (hcounted (h.setQp ..))

theorem SameRing.noteHold (n : Nat) : SameRing s (noteHold t n) := by
  unfold Machine.noteHold
  dsimp only
  have hraised {u : State} (hu : SameRing s u) : SameRing s (raiseEngine u .report evEmitBackpressure n 0) :=
    hu.within ((Within.refl notStreams u).raiseEngine ⟨by decide, by decide⟩ ..)
  exact SameRing.ite (hraised ((h.wr ..).setQp ..)) (SameRing.ite ((h.wr ..).setQp ..) (h.wr ..))

theorem SameRing.emitEntry (n : Nat) (b : List Byte) (irq : Bool) : SameRing s (emitEntry t n b irq) := by
  unfold Machine.emitEntry
  dsimp only
  exact SameRing.ite (h.ringWrite ..) (SameRing.ite ((h.setQp ..).noteHold _) (h.setQp ..))

theorem SameRing.landExport (e : SealExport) : SameRing s (landExport t e) := by
  have hlanded : SameRing s (landRows { t with strm := { t.strm with exports := t.strm.exports.filter fun d => d ≠ e } } e) := h.trans ⟨rfl, rfl⟩
  unfold Machine.landExport
  dsimp only
  exact SameRing.ite (hlanded.within ((Within.refl notStreams _).sendMessage (by decide) ..)) hlanded

theorem SameRing.landExports (k : Nat) : SameRing s (landExports t k) := SameRing.foldl h fun _ hu e => hu.landExport e

theorem SameRing.seatWord (kind pos slot : Nat) : SameRing s (seatWord t kind pos slot) := h.trans ⟨rfl, rfl⟩

theorem SameRing.dropSeat (k : Nat) : SameRing s (dropSeat t k) := by
  unfold Machine.dropSeat
  split
  · exact h
  · exact (((h.pager (pagerOnly_releaseFrames ..)).modStream ..).seatWord ..).countStreams

/-! ## Mirrors -/

theorem SameRing.restoreMirror (k : Nat) : SameRing s (restoreMirror t k) := by
  unfold Machine.restoreMirror
  exact SameRing.countPages (SameRing.foldl (h.modStream ..) fun u hu j => ((hu.newPage _).setPage ..).modStream ..) _

theorem SameRing.becomeMirror (k : Nat) : SameRing s (becomeMirror t k) := by
  unfold Machine.becomeMirror
  exact ((((h.landExports k).dropSeat k).modStream ..).freePages).countStreams

theorem SameRing.serveMirror (k : Nat) : SameRing s (serveMirror t k) := by
  unfold Machine.serveMirror
  exact ((((h.restoreMirror k).modStream ..).addMirrored ..).modTwin _).countStreams

theorem SameRing.returnMirror (k : Nat) : SameRing s (returnMirror t k) := by
  unfold Machine.returnMirror
  refine (SameRing.modTwin ?_ _).becomeMirror k
  exact h.trans ⟨rfl, rfl⟩

/-! ## Records -/

theorem SameRing.applyCmd (r : JRec) : SameRing s (applyCmd t r) := by
  have hheard (op x : Nat) (e : List Byte) : SameRing s (if staleTruncate t op x e then t else withholdBy (interruptBy t op x) op x e) := by
    have hint : SameRing s (interruptBy t op x) := SameRing.ite h (h.modStream ..)
    exact SameRing.ite h (SameRing.ite (hint.setStream ..) hint)
  unfold Machine.applyCmd
  exact SameRing.ite ((hheard ..).addMirrored ..) ((hheard ..).modTwin _)

theorem SameRing.applyData (r : JRec) : SameRing s (applyData t r) := by
  unfold Machine.applyData
  split
  · exact h
  · exact SameRing.ite ((h.modTwin _).addMirrored ..) (h.modTwin _)

theorem SameRing.applyToken (r : JRec) : SameRing s (applyToken t r) := by
  unfold Machine.applyToken
  exact SameRing.ite h ((h.setStream ..).modTwin _)

theorem SameRing.applyDone (c : LCmd) (body : List Byte) : SameRing s (applyDone t c body) := by
  unfold Machine.applyDone
  exact SameRing.ite h (SameRing.ite (h.modStream ..) (SameRing.ite (h.modStream ..) h))

theorem SameRing.applyCmpl (r : JRec) : SameRing s (applyCmpl t r) := by
  unfold Machine.applyCmpl
  dsimp only
  refine SameRing.ite ((h.modTwin _).modTwin _) (SameRing.modTwin ?_ _)
  split
  · exact (h.modTwin _).applyDone ..
  · exact h.modTwin _

theorem SameRing.applyState (r : JRec) : SameRing s (applyState t r) := by
  unfold Machine.applyState
  exact h.modStream ..

theorem SameRing.applyQp (r : JRec) : SameRing s (applyQp t r) := by
  unfold Machine.applyQp
  dsimp only
  refine SameRing.ite (h.modTwin _) (SameRing.ite ?_ (h.modTwin _))
  have hregs (regs : Table Word) : SameRing s { t with regs := regs } := h.trans ⟨rfl, rfl⟩
  exact (hregs _).bindQp _

theorem SameRing.applyHandoff (r : JRec) : SameRing s (applyHandoff t r) := by
  unfold Machine.applyHandoff
  dsimp only
  exact SameRing.ite (SameRing.ite (h.serveMirror _) h) (SameRing.ite (((h.restoreMirror _).addMirrored ..).modTwin _).countStreams
    (SameRing.ite (h.returnMirror _) h))

theorem SameRing.applyRecord (r : JRec) : SameRing s (applyRecord t r) := by
  unfold Machine.applyRecord
  split
  · exact h.applyCmd r
  · exact h.applyData r
  · exact h.applyToken r
  · exact h.applyCmpl r
  · exact h.applyState r
  · exact h.modStream ..
  · exact h.applyQp r
  · exact h.applyHandoff r
  · exact h

theorem SameRing.coveredEntry (r : JRec) : SameRing s (coveredEntry t r) := by
  unfold Machine.coveredEntry
  dsimp only
  split
  · exact SameRing.ite (h.wr ..) ((h.setStream ..).emitEntry ..)
  · split
    next c _ =>
      have hdone := (h.applyDone c r.body).finishCmd c.id c.qp
      exact SameRing.emitEntry (SameRing.ite (hdone.modStream ..) hdone) ..
    next => exact h
  · exact h.modStream ..
  · exact h

end

end Sys2Proof.Proofs.PartnerRing

/-! PROOFS. Joined twins: heartbeats, the loss on the third miss, and journal records in turn (R361, R362, R366–R368). -/

namespace Sys2Proof.Proofs.Frames

open Sys2Proof Sys2Proof.Machine

/-- What an acknowledgement of the journal reaches. -/
def ackFoot : Foot :=
  ⟨.strm :: .twin :: releaseFoot.parts ++ sourceFoot.parts, F.TWIN_STATUS_SYNC :: F.TWIN_JSN_SENT_JSN :: F.TWIN_JSN_ACKED_JSN :: releaseFoot.fields ++ sourceFoot.fields⟩

section

variable {a : Allow} {s t : State}

theorem Within.syncStep (h : Within a s t) (hp : a.part .twin = true) (hf : a.field F.TWIN_STATUS_SYNC = true) : Within a s (syncStep t) := by
  unfold Machine.syncStep
  exact h.ite ((h.modTwin hp _).wr hf)

theorem Within.noteJsn (h : Within a s t) (hf : ∀ f ∈ [F.TWIN_JSN_SENT_JSN, F.TWIN_JSN_ACKED_JSN], a.field f = true) : Within a s (noteJsn t) := h.wrAll hf

theorem Within.journalAck (h : Within a s t) (ha : ackFoot.Fits a) (jsn : Nat) : Within a s (journalAck t jsn) := by
  have hraised := (h.strm (ha.part (by decide)) { t.strm with journal := { t.strm.journal with acked := jsn } }).raiseSource (ha.mono (by decide) (by decide)) 25
  unfold Machine.journalAck
  refine Within.ite (Within.noteJsn ?_ fun f hf => ha.field ?_) h
  · exact (hraised.syncStep (ha.part (by decide)) (ha.field (by decide))).releaseCommitted (ha.mono (by decide) (by decide))
  · have hsub : ∀ f ∈ [F.TWIN_JSN_SENT_JSN, F.TWIN_JSN_ACKED_JSN], f ∈ ackFoot.fields := by decide
    exact hsub f hf

theorem Within.survivorRack (h : Within a s t) (ha : rackFoot.Fits a) : Within a s (survivorRack t) := by
  have hf : ∀ f ∈ [F.CASK_RACK_STATUS_CMD_STATUS, F.CASK_RACK_STATUS_DRAIN_LEFT], a.field f = true := by
    intro f hf
    have hsub : ∀ f ∈ [F.CASK_RACK_STATUS_CMD_STATUS, F.CASK_RACK_STATUS_DRAIN_LEFT], f ∈ rackFoot.fields := by decide
    exact ha.field (hsub f hf)
  unfold Machine.survivorRack
  split
  · exact Within.ite (h.wrAll hf) (h.abandonRack ha _)
  · exact h

theorem Within.loseStream (h : Within a s t) (hp : a.part .strm = true) (ha : Raises a) (k : Nat) : Within a s (loseStream t k) :=
  (h.setStream hp ..).raiseRegion ha ..

/-- What goes on here when the twin is lost reaches. -/
def survivorFoot : Foot :=
  ⟨rackFoot.parts ++ releaseFoot.parts, F.TWIN_JSN_SENT_JSN :: F.TWIN_JSN_ACKED_JSN :: rackFoot.fields ++ releaseFoot.fields⟩

theorem Within.goOnAlone (h : Within a s t) (ha : survivorFoot.Fits a) (lost : List Nat) :
    Within a s (Machine.noteJsn (Machine.releaseCommitted (Machine.survivorRack (lost.foldl Machine.loseStream t)))) := by
  have hfold : Within a s (lost.foldl Machine.loseStream t) :=
    h.foldl fun _ hu k => hu.loseStream (ha.part (by decide)) (raises_of_fits (ha.mono (by decide) (by decide))) k
  refine ((hfold.survivorRack (ha.mono (by decide) (by decide))).releaseCommitted (ha.mono (by decide) (by decide))).noteJsn fun f hf => ha.field ?_
  have hsub : ∀ f ∈ [F.TWIN_JSN_SENT_JSN, F.TWIN_JSN_ACKED_JSN], f ∈ survivorFoot.fields := by decide
  exact hsub f hf

end

end Sys2Proof.Proofs.Frames

namespace Sys2Proof.Proofs.TwinJoined

open Sys2Proof Sys2Proof.Machine Sys2Proof.Claims Sys2Proof.Laws Sys2Proof.Proofs.BelfryComplete Sys2Proof.Proofs.DebugWindow Sys2Proof.Proofs.Frames Sys2Proof.Proofs.Raising Sys2Proof.Proofs.ReadRules
  Sys2Proof.Proofs.TwinHandover Sys2Proof.Proofs.TwinFence Sys2Proof.Proofs.TwinPairing Sys2Proof.Proofs.PartnerRing

variable {s : State}

/-- The allowance of all but the twin's record. -/
def notTwin : Allow := ⟨fun p => decide (p ≠ .twin), fun _ => true⟩

/-! ## Heartbeats -/

theorem syncStep_twin (s : State) : ∃ r, (syncStep s).twin = { s.twin with resync := r } := by
  unfold syncStep
  dsimp only
  split
  · exact ⟨_, rfl⟩
  · exact ⟨_, rfl⟩

/-- An acknowledgement changes of the twin's record only what is still to be copied. -/
theorem journalAck_twin (s : State) (jsn : Nat) : ∃ r, (journalAck s jsn).twin = { s.twin with resync := r } := by
  unfold journalAck
  dsimp only
  split
  · obtain ⟨r, hr⟩ := syncStep_twin (raiseSource { s with strm := { s.strm with journal := { s.strm.journal with acked := jsn } } } 25)
    refine ⟨r, ?_⟩
    have hreleased (u : State) : (releaseCommitted u).twin = u.twin := ((Within.refl notTwin u).releaseCommitted (by decide)).parts .twin rfl
    rw [(noteJsn_same _).1, hreleased, hr, raiseSource_twin]
  · exact ⟨_, rfl⟩

theorem trimRings_same (s : State) (n : Nat) : (trimRings s n).regs = s.regs ∧ (trimRings s n).twin.lastHb = s.twin.lastHb ∧
    (trimRings s n).twin.carrying = s.twin.carrying := ⟨rfl, rfl, rfl⟩

/-- The state in which a heartbeat stands. -/
def heard (s : State) (m : TwinHb) : State :=
  wr (modTwin s fun t => { t with lastHb := some m, hbWait := m.plannedRestart && !m.keepOk }) F.TWIN_STATUS_PEER_KEEP 0 (bit m.keepOk)

theorem heard_shows (s : State) (m : TwinHb) (hkeep : m.keepOk = true) : (heard s m).twin.lastHb = some m ∧ (heard s m).twin.carrying = s.twin.carrying ∧
    rd (heard s m) F.TWIN_STATUS_PEER_KEEP 0 = 1 ∧ twState (heard s m) = twState s := by
  refine ⟨rfl, rfl, ?_, ?_⟩
  · rw [show heard s m = wr _ F.TWIN_STATUS_PEER_KEEP 0 (bit m.keepOk) from rfl, hkeep]
    exact rd_wr_same _ _ _ _ (by decide)
  · exact (rd_wr_clear _ _ _ _ (by decide)).trans (rd_congr rfl ..)

/-- The engine that has kept a heartbeat and the acknowledgement that it carries. -/
def kept (s : State) (m : TwinHb) : State := trimRings (journalAck (heard s m) m.ackedJsn) m.writtenJsn

theorem kept_shows (s : State) (m : TwinHb) (hkeep : m.keepOk = true) : (kept s m).twin.lastHb = some m ∧ (kept s m).twin.carrying = s.twin.carrying ∧
    rd (kept s m) F.TWIN_STATUS_PEER_KEEP 0 = 1 ∧ twState (kept s m) = twState s := by
  obtain ⟨hlast, hcarry, hpeer, hstate⟩ := heard_shows s m hkeep
  obtain ⟨hregs, hlast', hcarry'⟩ := trimRings_same (journalAck (heard s m) m.ackedJsn) m.writtenJsn
  obtain ⟨r, hr⟩ := journalAck_twin (heard s m) m.ackedJsn
  have hrd {f : Field} (hf : rd (journalAck (heard s m) m.ackedJsn) f 0 = rd (heard s m) f 0) : rd (kept s m) f 0 = rd (heard s m) f 0 :=
    (rd_congr hregs ..).trans hf
  refine ⟨?_, ?_, ?_, ?_⟩
  · exact hlast'.trans (by rw [hr]; exact hlast)
  · exact hcarry'.trans (by rw [hr]; exact hcarry)
  · exact (hrd (Within.reads (ps := ackFoot.parts) ((Within.refl _ _).journalAck (by decide) _) 0)).trans hpeer
  · exact (hrd (Within.reads (ps := ackFoot.parts) ((Within.refl _ _).journalAck (by decide) _) 0)).trans hstate

/-- The end of a rejoin leaves the heartbeat and its bit; it is PAIRED where the partner is and nothing is carried. -/
theorem endRejoin_shows (u : State) (m : TwinHb) : (endRejoin u m).twin.lastHb = u.twin.lastHb ∧
    rd (endRejoin u m) F.TWIN_STATUS_PEER_KEEP 0 = rd u F.TWIN_STATUS_PEER_KEEP 0 ∧
    twState (endRejoin u m) = if twState u = twHandback ∧ u.twin.carrying = false ∧ m.state.toNat = twPaired then twPaired else twState u := by
  unfold endRejoin
  split
  · refine ⟨?_, ?_, (twState_raiseEngine ..).trans (twState_setTwin _ (by decide))⟩
    · unfold raiseEngine
      rw [raiseEv_twin]
      rfl
    · exact (rd_raiseEngine _ _ (by decide) ..).trans ((rd_setTwin_clear _ _ (by decide)).trans (rd_congr rfl ..))
  · exact ⟨rfl, rfl, rfl⟩

/-- The engine after a heartbeat with KEEP_OK. -/
def beaten (u : State) : State := modTwin u fun t => { t with misses := 0 }

theorem beaten_same (u : State) : (beaten u).twin.lastHb = u.twin.lastHb ∧ (beaten u).twin.misses = 0 ∧ (beaten u).regs = u.regs := ⟨rfl, rfl, rfl⟩

theorem exec_twinHeartbeat_kept {m : TwinHb} (hjoined : journaled s = true) (hkeep : m.keepOk = true) :
    exec (.twinHeartbeat m) s = .next (beaten (endRejoin (kept s m) m)) :=
  congrArg Host.Outcome.next ((if_neg (by simp [hjoined])).trans (if_neg (by simp [hkeep])))

theorem twinHeartbeat_shows {m : TwinHb} (hjoined : journaled s = true) (hkeep : m.keepOk = true) : After (exec (.twinHeartbeat m) s) fun t =>
    t.twin.lastHb = some m ∧ t.twin.misses = 0 ∧ rd t F.TWIN_STATUS_PEER_KEEP 0 = 1 ∧
      twState t = if twState s = twHandback ∧ s.twin.carrying = false ∧ m.state.toNat = twPaired then twPaired else twState s := by
  obtain ⟨hlast, hcarry, hpeer, hstate⟩ := kept_shows s m hkeep
  obtain ⟨hlast', hpeer', hstate'⟩ := endRejoin_shows (kept s m) m
  obtain ⟨hlast'', hmisses, hregs⟩ := beaten_same (endRejoin (kept s m) m)
  refine ⟨_, exec_twinHeartbeat_kept hjoined hkeep, hlast''.trans (hlast'.trans hlast), hmisses, ?_, ?_⟩
  · exact (rd_congr hregs ..).trans (hpeer'.trans hpeer)
  · rw [hcarry, hstate] at hstate'
    exact (rd_congr hregs ..).trans hstate'

/-! ## Misses and the loss -/

/-- The engine that has counted one more missed heartbeat. -/
def missed (s : State) : State := raiseSource (bump (modTwin s fun t => { t with misses := t.misses + 1 }) F.TWIN_CNT_HB_MISS 0 1) 24

theorem missed_same (s : State) : (missed s).twin = { s.twin with misses := s.twin.misses + 1 } ∧ (missed s).strm = s.strm ∧ twState (missed s) = twState s := by
  refine ⟨raiseSource_twin .., raiseSource_strm .., ?_⟩
  exact (rd_raiseSource _ _ (by decide) _).trans ((rd_wr_clear _ _ _ _ (by decide)).trans (rd_congr rfl ..))

/-- The engine that requests the fence of its lost twin. -/
def fencing (u : State) : State :=
  setTwin (modTwin (raiseEngine (modTwin u fun t => { t with resync := [] }) .alarm evTwinLost 0 0) fun t =>
    { t with misses := 0, fenceNum := t.fenceNum + 1, hbWait := false }) twFencing

theorem fencing_shows (u : State) : (fencing u).twin = { u.twin with resync := [], misses := 0, fenceNum := u.twin.fenceNum + 1, hbWait := false, recorded := twFencing } ∧
    twState (fencing u) = twFencing := by
  refine ⟨?_, twState_setTwin _ (by decide)⟩
  have htwin : (raiseEngine (modTwin u fun t => { t with resync := [] }) .alarm evTwinLost 0 0).twin = { u.twin with resync := [] } := raiseEv_twin ..
  show { (raiseEngine (modTwin u fun t => { t with resync := [] }) .alarm evTwinLost 0 0).twin with misses := 0, fenceNum := (raiseEngine (modTwin u fun t => { t with resync := [] }) .alarm evTwinLost 0 0).twin.fenceNum + 1, hbWait := false, recorded := twFencing } = _
  rw [htwin]

/-- The engine that has sent the FENCE. -/
def fenceSent (u : State) : State :=
  raiseSource (sendTwin (wrAll u 0 [(F.TWIN_FENCE_REQ, 1), (F.TWIN_FENCE_ACKED, 0), (F.TWIN_STATUS_PEER_KEEP, 0)]) (.fence u.twin.fenceNum)) 23

theorem fenceSent_shows (u : State) : (fenceSent u).twin = { u.twin with sent := .fence u.twin.fenceNum :: u.twin.sent } ∧ twState (fenceSent u) = twState u ∧
    rd (fenceSent u) F.TWIN_FENCE_REQ 0 = 1 := by
  refine ⟨raiseSource_twin .., ?_, ?_⟩
  · exact Within.reads (ps := .twin :: sourceFoot.parts) ((((Within.refl _ u).wrAll (by simp only [List.map]; decide)).sendTwin (by decide) _).raiseSource (by decide) _) 0
  · refine (rd_raiseSource _ _ (by decide) _).trans ((rd_congr (t := wrAll u 0 _) rfl ..).trans ?_)
    exact rd_wrAll_mem u 0 1 (by simp only [List.map]; decide) (by decide) (by simp)

/-- The streams that a loss takes: the partner's whose mirror is not complete. -/
def lostMirrors (s : State) : List Nat :=
  if twState s = twSyncing then (s.strm.slots.filter fun e => e.2.mirror && e.2.state ≠ .closed && !logLanded s e.2).map (·.1) else []

theorem declareLoss_eq (u : State) : declareLoss u = noteJsn (releaseCommitted (survivorRack ((lostMirrors u).foldl loseStream (fenceSent (fencing u))))) := rfl

/-- A loss declared: FENCING, with the next FENCE sent and asked for. -/
theorem declareLoss_shows (u : State) : twState (declareLoss u) = twFencing ∧ (declareLoss u).twin.sent = .fence (u.twin.fenceNum + 1) :: u.twin.sent ∧
    rd (declareLoss u) F.TWIN_FENCE_REQ 0 = 1 ∧ (declareLoss u).twin.misses = 0 := by
  obtain ⟨htwin, hstate⟩ := fencing_shows u
  obtain ⟨htwin', hstate', hreq⟩ := fenceSent_shows (fencing u)
  have hrest := (Within.refl notTwin (fenceSent (fencing u))).goOnAlone (by decide) (lostMirrors u)
  have htw : (declareLoss u).twin = (fenceSent (fencing u)).twin := hrest.parts .twin rfl
  have hrd {f : Field} (hf : survivorFoot.Fits (besides f survivorFoot.parts)) : rd (declareLoss u) f 0 = rd (fenceSent (fencing u)) f 0 :=
    Within.reads ((Within.refl _ _).goOnAlone hf (lostMirrors u)) 0
  refine ⟨(hrd (by decide)).trans (hstate'.trans hstate), ?_, (hrd (by decide)).trans hreq, ?_⟩
  · rw [htw, htwin', htwin]
  · rw [htw, htwin', htwin]

/-! ## Journal records -/

/-- The ring with the record r, whose turn it is. -/
def ringed (s : State) (r : JRec) : State :=
  { s with strm := { s.strm with journal := { s.strm.journal with
    partner := s.strm.journal.partner ++ [r], partnerNext := s.strm.journal.partnerNext + 1, partnerFull := false } } }

theorem takeRecord_inTurn {r : JRec} (hturn : r.jsn = s.strm.journal.partnerNext) (hcheck : r.checkOk = true) (hlow : 1 ≤ r.type.toNat)
    (hhigh : r.type.toNat ≤ 8) (hroom : ringBytes s.strm.journal.partner + recSize r ≤ 2 ^ 30) : SameRing (ringed s r) (takeRecord s r) := by
  have htype : r.type ≠ 0 := by
    intro h
    rw [h] at hlow
    exact absurd hlow (by decide)
  have hsound : ¬ (¬ r.checkOk ∨ (8 < r.type.toNat ∧ r.type.toNat ≠ 0x0F) ∨ r.type = 0) := by
    rintro (h | ⟨h, _⟩ | h)
    · exact h hcheck
    · omega
    · exact htype h
  unfold takeRecord
  dsimp only
  rw [if_neg (by omega), if_neg hsound, if_neg (not_not_intro hturn), if_neg (by omega)]
  exact SameRing.ite ((SameRing.refl _).coveredEntry r) ((SameRing.refl _).applyRecord r)

theorem journal_shows {r : JRec} (hjoined : journaled s = true) (hturn : r.jsn = s.strm.journal.partnerNext) (hring : SameRing (ringed s r) (takeRecord s r)) :
    After (exec (.journal [r]) s) fun t => t.strm.journal.partner = s.strm.journal.partner ++ [r] ∧ t.strm.journal.partnerNext = r.jsn + 1 ∧
      t.twin.sent.head? = some (.ack r.jsn) := by
  have hexec : exec (.journal [r]) s = .next (sendTwin (takeRecord s r) (.ack ((takeRecord s r).strm.journal.partnerNext - 1))) :=
    congrArg Host.Outcome.next (if_neg (by simp [hjoined]))
  have hnext : (takeRecord s r).strm.journal.partnerNext = r.jsn + 1 := hring.next.trans (congrArg (· + 1) hturn.symm)
  rw [hnext] at hexec
  exact ⟨_, hexec, hring.partner, hnext, rfl⟩

/-! ## The statement -/

theorem hbMiss_joined (hjoined : journaled s = true) : hbMiss s = if 3 ≤ (missed s).twin.misses then declareLoss (missed s) else missed s :=
  if_neg (by simp [hjoined])

/-- Settles O33: what follows a heartbeat's or a loss's own writes leaves the twin's record; applying a record leaves the partner ring. -/
theorem twinsStayJoined : Obligations.TwinsStayJoined := by
  unfold Obligations.TwinsStayJoined
  intro s hjoined _ lost
  obtain ⟨hmissed, _, hstate⟩ := missed_same s
  have hmiss : exec .twinHeartbeatMiss s = .next (if 3 ≤ (missed s).twin.misses then declareLoss (missed s) else missed s) :=
    congrArg Host.Outcome.next (hbMiss_joined hjoined)
  have hcount : (missed s).twin.misses = s.twin.misses + 1 := by rw [hmissed]
  refine ⟨fun hports hspire => ?_, fun m hkeep => twinHeartbeat_shows hjoined hkeep, fun hfew => ?_, fun hthree => ?_, fun hwait => ?_,
    fun r hturn hcheck hlow hhigh hroom => journal_shows hjoined hturn (takeRecord_inTurn hturn hcheck hlow hhigh hroom)⟩
  · have hexec : exec .twinHeartbeatTimer s = .next (modTwin s fun t => { t with hbSent := ownHb s false :: t.hbSent }) :=
      congrArg Host.Outcome.next (if_pos ⟨hjoined, hports, by simp [hspire]⟩)
    exact ⟨_, hexec, rfl⟩
  · exact ⟨_, hmiss.trans (congrArg Host.Outcome.next (if_neg (by omega))), hcount, hstate⟩
  · have hlost := declareLoss_shows (missed s)
    rw [hmissed] at hlost
    exact ⟨_, hmiss.trans (congrArg Host.Outcome.next (if_pos (by omega))), hlost⟩
  · have hexec : exec .keepOkWaitExpiry s = .next (declareLoss s) := congrArg Host.Outcome.next (if_pos ⟨hjoined, hwait⟩)
    exact ⟨_, hexec, declareLoss_shows s⟩

end Sys2Proof.Proofs.TwinJoined

/-! PROOFS. What a READ brought stays noted while its requester acts on it (R390, R395). -/

namespace Sys2Proof.Proofs.FrameReads

open Sys2Proof Sys2Proof.Machine Sys2Proof.Claims Sys2Proof.Proofs.Frames Sys2Proof.Proofs.PagerRules

/-- From s to t no read data has been noted. -/
structure SameReads (s t : State) : Prop where
  reads : t.fab.reads = s.fab.reads

/-- The allowance of all but the fabric. -/
def notFabric : Allow := ⟨fun p => decide (p ≠ .fab), fun _ => true⟩

theorem SameReads.refl (s : State) : SameReads s s := ⟨rfl⟩

section

variable {s t : State} (h : SameReads s t)
include h

theorem SameReads.trans {u : State} (k : SameReads t u) : SameReads s u := ⟨k.reads.trans h.reads⟩

theorem SameReads.within {u : State} (k : Within notFabric t u) : SameReads s u := by
  have hfab : u.fab = t.fab := k.parts .fab rfl
  exact h.trans ⟨congrArg FabricSt.reads hfab⟩

theorem SameReads.ite {p : Prop} [Decidable p] {u : State} (k : SameReads s u) : SameReads s (if p then t else u) := by
  split
  · exact h
  · exact k

omit h in
theorem SameReads.foldl {α : Type} {f : State → α → State} {l : List α} (h : SameReads s t) (hf : ∀ u, SameReads s u → ∀ x, SameReads s (f u x)) :
    SameReads s (l.foldl f t) := by
  induction l generalizing t with
  | nil => exact h
  | cons x l ih => exact ih (hf t h x)

/-! ## Sending -/

theorem SameReads.modFab (f : FabricSt → FabricSt) (hf : (f t.fab).reads = t.fab.reads) : SameReads s (modFab t f) := h.trans ⟨hf⟩

theorem SameReads.setMsg (m : GMsg) : SameReads s (setMsg t m) := h.trans ⟨rfl⟩

theorem SameReads.strm (x : StreamSt) : SameReads s { t with strm := x } := h.trans ⟨rfl⟩

theorem SameReads.store (x : StoreSt) : SameReads s { t with store := x } := h.trans ⟨rfl⟩

theorem SameReads.setPage (p : Nat) (x : Page) : SameReads s (setPage t p x) := h.strm _

theorem SameReads.dropFetch (k : CaskKey) : SameReads s (dropFetch t k) := h.store _

theorem SameReads.dropMissing (p c v : Nat) : SameReads s (dropMissing t p c v) := h.trans ⟨rfl⟩

theorem SameReads.wr (f : Field) (i v : Nat) : SameReads s (wr t f i v) := h.trans ⟨rfl⟩

theorem SameReads.bump (f : Field) (i n : Nat) : SameReads s (bump t f i n) := h.trans ⟨rfl⟩

theorem SameReads.sendSeg (retx : Bool) (key seg : Nat) : SameReads s (sendSeg retx t key seg) := by
  unfold Machine.sendSeg
  split
  · exact h
  · split
    · exact h.setMsg _
    · exact h.trans ⟨rfl⟩

theorem SameReads.pumpMsg (key : Nat) : SameReads s (pumpMsg t key) := by
  unfold Machine.pumpMsg
  split
  · exact SameReads.ite h (SameReads.foldl h fun _ hu seg => hu.sendSeg ..)
  · exact h

theorem SameReads.pumpTo (dst : Nat) : SameReads s (pumpTo t dst) := SameReads.foldl h fun _ hu m => hu.pumpMsg m.key

theorem SameReads.dropMsg (key : Nat) : SameReads s (dropMsg t key) := by
  unfold Machine.dropMsg
  exact SameReads.pumpTo ((h.modFab _ rfl).modFab _ rfl) _

theorem SameReads.firstUse (dst : Nat) (ps : List Nat) : SameReads s (firstUse t dst ps) := by
  unfold Machine.firstUse
  exact SameReads.foldl (h.trans ⟨rfl⟩) fun _ hu _ => hu.trans ⟨rfl⟩

theorem SameReads.openPaths (dst : Nat) : SameReads s (openPaths t dst) := by
  unfold Machine.openPaths
  refine SameReads.foldl (SameReads.ite (h.firstUse ..) h) fun u hu i => ?_
  split
  · exact SameReads.ite (hu.modFab _ rfl) hu
  · exact hu

theorem SameReads.sendKeyed (key op tc tenant offset : Nat) (data : List Byte) (mlen : Nat) (user : GUser) :
    SameReads s (sendKeyed t key op tc tenant offset data mlen user).2 := by
  unfold Machine.sendKeyed
  dsimp only
  split
  · exact h
  · split
    · exact (h.openPaths _).bump ..
    · exact ((h.openPaths _).modFab _ rfl).pumpMsg _

theorem SameReads.sendMessage (dst op tc tenant offset : Nat) (data : List Byte) (mlen : Nat) (user : GUser) :
    SameReads s (sendMessage t dst op tc tenant offset data mlen user).2 := by
  unfold Machine.sendMessage
  exact SameReads.ite ((h.sendKeyed ..).modFab _ rfl) (h.sendKeyed ..)

/-! ## The requesters -/

theorem SameReads.pager {u : State} (k : PagerOnly t u) : SameReads s u := by
  have hfab : u.fab = t.fab := by rw [k.rest]
  exact h.trans ⟨congrArg FabricSt.reads hfab⟩

theorem SameReads.raiseEngine (k : EvKind) (code unit data : Nat) : SameReads s (raiseEngine t k code unit data) :=
  h.within ((Within.refl _ t).raiseEngine ⟨by decide, by decide⟩ ..)

theorem SameReads.raiseRegion (k : EvKind) (code r unit data : Nat) : SameReads s (raiseRegion t k code r unit data) :=
  h.within ((Within.refl _ t).raiseRegion ⟨by decide, by decide⟩ ..)

theorem SameReads.wrAll (i : Nat) (l : List (Field × Nat)) : SameReads s (wrAll t i l) := h.within ((Within.refl _ t).wrAll fun _ _ => rfl)

theorem SameReads.rebuild (slot : Nat) : SameReads s (rebuild t slot) := by
  have hreleased : SameReads s (match (streamAt t slot).seat with | some p => releaseFrames t p slot 0 | none => t) := by
    split
    · exact h.pager (pagerOnly_releaseFrames ..)
    · exact h
  unfold Machine.rebuild
  refine SameReads.within ?_ ((Within.refl notFabric _).countPages (by decide) _)
  have hemptied {u : State} (hu : SameReads s u) : SameReads s (match (streamAt t slot).seat with | some p => seatTail u slot p | none => u) := by
    split
    · exact hu.pager (pagerOnly_seatTail ..)
    · exact hu
  exact (hemptied (SameReads.strm (SameReads.strm (hreleased.strm _) _) _)).bump ..

theorem SameReads.pageFailed (slot : Nat) : SameReads s (pageFailed t slot) := (h.raiseRegion ..).rebuild slot

theorem SameReads.pageArrived (slot p : Nat) (data : List Byte) : SameReads s (pageArrived t slot p data) := by
  unfold Machine.pageArrived
  dsimp only
  exact SameReads.ite (h.setPage ..) (((h.bump ..).setPage ..).pageFailed slot)

theorem SameReads.noteArrival (cause : Nat) : SameReads s (noteArrival t cause) := by
  unfold Machine.noteArrival
  exact SameReads.ite ((h.bump ..).raiseEngine ..) (SameReads.ite (h.raiseEngine ..) h)

theorem SameReads.noteStore : SameReads s (noteStore t) := h.wrAll ..

theorem SameReads.putMaster (m : Master) : SameReads s (putMaster t m) := by
  unfold Machine.putMaster
  exact SameReads.noteStore (h.trans ⟨rfl⟩)

theorem SameReads.enterImage (b : List Byte) (tenant : Nat) (source : Option Nat) : SameReads s (enterImage t b tenant source).2.2 := by
  unfold Machine.enterImage
  split
  · split
    · split
      · exact h
      · exact h
    · split
      · exact SameReads.noteStore (h.trans ⟨rfl⟩)
      · exact h
  · split
    · split
      · exact h
      · exact h
    · split
      · exact h.putMaster _
      · exact h

theorem SameReads.arrive (b : List Byte) (len tenant : Nat) (source : Option Nat) : SameReads s (arrive t b len tenant source).2.2 := by
  unfold Machine.arrive
  dsimp only
  split
  · exact h.noteArrival _
  · exact h.enterImage ..

theorem SameReads.endOp (status cause : Nat) : SameReads s (endOp t status cause) := by
  unfold Machine.endOp
  exact SameReads.wrAll (h.store _) ..

theorem SameReads.hallRead (got : Option (List Byte)) : SameReads s (hallRead t got) := by
  unfold Machine.hallRead
  split
  · split
    · split
      · exact SameReads.endOp (h.arrive ..) ..
      · exact h.endOp ..
    · exact h
  · exact h

theorem SameReads.settleVerify (k : CaskKey) : SameReads s (settleVerify t k) := by
  unfold Machine.settleVerify
  split
  · exact SameReads.ite (SameReads.ite (h.endOp ..) (h.endOp ..)) h
  · exact h

theorem SameReads.loseMaster (m : Master) : SameReads s (loseMaster t m) := by
  unfold Machine.loseMaster
  exact ((h.putMaster _).bump ..).raiseEngine ..

theorem SameReads.fetchFailed (k : CaskKey) : SameReads s (fetchFailed t k) := by
  unfold Machine.fetchFailed
  dsimp only
  have hdropped := h.dropFetch k
  split
  · exact SameReads.settleVerify (SameReads.ite (hdropped.loseMaster _) hdropped) _
  · exact h.trans ⟨rfl⟩

theorem SameReads.readSource (k : CaskKey) (x : Option (Nat × Nat)) : SameReads s (readSource t k x).2 := by
  unfold Machine.readSource
  split
  · exact h.sendMessage ..
  · exact h.sendMessage ..

omit h in
theorem SameReads.tryFetch (k : CaskKey) (tenant : Nat) (l : List (Option (Nat × Nat))) (h : SameReads s t) : SameReads s (tryFetch k tenant l t) := by
  induction l generalizing t with
  | nil => exact h.fetchFailed k
  | cons x rest ih =>
    have hread := h.readSource k x
    unfold Machine.tryFetch
    dsimp only
    split
    · exact hread.trans ⟨rfl⟩
    · refine ih ?_
      split
      · exact SameReads.ite (hread.putMaster _) hread
      · exact hread

theorem SameReads.repairArrived (f : CaskFetch) (m : Master) (got : Option (List Byte)) : SameReads s (repairArrived t f m got) := by
  have hnoted : SameReads s (match got with | some b => Machine.noteArrival t (arrivalCause t b b.length) | none => t) := by
    split
    · exact h.noteArrival _
    · exact h
  have hend {u : State} (hu : SameReads s u) (l : Option (List Byte)) : SameReads s (match l with
      | some b => Machine.settleVerify (Machine.bump (Machine.putMaster (Machine.dropFetch u (f.plan, f.target, f.version)) { m with image := b, bad := false, tries := 0 }) F.CASK_CNT_REPAIRS 0 1)
          (f.plan, f.target, f.version)
      | none => Machine.tryFetch (f.plan, f.target, f.version) f.tenant f.left (Machine.putMaster u { m with tries := m.tries + 1 })) := by
    split
    · exact (((hu.dropFetch _).putMaster _).bump ..).settleVerify _
    · exact (hu.putMaster _).tryFetch ..
  exact hend hnoted _

theorem SameReads.absentArrived (f : CaskFetch) (got : Option (List Byte)) : SameReads s (absentArrived t f got) := by
  unfold Machine.absentArrived
  dsimp only
  split
  · exact h.tryFetch ..
  · exact SameReads.ite (((h.arrive ..).dropFetch _).dropMissing ..) ((h.arrive ..).tryFetch ..)

theorem SameReads.imageRead (k : CaskKey) (got : Option (List Byte)) : SameReads s (imageRead t k got) := by
  unfold Machine.imageRead
  split
  · exact h
  · split
    · exact SameReads.ite (h.repairArrived ..) (h.dropFetch _)
    · exact h.absentArrived ..

end

end Sys2Proof.Proofs.FrameReads

/-! PROOFS. A frame that a port accepts: the message it completes, and what its operation does (R390, R395, R401, R475). -/

namespace Sys2Proof.Proofs.GorlaFrames

open Sys2Proof Sys2Proof.Machine Sys2Proof.Claims Sys2Proof.Laws Sys2Proof.Proofs.Frames Sys2Proof.Proofs.FrameReads Sys2Proof.Proofs.Loading
  Sys2Proof.Proofs.Raising

variable {s : State} {m : GFrame}

/-! ## A frame of one segment -/

theorem onFrame_accepted {op : Nat} {twinPort : Bool} (h : FrameOk s m op twinPort) (k : State → State) : onFrame op twinPort m s k = k s := by
  obtain ⟨hcarries, hver, hop, hport, hdst, hnode, hauth⟩ := h
  have hbelongs : ¬ (m.hdr.ver ≠ 1 ∨ m.hdr.op.toNat ≠ op ∨ (twinShut s m.port ∧ (¬ twinPort ∨ m.hdr.src.toNat ≠ twinNode s))) := by
    rintro (h | h | ⟨hshut, h⟩)
    · exact h hver
    · exact h hop
    · rcases hport with hopen | ⟨htwin, hsrc⟩
      · rw [hopen] at hshut
        exact absurd hshut (by decide)
      · exact h.elim (· htwin) (· hsrc)
  unfold onFrame
  rw [if_neg (not_not_intro hcarries), if_neg hbelongs, if_neg (not_not_intro hdst), if_neg (by simp [hnode]), if_neg fun h => h.2 (hauth h.1)]

/-- The message of a frame that is its only segment. -/
def whole (m : GFrame) : GRx := ⟨rxKey m.hdr, m.hdr.op.toNat, m.hdr.offset.toNat, m.hdr.mlen.toNat, some 1, [(0, m.payload)], false⟩

theorem rxData_whole (m : GFrame) : rxData (whole m) = m.payload := List.append_nil _

/-- The state in which the frame's message is whole and held. -/
def held (s : State) (m : GFrame) : State := setRx (notePsn s m.hdr) { whole m with parts := [], done := true }

theorem notePsn_same (s : State) (h : GHdr) : notePsn s h = { s with fab := (notePsn s h).fab } ∧ (notePsn s h).fab.rxs = s.fab.rxs ∧
    (notePsn s h).fab.msgs = s.fab.msgs ∧ (notePsn s h).fab.reads = s.fab.reads := by
  unfold notePsn
  dsimp only
  split
  · exact ⟨rfl, rfl, rfl, rfl⟩
  · exact ⟨rfl, rfl, rfl, rfl⟩

theorem held_same (s : State) (m : GFrame) : held s m = { s with fab := (held s m).fab } ∧ (held s m).fab.msgs = s.fab.msgs ∧
    (held s m).fab.reads = s.fab.reads := by
  obtain ⟨hrest, _, hmsgs, hreads⟩ := notePsn_same s m.hdr
  have hset (u : State) (r : GRx) : setRx u r = { u with fab := (setRx u r).fab } ∧ (setRx u r).fab.msgs = u.fab.msgs ∧ (setRx u r).fab.reads = u.fab.reads :=
    ⟨rfl, rfl, rfl⟩
  obtain ⟨hrest', hmsgs', hreads'⟩ := hset (notePsn s m.hdr) { whole m with parts := [], done := true }
  refine ⟨hrest'.trans ?_, hmsgs'.trans hmsgs, hreads'.trans hreads⟩
  rw [hrest]
  rfl

theorem receive_whole (hseg : m.hdr.seg = 0) (hlast : m.hdr.last = true) (hnew : rxOf s (rxKey m.hdr) = none) (k : State → GRx → Bool × State) :
    receive s m k = if (k (held s m) (whole m)).1 then sendAck (k (held s m) (whole m)).2 m.hdr.src.toNat [m.hdr.msg.toNat]
      else owe (k (held s m) (whole m)).2 m.hdr.src.toNat := by
  have hnone : rxOf (notePsn s m.hdr) (rxKey m.hdr) = none := by
    unfold rxOf
    rw [(notePsn_same s m.hdr).2.1]
    exact hnew
  have htaken : takeSeg (notePsn s m.hdr) m = (some (whole m), held s m) := by
    unfold takeSeg
    dsimp only
    rw [hnone, hseg, hlast]
    rfl
  unfold receive
  dsimp only
  rw [htaken]

theorem receive_acts (hseg : m.hdr.seg = 0) (hlast : m.hdr.last = true) (hnew : rxOf s (rxKey m.hdr) = none) {k : State → GRx → Bool × State} {t : State}
    (hk : k (held s m) (whole m) = (true, t)) : receive s m k = sendAck t m.hdr.src.toNat [m.hdr.msg.toNat] := by
  rw [receive_whole hseg hlast hnew, hk]
  rfl

/-- The message is acknowledged as complete. -/
def Acked (m : GFrame) (t : State) : Prop :=
  ∃ es, t.fab.acks.head? = some (m.hdr.src.toNat, es) ∧ AckEntry.complete (BitVec.ofNat 32 m.hdr.msg.toNat) ∈ es

theorem acked_sendAck (t : State) (m : GFrame) : Acked m (sendAck t m.hdr.src.toNat [m.hdr.msg.toNat]) :=
  ⟨_, rfl, List.mem_cons_self⟩

theorem sendAck_same (t : State) (src : Nat) (l : List Nat) : sendAck t src l = { t with fab := (sendAck t src l).fab } ∧
    (sendAck t src l).fab.window = t.fab.window ∧ (sendAck t src l).fab.reads = t.fab.reads := ⟨rfl, rfl, rfl⟩

/-! ## WRITE and READ_REQ -/

theorem storeWindow_at (t : State) (off : Nat) {data : List Byte} {i : Nat} {b : Byte} (hb : data[i]? = some b) :
    tget (storeWindow t off data).fab.window (off + i) 0 = b := by
  have hat := foldl_zipIdx_at (fun (w : Table Byte) e => tset w (off + e.2) e.1) (fun w j => tget w (off + j) 0) (fun d _ => d)
    (fun w e => tget_tset_same ..) (fun w e j hj => tget_tset_other _ _ _ fun h => hj (Nat.add_left_cancel h)) data 0 t.fab.window hb
  rwa [Nat.zero_add] at hat

/-! ## READ_RESP -/

/-- The allowance of the fabric alone. -/
def fabricAlone : Allow := ⟨fun p => decide (p = .fab), fun _ => false⟩

theorem fabric_eq {t u : State} (h : Within fabricAlone t u) : u = { t with fab := u.fab } := by
  have hregs : u.regs = t.regs := by
    have hwrites := h.regs
    generalize u.regs = r at hwrites
    induction hwrites with
    | refl => rfl
    | put _ f hf _ _ _ => exact absurd hf Bool.false_ne_true
  refine h.eq.trans ?_
  rw [hregs]
  rfl

/-- The state in which the data of a READ are noted and its message has gone. -/
def readNoted (s : State) (m : GFrame) (key : Nat) : State := dropMsg (modFab (held s m) fun f => { f with reads := rxData (whole m) :: f.reads }) key

/-- What the user of a READ does with its data. -/
def readUsed (t : State) (user : GUser) (data : List Byte) : State :=
  match user with
  | .fetch slot p _ => pageArrived t slot p data
  | .caskOp => hallRead t (some data)
  | .cask plan target version => imageRead t (plan, target, version) (some data)
  | _ => t

theorem sameReads_readUsed {t u : State} (h : SameReads t u) (user : GUser) (data : List Byte) : SameReads t (readUsed u user data) := by
  unfold readUsed
  split
  · exact h.pageArrived ..
  · exact h.hallRead _
  · exact h.imageRead ..
  · exact h

theorem readNoted_same (s : State) (m : GFrame) (key : Nat) : readNoted s m key = { s with fab := (readNoted s m key).fab } ∧
    (readNoted s m key).fab.reads = m.payload :: s.fab.reads := by
  obtain ⟨hrest, _, hreads⟩ := held_same s m
  have hmod (u : State) (data : List Byte) : modFab u (fun f => { f with reads := data :: f.reads }) =
      { u with fab := { u.fab with reads := data :: u.fab.reads } } := rfl
  have hdropped (u : State) : dropMsg u key = { u with fab := (dropMsg u key).fab } := fabric_eq ((Within.refl _ u).dropMsg rfl key)
  constructor
  · unfold readNoted
    rw [hdropped, hmod, hrest]
  · refine ((SameReads.refl _).dropMsg key).reads.trans ?_
    rw [hmod, rxData_whole, hreads]

theorem pageArrived_page (t : State) (slot p : Nat) {data : List Byte} (hcheck : natOfBytes (shake128 data 8) = (pageOf t p).check) :
    pageOf (pageArrived t slot p data) p = { pageOf t p with hall := false, place := none, fetching := false, cells := fillCells t data } := by
  unfold pageArrived
  dsimp only
  rw [if_pos hcheck]
  exact tget_tset_same ..

theorem readUsed_page {t : State} (ht : t = { s with fab := t.fab }) {slot p n : Nat} {data : List Byte} (hcheck : natOfBytes (shake128 data 8) = (pageOf s p).check) :
    pageOf (readUsed t (.fetch slot p n) data) p = { pageOf s p with hall := false, place := none, fetching := false, cells := fillCells s data } := by
  have hpage : pageOf t p = pageOf s p := by rw [ht]; rfl
  have hcells : fillCells t data = fillCells s data := by rw [ht]; rfl
  rw [← hpage, ← hcells]
  exact pageArrived_page t slot p (hpage ▸ hcheck)

theorem pageOf_sendAck (t : State) (src : Nat) (l : List Nat) (p : Nat) : pageOf (sendAck t src l) p = pageOf t p := rfl

theorem exec_readResp {x : GMsg} (hok : FrameOk s m 4 true) (hseg : m.hdr.seg = 0) (hlast : m.hdr.last = true) (hnew : rxOf s (rxKey m.hdr) = none)
    (hx : (s.fab.msgs.find? fun x => x.key = m.hdr.src.toNat * 2 ^ 32 + m.hdr.msg.toNat && x.op = 3) = some x) :
    exec (.readResp m) s = .next (sendAck (readUsed (readNoted s m (m.hdr.src.toNat * 2 ^ 32 + m.hdr.msg.toNat)) x.user (rxData (whole m))) m.hdr.src.toNat
      [m.hdr.msg.toNat]) := by
  rw [← (held_same s m).2.1] at hx
  refine congrArg Host.Outcome.next ((onFrame_accepted hok _).trans (receive_acts hseg hlast hnew ?_))
  dsimp only
  rw [hx]
  rfl

/-! ## SEND -/

/-- The state in which a SEND of a host or the twin is held and its source raised. -/
def sendHeld (s : State) (m : GFrame) : State := raiseSource (held s m) 15

/-- The SEND joins the queue. -/
def queued (u : State) (sends : List (BitVec 16 × List Byte)) (e : BitVec 16 × List Byte) : State :=
  { u with keep := { u.keep with sends := sends ++ [e] } }

theorem queued_sends (u : State) (sends : List (BitVec 16 × List Byte)) (e : BitVec 16 × List Byte) : (queued u sends e).keep.sends = sends ++ [e] := rfl

theorem sendAck_keep (t : State) (src : Nat) (l : List Nat) : (sendAck t src l).keep = t.keep := rfl

theorem exec_gorlaSend (hok : FrameOk s m 5 false) (hseg : m.hdr.seg = 0) (hlast : m.hdr.last = true) (hnew : rxOf s (rxKey m.hdr) = none)
    (hknown : isTwin s m.hdr.src.toNat = true ∨ isHostNode s m.hdr.src.toNat = true) (hroom : s.keep.sends.length < 256) :
    exec (.gorlaSend m) s = .next (sendAck (if requestGood (sendRequest (m.hdr.src, m.payload)) then queued (sendHeld s m) s.keep.sends (m.hdr.src, m.payload)
      else sendResponse (sendHeld s m) (sendRequest (m.hdr.src, m.payload)) stInternal []) m.hdr.src.toNat [m.hdr.msg.toNat]) := by
  have hsends : (held s m).keep.sends = s.keep.sends := by rw [(held_same s m).1]
  have hstranger : ¬ (¬ isTwin s m.hdr.src.toNat ∧ ¬ isHostNode s m.hdr.src.toNat) := fun h => hknown.elim h.1 h.2
  refine congrArg Host.Outcome.next ((onFrame_accepted hok _).trans ((if_neg hstranger).trans (receive_acts hseg hlast hnew ?_)))
  dsimp only
  rw [hsends, if_neg (by omega), rxData_whole]
  split
  · rfl
  · rfl

/-- The allowance of all but the Keep. -/
def notKeep : Allow := ⟨fun p => decide (p ≠ .keep), fun _ => true⟩

theorem sendResponse_keep (u : State) (q : Req) (status : Nat) (body : List Byte) : (sendResponse u q status body).keep =
    { u.keep with responses := ⟨q.chan, q.node, responseBytes q status body⟩ :: u.keep.responses } := by
  unfold sendResponse
  dsimp only
  split
  · exact ((Within.refl notKeep _).sendMessage (by decide) ..).parts .keep rfl
  · rfl

theorem sendRequest_from (e : BitVec 16 × List Byte) : (sendRequest e).chan = 4 ∧ (sendRequest e).node = e.1 := by
  unfold sendRequest
  dsimp only
  split
  · exact ⟨rfl, rfl⟩
  · exact ⟨rfl, rfl⟩

/-! ## The statement -/

/-- Settles O36: a frame's one segment is the whole message; what acts on it keeps the noted reads, and the acknowledgement goes last. -/
theorem gorlaFramesArrive : Obligations.GorlaFramesArrive := by
  unfold Obligations.GorlaFramesArrive
  intro s m src access acked hseg hlast hnew
  refine ⟨fun hok => ⟨fun hstranger => ?_, fun htwin hwindow => ?_⟩, fun hok => ⟨fun hstranger => ?_, fun htwin hwindow => ?_⟩, fun hok x hx => ?_,
    fun hok hknown hroom => ?_⟩
  · exact congrArg Host.Outcome.next ((onFrame_accepted hok _).trans (if_pos (by simp [hstranger, src])))
  · have hexec : exec (.gorlaWrite m) s = .next (sendAck (storeWindow (held s m) m.hdr.offset.toNat (rxData (whole m))) src [m.hdr.msg.toNat]) :=
      congrArg Host.Outcome.next ((onFrame_accepted hok _).trans ((if_neg (by simp [htwin, src])).trans ((if_neg (by simp [hwindow])).trans
        (receive_acts hseg hlast hnew rfl))))
    rw [rxData_whole] at hexec
    refine ⟨_, hexec, acked_sendAck .., fun i b hb => ?_⟩
    rw [(sendAck_same ..).2.1]
    exact storeWindow_at _ _ hb
  · exact congrArg Host.Outcome.next ((onFrame_accepted hok _).trans (if_pos (by simp [hstranger, src])))
  · refine ⟨_, congrArg Host.Outcome.next ((onFrame_accepted hok _).trans ((if_neg (by simp [htwin, src])).trans ((if_neg (by simp [hwindow])).trans
        (receive_acts hseg hlast hnew rfl)))), acked_sendAck ..⟩
  · obtain ⟨hrest, hreads⟩ := readNoted_same s m (m.hdr.src.toNat * 2 ^ 32 + m.hdr.msg.toNat)
    have hexec := exec_readResp hok hseg hlast hnew hx
    rw [rxData_whole] at hexec
    refine ⟨_, hexec, ?_, fun slot p n huser hcheck => ?_⟩
    · exact (sameReads_readUsed (SameReads.refl _) x.user m.payload).reads.trans hreads
    · rw [pageOf_sendAck, huser]
      exact readUsed_page hrest hcheck
  · refine ⟨_, exec_gorlaSend hok hseg hlast hnew hknown hroom, acked_sendAck .., fun hgood => ?_, fun hbad => ?_⟩
    · rw [sendAck_keep, if_pos hgood]
      exact queued_sends ..
    · have hkeep : (sendHeld s m).keep = s.keep := (raiseSource_keep ..).trans (by rw [(held_same s m).1])
      obtain ⟨hchan, hnode⟩ := sendRequest_from (m.hdr.src, m.payload)
      rw [sendAck_keep, if_neg (by simp [hbad]), sendResponse_keep, hkeep, hchan, hnode]
      exact ⟨rfl, rfl⟩

end Sys2Proof.Proofs.GorlaFrames

/-! PROOFS. O27 and O28 fail of a command on an adopted queue pair: its completion's record carries the partner's own number (R349, R361). -/

namespace Sys2Proof.Proofs.AdoptedQueue

open Sys2Proof Sys2Proof.Machine Sys2Proof.Claims

/-- An accepted command of queue pair 64, the adopted queue pair 0 of the partner, on the stream in slot 0. -/
def adoptedCmd (op : Nat) : LCmd := ⟨0, 64, op, 0, 2 ^ 17, [], [], [], 0, none, .accepted, false, 0, none⟩

/-- The only command is one of an adopted queue pair; the stream in slot 0 is open and has no position. -/
def adoptedState (op : Nat) : State :=
  { State.reset with strm := { State.reset.strm with cmds := [adoptedCmd op], slots := [(0, { blankStream with state := .opened })] } }

/-- The queue pair that the newest record names after a command. -/
def recordQp (o : Host.Outcome State Fault Refusal) : Option Nat :=
  match o with
  | .next t => t.strm.journal.ring.getLast?.map (·.qp)
  | .fault _ => none
  | .refused _ => none

theorem recordQp_nop : recordQp (exec (.ledgerNop 0) (adoptedState 0)) = some 0 := by decide +kernel

theorem recordQp_truncate : recordQp (exec (.truncate 0) (adoptedState 4)) = some 0 := by decide +kernel

/-- A completion of a command of queue pair 64 would name queue pair 64. -/
theorem recordQp_completes {t : State} {op handle status detail next aux : Nat} (h : Completes t (adoptedCmd op) handle status detail next aux) :
    recordQp (.next t) = some 64 := by
  obtain ⟨r, hlast, -, hqp, -⟩ := h
  exact (congrArg (Option.map (·.qp)) hlast).trans (congrArg some hqp)

/-- Refutes O27: the NOP of an adopted queue pair, 64, completes with a record of queue pair 0, the number of its partner's (R349). -/
theorem not_streamsOpenForkClose : ¬ Obligations.StreamsOpenForkClose := by
  intro h
  obtain ⟨hnop, -⟩ := h (adoptedState 0) 0 (adoptedCmd 0) rfl
  obtain ⟨t, ht, hdone, -⟩ := hnop (by decide +kernel)
  exact absurd ((recordQp_completes hdone).symm.trans (ht ▸ recordQp_nop)) (by decide)

/-- Refutes O28: the TRUNCATE of an adopted queue pair, 64, completes with a record of queue pair 0, the number of its partner's (R349). -/
theorem not_streamsWorkAndRest : ¬ Obligations.StreamsWorkAndRest := by
  intro h
  obtain ⟨-, -, htruncate, -⟩ := h (adoptedState 4) 0 (adoptedCmd 4) rfl (by decide +kernel) (by decide +kernel) (by decide +kernel)
  obtain ⟨t, ht, -, -, -, hdone, -⟩ :=
    htruncate (by decide +kernel) (by decide +kernel) (by decide +kernel) (by decide +kernel) (by decide +kernel)
  exact absurd ((recordQp_completes hdone).symm.trans (ht ▸ recordQp_truncate)) (by decide)

end Sys2Proof.Proofs.AdoptedQueue

/-! PROOFS. What the loss of a field leaves of its cores, its power and its lantern (R52, R285). -/

namespace Sys2Proof.Proofs.FieldLoss

open Sys2Proof Sys2Proof.Machine Sys2Proof.Claims Sys2Proof.Laws Sys2Proof.Proofs.BelfryComplete Sys2Proof.Proofs.Frames Sys2Proof.Proofs.Raising
  Sys2Proof.Proofs.Tables

variable (s : State) (f : Nat)

/-! ## Its parts -/

/-- The field is marked as lost. -/
def marked : State := wr s F.KEEP_FIELD_LOST_LOST 0 (rd s F.KEEP_FIELD_LOST_LOST 0 + 2 ^ f)

/-- The regions that reach into the field are lost, with their seats. -/
def regionsLost : State :=
  let u := raiseEngine (marked s f) .alarm evFieldLost f 0
  let hit := (allDescs u).filter fun r => rsDefined < regionState u r && (regionCores u r).any fun c => fieldOf c = f
  hit.foldl discardSeats (hit.foldl regionLost u)

/-- The field's cores leave the array. -/
def coresGone : State := (fieldCores f).foldl (fun s c => setCoreState { s with cores := tdel s.cores c } c csOff) s

/-- The field has no resident cask and no power. -/
def powerGone : State :=
  let u := { s with store := { s.store with residents := s.store.residents.filter fun x => fieldOf x.core ≠ f } }
  { u with pwr := { u.pwr with on := u.pwr.on.filter (· ≠ f), ramps := tdel u.pwr.ramps f } }

/-- The field has no lantern. -/
def lanternGone : State := { s with net := { s.net with lanterns := tdel s.net.lanterns f } }

variable {s f}

theorem fieldLoss_eq (hf : f < 48) (hlost : fieldLost s f = false) :
    fieldLoss s f = settleAll (handover (lanternGone (abandonRack (powerGone (coresGone (regionsLost s f) f) f) stDegraded) f)) := by
  have hfalls : ¬ (48 ≤ f ∨ fieldLost s f = true) := fun h => h.elim (by omega) fun h => by rw [hlost] at h; exact Bool.noConfusion h
  unfold fieldLoss lanternGone powerGone coresGone regionsLost marked
  rw [if_neg hfalls]

/-! ## What each part leaves -/

theorem powerGone_same (u : State) : (powerGone u f).regs = u.regs ∧ (powerGone u f).cores = u.cores ∧ (powerGone u f).pwr.on = u.pwr.on.filter (· ≠ f) ∧
    (powerGone u f).pwr.ramps = tdel u.pwr.ramps f := ⟨rfl, rfl, rfl, rfl⟩

theorem lanternGone_same (u : State) : (lanternGone u f).regs = u.regs ∧ (lanternGone u f).cores = u.cores ∧ (lanternGone u f).pwr = u.pwr ∧
    (lanternGone u f).net.lanterns = tdel u.net.lanterns f := ⟨rfl, rfl, rfl, rfl⟩

theorem foldl_tdel_none {α : Type} {l : List Nat} (t : Table α) {k : Nat} (h : k ∈ l) : tget? (l.foldl tdel t) k = none := by
  have hkept (l : List Nat) (t : Table α) (ht : tget? t k = none) : tget? (l.foldl tdel t) k = none := by
    induction l generalizing t with
    | nil => exact ht
    | cons j l ih =>
      refine ih _ ?_
      by_cases hj : k = j
      · rw [hj]; exact tget?_tdel_same ..
      · rw [tget?_tdel_other _ hj]; exact ht
  induction l generalizing t with
  | nil => exact absurd h (by simp)
  | cons j l ih =>
    rcases List.mem_cons.mp h with rfl | h
    · exact hkept l _ (tget?_tdel_same ..)
    · exact ih _ h

theorem coresGone_cores (u : State) : (coresGone u f).cores = (fieldCores f).foldl tdel u.cores := by
  unfold coresGone
  generalize fieldCores f = l
  induction l generalizing u with
  | nil => rfl
  | cons c l ih => exact ih _

/-- The allowance of all but the cores, the power domains and the lanterns. -/
def elsewhere : Allow := ⟨fun p => decide (p ≠ .cores ∧ p ≠ .pwr ∧ p ≠ .lanterns), fun _ => true⟩

theorem settled_within (u : State) : Within elsewhere u (settleAll (handover u)) := ((Within.refl _ u).handover (by decide)).settleAll (by decide)

/-- What the end of the loss leaves of the power, the cores and the lanterns. -/
theorem ended_shows (u : State) : (settleAll (handover (lanternGone (abandonRack u stDegraded) f))).pwr = u.pwr ∧
    (settleAll (handover (lanternGone (abandonRack u stDegraded) f))).cores = u.cores ∧
    tget? (settleAll (handover (lanternGone (abandonRack u stDegraded) f))).net.lanterns f = none := by
  have hrack := (Within.refl elsewhere u).abandonRack (by decide) stDegraded
  have hpwr : (abandonRack u stDegraded).pwr = u.pwr := hrack.parts .pwr rfl
  have hcores : (abandonRack u stDegraded).cores = u.cores := hrack.parts .cores rfl
  generalize abandonRack u stDegraded = v at hpwr hcores
  obtain ⟨-, hcores', hpwr', hlanterns⟩ := lanternGone_same (f := f) v
  have hend := settled_within (lanternGone v f)
  generalize lanternGone v f = w at hcores' hpwr' hlanterns hend
  have hnone : tget? w.net.lanterns f = none := by
    rw [hlanterns]
    exact tget?_tdel_same ..
  refine ⟨Eq.trans (hend.parts .pwr rfl) (hpwr'.trans hpwr), Eq.trans (hend.parts .cores rfl) (hcores'.trans hcores), ?_⟩
  exact (congrArg (tget? · f) (hend.parts .lanterns rfl)).trans hnone

/-- The loss takes the field's power, its cores and its lantern. -/
theorem fieldLoss_takes (hf : f < 48) (hlost : fieldLost s f = false) : f ∉ (fieldLoss s f).pwr.on ∧ tget? (fieldLoss s f).pwr.ramps f = none ∧
    tget? (fieldLoss s f).net.lanterns f = none ∧ ∀ c ∈ fieldCores f, coreOf (fieldLoss s f) c = blankCore := by
  obtain ⟨-, hcores, hon, hramps⟩ := powerGone_same (f := f) (coresGone (regionsLost s f) f)
  rw [coresGone_cores] at hcores
  obtain ⟨hpwr, hcores', hlanterns⟩ := ended_shows (f := f) (powerGone (coresGone (regionsLost s f) f) f)
  rw [← fieldLoss_eq hf hlost] at hpwr hcores' hlanterns
  refine ⟨?_, ?_, hlanterns, fun c hc => ?_⟩
  · rw [hpwr, hon]
    simp
  · rw [hpwr, hramps]
    exact tget?_tdel_same ..
  · unfold coreOf
    rw [hcores', hcores, tget_eq_getD, foldl_tdel_none _ hc]
    rfl

/-- A field's cores are those that lie in it. -/
theorem mem_fieldCores (c : Nat) : c ∈ fieldCores (fieldOf c) := by
  have hx : coreX c < 152 := Nat.mod_lt _ (by decide)
  have hcol : fieldOf c % 8 = coreX c / 19 := by unfold fieldOf; omega
  have hrow : fieldOf c / 8 = coreY c / 16 := by unfold fieldOf; omega
  refine List.mem_flatMap.mpr ⟨coreY c % 16, List.mem_range.mpr (by omega), List.mem_map.mpr ⟨coreX c % 19, List.mem_range.mpr (by omega), ?_⟩⟩
  have hc : 152 * coreY c + coreX c = c := Nat.div_add_mod c 152
  unfold coreAt
  omega

/-! ## The mark -/

theorem testBit_add_two_pow {n : Nat} (hf : f < 48) (h : n.testBit f = false) : ((n + 2 ^ f) % 2 ^ 48).testBit f = true := by
  rw [Nat.testBit_mod_two_pow, Nat.add_comm, Nat.testBit_two_pow_add_eq, h]
  simp [hf]

/-- The allowance of all but the fields that are lost. -/
def notLost : Allow := ⟨fun _ => true, fun g => decide (Clear g F.KEEP_FIELD_LOST_LOST)⟩

theorem marked_within (s : State) (f : Nat) : Within notLost (marked s f)
    (settleAll (handover (lanternGone (abandonRack (powerGone (coresGone (regionsLost s f) f) f) stDegraded) f))) := by
  have hlost (l : List Nat) := Within.foldl (l := l)
    (Within.foldl (l := l) ((Within.refl notLost (marked s f)).raiseEngine (raises_of_fits (by decide)) .alarm evFieldLost f 0) fun _ hu r => hu.regionLost (by decide) r)
    fun _ hu r => hu.discardSeats (by decide) r
  have hcores : Within notLost (marked s f) (coresGone (regionsLost s f) f) :=
    (hlost _).foldl fun u hu c => (hu.cores rfl (tdel u.cores c)).setCoreState (by decide) c csOff
  exact (Within.handover (((hcores.store rfl _).pwr rfl _).abandonRack (by decide) _ |>.netAll rfl rfl _) (by decide)).settleAll (by decide)

theorem fieldLoss_lost (hf : f < 48) (hlost : fieldLost s f = false) : fieldLost (fieldLoss s f) f = true := by
  have hmark : rd (marked s f) F.KEEP_FIELD_LOST_LOST 0 = (rd s F.KEEP_FIELD_LOST_LOST 0 + 2 ^ f) % 2 ^ 48 := rd_wr_same _ _ _ _ (by decide)
  have hread : rd (fieldLoss s f) F.KEEP_FIELD_LOST_LOST 0 = rd (marked s f) F.KEEP_FIELD_LOST_LOST 0 := by
    rw [fieldLoss_eq hf hlost]
    exact (marked_within s f).rd_eq (fun _ hg => of_decide_eq_true hg) 0
  unfold fieldLost at hlost ⊢
  rw [hread, hmark]
  exact testBit_add_two_pow hf hlost

end Sys2Proof.Proofs.FieldLoss

/-! PROOFS. Boundaries, heartbeats at their lanterns, and the summary of a field (R180, R184, R212–R214). -/

namespace Sys2Proof.Proofs.Boundaries

open Sys2Proof Sys2Proof.Machine Sys2Proof.Claims Sys2Proof.Laws Sys2Proof.Proofs.BelfryComplete Sys2Proof.Proofs.Clocks Sys2Proof.Proofs.Frames
  Sys2Proof.Proofs.Raising

variable {s : State}

/-! ## Boundaries -/

theorem exec_tickBoundary {x : TickInputs} (h : s.clk.gated = false) :
    exec (.tickBoundary x) s = .next (openTick (boundary x (restOfTick s) (tickCount (restOfTick s))) (tickCount (restOfTick s) + 1)) :=
  congrArg Host.Outcome.next (if_neg (by simp [h]))

/-- A tick whose cycles have all passed has no rest. -/
theorem restOfTick_passed (h : lastCycle s < s.clk.cyc) : restOfTick s = s := by
  unfold restOfTick
  rw [show lastCycle s + 1 - s.clk.cyc = 0 by omega]
  split
  · rfl
  · rfl

/-! ## Summaries -/

theorem inject_same (s : State) (c pri : Nat) (ws : List (BitVec 32)) : (inject s c pri ws).net.lanterns = s.net.lanterns ∧
    (inject s c pri ws).net.sumOut = s.net.sumOut := ⟨rfl, rfl⟩

theorem injectAll_same (l : List Summary) (router : Nat) (s : State) :
    (l.foldl (fun s m => inject s router 3 (packetWords (sumPacket m))) s).net.lanterns = s.net.lanterns ∧
      (l.foldl (fun s m => inject s router 3 (packetWords (sumPacket m))) s).net.sumOut = s.net.sumOut := by
  induction l generalizing s with
  | nil => exact ⟨rfl, rfl⟩
  | cons m l ih =>
    obtain ⟨hlanterns, hsum⟩ := ih (inject s router 3 (packetWords (sumPacket m)))
    exact ⟨hlanterns.trans (inject_same ..).1, hsum.trans (inject_same ..).2⟩

theorem lanternOf_congr {s t : State} (h : t.net.lanterns = s.net.lanterns) (f : Nat) : lanternOf t f = lanternOf s f := by
  unfold lanternOf
  rw [h]

theorem lanternOf_none {f : Nat} (h : tget? s.net.lanterns f = none) : lanternOf s f = blankLantern := by
  unfold lanternOf
  rw [Tables.tget_eq_getD, h]
  rfl

theorem lanternOf_setLantern (s : State) (f : Nat) (x : Lantern) : lanternOf (setLantern s f x) f = x := tget_tset_same ..

theorem setLantern_sumOut (s : State) (f : Nat) (x : Lantern) : (setLantern s f x).net.sumOut = s.net.sumOut := rfl

/-- The state in which the summary of field f has been formed. -/
def summed (s : State) (f : Nat) : State :=
  let u := setLantern s f { lanternOf s f with sent := true, silent := 0 }
  { u with net := { u.net with sumOut := (summaryPackets f (lanternOf s f)).reverse ++ s.net.sumOut } }

theorem summed_shows (s : State) (f : Nat) : lanternOf (summed s f) f = { lanternOf s f with sent := true, silent := 0 } ∧
    (summed s f).net.sumOut = (summaryPackets f (lanternOf s f)).reverse ++ s.net.sumOut := ⟨tget_tset_same .., rfl⟩

theorem sendSummary_eq (s : State) (f : Nat) : sendSummary s f =
    (summaryPackets f (lanternOf s f)).foldl (fun s m => inject s (addressRouter 0 (0x4000 + f)) 3 (packetWords (sumPacket m))) (summed s f) := rfl

theorem sendSummary_shows (s : State) (f : Nat) : lanternOf (sendSummary s f) f = { lanternOf s f with sent := true, silent := 0 } ∧
    (sendSummary s f).net.sumOut = (summaryPackets f (lanternOf s f)).reverse ++ s.net.sumOut := by
  rw [sendSummary_eq]
  generalize addressRouter 0 (0x4000 + f) = router
  obtain ⟨hlanterns, hsum⟩ := injectAll_same (summaryPackets f (lanternOf s f)) router (summed s f)
  rw [lanternOf_congr hlanterns, hsum]
  exact summed_shows s f

/-! ## Heartbeats -/

/-- The lantern l with one heartbeat more. -/
def joined (l : Lantern) (g : Hb) : Lantern := { l with hbs := l.hbs ++ [g] }

/-- Every core that the lantern expects has sent its heartbeat. -/
def complete (l : Lantern) : Bool := l.expect.all fun c => l.hbs.any fun x => x.core = c

theorem heartbeatArrives_joins {g : Hb} (hsent : (lanternOf s (fieldOf g.core)).sent = false) (hexpected : g.core ∈ (lanternOf s (fieldOf g.core)).expect)
    (htick : g.tick = BitVec.ofNat 8 (lanternOf s (fieldOf g.core)).tick) (hfirst : ∀ x ∈ (lanternOf s (fieldOf g.core)).hbs, x.core ≠ g.core) :
    let l := joined (lanternOf s (fieldOf g.core)) g
    let t := heartbeatArrives s g
    lanternOf t (fieldOf g.core) = { l with sent := complete l, silent := if complete l then 0 else l.silent } ∧
      t.net.sumOut = (if complete l then (summaryPackets (fieldOf g.core) l).reverse else []) ++ s.net.sumOut := by
  intro l t
  have hkept : ¬ ((lanternOf s (fieldOf g.core)).sent ∨ (lanternOf s (fieldOf g.core)).expect.contains g.core = false ∨
      g.tick ≠ BitVec.ofNat 8 (lanternOf s (fieldOf g.core)).tick ∨ (lanternOf s (fieldOf g.core)).hbs.any (fun x => x.core = g.core)) := by
    simpa [hsent, hexpected, htick] using hfirst
  have ht : t = if complete l then sendSummary (setLantern s (fieldOf g.core) l) (fieldOf g.core) else setLantern s (fieldOf g.core) l := if_neg hkept
  obtain ⟨hlantern, hsum⟩ := sendSummary_shows (setLantern s (fieldOf g.core) l) (fieldOf g.core)
  rw [lanternOf_setLantern] at hlantern hsum
  rw [setLantern_sumOut] at hsum
  have hlsent : l.sent = false := hsent
  rw [ht]
  cases hall : complete l
  · refine ⟨(lanternOf_setLantern ..).trans ?_, rfl⟩
    generalize l = m at hlsent
    cases m
    cases hlsent
    rfl
  · simp only [if_true]
    exact ⟨hlantern, hsum⟩

/-! ## The statement -/

/-- Settles O13: a boundary ends with the opening of the next tick; a lantern's own state changes only with a heartbeat, its summary, or its field's loss. -/
theorem boundariesHeartbeatsAndSummaries : Obligations.BoundariesHeartbeatsAndSummaries := by
  unfold Obligations.BoundariesHeartbeatsAndSummaries
  refine ⟨fun s x => ⟨fun hgated => congrArg Host.Outcome.next (if_pos hgated), fun hruns => ⟨_, exec_tickBoundary hruns, openTick_cyc .., openTick_stamp .., ?_⟩⟩,
    fun s => ⟨?_, fun f hf hlost hsent => ?_, fun f hf hlost hon hsilent => ?_⟩⟩
  · intro hpassed
    rw [restOfTick_passed hpassed]
    exact openTick_count ..
  · intro h hcore f l joins hsent hexpected htick hfirst
    refine ⟨fun hclean => ?_, fun hdirty => ?_⟩
    · have hexec : exec (.hbShort h) s = .next (heartbeatArrives (takeIn s (shortPacket h)) { h with tag := 0 }) :=
        (if_pos hcore).trans (congrArg Host.Outcome.next (if_pos hclean))
      exact ⟨_, hexec, heartbeatArrives_joins (s := takeIn s (shortPacket h)) (g := { h with tag := 0 }) hsent hexpected htick hfirst⟩
    · have hexec : exec (.hbLong h) s = .next (heartbeatArrives (takeIn s (hbPacket h)) h) :=
        (if_pos hcore).trans (congrArg Host.Outcome.next (if_neg (by simp [hdirty])))
      exact ⟨_, hexec, heartbeatArrives_joins (s := takeIn s (hbPacket h)) hsent hexpected htick hfirst⟩
  · exact ⟨_, congrArg Host.Outcome.next (if_neg (by simp [hsent, hlost]; omega)), sendSummary_shows s f⟩
  · exact ⟨_, congrArg Host.Outcome.next (if_pos ⟨hlost, hon, hsilent⟩), FieldLoss.fieldLoss_lost hf hlost, lanternOf_none (FieldLoss.fieldLoss_takes hf hlost).2.2.1⟩

end Sys2Proof.Proofs.Boundaries

/-! PROOFS. What is left when the fields, rims and cellar lose power (R13, R433, R454). -/

namespace Sys2Proof.Proofs.Rails

open Sys2Proof Sys2Proof.Machine Sys2Proof.Claims Sys2Proof.Laws Sys2Proof.Proofs.BelfryComplete Sys2Proof.Proofs.CoolingMeasures
  Sys2Proof.Proofs.Frames Sys2Proof.Proofs.ReadRules

variable (s : State)

/-- What the power took is gone, before the registers say so. -/
def cut : State :=
  { s with
    regs := s.regs.filter (fun e => e.1 < 0x20000000), shadow := s.shadow.filter (fun e => e.1 < 0x20000000), captured := s.captured.filter fun e => e.1 < 0x20000000
    cores := [], store := StoreSt.initial, strm := StreamSt.initial, units := []
    net := { NetSt.initial with deadLinks := s.net.deadLinks, spared := s.net.spared, regReads := s.net.regReads, debugRows := s.net.debugRows, reports := s.net.reports }
    fab := { s.fab with carry := [], paths := [], msgs := [], rxs := [], window := [] }
    clk := { s.clk with gated := true } }

/-- Every region is DEFINED and without a plan. -/
def regionsBack : State :=
  (allDescs s).foldl (fun s r => if rsDefined < regionState s r then wr (setRegionState s r rsDefined) F.REG_PLAN_PLAN_ID r 0 else s) s

/-- Every port is down. -/
def portsDown : State := ports.foldl (fun s p => if rdB s F.NET_PORT_UP p then wr s F.NET_PORT_UP p 0 else s) s

/-- The power domains are off. -/
def unpowered (p : PowerSt) : PowerSt := { p with rails := false, on := [], rims := [], ramps := [], wakeNext := [] }

theorem losePower_eq : losePower s = modPwr (noteTwinPorts (portsDown (regionsBack (cut s)))) unpowered := by
  unfold losePower portsDown regionsBack cut
  rfl

/-- The registers that then say so. -/
def railFoot : Foot := ⟨[], [F.REG_UNIT_STATUS_STATE, F.REG_PLAN_PLAN_ID, F.NET_PORT_UP, F.TWIN_STATUS_PORTS_UP]⟩

theorem told_within {a : Allow} (ha : railFoot.Fits a) : Within a s (noteTwinPorts (portsDown (regionsBack s))) := by
  have hregions : Within a s (regionsBack s) := (Within.refl a s).foldl fun u hu r =>
    .ite (Within.wr (Within.wr hu (ha.field (by decide))) (ha.field (by decide))) hu
  have hports : Within a s (portsDown (regionsBack s)) := hregions.foldl fun u hu p => .ite (hu.wr (ha.field (by decide))) hu
  exact hports.wr (ha.field (by decide))

/-- A register of a block that keeps its power, and that does not say what is gone, reads as before. -/
theorem rd_losePower {g : Field} {i : Nat} (hkey : fkey g i < 0x20000000) (hclear : railFoot.Fits (besides g [])) : rd (losePower s) g i = rd s g i := by
  have htold := (told_within (cut s) hclear).reads i
  rw [losePower_eq, rd_modPwr, htold]
  unfold rd regWord
  exact congrArg (getF g) (tget_filter_key (p := fun k => decide (k < 0x20000000)) (decide_eq_true hkey) _)

/-- The allowance of registers alone. -/
def registers : Allow := ⟨fun _ => false, fun _ => true⟩

theorem losePower_leaves : (losePower s).pwr = unpowered s.pwr ∧ (losePower s).cores = [] ∧ (losePower s).strm = StreamSt.initial ∧
    (losePower s).clk = { s.clk with gated := true } ∧ (losePower s).alarmFlash = s.alarmFlash ∧ (losePower s).thm = s.thm := by
  have htold := told_within (a := registers) (cut s) (by decide)
  rw [losePower_eq]
  generalize noteTwinPorts (portsDown (regionsBack (cut s))) = t at htold
  exact ⟨congrArg unpowered (htold.parts .pwr rfl), htold.parts .cores rfl, htold.parts .strm rfl, htold.parts .clk rfl, htold.parts .alarmFlash rfl,
    htold.parts .thm rfl⟩

/-- What ENG_FAULT_N leaves. -/
theorem engFault_leaves : (engFault s).pwr = unpowered s.pwr ∧ (engFault s).cores = [] ∧ (engFault s).strm = StreamSt.initial ∧
    (engFault s).clk = { s.clk with gated := true } ∧ (engFault s).alarmFlash = s.alarmFlash ∧ (engFault s).thm = s.thm :=
  losePower_leaves _

theorem engFault_shows : rd (engFault s) F.PWR_STATUS_ENG_FAULT 0 = 1 :=
  (rd_losePower _ (by decide) (by decide)).trans (rd_wr_same s _ 0 1 (by decide))

end Sys2Proof.Proofs.Rails

/-! PROOFS. Domains that hibernate and wake, and what rails, clocks and the sag lock do (R414, R424–R426, R431–R438). -/

namespace Sys2Proof.Proofs.DomainsAndRails

open Sys2Proof Sys2Proof.Machine Sys2Proof.Claims Sys2Proof.Laws Sys2Proof.Proofs.BelfryComplete Sys2Proof.Proofs.Frames Sys2Proof.Proofs.PowerReports
  Sys2Proof.Proofs.Raising Sys2Proof.Proofs.ReadRules Sys2Proof.Proofs.Rails Sys2Proof.Proofs.Tables

variable {s : State}

/-! ## Hibernation and waking -/

/-- The registers of power delivery that ramps do not reach. -/
theorem rd_hibernateField (u : State) (f : Nat) (g : Field) (i : Nat) : rd (hibernateField u f) g i = rd u g i :=
  ((Within.refl (besides g [.pwr]) u).hibernateField rfl f).reads i

theorem rd_wakeField (u : State) (f : Nat) (g : Field) (i : Nat) : rd (wakeField u f) g i = rd u g i :=
  ((Within.refl (besides g [.pwr]) u).wakeField rfl f).reads i

theorem hibernateField_on {u : State} {f : Nat} (h : f ∈ u.pwr.on) : tget? (hibernateField u f).pwr.ramps f = some ⟨.down 0, 2, false, false⟩ := by
  unfold hibernateField
  rw [if_pos (by simpa using h)]
  exact tget?_tset_same ..

theorem wakeField_off {u : State} {f : Nat} (hlost : fieldLost u f = false) (hstill : tget? u.pwr.ramps f = none) (hoff : f ∉ u.pwr.on) :
    tget? (wakeField u f).pwr.ramps f = some ⟨.wait, 3, false, false⟩ := by
  unfold wakeField
  rw [if_neg (by simp [hlost]), hstill]
  dsimp only
  rw [if_neg (by simpa using hoff)]
  exact tget?_tset_same ..

theorem hibernates {f : Nat} (hf : f < 48) (hbit : (rd s F.PWR_HIB_REQ 0).testBit f = false) (hmay : mayHibernate s f = true) :
    After (exec (.hibernate f) s) fun t => rd t F.PWR_HIB_REQ 0 = rd s F.PWR_HIB_REQ 0 + 2 ^ f ∧
      rd t F.PWR_COMMIT_COMMIT_STATUS 0 = stOk ∧ (f ∈ s.pwr.on → tget? t.pwr.ramps f = some ⟨.down 0, 2, false, false⟩) := by
  have hexec : exec (.hibernate f) s =
      .next (wr (hibernateField (wr s F.PWR_HIB_REQ 0 (rd s F.PWR_HIB_REQ 0 + 2 ^ f)) f) F.PWR_COMMIT_COMMIT_STATUS 0 stOk) :=
    congrArg Host.Outcome.next ((if_neg (by simp [hbit]; omega)).trans (if_pos hmay))
  refine ⟨_, hexec, ?_, rd_wr_same _ F.PWR_COMMIT_COMMIT_STATUS 0 stOk (by decide), fun hon => hibernateField_on hon⟩
  rw [rd_wr_clear _ 0 0 stOk (by decide), rd_hibernateField, rd_wr_same s _ 0 _ (by decide)]
  exact Nat.mod_eq_of_lt (add_two_pow_lt (rd_lt s _ 0) hf hbit)

theorem wakes {f : Nat} (hf : f < 48) (hbit : (rd s F.PWR_HIB_REQ 0).testBit f = true) (hmay : mayWake s = true) :
    After (exec (.wake f) s) fun t => rd t F.PWR_HIB_REQ 0 = rd s F.PWR_HIB_REQ 0 - 2 ^ f ∧
      rd t F.PWR_COMMIT_COMMIT_STATUS 0 = stOk ∧ (fieldLost s f = false → tget? s.pwr.ramps f = none → f ∉ s.pwr.on →
        tget? t.pwr.ramps f = some ⟨.wait, 3, false, false⟩) := by
  have hexec : exec (.wake f) s =
      .next (wr (wakeField (wr s F.PWR_HIB_REQ 0 (rd s F.PWR_HIB_REQ 0 - 2 ^ f)) f) F.PWR_COMMIT_COMMIT_STATUS 0 stOk) :=
    congrArg Host.Outcome.next ((if_neg (by simp [hbit]; omega)).trans (if_pos hmay))
  refine ⟨_, hexec, ?_, rd_wr_same _ F.PWR_COMMIT_COMMIT_STATUS 0 stOk (by decide), fun hlost hstill hoff => wakeField_off ?_ hstill hoff⟩
  · rw [rd_wr_clear _ 0 0 stOk (by decide), rd_wakeField, rd_wr_same s _ 0 _ (by decide)]
    exact Nat.mod_eq_of_lt (Nat.lt_of_le_of_lt (Nat.sub_le ..) (rd_lt s _ 0))
  · unfold fieldLost at hlost ⊢
    rw [rd_wr_clear s 0 0 _ (by decide)]
    exact hlost

theorem tget?_map {α : Type} (g : α → α) (t : Table α) (k : Nat) : tget? (t.map fun e => (e.1, g e.2)) k = (tget? t k).map g := by
  induction t with
  | nil => rfl
  | cons e t ih =>
    obtain ⟨j, x⟩ := e
    simp only [List.map_cons, tget?]
    split
    · rfl
    · exact ih

/-- A ramp that waits is forced. -/
def force (r : Ramp) : Ramp := if r.phase = .wait then { r with forced := true } else r

theorem force_map (l : Table Ramp) : l.map (fun e => if e.2.phase = .wait then (e.1, { e.2 with forced := true }) else e) = l.map fun e => (e.1, force e.2) :=
  List.map_congr_left fun e _ => by
    unfold force
    split
    · rfl
    · rfl

theorem forces {f : Nat} {r : Ramp} (hr : tget? s.pwr.ramps f = some r) (hwait : r.phase = .wait) :
    After (exec .admitWaitExpiry s) fun t => tget? t.pwr.ramps f = some { r with forced := true } := by
  refine ⟨_, rfl, ?_⟩
  change tget? (s.pwr.ramps.map _) f = _
  rw [force_map, tget?_map, hr]
  exact congrArg some (if_pos hwait)

/-! ## Faults on the rails -/

/-- The halves are gated and a ramp stops. -/
def gatedBySpire (s : State) : State := modPwr { s with clk := { s.clk with gated := true } } fun p => { p with ramps := [] }

theorem gatedBySpire_same (s : State) : (gatedBySpire s).regs = s.regs ∧ (gatedBySpire s).clk = { s.clk with gated := true } ∧
    (gatedBySpire s).pwr.ramps = [] := ⟨rfl, rfl, rfl⟩

theorem hallNs_gatedBySpire (s : State) : hallNs (gatedBySpire s) = hallNs s := rfl

theorem spireFault_shows : After (exec .spireFault s) fun t => t.clk = { s.clk with gated := true } ∧ t.pwr.ramps = [] ∧
    rd t F.PWR_STATUS_SPIRE_FAULT 0 = 1 ∧ Logged s t .alarm evSpireFault 0 0 0 0 := by
  obtain ⟨hregs, hclk, hramps⟩ := gatedBySpire_same s
  have hexec : exec .spireFault s = .next (raiseSource (raiseEngine (wr (gatedBySpire s) F.PWR_STATUS_SPIRE_FAULT 0 1) .alarm evSpireFault 0 0) 16) := rfl
  have hlogged := logged_raiseEngine (s := s) (t := wr (gatedBySpire s) F.PWR_STATUS_SPIRE_FAULT 0 1) ((hallNs_wr ..).trans (hallNs_gatedBySpire s))
    ((rd_wr_clear _ 0 0 1 (by decide)).trans (rd_congr hregs _ _)) .alarm evSpireFault 0 0
  refine ⟨_, hexec, ?_, ?_, ?_, ?_⟩
  · rw [raiseSource_clk, raiseEngine, raiseEv_clk]
    exact hclk
  · rw [raiseSource_pwr, raiseEngine, raiseEv_pwr]
    exact hramps
  · exact (rd_raiseSource _ 0 (by decide) 16).trans ((rd_raiseEngine _ 0 (by decide) ..).trans (rd_wr_same _ F.PWR_STATUS_SPIRE_FAULT 0 1 (by decide)))
  · unfold Logged
    rw [raiseSource_events]
    exact hlogged

/-! ## The sag lock -/

theorem sagLock_shows (h : sagLocked s = false) : After (exec .sagLock s) fun t => sagLocked t = true ∧ Logged s t .report evSagNvlock 0 0 0 0 := by
  have hexec : exec .sagLock s = .next (raiseSource (raiseEngine (wr s F.PWR_STATUS_NVLOCK 0 1) .report evSagNvlock 0 0) 18) :=
    congrArg Host.Outcome.next (if_neg (by simp [h]))
  refine ⟨_, hexec, ?_, ?_⟩
  · have hread : rd (raiseSource (raiseEngine (wr s F.PWR_STATUS_NVLOCK 0 1) .report evSagNvlock 0 0) 18) F.PWR_STATUS_NVLOCK 0 = 1 :=
      (rd_raiseSource _ 0 (by decide) 18).trans ((rd_raiseEngine _ 0 (by decide) ..).trans (rd_wr_same _ F.PWR_STATUS_NVLOCK 0 1 (by decide)))
    unfold sagLocked rdB
    rw [hread]
    rfl
  · unfold Logged
    rw [raiseSource_events]
    exact logged_raiseEngine (hallNs_wr ..) (rd_wr_clear s 0 0 1 (by decide)) ..

/-- The lock is released, and the alarms and the overlay it deferred are written. -/
def released (s : State) : State :=
  let s := wr s F.PWR_STATUS_NVLOCK 0 0
  { s with
    alarmFlash := s.alarmsDeferred.reverse ++ s.alarmFlash
    alarmsDeferred := []
    keep := { s.keep with boot := { s.keep.boot with overlay := s.keep.boot.overlay ++ s.pwr.heldOverlay } } }

theorem sagRelease_shows (h : sagLocked s = true) : After (exec .sagRelease s) fun t => sagLocked t = false ∧ t.alarmsDeferred = [] ∧
    t.alarmFlash = s.alarmsDeferred.reverse ++ s.alarmFlash ∧ t.keep.boot.overlay = s.keep.boot.overlay ++ s.pwr.heldOverlay ∧
    t.pwr.heldOverlay = [] := by
  have hlock : sagLocked (released s) = false := by
    have hread : rd (released s) F.PWR_STATUS_NVLOCK 0 = 0 := rd_wr_same s F.PWR_STATUS_NVLOCK 0 0 (by decide)
    unfold sagLocked rdB
    rw [hread]
    rfl
  have hexec : exec .sagRelease s = .next (modPwr
      (if (released s).pwr.logsDue then { released s with thm := { (released s).thm with flashed := cycleCounts (released s) } } else released s)
      fun p => { p with heldOverlay := [], logsDue := false }) := congrArg Host.Outcome.next (if_neg (by simp [h]))
  refine ⟨_, hexec, ?_⟩
  split
  · exact ⟨hlock, rfl, rfl, rfl, rfl⟩
  · exact ⟨hlock, rfl, rfl, rfl, rfl⟩

/-! ## Calibration -/

theorem aimGuard_keeps (u : State) (kind item : Nat) : (aimGuard u kind item).pwr.cal = u.pwr.cal ∧ (aimGuard u kind item).pwr.prov = u.pwr.prov := by
  unfold aimGuard
  dsimp only
  split
  · split
    · exact ⟨rfl, rfl⟩
    · exact ⟨rfl, rfl⟩
  · exact ⟨rfl, rfl⟩

theorem calibrationReplace_shows {kind item : Nat} (value : Nat) (h : s.pwr.prov.contains (kind, item) = true) :
    After (exec (.calibrationReplace kind item value) s) fun t =>
      t.pwr.cal = ⟨kind, item, itemLoad s kind item, itemTemp s kind item, value, false⟩ :: s.pwr.cal ∧ t.pwr.prov.contains (kind, item) = false := by
  refine ⟨_, congrArg Host.Outcome.next (if_neg (not_not_intro h)), ?_⟩
  obtain ⟨hcal, hprov⟩ := aimGuard_keeps (modPwr s fun p => { p with
    cal := ⟨kind, item, itemLoad s kind item, itemTemp s kind item, value, false⟩ :: p.cal
    prov := p.prov.filter (· ≠ (kind, item)), logsDue := p.logsDue || sagLocked s }) kind item
  refine ⟨hcal, ?_⟩
  change (aimGuard _ kind item).pwr.prov.contains (kind, item) = false
  rw [hprov]
  simp [modPwr]

/-! ## The statement -/

/-- Settles O41: each command of its own state writes it there; a short is the loss of its field, and failed isolation the loss of all power. -/
theorem domainsAndRails : Obligations.DomainsAndRails := by
  unfold Obligations.DomainsAndRails
  refine fun s => ⟨fun n hraise hramps hclock => ?_, fun f hf => ⟨fun hbit => ⟨hibernates hf hbit, fun hmay => ?_⟩, fun hbit => ⟨wakes hf hbit, fun hmay => ?_⟩⟩,
    fun f r => forces, fun f hf hlost => ?_, fun q hq => ?_, spireFault_shows, sagLock_shows, sagRelease_shows, ⟨_, rfl, rfl, rfl, rfl, rfl⟩,
    fun kind item value => calibrationReplace_shows value⟩
  · have hexec : exec .stepRaiseSettle s = .next (modPwr { s with clk := { s.clk with nextStep := some n } } fun p => { p with raise := none }) := by
      refine congrArg Host.Outcome.next ?_
      rw [hraise]
      exact if_pos ⟨hramps, by simp [hclock]⟩
    exact ⟨_, hexec, rfl, rfl⟩
  · exact congrArg Host.Outcome.next ((if_neg (by simp [hbit]; omega)).trans (if_neg (by simp [hmay])))
  · exact congrArg Host.Outcome.next ((if_neg (by simp [hbit]; omega)).trans (if_neg (by simp [hmay])))
  · obtain ⟨hon, hramps, hlanterns, hcores⟩ := FieldLoss.fieldLoss_takes hf hlost
    exact ⟨_, rfl, hon, hramps, hlanterns, fun c _ hfield => hcores c (hfield ▸ FieldLoss.mem_fieldCores c)⟩
  · obtain ⟨hpwr, hcores, hstrm, hclk, hflash, -⟩ := engFault_leaves s
    have hexec : exec (.isolationFail q) s = .next (engFault s) := congrArg Host.Outcome.next (if_pos hq)
    refine ⟨_, hexec, engFault_shows s, ?_, ?_, hcores, hstrm, ?_, hflash⟩
    · rw [hpwr]
      rfl
    · rw [hpwr]
      rfl
    · rw [hclk]

end Sys2Proof.Proofs.DomainsAndRails

/-! PROOFS. What the loss of a stack and of a rim domain's ports leaves: the power domains, and the links of ports (R53, R376, R400). -/

namespace Sys2Proof.Proofs.Frames

open Sys2Proof Sys2Proof.Machine Sys2Proof.Claims Sys2Proof.Proofs.BelfryComplete Sys2Proof.Proofs.PagerRules

/-- The allowance of all but the power domains and the links of ports. -/
def aside : Allow := ⟨fun p => decide (p ≠ .pwr), fun f => decide (Clear f F.NET_PORT_UP)⟩

theorem aside_raises : Raises aside := ⟨by decide, by decide⟩

section

variable {a : Allow} {s t : State}

/-- What the pager does of its own. -/
theorem Within.pager (h : Within a s t) (hs : a.part .strm = true) (hc : a.part .cores = true) {u : State} (k : PagerOnly t u) : Within a s u := by
  rw [k.rest]
  exact (h.strm hs u.strm).cores hc u.cores

end

section

variable {s t : State} (h : Within aside s t)
include h

/-! ## Pages -/

theorem Within.rebuild (slot : Nat) : Within aside s (rebuild t slot) := by
  have hreleased : Within aside s (match (streamAt t slot).seat with | some p => releaseFrames t p slot 0 | none => t) := by
    split
    · exact h.pager rfl rfl (pagerOnly_releaseFrames ..)
    · exact h
  have hseated {u : State} (hu : Within aside s u) : Within aside s (match (streamAt t slot).seat with | some p => seatTail u slot p | none => u) := by
    split
    · exact hu.pager rfl rfl (pagerOnly_seatTail ..)
    · exact hu
  unfold Machine.rebuild
  exact ((hseated (Within.freePages ((hreleased.strm rfl _).modStream rfl _ _) rfl)).bump rfl).countPages (by decide) _

theorem Within.pageFailed (slot : Nat) : Within aside s (pageFailed t slot) := (h.raiseRegion aside_raises ..).rebuild slot

theorem Within.fetchPage (slot p tries : Nat) : Within aside s (fetchPage t slot p tries) := by
  unfold Machine.fetchPage
  dsimp only
  split
  · exact h.pageFailed slot
  · exact .ite ((h.sendMessage (by decide) ..).setPage rfl _ _) (((h.sendMessage (by decide) ..).setPage rfl _ _).pageFailed slot)

/-! ## Casks -/

theorem Within.noteStore : Within aside s (noteStore t) := h.wrAll (by simp only [List.map]; decide)

theorem Within.putMaster (m : Master) : Within aside s (putMaster t m) := by
  unfold Machine.putMaster
  exact (h.store rfl _).noteStore

theorem Within.endOp (status cause : Nat) : Within aside s (endOp t status cause) := (h.store rfl _).wrAll (by simp only [List.map]; decide)

theorem Within.hallRead_none : Within aside s (hallRead t none) := by
  unfold Machine.hallRead
  split
  · split
    · exact h.endOp ..
    · exact h
  · exact h

theorem Within.settleVerify (k : CaskKey) : Within aside s (settleVerify t k) := by
  unfold Machine.settleVerify
  split
  · exact .ite (.ite (h.endOp ..) (h.endOp ..)) h
  · exact h

theorem Within.loseMaster (m : Master) : Within aside s (loseMaster t m) := ((h.putMaster _).bump rfl).raiseEngine aside_raises ..

theorem Within.dropFetch (k : CaskKey) : Within aside s (dropFetch t k) := h.store rfl _

theorem Within.fetchFailed (k : CaskKey) : Within aside s (fetchFailed t k) := by
  unfold Machine.fetchFailed
  dsimp only
  split
  · exact Within.settleVerify (.ite ((h.dropFetch k).loseMaster _) (h.dropFetch k)) k
  · exact (h.dropFetch k).store rfl _

theorem Within.readSource (k : CaskKey) (x : Option (Nat × Nat)) : Within aside s (readSource t k x).2 := by
  unfold Machine.readSource
  split
  · exact h.sendMessage (by decide) ..
  · exact h.sendMessage (by decide) ..

omit h in
theorem Within.tryFetch (h : Within aside s t) (k : CaskKey) (tenant : Nat) (l : List (Option (Nat × Nat))) : Within aside s (tryFetch k tenant l t) := by
  induction l generalizing t with
  | nil => exact h.fetchFailed k
  | cons x rest ih =>
    have hread := h.readSource k x
    unfold Machine.tryFetch
    dsimp only
    split
    · exact (hread.dropFetch k).store rfl _
    · refine ih ?_
      split
      · exact .ite (hread.putMaster _) hread
      · exact hread

theorem Within.startFetch (k : CaskKey) (tenant : Nat) : Within aside s (startFetch t k tenant) := by
  unfold Machine.startFetch
  split
  · exact h
  · split
    · exact .ite (h.tryFetch ..) h
    · exact h.tryFetch ..

theorem Within.imageRead_none (k : CaskKey) : Within aside s (imageRead t k none) := by
  unfold Machine.imageRead
  split
  · exact h
  · split
    · exact .ite ((h.putMaster _).tryFetch ..) (h.dropFetch k)
    · exact h.tryFetch ..

/-- What a stack held is marked, and asked for again. -/
theorem Within.fetchAgain (l : List Master) : Within aside s
    (l.foldl (fun s m => Machine.startFetch (Machine.putMaster s { m with bad := true, tries := 0 }) (m.plan, m.target, m.version) m.tenant) t) :=
  h.foldl fun _ hu _ => (hu.putMaster _).startFetch ..

/-! ## Ports -/

theorem Within.failMsg (m : GMsg) : Within aside s (failMsg t m) := by
  have hdropped := h.dropMsg rfl m.key
  unfold Machine.failMsg
  dsimp only
  split
  · exact (hdropped.setPage rfl _ _).modFab rfl _
  · exact .ite (hdropped.fetchPage ..) ((hdropped.setPage rfl _ _).pageFailed _)
  · exact hdropped.hallRead_none
  · exact hdropped.imageRead_none _
  · exact hdropped

theorem Within.failExhausted : Within aside s (failExhausted t) :=
  h.foldl fun u hu _ => by
    split
    · exact hu.failMsg _
    · exact hu

theorem Within.resend (key : Nat) (segs : List Nat) : Within aside s (resend t key segs) := by
  unfold Machine.resend
  split
  · exact h
  · exact .ite ((h.modFab rfl _).setMsg rfl _) ((((h.modFab rfl _).setMsg rfl _).bump rfl).pumpMsg rfl _)

theorem Within.portLost (p : Nat) : Within aside s (portLost t p) := by
  have hclosed : Within aside s (closePort (Machine.modFab t fun f => { f with carry := f.carry.filter (· ≠ p) }) p) :=
    ((h.modFab rfl _).modFab rfl _).foldl fun _ hu key => hu.resend ..
  exact hclosed.failExhausted

/-! ## The PCIe controller -/

theorem Within.completeAllOf (n : Nat) : Within aside s (completeAllOf t n) := by
  refine Within.evalAll (h.foldl fun u hu src => ?_) (by decide)
  exact ((hu.wrAll (by simp only [List.map]; decide)).bel rfl _).wr (by decide)

theorem Within.endRun (slot status detail : Nat) : Within aside s (endRun t slot status detail) := by
  unfold Machine.endRun
  dsimp only
  split
  · exact h
  · split
    · exact (h.setStream rfl _ _).complete (by decide) (by decide) ..
    · exact h.setStream rfl _ _

theorem Within.resetQp (qp : Nat) : Within aside s (resetQp t qp) := by
  unfold Machine.resetQp
  dsimp only
  have hfinished (l : List Nat) {u : State} (hu : Within aside s u) : Within aside s (l.foldl (fun s id => Machine.finishCmd s id qp) u) :=
    hu.foldl fun _ hv id => hv.finishCmd (by decide) ..
  have hended (l : List Nat) (f : Stream → Stream) {u : State} (hu : Within aside s u) :
      Within aside s (l.foldl (fun s k => Machine.endRun (Machine.modStream s k f) k stOk 5) u) :=
    hu.foldl fun _ hv k => (hv.modStream rfl ..).endRun ..
  exact (hended _ _ (((hfinished _ ((h.setQp rfl _ _).strm rfl _)).wr rfl).wr rfl)).wrAll (by simp only [List.map]; decide)

theorem Within.portDown (port : Nat) : Within aside s (portDown t port) := by
  have hqueues (l : List Nat) : Within aside s (l.foldl (fun s n => Machine.wr (Machine.resetQp s n) F.STRM_QP_CFG_EN n 0) t) :=
    h.foldl fun _ hu n => (hu.resetQp n).wr rfl
  exact ((((hqueues _).pcie rfl _).completeAllOf _).raiseSource (by decide) _).pcie rfl _

end

end Sys2Proof.Proofs.Frames

/-! PROOFS. The loss of a stack and of a rim domain (R53, R376): the masters that become BAD, and what the power domains and the ports show. -/

namespace Sys2Proof.Proofs.RimLoss

open Sys2Proof Sys2Proof.Machine Sys2Proof.Claims Sys2Proof.Laws Sys2Proof.Proofs.BelfryComplete Sys2Proof.Proofs.Frames Sys2Proof.Proofs.PagerRules
  Sys2Proof.Proofs.Raising Sys2Proof.Proofs.ReadRules

variable {s t : State}

/-! ## Masters -/

/-- A master of t is one of s, or is BAD. -/
structure Worse (s t : State) : Prop where
  masters : ∀ m ∈ t.store.masters, m ∈ s.store.masters ∨ m.bad = true

theorem Worse.refl (s : State) : Worse s s := ⟨fun _ => .inl⟩

section

variable (h : Worse s t)
include h

theorem Worse.trans {u : State} (k : Worse t u) : Worse s u := ⟨fun m hm => (k.masters m hm).elim (h.masters m) .inr⟩

theorem Worse.same {u : State} (k : u.store.masters = t.store.masters) : Worse s u := ⟨fun m hm => h.masters m (k ▸ hm)⟩

theorem Worse.ite {p : Prop} [Decidable p] {u : State} (k : Worse s u) : Worse s (if p then t else u) := by
  split
  · exact h
  · exact k

/-- A master that is BAD takes its place again. -/
theorem Worse.putMaster {m : Master} (hm : m.bad = true) : Worse s (putMaster t m) := by
  refine h.trans ⟨fun x hx => ?_⟩
  have hin : x ∈ t.store.masters.filter (fun x => !(x.plan = m.plan && x.target = m.target && x.version = m.version)) ++ [m] := hx
  rcases List.mem_append.mp hin with hin | hin
  · exact .inl (List.mem_filter.mp hin).1
  · exact .inr (List.mem_singleton.mp hin ▸ hm)

theorem Worse.endOp (status cause : Nat) : Worse s (endOp t status cause) := by
  unfold Machine.endOp
  exact h.same (by rw [wrAll_store])

theorem Worse.settleVerify (k : CaskKey) : Worse s (settleVerify t k) := by
  unfold Machine.settleVerify
  split
  · exact Worse.ite (Worse.ite (h.endOp ..) (h.endOp ..)) h
  · exact h

theorem Worse.loseMaster (m : Master) : Worse s (loseMaster t m) := by
  unfold Machine.loseMaster Machine.raiseEngine
  exact (h.putMaster (m := { m with bad := true }) rfl).same (by rw [raiseEv_store, Machine.bump, wr_store])

theorem Worse.fetchFailed (k : CaskKey) : Worse s (fetchFailed t k) := by
  have hdropped : Worse s (dropFetch t k) := h.same rfl
  unfold Machine.fetchFailed
  dsimp only
  split
  · exact Worse.settleVerify (Worse.ite (hdropped.loseMaster _) hdropped) k
  · exact hdropped.same rfl

/-- Sending a READ changes no master. -/
theorem Worse.readSource (k : CaskKey) (x : Option (Nat × Nat)) : Worse s (readSource t k x).2 := by
  have hstore : (Machine.readSource t k x).2.store = t.store := by
    unfold Machine.readSource
    split
    · exact ((Within.refl ⟨fun p => decide (p ≠ .store), fun _ => true⟩ t).sendMessage (by decide) ..).parts .store rfl
    · exact ((Within.refl ⟨fun p => decide (p ≠ .store), fun _ => true⟩ t).sendMessage (by decide) ..).parts .store rfl
  exact h.same (congrArg StoreSt.masters hstore)

omit h in
theorem Worse.tryFetch (h : Worse s t) (k : CaskKey) (tenant : Nat) (l : List (Option (Nat × Nat))) : Worse s (tryFetch k tenant l t) := by
  induction l generalizing t with
  | nil => exact h.fetchFailed k
  | cons x rest ih =>
    have hread := h.readSource k x
    unfold Machine.tryFetch
    dsimp only
    split
    · exact hread.same rfl
    · refine ih ?_
      split
      · split
        · exact hread.putMaster ‹_›
        · exact hread
      · exact hread

theorem Worse.startFetch (k : CaskKey) (tenant : Nat) : Worse s (startFetch t k tenant) := by
  unfold Machine.startFetch
  split
  · exact h
  · split
    · exact Worse.ite (h.tryFetch ..) h
    · exact h.tryFetch ..

end

/-- The stack that holds a master. -/
def stackOf (m : Master) : Nat := Config.masterStack m.plan m.target m.version % 48

/-- A master becomes BAD and is asked for again. -/
def fetchAgain (s : State) (m : Master) : State :=
  startFetch (putMaster s { m with bad := true, tries := 0 }) (m.plan, m.target, m.version) m.tenant

/-- Each master of a stack is BAD once it has been asked for again. -/
theorem fetchAll_bad {st : Nat} (l : List Master) (h : ∀ m ∈ s.store.masters, stackOf m = st → m.bad = true ∨ m ∈ l) :
    ∀ m ∈ (l.foldl fetchAgain s).store.masters, stackOf m = st → m.bad = true := by
  induction l generalizing s with
  | nil => exact fun m hm hst => (h m hm hst).resolve_right (by simp)
  | cons x l ih =>
    refine ih fun m hm hst => ?_
    rcases ((Worse.refl _).startFetch ..).masters m hm with hm | hbad
    · have hin : m ∈ s.store.masters.filter (fun y => !(y.plan = x.plan && y.target = x.target && y.version = x.version)) ++ [{ x with bad := true, tries := 0 }] := hm
      rcases List.mem_append.mp hin with hin | hin
      · obtain ⟨hold, hkey⟩ := List.mem_filter.mp hin
        rcases h m hold hst with hbad | hl
        · exact .inl hbad
        · rcases List.mem_cons.mp hl with rfl | hl
          · simp at hkey
          · exact .inr hl
      · exact .inl (by rw [List.mem_singleton.mp hin])
    · exact .inl hbad

/-! ## A stack -/

/-- The stack is noted as lost, and its masters are asked for again. -/
def stackNoted (s : State) (st : Nat) : State :=
  let u := modPwr s fun p => { p with lostStacks := st :: p.lostStacks }
  (u.store.masters.filter fun m => Config.masterStack m.plan m.target m.version % 48 = st).foldl fetchAgain u

/-- Without a twin's journal, the streams whose log the stack held are lost, and those with a page in it are rebuilt. -/
def streamsGone (s : State) (st : Nat) : State :=
  let lost := (s.strm.slots.filter fun e => e.2.state ≠ .closed && !e.2.lost && Config.logStack (handleOf e.1 e.2.gen) % 48 = st).map (·.1)
  let s := lost.foldl loseStream s
  let hit := (s.strm.slots.filter fun e =>
    e.2.state ≠ .closed && !e.2.lost && e.2.pages.any fun p => !(pageOf s p).hall && Config.pageStack p % 48 = st).map (·.1)
  hit.foldl rebuild s

theorem stackGone_eq (s : State) (st : Nat) : stackGone s st = if journaled (stackNoted s st) then stackNoted s st else streamsGone (stackNoted s st) st := rfl

theorem streamsGone_within (s : State) (st : Nat) : Within aside s (streamsGone s st) := by
  have hlost (l : List Nat) := Within.foldl (f := loseStream) (l := l) (Within.refl aside s) fun _ hu k => hu.loseStream rfl aside_raises k
  exact (hlost _).foldl fun _ hu k => hu.rebuild k

theorem stackGone_pwr (s : State) (st : Nat) : (stackGone s st).pwr = { s.pwr with lostStacks := st :: s.pwr.lostStacks } := by
  have hnoted : (stackNoted s st).pwr = { s.pwr with lostStacks := st :: s.pwr.lostStacks } := ((Within.refl aside _).fetchAgain _).parts .pwr rfl
  rw [stackGone_eq]
  split
  · exact hnoted
  · exact Eq.trans ((streamsGone_within _ st).parts .pwr rfl) hnoted

/-- The allowance of all but the store. -/
def notStore : Allow := ⟨fun p => decide (p ≠ .store), fun _ => true⟩

theorem rebuild_store (u : State) (k : Nat) : (rebuild u k).store = u.store := by
  have hreleased : (match (streamAt u k).seat with | some p => releaseFrames u p k 0 | none => u).store = u.store := by
    split
    · rw [(pagerOnly_releaseFrames ..).rest]
    · rfl
  have hseated (v : State) : (match (streamAt u k).seat with | some p => seatTail v k p | none => v).store = v.store := by
    split
    · rw [(pagerOnly_seatTail ..).rest]
    · rfl
  unfold rebuild
  dsimp only
  refine Eq.trans (((Within.refl notStore _).countPages (by decide) _).parts .store rfl) (Eq.trans (hseated _) ?_)
  exact hreleased

theorem streamsGone_store (s : State) (st : Nat) : (streamsGone s st).store = s.store := by
  have hlost (l : List Nat) : (l.foldl loseStream s).store = s.store :=
    (Within.foldl (f := loseStream) (l := l) (Within.refl notStore s) fun _ hu k => hu.loseStream rfl ⟨by decide, by decide⟩ k).parts .store rfl
  have hrebuilt (l : List Nat) (u : State) : (l.foldl rebuild u).store = u.store := by
    induction l generalizing u with
    | nil => rfl
    | cons k l ih => exact (ih _).trans (rebuild_store u k)
  exact (hrebuilt _ _).trans (hlost _)

theorem stackGone_bad (s : State) (st : Nat) : ∀ m ∈ (stackGone s st).store.masters, stackOf m = st → m.bad = true := by
  have hnoted : ∀ m ∈ (stackNoted s st).store.masters, stackOf m = st → m.bad = true :=
    fetchAll_bad _ fun m hm hst => .inr (List.mem_filter.mpr ⟨hm, decide_eq_true hst⟩)
  rw [stackGone_eq]
  split
  · exact hnoted
  · rw [streamsGone_store]
    exact hnoted

/-- Where the stack holds no master and the twin's journal has all else, nothing but its mark changes. -/
theorem stackGone_journaled {st : Nat} (hj : journaled s = true) (hnone : ∀ m ∈ s.store.masters, stackOf m ≠ st) :
    stackGone s st = modPwr s fun p => { p with lostStacks := st :: p.lostStacks } := by
  have hnoted : stackNoted s st = modPwr s fun p => { p with lostStacks := st :: p.lostStacks } := by
    have hmasters : s.store.masters.filter (fun m => Config.masterStack m.plan m.target m.version % 48 = st) = [] :=
      List.filter_eq_nil_iff.mpr fun m hm h => hnone m hm (of_decide_eq_true h)
    exact congrArg (List.foldl fetchAgain _) hmasters
  rw [stackGone_eq, hnoted]
  exact if_pos hj

/-! ## The stacks of a rim domain -/

theorem stacksGone_pwr (l : List Nat) (s : State) : (l.foldl stackGone s).pwr = { s.pwr with lostStacks := l.reverse ++ s.pwr.lostStacks } := by
  induction l generalizing s with
  | nil => rfl
  | cons st l ih =>
    have hlast := ih (stackGone s st)
    rw [stackGone_pwr] at hlast
    rw [List.foldl_cons, hlast]
    simp

/-! ## The ports of a rim domain -/

/-- A port's link is down, and its paths close. -/
def portGone (s : State) (p : Nat) : State := portLost (if rdB s F.NET_PORT_UP p then wr s F.NET_PORT_UP p 0 else s) p

theorem rdB_congr {f : Field} {i : Nat} (h : rd t f i = rd s f i) : rdB t f i = rdB s f i := by
  unfold rdB
  rw [h]

theorem portGone_up (s : State) {p q : Nat} (hp : p < 64) (hq : q < 64) : rdB (portGone s p) F.NET_PORT_UP q = (rdB s F.NET_PORT_UP q && decide (q ≠ p)) := by
  have hkept (u : State) : rdB (portLost u p) F.NET_PORT_UP q = rdB u F.NET_PORT_UP q :=
    rdB_congr (((Within.refl aside u).portLost p).rd_eq (fun _ hf => of_decide_eq_true hf) q)
  unfold portGone
  rw [hkept]
  by_cases heq : q = p
  · subst heq
    cases hup : rdB s F.NET_PORT_UP q
    · simpa using hup
    · have hdown : rd (wr s F.NET_PORT_UP q 0) F.NET_PORT_UP q = 0 := rd_wr_same s _ q 0 (by decide)
      rw [if_pos rfl]
      simp [rdB, hdown]
  · have hother : rd (wr s F.NET_PORT_UP p 0) F.NET_PORT_UP q = rd s F.NET_PORT_UP q := rd_wr_other _ _ _ _ _ _ (fkey_ne_of_ne (by decide) hp hq heq)
    split
    · rw [rdB_congr hother]
      simp [heq]
    · simp [heq]

theorem portsGone_up (l : List Nat) (hl : ∀ p ∈ l, p < 64) (s : State) {q : Nat} (hq : q < 64) (h : q ∈ l ∨ rdB s F.NET_PORT_UP q = false) :
    rdB (l.foldl portGone s) F.NET_PORT_UP q = false := by
  induction l generalizing s with
  | nil => exact h.resolve_left (by simp)
  | cons p l ih =>
    refine ih (fun x hx => hl x (List.mem_cons_of_mem _ hx)) _ ?_
    have hgone := portGone_up s (hl p List.mem_cons_self) hq
    rcases h with h | h
    · rcases List.mem_cons.mp h with rfl | h
      · exact .inr (by simp [hgone])
      · exact .inl h
    · exact .inr (by simp [hgone, h])

theorem portsGone_pwr (l : List Nat) (s : State) : (l.foldl portGone s).pwr = s.pwr := by
  induction l generalizing s with
  | nil => rfl
  | cons p l ih =>
    have hstep (u : State) : (portLost u p).pwr = u.pwr := ((Within.refl aside u).portLost p).parts .pwr rfl
    refine (ih _).trans ((hstep _).trans ?_)
    split
    · rfl
    · rfl

/-! ## A rim domain -/

variable (s : State) (seg : Nat)

/-- The domain's state once it is noted as lost. -/
def lostRim (p : PowerSt) : PowerSt :=
  { p with
    lostRims := seg :: p.lostRims
    lostSamplers := (List.range 16).map (16 * seg + ·) ++ p.lostSamplers
    lostPagers := (List.range 6).map (6 * seg + ·) ++ p.lostPagers
    rims := p.rims.filter (· ≠ seg) }

/-- The loss is reported and noted, and the engine hands over. -/
def rimNoted : State := handover (modPwr (raiseSource (raiseEngine s .alarm evRimLost (48 + seg) 0) (80 + seg)) (lostRim seg))

/-- The domain's stacks and ports are gone. -/
def rimGone (s : State) : State :=
  let hbm := ((List.range 12).map (12 * seg + ·)).filter fun st => !s.pwr.lostStacks.contains st
  ((List.range 16).map (16 * seg + ·)).foldl portGone (hbm.foldl stackGone s)

/-- The registers say so, and the north domain takes the PCIe controller along. -/
def rimEnd (s : State) : State :=
  let s := noteTwinPorts s
  if seg = 0 then ([0, 1].filter (portExists s)).foldl portDown s else s

theorem exec_rimLost {s : State} {seg : Nat} (hseg : seg < 4) (hnew : seg ∉ s.pwr.lostRims) :
    exec (.rimLost seg) s = .next (rimEnd seg (rimGone seg (rimNoted s seg))) := by
  have hgo : ¬ (4 ≤ seg ∨ s.pwr.lostRims.contains seg = true) := by simpa using ⟨hseg, hnew⟩
  refine congrArg Host.Outcome.next ((if_neg hgo).trans ?_)
  unfold rimEnd rimGone rimNoted lostRim
  rfl

theorem rimEnd_within : Within aside s (rimEnd seg s) := by
  have htwin : Within aside s (noteTwinPorts s) := (Within.refl aside s).wr (by decide)
  exact .ite (htwin.foldl fun _ hu p => hu.portDown p) htwin

/-- The allowance of all but the power domains. -/
def notPower : Allow := ⟨fun p => decide (p ≠ .pwr), fun _ => true⟩

theorem rimNoted_pwr : (rimNoted s seg).pwr = lostRim seg s.pwr := by
  have hraised : (raiseSource (raiseEngine s .alarm evRimLost (48 + seg) 0) (80 + seg)).pwr = s.pwr := by
    rw [raiseSource_pwr, raiseEngine, raiseEv_pwr]
  exact Eq.trans (((Within.refl notPower _).handover (by decide)).parts .pwr rfl) (congrArg (lostRim seg) hraised)

theorem rimGone_pwr : (rimGone seg s).pwr = { s.pwr with
    lostStacks := (((List.range 12).map (12 * seg + ·)).filter fun st => !s.pwr.lostStacks.contains st).reverse ++ s.pwr.lostStacks } :=
  (portsGone_pwr _ _).trans (stacksGone_pwr _ _)

theorem rimEnd_pwr : (rimEnd seg s).pwr = s.pwr := (rimEnd_within s seg).parts .pwr rfl

theorem rimLost_pwr : (rimEnd seg (rimGone seg (rimNoted s seg))).pwr = { lostRim seg s.pwr with
    lostStacks := (((List.range 12).map (12 * seg + ·)).filter fun st => !s.pwr.lostStacks.contains st).reverse ++ s.pwr.lostStacks } := by
  rw [rimEnd_pwr, rimGone_pwr, rimNoted_pwr]
  rfl

theorem rimLost_up {n : Nat} (hseg : seg < 4) (hn : n < 16) : rdB (rimEnd seg (rimGone seg s)) F.NET_PORT_UP (16 * seg + n) = false := by
  have hread := (rimEnd_within (rimGone seg s) seg).rd_eq (fun _ hf => of_decide_eq_true hf) (16 * seg + n) (g := F.NET_PORT_UP)
  rw [rdB_congr hread]
  refine portsGone_up _ (fun p hp => ?_) _ (by omega) (.inl (List.mem_map_of_mem (List.mem_range.mpr hn)))
  obtain ⟨i, hi, rfl⟩ := List.mem_map.mp hp
  have := List.mem_range.mp hi
  omega

end Sys2Proof.Proofs.RimLoss

/-! PROOFS. What cooling ends: flow stops, hard limits, clamps, leaks and the dew point, lost stacks and rim domains (R53, R376, R452–R456, R535). -/

namespace Sys2Proof.Proofs.CoolingLimits

open Sys2Proof Sys2Proof.Machine Sys2Proof.Claims Sys2Proof.Laws Sys2Proof.Proofs.BelfryComplete Sys2Proof.Proofs.Frames Sys2Proof.Proofs.PowerReports
  Sys2Proof.Proofs.Raising Sys2Proof.Proofs.Rails Sys2Proof.Proofs.ReadRules Sys2Proof.Proofs.RimLoss

variable {s : State}

/-! ## The fields go down -/

/-- The allowance of all but cooling's own state. -/
def notThermal : Allow := ⟨fun p => decide (p ≠ .thm), fun _ => true⟩

theorem regionDown_thm (s : State) (r : Nat) : (regionDown s r).thm = { s.thm with rebind := s.thm.rebind ++ [(r, rd s F.REG_PLAN_PLAN_ID r)] } := by
  have hnoted := Within.refl notThermal (modThm s fun t => { t with rebind := t.rebind ++ [(r, rd s F.REG_PLAN_PLAN_ID r)] })
  have hunseated := hnoted.discardSeats (by decide) r
  have hcores (l : List Nat) (ps : List (Field × Nat)) {u : State} (hu : Within notThermal (modThm s fun t => { t with rebind := t.rebind ++ [(r, rd s F.REG_PLAN_PLAN_ID r)] }) u) :=
    Within.foldl (f := fun s c => wrAll s c ps) (l := l) hu fun _ hv _ => hv.wrAll fun _ _ => rfl
  unfold regionDown
  exact (Within.modUnit (Within.wr (Within.wr (hcores _ _ (.ite hunseated (hunseated.finishPart rfl r stDegraded))) rfl) rfl) rfl r _).parts .thm rfl

theorem regionsDown_thm (l : List Nat) (s : State) : ∃ again, (l.foldl regionDown s).thm = { s.thm with rebind := again } := by
  induction l generalizing s with
  | nil => exact ⟨_, rfl⟩
  | cons r l ih =>
    obtain ⟨again, hlast⟩ := ih (regionDown s r)
    exact ⟨again, hlast.trans (by rw [regionDown_thm])⟩

/-- The handover, and every region down. -/
def unbound (s : State) : State := (boundRegions (handover s)).foldl regionDown (handover s)

theorem fieldsDown_eq (s : State) : fieldsDown s = settleAll (modThm
    (((unbound s).pwr.on ++ (unbound s).pwr.ramps.map (·.1)).eraseDups.foldl startDown (modPwr (unbound s) fun p => { p with wakeNext := [] }))
    fun t => { t with stopped := true }) := rfl

/-- Of cooling's own state, only the flow stop and the plans to bind again change. -/
theorem fieldsDown_thm (s : State) : ∃ again, (fieldsDown s).thm = { s.thm with rebind := again, stopped := true } := by
  obtain ⟨again, hdown⟩ := regionsDown_thm (boundRegions (handover s)) (handover s)
  have hkept : (handover s).thm = s.thm := ((Within.refl notThermal s).handover (by decide)).parts .thm rfl
  have hramps (l : List Nat) : (l.foldl startDown (modPwr (unbound s) fun p => { p with wakeNext := [] })).thm = (unbound s).thm :=
    ((Within.modPwr (Within.refl notThermal (unbound s)) rfl _).foldl fun _ hu f => Within.setRamp hu rfl f _).parts .thm rfl
  refine ⟨again, ?_⟩
  rw [fieldsDown_eq]
  refine Eq.trans (((Within.refl notThermal _).settleAll (by decide)).parts .thm rfl) ?_
  rw [hkept] at hdown
  exact congrArg (fun t : ThermSt => { t with stopped := true }) ((hramps _).trans hdown)

theorem noteStage_thm (s : State) : (noteStage s).thm = s.thm := rfl

theorem noteStage_kept (s : State) : (noteStage s).pwr = s.pwr ∧ (noteStage s).cores = s.cores ∧ (noteStage s).events = s.events := ⟨rfl, rfl, rfl⟩

theorem noteStage_limit (h : s.thm.limit = true) : rd (noteStage s) F.THM_STATUS_STAGE 0 = 4 := by
  have hstage : noteStage s = wr s F.THM_STATUS_STAGE 0 4 := congrArg (wr s F.THM_STATUS_STAGE 0) (if_pos h)
  rw [hstage]
  exact rd_wr_same s _ 0 4 (by decide)

theorem rd_noteStage {g : Field} (i : Nat) (h : Clear F.THM_STATUS_STAGE g) : rd (noteStage s) g i = rd s g i := rd_wr_clear s 0 i _ h

/-! ## The engine is down -/

/-- The fields and rails are off, the limit holds, and ENG_FAULT and STAGE say so. -/
def Down (t : State) : Prop :=
  t.thm.limit = true ∧ t.pwr.rails = false ∧ t.cores = [] ∧ rd t F.PWR_STATUS_ENG_FAULT 0 = 1 ∧ rd t F.THM_STATUS_STAGE 0 = 4

theorem down_noteStage (hlimit : s.thm.limit = true) (hrails : s.pwr.rails = false) (hcores : s.cores = []) (hfault : rd s F.PWR_STATUS_ENG_FAULT 0 = 1) :
    Down (noteStage s) := by
  obtain ⟨hpwr, hcores', -⟩ := noteStage_kept s
  exact ⟨(congrArg ThermSt.limit (noteStage_thm s)).trans hlimit, (congrArg PowerSt.rails hpwr).trans hrails, hcores'.trans hcores,
    (rd_noteStage 0 (by decide)).trans hfault, noteStage_limit hlimit⟩

theorem hardShutdown_down (s : State) (data : Nat) : Down (hardShutdown s data) ∧ (hardShutdown s data).pwr.clamped = s.pwr.clamped := by
  have hraised : (raiseEngine (bump s F.THM_CNT_LIMIT 0 1) .alarm evThermLimit 0 data).pwr = s.pwr := by
    rw [raiseEngine, raiseEv_pwr, bump, wr_pwr]
  have hclamped : (handover (raiseEngine (bump s F.THM_CNT_LIMIT 0 1) .alarm evThermLimit 0 data)).pwr = s.pwr :=
    Eq.trans (((Within.refl notPower _).handover (by decide)).parts .pwr rfl) hraised
  unfold hardShutdown
  dsimp only
  generalize handover (raiseEngine (bump s F.THM_CNT_LIMIT 0 1) .alarm evThermLimit 0 data) = u at hclamped
  obtain ⟨hpwr, hcores, -, -, -, hthm⟩ := engFault_leaves (modThm u fun t => { t with limit := true })
  refine ⟨down_noteStage ?_ ?_ hcores (engFault_shows _), ?_⟩
  · rw [hthm]
    rfl
  · rw [hpwr]
    rfl
  · rw [(noteStage_kept _).1, hpwr, ← hclamped]
    rfl

theorem tj110_down (s : State) : Down (noteStage (raiseSource (engFault (modThm s fun t => { t with limit := true })) 20)) := by
  obtain ⟨hpwr, hcores, -, -, -, hthm⟩ := engFault_leaves (modThm s fun t => { t with limit := true })
  refine down_noteStage ?_ ?_ ?_ ((rd_raiseSource _ 0 (by decide) 20).trans (engFault_shows _))
  · rw [raiseSource_thm, hthm]
    rfl
  · rw [raiseSource_pwr, hpwr]
    rfl
  · rw [raiseSource_cores, hcores]

/-! ## The flow -/

theorem flowStop_shows (hstopped : s.thm.stopped = false) (hleak : s.thm.leakHold = false) (hlimit : s.thm.limit = false) :
    After (exec .flowStop s) fun t => t.thm.stopped = true ∧ t.thm.valve = 20000 ∧ t.thm.pump = 1000 := by
  have hgo : ¬ (s.thm.stopped = true ∨ s.thm.leakHold = true ∨ s.thm.limit = true) := by simp [hstopped, hleak, hlimit]
  have hexec : exec .flowStop s = .next (noteStage (modThm (fieldsDown (raiseSource (raiseEngine (bump s F.THM_CNT_FLOW_STOP 0 1) .alarm evFlowStop 0 0) 19))
      fun t => { t with valve := 20000, pump := 1000 })) := congrArg Host.Outcome.next (if_neg hgo)
  obtain ⟨again, hthm⟩ := fieldsDown_thm (raiseSource (raiseEngine (bump s F.THM_CNT_FLOW_STOP 0 1) .alarm evFlowStop 0 0) 19)
  generalize fieldsDown (raiseSource (raiseEngine (bump s F.THM_CNT_FLOW_STOP 0 1) .alarm evFlowStop 0 0) 19) = u at hexec hthm
  refine ⟨_, hexec, ?_, rfl, rfl⟩
  exact congrArg ThermSt.stopped hthm

theorem flowRestored_shows {n : Nat} (hflow : flowNow s = some n) (hstopped : s.thm.stopped = true) (hleak : s.thm.leakHold = false)
    (hlimit : s.thm.limit = false) (hwarn : 100 * rd s F.THM_THR_FLOW_WARN 0 ≤ n) : After (exec .flowRestored s) fun t => t.thm.stopped = false := by
  have hgo : ¬ (¬ s.thm.stopped = true ∨ s.thm.leakHold = true ∨ s.thm.limit = true ∨ n < 100 * rd s F.THM_THR_FLOW_WARN 0) := by
    rintro (h | h | h | h)
    · exact h hstopped
    · simp [hleak] at h
    · simp [hlimit] at h
    · omega
  have hwoken (l : List Nat) : (noteStage (l.foldl wakeField (modThm s fun t => { t with stopped := false }))).thm = { s.thm with stopped := false } :=
    ((Within.refl notThermal (modThm s fun t => { t with stopped := false })).foldl fun _ hu f => hu.wakeField rfl f).parts .thm rfl
  refine ⟨_, congrArg Host.Outcome.next ?_, congrArg ThermSt.stopped (hwoken ((List.range 48).filter fun f => !(rd s F.PWR_HIB_REQ 0).testBit f))⟩
  rw [hflow]
  exact if_neg hgo

/-! ## Leaks and the dew point -/

/-- LEAK_ACT's HANDOVER opens the pump and the valve, and holds; what was wet stays so. -/
theorem leakAction_handover (dew : Bool) (h : rd s F.THM_CTL_LEAK_ACT 0 = 2) : (leakAction dew s).thm.leakHold = true ∧ (leakAction dew s).thm.pump = 0 ∧
    (leakAction dew s).thm.valve = 4000 ∧ (leakAction dew s).thm.wasWet = s.thm.wasWet := by
  obtain ⟨again, hthm⟩ := fieldsDown_thm s
  have hwet : (if s.thm.stopped then s else fieldsDown s).thm.wasWet = s.thm.wasWet := by
    split
    · rfl
    · rw [hthm]
  unfold leakAction
  rw [h]
  exact ⟨rfl, rfl, rfl, hwet⟩

theorem leakAction_shed (dew : Bool) (h : rd s F.THM_CTL_LEAK_ACT 0 = 1) :
    leakAction dew s = modThm s fun t => if dew then { t with dewShed := true } else { t with leakShed := true } := by
  unfold leakAction
  rw [h]
  rfl

theorem leakAction_report (dew : Bool) (h1 : rd s F.THM_CTL_LEAK_ACT 0 ≠ 1) (h2 : rd s F.THM_CTL_LEAK_ACT 0 ≠ 2) : leakAction dew s = s := by
  unfold leakAction
  split
  · exact absurd ‹_› h1
  · exact absurd ‹_› h2
  · rfl

/-- The leak is noted and reported. -/
def leakNoted (s : State) (n : Nat) : State :=
  raiseSource (raiseEngine (modThm s fun t => { t with wasWet := n :: t.wasWet }) .alarm evLeak n 0) 21

theorem leakNoted_thm (s : State) (n : Nat) : (leakNoted s n).thm = { s.thm with wasWet := n :: s.thm.wasWet } := by
  unfold leakNoted
  rw [raiseSource_thm, raiseEngine, raiseEv_thm]
  rfl

theorem leakNoted_act (s : State) (n : Nat) : rd (leakNoted s n) F.THM_CTL_LEAK_ACT 0 = rd s F.THM_CTL_LEAK_ACT 0 :=
  (rd_raiseSource _ 0 (by decide) 21).trans ((rd_raiseEngine _ 0 (by decide) ..).trans (rd_modThm ..))

theorem leakNoted_logged (s : State) (n : Nat) : Logged s (leakNoted s n) .alarm evLeak 0 0 n 0 := by
  unfold Logged leakNoted
  rw [raiseSource_events]
  exact logged_raiseEngine rfl (rd_modThm ..) ..

theorem leak_shows {cable : Nat} (hwet : wet s (8 + cable) = true) (hnew : 8 + cable ∉ s.thm.wasWet) : After (exec (.leak cable) s) fun t =>
    8 + cable ∈ t.thm.wasWet ∧ (rd s F.THM_CTL_LEAK_ACT 0 = 1 → t.thm.leakShed = true) ∧
      (rd s F.THM_CTL_LEAK_ACT 0 = 2 → t.thm.leakHold = true ∧ t.thm.pump = 0 ∧ t.thm.valve = 4000) ∧
      (rd s F.THM_CTL_LEAK_ACT 0 ≠ 2 → Logged s t .alarm evLeak 0 0 (8 + cable) 0) := by
  have hgo : ¬ (¬ wet s (8 + cable) = true ∨ s.thm.wasWet.contains (8 + cable) = true) := by simpa [hwet] using hnew
  have hexec : exec (.leak cable) s = .next (noteStage (leakAction false (leakNoted s (8 + cable)))) := congrArg Host.Outcome.next (if_neg hgo)
  have hthm := leakNoted_thm s (8 + cable)
  have hact := leakNoted_act s (8 + cable)
  have hlogged := leakNoted_logged s (8 + cable)
  generalize leakNoted s (8 + cable) = u at hexec hthm hact hlogged
  refine ⟨_, hexec, ?_⟩
  beta_reduce
  rw [noteStage_thm, ← hact]
  unfold Logged
  rw [(noteStage_kept _).2.2]
  have hin : 8 + cable ∈ u.thm.wasWet := by
    rw [hthm]
    exact List.mem_cons_self
  by_cases h2 : rd u F.THM_CTL_LEAK_ACT 0 = 2
  · obtain ⟨hhold, hpump, hvalve, hkept⟩ := leakAction_handover (s := u) false h2
    exact ⟨by rw [hkept]; exact hin, by omega, fun _ => ⟨hhold, hpump, hvalve⟩, fun h => absurd h2 h⟩
  · by_cases h1 : rd u F.THM_CTL_LEAK_ACT 0 = 1
    · rw [leakAction_shed false h1]
      exact ⟨hin, fun _ => rfl, by omega, fun _ => hlogged⟩
    · rw [leakAction_report false h1 h2]
      exact ⟨hin, fun h => absurd h h1, fun h => absurd h h2, fun _ => hlogged⟩

theorem dewLimit_shows (h : belowDew s 0 = true) : After (exec .dewLimit s) fun t => (rd s F.THM_CTL_LEAK_ACT 0 = 1 → t.thm.dewShed = true) ∧
    (rd s F.THM_CTL_LEAK_ACT 0 = 2 → t.thm.leakHold = true ∧ t.thm.pump = 0 ∧ t.thm.valve = 4000) := by
  have hexec : exec .dewLimit s = .next (noteStage (leakAction true s)) := congrArg Host.Outcome.next (if_pos h)
  refine ⟨_, hexec, fun h1 => ?_, fun h2 => ?_⟩
  · rw [noteStage_thm, leakAction_shed true h1]
    rfl
  · obtain ⟨hhold, hpump, hvalve, -⟩ := leakAction_handover (s := s) true h2
    exact ⟨hhold, hpump, hvalve⟩

theorem dewAlarm_shows (h : belowDew s (rd s F.THM_THR_DEW_MARGIN 0) = true) (hlow : s.thm.dewLow = false) :
    After (exec .dewAlarm s) fun t => t.thm.dewLow = true ∧ Logged s t .alarm evDew 0 0 0 0 := by
  have hexec : exec .dewAlarm s = .next (raiseEngine (modThm s fun t => { t with dewLow := true }) .alarm evDew 0 0) :=
    congrArg Host.Outcome.next (if_pos ⟨h, by simp [hlow]⟩)
  refine ⟨_, hexec, ?_, logged_raiseEngine rfl (rd_modThm ..) ..⟩
  rw [raiseEngine, raiseEv_thm]
  rfl

/-! ## A lost stack -/

/-- The loss of a stack is reported. -/
def stackReported (s : State) (st : Nat) : State := raiseSource (raiseEngine s .alarm evStackLost st 0) (96 + st)

theorem stackReported_kept (s : State) (st : Nat) : (stackReported s st).pwr = s.pwr ∧ (stackReported s st).store = s.store := by
  unfold stackReported raiseEngine
  rw [raiseSource_pwr, raiseEv_pwr, raiseSource_store, raiseEv_store]
  exact ⟨rfl, rfl⟩

theorem stackReported_journaled (s : State) (st : Nat) : journaled (stackReported s st) = journaled s := by
  have htwin : twState (stackReported s st) = twState s := (rd_raiseSource _ 0 (by decide) _).trans (rd_raiseEngine _ 0 (by decide) ..)
  unfold journaled
  rw [htwin]

theorem stackReported_logged (s : State) (st : Nat) : Logged s (stackReported s st) .alarm evStackLost 0 0 st 0 := by
  unfold Logged stackReported
  rw [raiseSource_events]
  exact logged_raiseEngine rfl rfl ..

theorem stackLost_shows {st : Nat} (hst : st < 48) (hnew : st ∉ s.pwr.lostStacks) : After (exec (.stackLost st) s) fun t =>
    t.pwr.lostStacks = st :: s.pwr.lostStacks ∧ (∀ m ∈ t.store.masters, Config.masterStack m.plan m.target m.version % 48 = st → m.bad = true) ∧
      (journaled s = true → (∀ m ∈ s.store.masters, Config.masterStack m.plan m.target m.version % 48 ≠ st) → Logged s t .alarm evStackLost 0 0 st 0) := by
  have hgo : ¬ (48 ≤ st ∨ s.pwr.lostStacks.contains st = true) := by simpa using ⟨hst, hnew⟩
  have hexec : exec (.stackLost st) s = .next (stackGone (stackReported s st) st) := congrArg Host.Outcome.next (if_neg hgo)
  obtain ⟨hpwr, hstore⟩ := stackReported_kept s st
  refine ⟨_, hexec, ?_, stackGone_bad _ st, fun hj hnone => ?_⟩
  · rw [stackGone_pwr, hpwr]
  · rw [stackGone_journaled ((stackReported_journaled s st).trans hj) (hstore ▸ hnone)]
    exact stackReported_logged s st

/-! ## A lost rim domain -/

theorem rimLost_shows {seg : Nat} (hseg : seg < 4) (hnew : seg ∉ s.pwr.lostRims) : After (exec (.rimLost seg) s) fun t =>
    seg ∈ t.pwr.lostRims ∧ seg ∉ t.pwr.rims ∧
      (∀ n, n < 16 → 16 * seg + n ∈ t.pwr.lostSamplers ∧ rdB t F.NET_PORT_UP (16 * seg + n) = false) ∧ (∀ n, n < 6 → 6 * seg + n ∈ t.pwr.lostPagers) ∧
      ∀ st, 12 * seg ≤ st → st < 12 * seg + 12 → st ∈ t.pwr.lostStacks := by
  refine ⟨_, exec_rimLost hseg hnew, ?_⟩
  beta_reduce
  rw [rimLost_pwr]
  refine ⟨List.mem_cons_self, by simp [lostRim], fun n hn => ⟨?_, rimLost_up _ _ hseg hn⟩, fun n hn => ?_, fun st hlow hhigh => ?_⟩
  · exact List.mem_append_left _ (List.mem_map_of_mem (List.mem_range.mpr hn))
  · exact List.mem_append_left _ (List.mem_map_of_mem (List.mem_range.mpr hn))
  · by_cases hold : st ∈ s.pwr.lostStacks
    · exact List.mem_append_right _ hold
    · refine List.mem_append_left _ (List.mem_reverse.mpr (List.mem_filter.mpr ⟨List.mem_map.mpr ⟨st - 12 * seg, List.mem_range.mpr (by omega), by omega⟩, ?_⟩))
      simpa using hold

/-! ## The statement -/

/-- Settles O43: each limit's action follows from what the loss of power, the fields' ramps and the loss of a stack leave of their own state. -/
theorem coolingLimits : Obligations.CoolingLimits := by
  unfold Obligations.CoolingLimits
  refine fun s => ⟨flowStop_shows, fun n => flowRestored_shows, fun hover hlimit => ?_, ⟨_, rfl, tj110_down s⟩, fun hrails => ?_, fun hrails => ?_, rfl,
    ⟨fun cable => leak_shows, dewLimit_shows⟩, dewAlarm_shows, fun st => stackLost_shows, fun seg => rimLost_shows⟩
  · exact ⟨_, congrArg Host.Outcome.next (if_pos ⟨hover, by simp [hlimit]⟩), (hardShutdown_down s 0).1⟩
  · have hexec : exec .clampSenseOpen s = .next (hardShutdown (modPwr s fun p => { p with clamped := false }) 1) := congrArg Host.Outcome.next (if_pos hrails)
    exact ⟨_, hexec, hardShutdown_down (modPwr s fun p => { p with clamped := false }) 1⟩
  · exact congrArg Host.Outcome.next (if_neg (by simpa [modPwr] using hrails))

end Sys2Proof.Proofs.CoolingLimits

/-! PROOFS. Repair of rows, replay, recovery and the overlay of dead tiles (R38, R93, R148, R538, R539). -/

namespace Sys2Proof.Proofs.RepairAndReplay

open Sys2Proof Sys2Proof.Machine Sys2Proof.Claims Sys2Proof.Laws Sys2Proof.Proofs.BelfryComplete Sys2Proof.Proofs.Racks Sys2Proof.Proofs.ReadRules
  Sys2Proof.Proofs.StartPhases

variable {s : State}

/-! ## A failed row -/

theorem landFrame_none (h : s.strm.exports = []) (c a : Nat) : landFrame s c a = s := by
  unfold landFrame
  split
  · rw [h]
    rfl
  · rfl

theorem checkMaster_sound (s : State) (c a : Nat) : checkMaster s c a false = s := by
  unfold checkMaster
  split
  · exact if_neg (by simp)
  · rfl

theorem checkMaster_outside {c a : Nat} (h : inCaskWindow s c a = false) (mismatch : Bool) : checkMaster s c a mismatch = s := by
  unfold checkMaster
  split
  · exact if_neg (by simp [h])
  · rfl

/-- The row leaves core c's list of failed rows and is watched. -/
def watched (s : State) (c a : Nat) : State :=
  modCore s c fun co => { co with detects := co.detects.filter (· ≠ a), repaired := a :: co.repaired.filter (· ≠ a) }

theorem closeRepair_cores (s : State) (r c : Nat) : (closeRepair s r c).cores = s.cores := by
  unfold closeRepair
  split
  · rfl
  · rfl

theorem rowDone_cores (s : State) (c a : Nat) : (rowDone s c a).cores = (watched s c a).cores := by
  have hclosed (u : State) (r : Nat) : (if regionState (closeRepair u r c) r = rsBinding ∧ (unitOf (closeRepair u r c) r).heldWin = [] then
      setRegionState (closeRepair u r c) r rsBound else closeRepair u r c).cores = u.cores := by
    split
    · exact closeRepair_cores u r c
    · exact closeRepair_cores u r c
  change (if (coreOf (watched s c a) c).detects ≠ [] then watched s c a else _).cores = _
  split
  · rfl
  · exact hclosed (watched s c a) _

theorem coreOf_rowDone (s : State) (c a : Nat) : coreOf (rowDone s c a) c =
    { coreOf s c with detects := (coreOf s c).detects.filter (· ≠ a), repaired := a :: (coreOf s c).repaired.filter (· ≠ a) } := by
  have hcores : coreOf (rowDone s c a) c = coreOf (watched s c a) c := by
    unfold coreOf
    rw [rowDone_cores]
  rw [hcores]
  exact coreOf_modCore ..

/-- The rows of core c are these, and row a is off its list and watched. -/
def Done (s : State) (c a : Nat) (rows : Table Row) (t : State) : Prop :=
  (coreOf t c).rows = rows ∧ (coreOf t c).detects = (coreOf s c).detects.filter (· ≠ a) ∧ a ∈ (coreOf t c).repaired

theorem rowDone_done (s : State) (c a : Nat) : Done s c a (coreOf s c).rows (rowDone s c a) := by
  unfold Done
  rw [coreOf_rowDone]
  exact ⟨rfl, rfl, List.mem_cons_self⟩

theorem rowDone_restored (s : State) (c a : Nat) (d : RowData) : Done s c a (storeRow (coreOf s c).rows a ⟨d, rowCode d a, true, true⟩)
    (rowDone (modCore s c fun co => putRow co a d) c a) := by
  unfold Done
  rw [coreOf_rowDone, coreOf_modCore]
  exact ⟨rfl, rfl, List.mem_cons_self⟩

/-- What the repair of a row does by where its content comes from. -/
def repair (s : State) (c row : Nat) : State :=
  match rowSource s c row with
  | .data d => rowDone (modCore s c fun co => putRow co row d) c row
  | .none => rowDone s c row
  | .bad m =>
    let u := startFetch s (m.plan, m.target, m.version) m.tenant
    if (fetchOf u (m.plan, m.target, m.version)).isSome then u else toFaulted u (regionOfCore s c)
  | .lost => toRecovery s (regionOfCore s c)

theorem exec_rowRepair {c row : Nat} {mismatch : Bool} (hc : c < nCores) (hrow : row ∈ (coreOf s c).detects)
    (hawait : (unitOf s (regionOfCore s c)).await = .replay) (hexports : s.strm.exports = []) (hcheck : checkMaster s c row mismatch = s) :
    exec (.rowRepair c row mismatch) s = .next (repair s c row) := by
  have hgo : ¬ ((coreOf s c).detects.contains row = false ∨ (unitOf s (regionOfCore s c)).await ≠ .replay) := by simp [hrow, hawait]
  have hland : landFrame (checkMaster s c row mismatch) c row = s := by rw [hcheck, landFrame_none hexports]
  refine (if_pos hc).trans (congrArg Host.Outcome.next ((if_neg hgo).trans ?_))
  rw [hland]
  rfl

/-- The generation that a replay restores marks the row. -/
def marked (s : State) (c row : Nat) : Bool :=
  if (coreOf s c).newer.valid && (coreOf s c).newer.tick = replayTick s (regionOfCore s c) then (rowAt (coreOf s c) row).mark1 else (rowAt (coreOf s c) row).mark0

theorem rowSource_master {c row i : Nat} {m : Master} (hin : inCaskWindow s c row = true) (hmaster : rowMaster s c row = some (m, i)) (hgood : m.bad = false) :
    rowSource s c row = .data (caskPayload m.image i) := by
  refine (if_pos hin).trans ?_
  rw [hmaster]
  exact if_neg (by simp [hgood])

theorem rowSource_outside {c row : Nat} (hin : inCaskWindow s c row = false) : rowSource s c row =
    if marked s c row then .none else match frameCopy s c row with
      | some d => .data d
      | none => .lost := by
  unfold rowSource
  rw [if_neg (by simp [hin])]
  rfl

/-! ## Replay and recovery -/

theorem toRecovery_alone {r : Nat} (hgroup : fateGroup s r = [r]) (hawait : (unitOf s r).await = .replay) :
    (unitOf (toRecovery s r) r).await = .recovery ∧ regionState (toRecovery s r) r = rsBinding := by
  have hone : toRecovery s r = modUnit (setRegionState (closeRepairs s r) r rsBinding) r fun u => { u with await := .recovery } := by
    unfold toRecovery
    rw [hgroup]
    exact if_pos hawait
  rw [hone, unitOf_modUnit_same]
  refine ⟨rfl, ?_⟩
  unfold regionState
  rw [rd_modUnit]
  exact rd_wr_same _ F.REG_UNIT_STATUS_STATE r rsBinding (by decide)

theorem filter_alone {r : Nat} {p : Nat → Bool} (hgroup : fateGroup s r = [r]) (hp : p r = true) : (fateGroup s r).filter p = [r] := by
  rw [hgroup]
  simp [hp]

theorem rd_discardRim (s : State) (r tick : Nat) (f : Field) (i : Nat) : rd (discardRim s r tick) f i = rd s f i := rfl

theorem regionReplay_shows {r : Nat} (hgroup : fateGroup s r = [r]) (hawait : (unitOf s r).await = .replay)
    (hrows : ∀ c ∈ liveCores s r, (coreOf s c).detects = []) : After (exec (.regionReplay r) s) fun t =>
      (unitOf t r).runAt = true ∧ (unitOf t r).await = .none ∧ (unitOf t r).faults = [] ∧ rd t F.REG_UNIT_FAULT_REPLAY r = 1 := by
  have hfilter := filter_alone (p := fun q => decide ((unitOf s q).await = .replay)) hgroup (decide_eq_true hawait)
  have hgo : ¬ ((unitOf s r).await ≠ .replay ∨ ([r].any fun q => (liveCores s q).any fun c => (coreOf s c).detects ≠ []) = true) := by
    simpa [hawait] using hrows
  have hexec : exec (.regionReplay r) s = .next (replayRegion (replayTick s r) s r) := by
    refine congrArg Host.Outcome.next ?_
    dsimp only
    rw [hfilter, if_neg hgo]
    rfl
  refine ⟨_, hexec, ?_⟩
  unfold replayRegion
  dsimp only
  rw [unitOf_modUnit_same]
  refine ⟨rfl, rfl, rfl, ?_⟩
  rw [rd_modUnit, rd_discardRim]
  exact rd_wr_same _ F.REG_UNIT_FAULT_REPLAY r 1 (by decide)

theorem regionRecovery_shows {r : Nat} (hgroup : fateGroup s r = [r]) (hawait : (unitOf s r).await = .recovery) (hstill : regionRuns s r = false)
    (hdead : (unitOf s r).dead = []) (hsources : (missingOf s (boundPlan s r)).any (noSource s) = false) :
    After (exec (.regionRecovery r) s) fun t => (unitOf t r).runAt = true ∧ (unitOf t r).faults = [] ∧ (unitOf t r).outWait = [] := by
  have hfilter := filter_alone (p := fun q => decide ((unitOf s q).await = .recovery)) hgroup (decide_eq_true hawait)
  have hgo : ¬ ((unitOf s r).await ≠ .recovery ∨ ([r].any fun q => regionRuns s q || (unitOf s q).dead ≠ []) = true) := by
    simp [hawait, hstill, hdead]
  have hfound : ¬ ([r].any fun q => (missingOf s (boundPlan s q)).any (noSource s)) = true := by simpa using hsources
  have hexec : exec (.regionRecovery r) s = .next (recoverRegion s r) := by
    refine congrArg Host.Outcome.next ?_
    dsimp only
    rw [hfilter, if_neg hgo, if_neg hfound]
    rfl
  refine ⟨_, hexec, ?_⟩
  unfold recoverRegion
  dsimp only
  rw [unitOf_modUnit_same]
  exact ⟨rfl, rfl, rfl⟩

/-! ## Substitution -/

/-- From s to t the Keep's own state is the same. -/
structure SameKeep (s t : State) : Prop where
  keep : t.keep = s.keep

section

variable {t : State} (h : SameKeep s t)

theorem SameKeep.foldl {α : Type} {f : State → α → State} {l : List α} (h : SameKeep s t) (hf : ∀ u, SameKeep s u → ∀ x, SameKeep s (f u x)) :
    SameKeep s (l.foldl f t) :=
  List.foldlRecOn (motive := SameKeep s) l f h fun _ hu x _ => hf _ hu x

include h

theorem SameKeep.ite {p : Prop} [Decidable p] {u : State} (k : SameKeep s u) : SameKeep s (if p then t else u) := by
  split
  · exact h
  · exact k

theorem SameKeep.regs (x : Table Word) : SameKeep s { t with regs := x } := ⟨h.keep⟩

theorem SameKeep.shadow (x : Table Word) : SameKeep s { t with shadow := x } := ⟨h.keep⟩

theorem SameKeep.store (x : StoreSt) : SameKeep s { t with store := x } := ⟨h.keep⟩

theorem SameKeep.net (x : NetSt) : SameKeep s { t with net := x } := ⟨h.keep⟩

theorem SameKeep.wr (f : Field) (i v : Nat) : SameKeep s (wr t f i v) := ⟨h.keep⟩

theorem SameKeep.wrAll (i : Nat) (l : List (Field × Nat)) : SameKeep s (wrAll t i l) := ⟨(wrAll_keep ..).trans h.keep⟩

theorem SameKeep.setCore (c : Nat) (co : Core) : SameKeep s (setCore t c co) := ⟨h.keep⟩

theorem SameKeep.modCore (c : Nat) (f : Core → Core) : SameKeep s (modCore t c f) := ⟨h.keep⟩

theorem SameKeep.modUnit (r : Nat) (f : Region → Region) : SameKeep s (modUnit t r f) := ⟨h.keep⟩

theorem SameKeep.transitCores (l : List Nat) : SameKeep s (transitCores t l) := SameKeep.foldl h fun _ hu _ => hu.regs _

theorem SameKeep.storeLoad (c : Nat) (l : LoadHdr × NetWord × List NetWord) : SameKeep s (storeLoad c t l) := by
  unfold Machine.storeLoad
  dsimp only
  split
  · exact h.modCore ..
  · exact h.modCore ..
  · exact h.modCore ..
  · split
    · exact h.shadow _
    · exact h
  · exact h

theorem SameKeep.fillWindow (r c : Nat) : SameKeep s (fillWindow t r c) := SameKeep.foldl h fun u hu e => by
  unfold putRun storeRows
  exact hu.modCore ..

theorem SameKeep.showLink (link : Nat) : SameKeep s (showLink t link) := by
  have hrim (lane : Nat) : SameKeep s (showRim t link lane) := by
    unfold showRim
    split
    · split
      · exact h.wr ..
      · exact h
    · exact h
  exact SameKeep.foldl (hrim _) fun _ hu c => hu.wrAll ..

theorem SameKeep.forceLane (i link old x : Nat) : SameKeep s (forceLane t i link old x) := by
  unfold Machine.forceLane
  split
  · exact h
  · split
    · split
      · exact (h.net _).showLink link
      · exact h
    · exact h.net _

theorem SameKeep.setBound (c : Nat) (g : Reg) : SameKeep s (setBound c t g) := by
  refine SameKeep.foldl h fun u hu f => ?_
  split
  · dsimp only
    split
    · exact (hu.wr ..).forceLane ..
    · exact hu.wr ..
  · exact hu

theorem SameKeep.clearDebug (c : Nat) : SameKeep s (clearDebug t c) := h.wrAll ..

theorem SameKeep.commitBlocks (r c : Nat) : SameKeep s (commitBlocks t r c) := by
  have hset (b : Bool) (l : List Reg) {u : State} (hu : SameKeep s u) : SameKeep s (if b then u else l.foldl (Machine.setBound c) u) :=
    SameKeep.ite hu (SameKeep.foldl hu fun _ hv g => hv.setBound c g)
  unfold Machine.commitBlocks
  exact ((((hset _ _ (hset _ _ h)).modUnit r _).transitCores _).shadow _).wrAll ..

theorem SameKeep.commitCore (r c : Nat) : SameKeep s (commitCore t r c) := by
  unfold Machine.commitCore
  exact SameKeep.wr (((((h.commitBlocks r c).clearDebug c).modCore ..).store _).wrAll ..) ..

theorem SameKeep.refillCore (r c : Nat) : SameKeep s (refillCore t r c) := by
  unfold Machine.refillCore
  exact ((SameKeep.foldl h fun _ hu l => hu.storeLoad c l).fillWindow r c).commitCore r c

theorem SameKeep.beginCore (r c : Nat) : SameKeep s (beginCore r t c) := by
  have hbegun := ((h.shadow (t.shadow.filter fun e =>
    !((F.regs_core ++ F.regs_net).any fun g => e.1 = g.base + g.stride * c && g.fields.any (·.cs)))).wrAll c
      [(F.CORE_STATUS_REGION, r), (F.CORE_STATUS_TENANT, regionTenant t r)]).modUnit r fun u => { u with seqs := tdel u.seqs c, ended := u.ended.filter (· ≠ c) }
  unfold Machine.beginCore
  exact SameKeep.ite hbegun ((hbegun.store _).wr ..)

theorem SameKeep.reloadCore (r c : Nat) : SameKeep s (reloadCore t r c) := by
  have hcleared (st : StoreSt) : SameKeep s (Machine.clearDebug (Machine.setCore { t with store := st } c blankCore) c) := ((h.store st).setCore c _).clearDebug c
  unfold Machine.reloadCore
  dsimp only
  split
  · exact (hcleared _).wr ..
  · split
    · exact ((hcleared _).wr ..).modUnit ..
    · split
      · split
        · exact (((((hcleared _).refillCore r c).wrAll ..).modUnit ..).modUnit ..)
        · exact (((hcleared _).wr ..).beginCore r c).modUnit ..
      · exact SameKeep.ite ((hcleared _).wr ..) ((hcleared _).refillCore r c)

theorem SameKeep.mapRow (f r col : Nat) : SameKeep s (mapRow t f r col) := by
  have hshown (l : List Nat) {u : State} (hu : SameKeep s u) : SameKeep s (l.foldl (fun s c => showLanes (Machine.wr s F.CORE_ID_PHYS c (physOf s c)) c) u) :=
    SameKeep.foldl hu fun _ hv c => (hv.wr ..).wrAll ..
  unfold Machine.mapRow
  dsimp only
  split
  · exact hshown _ (h.wr ..)
  · exact SameKeep.ite ((hshown _ (h.wr ..)).reloadCore ..) (((hshown _ (h.wr ..)).reloadCore ..).modUnit ..)

theorem SameKeep.endMoves : SameKeep s (endMoves t) :=
  SameKeep.foldl h fun _ hu _ => SameKeep.ite hu (SameKeep.ite (hu.modUnit ..) (hu.modUnit ..))

end

theorem substitution_shows {f row col : Nat} (hf : f < 48) (hrow : row < 16) (hcol : col < 20) (hlost : fieldLost s f = false)
    (hmap : deadCol s f row = none) (hlock : sagLocked s = false)
    (hstill : ∀ j, j < 19 → regionRuns s (regionOfCore s (coreAt (19 * (f % 8) + j) (16 * (f / 8) + row))) = false) :
    After (exec (.substitution f row col) s) fun t => t.keep.boot.overlay =
      s.keep.boot.overlay ++ [⟨(f, row, col), identitySign (bytesOf 1 f ++ bytesOf 1 row ++ bytesOf 1 col)⟩] := by
  have hgo : ¬ (48 ≤ f ∨ 16 ≤ row ∨ 20 ≤ col ∨ fieldLost s f = true ∨ deadCol s f row = some col) := by
    simp [hlost, hmap]
    omega
  have hrunning : (((((List.range 19).map fun j => coreAt (19 * (f % 8) + j) (16 * (f / 8) + row)).map (regionOfCore s)).filter (regionRuns s))).eraseDups = [] := by
    have hnone : ((((List.range 19).map fun j => coreAt (19 * (f % 8) + j) (16 * (f / 8) + row)).map (regionOfCore s)).filter (regionRuns s)) = [] := by
      refine List.filter_eq_nil_iff.mpr fun r hr => ?_
      obtain ⟨c, hc, rfl⟩ := List.mem_map.mp hr
      obtain ⟨j, hj, rfl⟩ := List.mem_map.mp hc
      simp [hstill j (List.mem_range.mp hj)]
    rw [hnone]
    rfl
  have hexec : exec (.substitution f row col) s = .next (endMoves (mapRow (addOverlay s (f, row, col)) f row col)) := by
    refine congrArg Host.Outcome.next ((if_neg hgo).trans ?_)
    rw [hmap]
    exact if_neg (not_not_intro hrunning)
  have hoverlay : addOverlay s (f, row, col) =
      { s with keep := { s.keep with boot := { s.keep.boot with overlay := s.keep.boot.overlay ++ [signedTile (f, row, col)] } } } := if_neg (by simp [hlock])
  refine ⟨_, hexec, ?_⟩
  beta_reduce
  have hkept : SameKeep (addOverlay s (f, row, col)) (endMoves (mapRow (addOverlay s (f, row, col)) f row col)) := (SameKeep.mapRow ⟨rfl⟩ f row col).endMoves
  rw [hkept.keep, hoverlay]
  rfl

/-! ## The statement -/

/-- Settles O16: a row's source decides its repair; a region alone in its group replays and recovers alone; a substitution leaves the Keep but the overlay. -/
theorem repairReplayRecovery : Obligations.RepairReplayRecovery := by
  unfold Obligations.RepairReplayRecovery
  refine fun s => ⟨fun c row hc hrow hawait hexports => ?_, fun r => regionReplay_shows, fun r => regionRecovery_shows, fun f row col => substitution_shows⟩
  have hexec (bad : Bool) (hcheck : checkMaster s c row bad = s) := exec_rowRepair hc hrow hawait hexports hcheck
  refine ⟨fun m i hin hmaster hgood => ?_, fun d bad hin hmark hcopy => ?_, fun bad hin hmark => ?_, fun bad hin hmark hcopy hgroup => ?_⟩
  · have hrepair : repair s c row = rowDone (modCore s c fun co => putRow co row (caskPayload m.image i)) c row := by
      unfold repair
      rw [rowSource_master hin hmaster hgood]
    exact ⟨_, (hexec false (checkMaster_sound ..)).trans (congrArg _ hrepair), rowDone_restored ..⟩
  · have hrepair : repair s c row = rowDone (modCore s c fun co => putRow co row d) c row := by
      unfold repair
      rw [rowSource_outside hin, hcopy, if_neg (by simpa [marked] using hmark)]
    exact ⟨_, (hexec bad (checkMaster_outside hin bad)).trans (congrArg _ hrepair), rowDone_restored ..⟩
  · have hrepair : repair s c row = rowDone s c row := by
      unfold repair
      rw [rowSource_outside hin, if_pos (by simpa [marked] using hmark)]
    exact ⟨_, (hexec bad (checkMaster_outside hin bad)).trans (congrArg _ hrepair), rowDone_done ..⟩
  · have hrepair : repair s c row = toRecovery s (regionOfCore s c) := by
      unfold repair
      rw [rowSource_outside hin, hcopy, if_neg (by simpa [marked] using hmark)]
    exact ⟨_, (hexec bad (checkMaster_outside hin bad)).trans (congrArg _ hrepair), toRecovery_alone hgroup hawait⟩

end Sys2Proof.Proofs.RepairAndReplay

/-! PROOFS. The commands of a plan region that are accepted (R268–R275, R278). -/

namespace Sys2Proof.Proofs.RegionCommands

open Sys2Proof Sys2Proof.Machine Sys2Proof.Claims Sys2Proof.Laws Sys2Proof.Proofs.BelfryComplete Sys2Proof.Proofs.DebugWindow Sys2Proof.Proofs.Frames
  Sys2Proof.Proofs.PagerRules Sys2Proof.Proofs.Racks Sys2Proof.Proofs.Raising Sys2Proof.Proofs.ReadRules

variable {s : State} {r : Nat} {c : RCmd}

/-! ## A command in progress -/

/-- Region r's unit carries out command c alone. -/
structure Carries (r : Nat) (c : RCmd) (s : State) : Prop where
  cmd : (unitOf s r).cmd = some c
  parts : (unitOf s r).parts = [r]

theorem Carries.congr {t : State} (h : Carries r c s) (hunit : unitOf t r = unitOf s r) : Carries r c t :=
  ⟨(congrArg Region.cmd hunit).trans h.cmd, (congrArg Region.parts hunit).trans h.parts⟩

theorem unitOf_units {t : State} (h : t.units = s.units) (q : Nat) : unitOf t q = unitOf s q := by
  unfold unitOf
  rw [h]

theorem unitOf_modUnit_other (s : State) {q : Nat} (f : Region → Region) (h : r ≠ q) : unitOf (modUnit s q f) r = unitOf s r := tget_tset_other _ _ _ h

/-- A change of a unit's record that leaves its command in progress. -/
theorem Carries.modUnit (h : Carries r c s) (q : Nat) {f : Region → Region} (hf : ∀ u, (f u).cmd = u.cmd ∧ (f u).parts = u.parts) :
    Carries r c (modUnit s q f) := by
  by_cases hq : r = q
  · subst hq
    constructor
    · rw [unitOf_modUnit_same, (hf _).1, h.cmd]
    · rw [unitOf_modUnit_same, (hf _).2, h.parts]
  · exact h.congr (unitOf_modUnit_other s f hq)

theorem Carries.setPhase (h : Carries r c s) (q : Nat) (p : RPhase) : Carries r c (setPhase s q p) := h.modUnit q fun _ => ⟨rfl, rfl⟩

/-- A unit whose part is at work is not settled with the others. -/
theorem unitOf_settleAll (h : Carries r c s) (hwork : (unitOf s r).phase ≠ .none) : unitOf (settleAll s) r = unitOf s r := by
  have hstep (u : State) (q : Nat) (hu : unitOf u r = unitOf s r) : unitOf (settleUnit u q) r = unitOf s r := by
    have hevent (v : State) (cmd st : Nat) : unitOf (cmdEvent (wr v F.REG_UNIT_STATUS_CMD_STATUS q st) q cmd st) r = unitOf v r :=
      unitOf_units (by rw [cmdEvent, raiseRegion, raiseEv_units, wr_units]) r
    unfold settleUnit
    dsimp only
    split
    · exact hu
    · rename_i d hcmd
      split
      · exact hu
      · by_cases hq : r = q
        · subst hq
          rename_i hidle
          refine absurd ?_ hidle
          rw [hu, h.parts]
          simp [hu, hwork]
        · exact (hevent ..).trans ((unitOf_modUnit_other u _ hq).trans hu)
  unfold settleAll
  exact List.foldlRecOn (motive := fun u : State => unitOf u r = unitOf s r) _ settleUnit rfl fun u hu q _ => hstep u q hu

/-! ## A command is accepted -/

/-- What the acceptance of a command reaches. -/
def acceptFoot : Foot := ⟨[.units], [F.REG_UNIT_STATUS_CMD_STATUS, F.REG_UNIT_STATUS_LAST_CMD]⟩

theorem acceptCmd_eq : acceptCmd s r c [r] =
    modUnit (modUnit (wrAll s r [(F.REG_UNIT_STATUS_CMD_STATUS, stAccepted), (F.REG_UNIT_STATUS_LAST_CMD, c.cmd)]) r
      fun u => { u with cmd := some c, parts := [r] }) r fun u => { u with result := stOk } := by
  unfold acceptCmd
  rfl

theorem acceptCmd_within {a : Allow} (ha : acceptFoot.Fits a) : Within a s (acceptCmd s r c [r]) := by
  have hunits : a.part .units = true := ha.part (by decide)
  have htold : Within a s (wrAll s r [(F.REG_UNIT_STATUS_CMD_STATUS, stAccepted), (F.REG_UNIT_STATUS_LAST_CMD, c.cmd)]) :=
    (Within.refl a s).wrAll (by simpa using ⟨ha.field (by decide), ha.field (by decide)⟩)
  rw [acceptCmd_eq]
  exact (htold.modUnit hunits r _).modUnit hunits r _

theorem rd_acceptCmd {g : Field} (i : Nat) (h : acceptFoot.Fits (besides g acceptFoot.parts)) : rd (acceptCmd s r c [r]) g i = rd s g i := (acceptCmd_within h).reads i

theorem acceptCmd_last : rd (acceptCmd s r c [r]) F.REG_UNIT_STATUS_LAST_CMD r = c.cmd % 16 := by
  rw [acceptCmd_eq, rd_modUnit, rd_modUnit]
  exact rd_wrAll_mem s r _ (by simp only [List.map]; decide) (by decide) (by simp)

theorem unitOf_acceptCmd : unitOf (acceptCmd s r c [r]) r = { unitOf s r with cmd := some c, parts := [r], result := stOk } := by
  rw [acceptCmd_eq, unitOf_modUnit_same, unitOf_modUnit_same, unitOf_units (wrAll_units ..)]

theorem acceptCmd_carries : Carries r c (acceptCmd s r c [r]) := by
  constructor
  · rw [unitOf_acceptCmd]
  · rw [unitOf_acceptCmd]

theorem acceptCmd_state : regionState (acceptCmd s r c [r]) r = regionState s r := rd_acceptCmd r (by decide)

theorem acceptCmd_tenant : regionTenant (acceptCmd s r c [r]) r = regionTenant s r := rd_acceptCmd r (by decide)

/-- The checks that a region's command passes. -/
structure Accepts (s : State) (a : Agent) (r cmd : Nat) (states : List Nat) : Prop where
  below : underPlan s r = false
  free : cmdBusy s r = false
  session : mayDrive s a r = true
  descriptor : descKind s r ≠ 0
  plain : isComposite s r = false
  state : regionState s r ∈ states

theorem regionCommand_accepted {a : Agent} {cmd : Nat} {states all : List Nat} (h : Accepts s a r cmd states) (hall : ∀ x ∈ states, x ∈ all)
    (k : State → State) : regionCommand s a r cmd all k = settleAll (k s) := by
  have hunit : unitState s r = regionState s r := if_neg (by simp [h.plain])
  have hstate : ¬ (descKind s r = 0 ∨ all.contains (unitState s r) = false) := by
    rw [hunit]
    rintro (hkind | hstate)
    · exact h.descriptor hkind
    · exact Bool.false_ne_true (hstate.symm.trans (List.contains_iff_mem.mpr (hall _ h.state)))
  unfold regionCommand
  rw [if_neg (by simp [h.below]), if_neg (by simp [h.free]), if_neg (by simp [h.session]), if_neg hstate]

theorem partsOf_plain (h : isComposite s r = false) : partsOf s r = [r] := if_neg (by simp [h])

/-- What a command leaves once every unit has settled: the phase it set, and LAST_CMD. -/
theorem settled_shows {t : State} (h : Carries r c t) (hwork : (unitOf t r).phase ≠ .none) :
    unitOf (settleAll t) r = unitOf t r ∧ rd (settleAll t) F.REG_UNIT_STATUS_LAST_CMD r = rd t F.REG_UNIT_STATUS_LAST_CMD r :=
  ⟨unitOf_settleAll h hwork, ((Within.refl (besides _ settleFoot.parts) t).settleAll (by decide)).reads r⟩

theorem setPhase_settled {t : State} (h : Carries r c t) {p : RPhase} (hp : p ≠ .none) :
    (unitOf (settleAll (setPhase t r p)) r).phase = p ∧
      rd (settleAll (setPhase t r p)) F.REG_UNIT_STATUS_LAST_CMD r = rd t F.REG_UNIT_STATUS_LAST_CMD r := by
  have hphase := unitOf_setPhase t r p
  obtain ⟨hunit, hlast⟩ := settled_shows (h.setPhase r p) (by rw [hphase]; exact hp)
  exact ⟨(congrArg Region.phase hunit).trans hphase, hlast.trans (Racks.rd_setPhase ..)⟩

/-! ## RUN -/

theorem fateRoot_none {t : State} (h : ∀ d, rdB t F.REG_DESC0_FATE d = false) (n q : Nat) : fateRoot t n q none = none := by
  induction n generalizing q with
  | zero => rfl
  | succ n ih =>
    unfold fateRoot
    simp only [h, Bool.false_eq_true, if_false]
    split
    · rfl
    · exact ih _

theorem regionRun_shows {a : Agent} (h : Accepts s a r 2 [rsBound]) (hidle : (unitOf s r).phase = .none) (hfate : ∀ d, rdB s F.REG_DESC0_FATE d = false) :
    After (exec (.regionRun a r) s) fun t => (unitOf t r).phase = .run ∧ rd t F.REG_UNIT_STATUS_LAST_CMD r = 2 := by
  generalize hu : acceptCmd s r ⟨2, 0, 0, false, false⟩ [r] = u
  have hcarries : Carries r ⟨2, 0, 0, false, false⟩ u := hu ▸ acceptCmd_carries
  have hlast : rd u F.REG_UNIT_STATUS_LAST_CMD r = 2 := hu ▸ acceptCmd_last
  have hstate : regionState u r = rsBound := (hu ▸ acceptCmd_state).trans (List.mem_singleton.mp h.state)
  have hphase : (unitOf u r).phase = .none := by
    rw [← hu, unitOf_acceptCmd]
    exact hidle
  have hnofate : ∀ d, rdB u F.REG_DESC0_FATE d = false := fun d => by
    have hread : rd u F.REG_DESC0_FATE d = rd s F.REG_DESC0_FATE d := hu ▸ rd_acceptCmd d (by decide)
    have := hfate d
    unfold rdB at this ⊢
    rw [hread]
    exact this
  have hgroup : fateGroup u r = [r] := by
    unfold fateGroup
    rw [fateRoot_none hnofate]
  have harm : armRun u r = setPhase u r .run := by
    unfold armRun
    rw [hgroup]
    exact if_pos ⟨hstate, .inl hphase⟩
  have hexec : exec (.regionRun a r) s = .next (settleAll (setPhase u r .run)) := by
    refine congrArg Host.Outcome.next ((regionCommand_accepted h (fun _ hx => hx) _).trans (congrArg settleAll ?_))
    rw [partsOf_plain h.plain]
    dsimp only
    rw [hu]
    exact (if_pos hstate).trans harm
  obtain ⟨hrun, hread⟩ := setPhase_settled hcarries (p := .run) (by decide)
  exact ⟨_, hexec, hrun, hread.trans hlast⟩

/-! ## STOP -/

theorem orderStop_carries {u : State} (h : Carries r c u) (q : Nat) : Carries r c (orderStop u q) := by
  unfold orderStop
  refine List.foldlRecOn (motive := Carries r c) _ _ h fun v hv q' _ => ?_
  split
  · have hsent (l : List CtlPacket) : (sendAllCtl (setRegionState v q' rsStopping) l).units = v.units :=
      ((Within.refl ⟨fun p => decide (p ≠ .units), fun _ => true⟩ (setRegionState v q' rsStopping)).sendAllCtl (by decide) l).parts .units rfl
    exact (hv.congr (unitOf_units (hsent _) r)).modUnit q' fun _ => ⟨rfl, rfl⟩
  · exact hv

theorem regionStop_shows {a : Agent} (h : Accepts s a r 3 [rsRunning]) (hawait : (unitOf s r).await = .none) :
    After (exec (.regionStop a r) s) fun t => (unitOf t r).phase = .stop ∧ rd t F.REG_UNIT_STATUS_LAST_CMD r = 3 := by
  generalize hu : acceptCmd s r ⟨3, 0, 0, false, false⟩ [r] = u
  have hcarries : Carries r ⟨3, 0, 0, false, false⟩ u := hu ▸ acceptCmd_carries
  have hlast : rd u F.REG_UNIT_STATUS_LAST_CMD r = 3 := hu ▸ acceptCmd_last
  have hstate : regionState u r = rsRunning := (hu ▸ acceptCmd_state).trans (List.mem_singleton.mp h.state)
  have hnone : ¬ ((partsOf s r).any fun p => (unitOf s p).await = .replay || (unitOf s p).await = .moves) = true := by
    rw [partsOf_plain h.plain]
    simp [hawait]
  have hexec : exec (.regionStop a r) s = .next (settleAll (if (unitOf u r).stopAt = true ∨ (unitOf u r).await = .replay ∨ (unitOf u r).await = .moves then
      setPhase u r .stop else setPhase (orderStop u r) r .stop)) := by
    refine congrArg Host.Outcome.next ((regionCommand_accepted h (fun x hx => ?_) _).trans (congrArg settleAll ?_))
    · rw [if_neg hnone]
      exact hx
    · rw [partsOf_plain h.plain]
      dsimp only
      rw [hu]
      change (if _ then _ else if _ then _ else _) = _
      rw [if_pos (c := regionState u r = rsRunning ∨ regionState u r = rsStopping) (.inl hstate)]
  refine ⟨_, hexec, ?_⟩
  split
  · obtain ⟨hstop, hread⟩ := setPhase_settled hcarries (p := .stop) (by decide)
    exact ⟨hstop, hread.trans hlast⟩
  · obtain ⟨hstop, hread⟩ := setPhase_settled (orderStop_carries hcarries r) (p := .stop) (by decide)
    have hordered : rd (orderStop u r) F.REG_UNIT_STATUS_LAST_CMD r = rd u F.REG_UNIT_STATUS_LAST_CMD r :=
      ((Within.refl (besides _ stopFoot.parts) u).orderStop (by decide) r).reads r
    exact ⟨hstop, hread.trans (hordered.trans hlast)⟩

/-! ## UNBIND -/

theorem unbind_shows {a : Agent} (h : Accepts s a r 4 [rsBound, rsFaulted]) :
    After (exec (.unbind a r) s) fun t => (unitOf t r).phase = .detach ∧ rd t F.REG_UNIT_STATUS_LAST_CMD r = 4 := by
  generalize hu : acceptCmd s r ⟨4, 0, 0, false, false⟩ [r] = u
  have hcarries : Carries r ⟨4, 0, 0, false, false⟩ u := hu ▸ acceptCmd_carries
  have hlast : rd u F.REG_UNIT_STATUS_LAST_CMD r = 4 := hu ▸ acceptCmd_last
  have hstate : regionState u r = rsBound ∨ regionState u r = rsFaulted := by
    rw [← hu, acceptCmd_state]
    simpa using h.state
  have hexec : exec (.unbind a r) s = .next (settleAll (setPhase u r .detach)) := by
    refine congrArg Host.Outcome.next ((regionCommand_accepted h (fun _ hx => hx) _).trans (congrArg settleAll ?_))
    rw [partsOf_plain h.plain]
    dsimp only
    rw [hu]
    exact if_pos hstate
  obtain ⟨hdetach, hread⟩ := setPhase_settled hcarries (p := .detach) (by decide)
  exact ⟨_, hexec, hdetach, hread.trans hlast⟩

/-! ## RELEASE -/

/-- What the wait of a region leaves when it ends: its command in progress. -/
theorem endAwait_carries {u : State} (h : Carries r c u) (q : Nat) : Carries r c (endAwait u q) := by
  have hclosed (v : State) (hv : Carries r c v) (d : Nat) : Carries r c (closeRepair v q d) := by
    unfold closeRepair
    split
    · refine Carries.modUnit ?_ q fun _ => ⟨rfl, rfl⟩
      exact hv.congr rfl
    · exact hv
  have hall : Carries r c (closeRepairs u q) := List.foldlRecOn (motive := Carries r c) _ _ h fun v hv d _ => hclosed v hv d
  unfold endAwait
  refine Carries.modUnit ?_ q fun _ => ⟨rfl, rfl⟩
  exact hall.congr rfl

/-- The allowance of all but the regions' units. -/
def notUnits : Allow := ⟨fun p => decide (p ≠ .units), fun _ => true⟩

theorem pager_units {u v : State} (h : PagerOnly u v) : v.units = u.units := by rw [h.rest]

theorem unseat_units (u : State) (k : Nat) : (unseat u k).units = u.units := by
  have hlanded : (landExports u k).units = u.units := ((Within.refl notUnits u).landExports (by decide) k).parts .units rfl
  have hcounted (v : State) : (countStreams v).units = v.units := ((Within.refl notUnits v).countStreams (by decide)).parts .units rfl
  have htail (v : State) (pos x : Nat) : (exportTail v k pos x).2.units = v.units := pager_units (pagerOnly_exportTail ..)
  have hmod (v : State) (f : Stream → Stream) : (modStream v k f).units = v.units := rfl
  have hreleased (v : State) (pos : Nat) (f : Stream → Stream) : (seatWord (modStream (releaseFrames v pos k 0) k f) 4 pos k).units = v.units :=
    (hmod (releaseFrames v pos k 0) f).trans (pager_units (pagerOnly_releaseFrames ..))
  unfold unseat
  split
  · rfl
  · dsimp only
    rw [hcounted, hreleased]
    split
    · exact (htail ..).trans ((htail ..).trans hlanded)
    · exact (htail ..).trans hlanded

theorem unseatRegion_units (u : State) (q : Nat) : (unseatRegion u q).units = u.units :=
  List.foldlRecOn (motive := fun v : State => v.units = u.units) _ _ rfl fun v hv k _ => (unseat_units v k).trans hv

/-- The unit's record as a release leaves it. -/
def emptied (full : Bool) (u : Region) : Region :=
  { u with inq := [], outq := [], delivered := [], again := [], outWait := [], fullSweep := full, deciding := none }

theorem startRelease_eq (u : State) (r : Nat) : startRelease u r =
    setPhase (wrAll (modUnit (endAwait (unseatRegion u r) r) r (emptied (sweepFull (unseatRegion u r) r))) r
      [(F.REG_UNIT_STATUS_IN_COUNT, 0), (F.REG_UNIT_STATUS_OUT_COUNT, 0), (F.REG_UNIT_FAULT_VALID, 0)]) r .sweepStart := rfl

theorem startRelease_unit (u : State) (r : Nat) : unitOf (startRelease u r) r =
    { emptied (sweepFull (unseatRegion u r) r) (unitOf (endAwait (unseatRegion u r) r) r) with phase := .sweepStart } := by
  rw [startRelease_eq, setPhase, unitOf_modUnit_same, unitOf_units (wrAll_units ..), unitOf_modUnit_same]

theorem startRelease_carries {u : State} (h : Carries r c u) : Carries r c (startRelease u r) := by
  have hawait : Carries r c (endAwait (unseatRegion u r) r) := endAwait_carries (h.congr (unitOf_units (unseatRegion_units u r) r)) r
  constructor
  · rw [startRelease_unit]
    exact hawait.cmd
  · rw [startRelease_unit]
    exact hawait.parts

theorem release_shows {a : Agent} (h : Accepts s a r 5 [rsDefined, rsHeld, rsBound, rsFaulted, rsLost]) : After (exec (.release a r) s) fun t =>
    (unitOf t r).phase = .sweepStart ∧ (unitOf t r).inq = [] ∧ (unitOf t r).outq = [] ∧ (unitOf t r).outWait = [] := by
  generalize hu : acceptCmd s r ⟨5, 0, 0, false, false⟩ [r] = u
  have hcarries : Carries r ⟨5, 0, 0, false, false⟩ u := hu ▸ acceptCmd_carries
  have hstate : [rsDefined, rsHeld, rsBound, rsFaulted, rsLost].contains (regionState u r) = true := by
    rw [← hu, acceptCmd_state]
    exact List.contains_iff_mem.mpr h.state
  have hexec : exec (.release a r) s = .next (settleAll (startRelease u r)) := by
    refine congrArg Host.Outcome.next ((regionCommand_accepted h (fun _ hx => hx) _).trans (congrArg settleAll ?_))
    rw [partsOf_plain h.plain]
    dsimp only
    rw [hu]
    exact if_pos hstate
  have hunit := startRelease_unit u r
  have hsettled := unitOf_settleAll (startRelease_carries hcarries) (by rw [hunit]; exact RPhase.noConfusion)
  refine ⟨_, hexec, ?_⟩
  beta_reduce
  rw [hsettled, hunit]
  exact ⟨rfl, rfl, rfl, rfl⟩

theorem holdExpiry_shows (hheld : regionState s r = rsHeld) (hlimit : rd s F.REG_CTL_HOLD_LIMIT 0 ≠ 0) (hbusy : cmdBusy s r = false)
    (hidle : (unitOf s r).phase = .none) : After (exec (.holdExpiry r) s) fun t =>
      (unitOf t r).phase = .sweepStart ∧ (unitOf t r).inq = [] ∧ (unitOf t r).outq = [] := by
  refine ⟨_, congrArg Host.Outcome.next (if_pos ⟨hheld, hlimit, hbusy, hidle⟩), ?_⟩
  beta_reduce
  rw [startRelease_unit]
  exact ⟨rfl, rfl, rfl⟩

/-! ## BIND and REBIND -/

theorem adoptSet_units {u v : State} {b : List Byte} (h : adoptSet u b = some v) : v.units = u.units := by
  have htransit (w : State) (l : List Nat) : (transitCores w l).units = w.units :=
    List.foldlRecOn (motive := fun x : State => x.units = w.units) l _ rfl fun _ hx _ _ => hx
  unfold adoptSet at h
  dsimp only at h
  split at h
  · split at h
    · exact absurd h (by simp)
    · rw [← Option.some.inj h]
      split
      · exact htransit ..
      · rw [raiseEngine, raiseEv_units]
        exact htransit ..
  · rw [← Option.some.inj h]

/-- The plan is attached, before the load phase begins. -/
def attached (s : State) (r : Nat) (c : RCmd) : State :=
  setRegionState (wrAll (modUnit s r fun u => { u with deciding := none }) r [(F.REG_PLAN_PLAN_ID, c.plan), (F.REG_UNIT_FAULT_VALID, 0),
    (F.REG_DESC0_TENANT, c.tenant), (F.REG_UNIT_STATUS_TENANT, c.tenant), (F.REG_UNIT_STATUS_HEAD, r)]) r rsBinding

theorem attached_units (s : State) (r : Nat) (c : RCmd) : (attached s r c).units = (modUnit s r fun u => { u with deciding := none }).units := by
  rw [attached, setRegionState, wr_units, wrAll_units]

theorem openLoad_adopted {u v : State} (h : adoptSet u (tget u.store.plans c.plan []) = some v) :
    openLoad u r c = countCores (setPhase (attached v r c) r .begin) c.tenant := by
  unfold openLoad attached
  rw [h]

theorem openLoad_begins {u : State} (h : Carries r c u) (hset : (adoptSet u (tget u.store.plans c.plan [])).isSome = true) :
    Carries r c (openLoad u r c) ∧ (unitOf (openLoad u r c) r).phase = .begin := by
  obtain ⟨v, hv⟩ := Option.isSome_iff_exists.mp hset
  have hadopted : Carries r c v := h.congr (unitOf_units (adoptSet_units hv) r)
  have hattached : Carries r c (attached v r c) :=
    Carries.congr (hadopted.modUnit r (f := fun u => { u with deciding := none }) fun _ => ⟨rfl, rfl⟩) (unitOf_units (attached_units v r c) r)
  have hcounted : unitOf (countCores (setPhase (attached v r c) r .begin) c.tenant) r = unitOf (setPhase (attached v r c) r .begin) r :=
    unitOf_units (by rw [countCores, wr_units]) r
  rw [openLoad_adopted hv]
  exact ⟨(hattached.setPhase r .begin).congr hcounted, (congrArg Region.phase hcounted).trans (unitOf_setPhase (attached v r c) r .begin)⟩

/-- A validation that every check passes, of a region that does not run. -/
theorem validate_passes {u : State} (hplan : planStatus u c.plan c.tenant = stOk) (hmissing : missingOf u (tget u.store.plans c.plan []) = [])
    (hbind : bindStatus u r c.plan c.tenant (regionState u r ≠ rsDefined && c.tenant = regionTenant u r) = stOk) (hstill : regionState u r ≠ rsRunning) :
    validate u r c = afterStopRebind u r c := by
  unfold validate
  dsimp only
  have hfetched : fetchMissing u [] c.tenant = u := rfl
  rw [if_neg (by simp [hplan]), hmissing, hfetched, hmissing]
  refine (if_neg (by simp)).trans ((if_neg (by simp)).trans ((if_neg ?_).trans (if_neg hstill)))
  exact not_not_intro hbind

theorem unseatRegion_none {u : State} (h : seatedOf u r = []) : unseatRegion u r = u := by
  unfold unseatRegion
  rw [h]
  rfl

/-- The allowance of the units, the network and the repair windows. -/
theorem endAwait_within {a : Allow} (hunits : a.part .units = true) (hnet : a.part .net = true) (hwin : a.field F.CORE_SPAD_WIN_LEN = true) (u : State) (r : Nat) :
    Within a u (endAwait u r) := by
  unfold endAwait forgetRim
  refine Within.modUnit ?_ hunits r _
  exact ((Within.refl a u).closeRepairs hunits hwin r).net hnet _ rfl

/-- The allowance of all but the store. -/
def notStore : Allow := ⟨fun p => decide (p ≠ .store), fun _ => true⟩

theorem endAwait_state (u : State) (r : Nat) : regionState (endAwait u r) r = regionState u r ∧ regionTenant (endAwait u r) r = regionTenant u r ∧
    (endAwait u r).store = u.store :=
  ⟨(endAwait_within (a := besides _ [.units, .net]) rfl rfl (by decide) u r).reads r, (endAwait_within (a := besides _ [.units, .net]) rfl rfl (by decide) u r).reads r,
    (endAwait_within (a := notStore) rfl rfl rfl u r).parts .store rfl⟩

theorem setLees_within (u : State) (r : Nat) : Within ⟨fun _ => false, fun _ => true⟩ u (setLees u r) :=
  Within.wr ((Within.refl _ u).foldl fun _ hv _ => hv.wr rfl) rfl

theorem bind_shows {a : Agent} {plan : Nat} {autorun keepLees : Bool} (h : Accepts s a r 1 [rsDefined]) (hfits : bindable s r = true)
    (hc : c = ⟨1, plan, regionTenant s r, autorun, keepLees⟩) (hplan : planStatus (acceptCmd s r c [r]) plan (regionTenant s r) = stOk)
    (hmissing : missingOf (acceptCmd s r c [r]) (tget (acceptCmd s r c [r]).store.plans plan []) = [])
    (hbind : bindStatus (acceptCmd s r c [r]) r plan (regionTenant s r) false = stOk) (hseats : seatedOf (acceptCmd s r c [r]) r = [])
    (hset : (adoptSet (endAwait (acceptCmd s r c [r]) r) (tget (acceptCmd s r c [r]).store.plans plan [])).isSome = true) :
    After (exec (.bind a r plan autorun keepLees) s) fun t => (unitOf t r).phase = .begin ∧ (unitOf t r).cmd = some c := by
  generalize hu : acceptCmd s r c [r] = u at hplan hmissing hbind hseats hset
  have hcarries : Carries r c u := hu ▸ acceptCmd_carries
  have hstate : regionState u r = rsDefined := (hu ▸ acceptCmd_state).trans (List.mem_singleton.mp h.state)
  obtain ⟨hstill, -, hstore⟩ := endAwait_state u r
  have hvalid : validate u r c = openLoad (endAwait u r) r c := by
    refine (validate_passes (by rw [hc]; exact hplan) (by rw [hc]; exact hmissing) ?_ (by rw [hstate]; decide)).trans ?_
    · rw [hstate, hc]
      exact hbind
    · unfold afterStopRebind
      rw [unseatRegion_none hseats]
      exact if_pos (hstill.trans hstate)
  have hexec : exec (.bind a r plan autorun keepLees) s = .next (settleAll (openLoad (endAwait u r) r c)) := by
    refine congrArg Host.Outcome.next ((regionCommand_accepted h (by decide) _).trans (congrArg settleAll ?_))
    rw [if_neg (by simp [hfits]), ← hvalid, ← hu, hc]
  obtain ⟨hopen, hphase⟩ := openLoad_begins (u := endAwait u r) (endAwait_carries hcarries r) (by rw [hstore, hc]; exact hset)
  have hunit := unitOf_settleAll hopen (by rw [hphase]; decide)
  exact ⟨_, hexec, (congrArg Region.phase hunit).trans hphase, (congrArg Region.cmd hunit).trans hopen.cmd⟩

theorem rebind_shows {a : Agent} {plan : Nat} {autorun : Bool} (h : Accepts s a r 6 [rsBound]) (hfits : bindable s r = true) (hrack : rackCovers s r = false)
    (hc : c = ⟨6, plan, regionTenant s r, autorun, true⟩) (hplan : planStatus (acceptCmd s r c [r]) plan (regionTenant s r) = stOk)
    (hmissing : missingOf (acceptCmd s r c [r]) (tget (acceptCmd s r c [r]).store.plans plan []) = [])
    (hbind : bindStatus (acceptCmd s r c [r]) r plan (regionTenant s r) true = stOk) (hseats : seatedOf (acceptCmd s r c [r]) r = [])
    (htenant : regionTenant s r < 256)
    (hset : (adoptSet (setLees (endAwait (acceptCmd s r c [r]) r) r) (tget (acceptCmd s r c [r]).store.plans plan [])).isSome = true) :
    After (exec (.rebind a r plan (regionTenant s r) autorun true) s) fun t => (unitOf t r).phase = .begin ∧ (unitOf t r).cmd = some c := by
  have hmod : regionTenant s r % 256 = regionTenant s r := Nat.mod_eq_of_lt htenant
  have htold : regionTenant (acceptCmd s r c [r]) r = regionTenant s r := acceptCmd_tenant
  generalize hu : acceptCmd s r c [r] = u at hplan hmissing hbind hseats hset htold
  have hcarries : Carries r c u := hu ▸ acceptCmd_carries
  have hstate : regionState u r = rsBound := (hu ▸ acceptCmd_state).trans (List.mem_singleton.mp h.state)
  obtain ⟨hstill, hheld, hstore⟩ := endAwait_state u r
  have hvalid : validate u r c = openLoad (setLees (endAwait u r) r) r c := by
    refine (validate_passes (by rw [hc]; exact hplan) (by rw [hc]; exact hmissing) ?_ (by rw [hstate]; decide)).trans ?_
    · rw [hstate, htold, hc]
      simpa [rsBound, rsDefined] using hbind
    · unfold afterStopRebind
      rw [unseatRegion_none hseats]
      refine (if_neg ?_).trans (if_pos ?_)
      · rw [hstill, hstate]
        decide
      · rw [hheld, htold, hc]
        exact ⟨rfl, rfl⟩
  have hexec : exec (.rebind a r plan (regionTenant s r) autorun true) s = .next (settleAll (openLoad (setLees (endAwait u r) r) r c)) := by
    refine congrArg Host.Outcome.next ((regionCommand_accepted h (by decide) _).trans (congrArg settleAll ?_))
    rw [hmod, if_neg (by simp), if_neg (by simp [hfits, h.plain, hrack]), ← hvalid, ← hu, hc]
  have hlees : (setLees (endAwait u r) r).store = u.store := Eq.trans ((setLees_within (endAwait u r) r).parts .store rfl) hstore
  have hunits : (setLees (endAwait u r) r).units = (endAwait u r).units := (setLees_within (endAwait u r) r).parts .units rfl
  obtain ⟨hopen, hphase⟩ := openLoad_begins (u := setLees (endAwait u r) r) ((endAwait_carries hcarries r).congr (unitOf_units hunits r))
    (by rw [hlees, hc]; exact hset)
  have hunit := unitOf_settleAll hopen (by rw [hphase]; decide)
  exact ⟨_, hexec, (congrArg Region.phase hunit).trans hphase, (congrArg Region.cmd hunit).trans hopen.cmd⟩

/-! ## The statement -/

/-- Settles O21: an accepted command sets its part's phase, and a part at work is not settled when the other units are. -/
theorem regionCommandsAct : Obligations.RegionCommandsAct := by
  unfold Obligations.RegionCommandsAct
  intro s a r may accepted
  have haccepts (cmd : Nat) (states : List Nat) (h : may cmd states) : Accepts s a r cmd states := by
    obtain ⟨hbelow, hfree, hsession, hkind, hplain, hstate, -⟩ := h
    exact ⟨hbelow, hfree, hsession, hkind, hplain, hstate⟩
  refine ⟨fun h => regionRun_shows (haccepts 2 [rsBound] h), fun h => regionStop_shows (haccepts 3 [rsRunning] h), fun h => ?_, fun h => ?_,
    fun plan autorun keepLees h hfits => ?_, fun plan autorun h hfits hrack => ?_, holdExpiry_shows⟩
  · exact unbind_shows (haccepts 4 [rsBound, rsFaulted] h)
  · exact release_shows (haccepts 5 [rsDefined, rsHeld, rsBound, rsFaulted, rsLost] h)
  · exact bind_shows (c := ⟨1, plan, regionTenant s r, autorun, keepLees⟩) (haccepts 1 [rsDefined] h) hfits rfl
  · exact rebind_shows (c := ⟨6, plan, regionTenant s r, autorun, true⟩) (haccepts 6 [rsBound] h) hfits hrack rfl

end Sys2Proof.Proofs.RegionCommands

/-! PROOFS. Sealing (R231): what the forming of positions leaves of a stream, of the pages and of all else. -/

namespace Sys2Proof.Proofs.Sealing

open Sys2Proof Sys2Proof.Machine Sys2Proof.Claims Sys2Proof.Proofs.PagerRules Sys2Proof.Proofs.Frames

/-! ## Rows that move and seal -/

/-- From s to t only the pager's own records, the exports on their way and the rows of cores change. -/
structure RowsOnly (s t : State) : Prop where
  strm : ∃ fr sq pw ex, t.strm = { s.strm with frames := fr, seqs := sq, pagerWords := pw, exports := ex }
  rest : t = { s with strm := t.strm, cores := t.cores }

namespace RowsOnly

theorem refl (s : State) : RowsOnly s s := ⟨⟨_, _, _, _, rfl⟩, rfl⟩

theorem trans {s t u : State} (h : RowsOnly s t) (k : RowsOnly t u) : RowsOnly s u := by
  obtain ⟨⟨_, _, _, _, hstrm⟩, hrest⟩ := h
  obtain ⟨⟨_, _, _, _, kstrm⟩, krest⟩ := k
  refine ⟨⟨_, _, _, _, kstrm.trans (by rw [hstrm])⟩, krest.trans ?_⟩
  rw [hrest]

theorem of_pager {s t : State} (h : PagerOnly s t) : RowsOnly s t := by
  obtain ⟨_, _, _, hstrm⟩ := h.strm
  exact ⟨⟨_, _, _, _, hstrm⟩, h.rest⟩

theorem foldl {α : Type} {s t : State} {f : State → α → State} {l : List α} (h : RowsOnly s t) (hf : ∀ u x, RowsOnly u (f u x)) :
    RowsOnly s (l.foldl f t) := by
  induction l generalizing t with
  | nil => exact h
  | cons x l ih => exact ih (h.trans (hf t x))

end RowsOnly

/-- The exports, with one more. -/
theorem rowsOnly_export (s : State) (ex : List SealExport) : RowsOnly s { s with strm := { s.strm with exports := ex } } := ⟨⟨_, _, _, _, rfl⟩, rfl⟩

theorem rowsOnly_sealLayer (s : State) (slot pos block layer : Nat) : RowsOnly s (sealLayer s slot pos block layer) := by
  unfold sealLayer
  dsimp only
  split
  · exact .refl s
  · exact (RowsOnly.of_pager (pagerOnly_modCore ..)).trans (rowsOnly_export ..)

/-! ## A stream whose positions are formed -/

/-- From s to t the stream in this slot may have sealed blocks: of its own record only CUR, PREV and the positions formed change. -/
structure Forms (s t : State) (slot : Nat) : Prop where
  stream : ∃ cur prev built, streamAt t slot = { streamAt s slot with cur := cur, prev := prev, built := built }
  stepWords : t.strm.stepWords = s.strm.stepWords
  cmds : t.strm.cmds = s.strm.cmds
  rest : t = { s with strm := t.strm, cores := t.cores }

section

variable {s t u : State} {slot : Nat}

theorem Forms.refl (s : State) (slot : Nat) : Forms s s slot := ⟨⟨_, _, _, rfl⟩, rfl, rfl, rfl⟩

theorem Forms.trans (h : Forms s t slot) (k : Forms t u slot) : Forms s u slot := by
  obtain ⟨⟨_, _, _, hstream⟩, hwords, hcmds, hrest⟩ := h
  obtain ⟨⟨_, _, _, kstream⟩, kwords, kcmds, krest⟩ := k
  refine ⟨⟨_, _, _, kstream.trans (by rw [hstream])⟩, kwords.trans hwords, kcmds.trans hcmds, krest.trans ?_⟩
  rw [hrest]

theorem Forms.of_rows (h : RowsOnly s t) : Forms s t slot := by
  obtain ⟨_, _, _, _, hstrm⟩ := h.strm
  have hstream : streamAt t slot = streamAt s slot := by
    unfold streamAt
    rw [hstrm]
  exact ⟨⟨_, _, _, hstream⟩, by rw [hstrm], by rw [hstrm], h.rest⟩

theorem Forms.of_pager (h : PagerOnly s t) : Forms s t slot := .of_rows (.of_pager h)

theorem Forms.regs (h : Forms s t slot) : t.regs = s.regs := by rw [h.rest]

theorem Forms.rd (h : Forms s t slot) (f : Field) (i : Nat) : rd t f i = rd s f i := rd_congr h.regs f i

theorem forms_setPage (s : State) (slot p : Nat) (x : Page) : Forms s (setPage s p x) slot := ⟨⟨_, _, _, rfl⟩, rfl, rfl, rfl⟩

theorem forms_modStream (s : State) (slot : Nat) (cur : Nat → Nat) (prev : Bool → Bool) (built : Nat → Nat) :
    Forms s (modStream s slot fun x => { x with cur := cur x.cur, prev := prev x.prev, built := built x.built }) slot :=
  ⟨⟨_, _, _, streamAt_modStream_same ..⟩, rfl, rfl, rfl⟩

end

/-! ## Sealing a block -/

variable (s : State) (slot pos block : Nat)

/-- The page that holds a block of the stream. -/
def blockPage : Nat := (streamAt s slot).pages.getD (block / 4) 0

/-- Every layer of the block has sealed. -/
def layersSealed : State := (List.range (kvNow s).layers).foldl (fun s layer => sealLayer s slot pos block layer) s

/-- The page and the stream show the block as sealed. -/
def blockNoted : State :=
  modStream (setPage s (blockPage s slot block) { pageOf s (blockPage s slot block) with sealedBlocks := block % 4 + 1 }) slot
    fun x => { x with cur := (x.cur + 1) % 2, prev := true, built := 16 * (block + 1) }

/-- The new open block's buffer, and the entries of the frames. -/
def blockOpened (layers p : Nat) : State :=
  (List.range layers).foldl (fun s layer =>
    let s := fillTail s slot pos layer (streamAt s slot).cur []
    match findFrame s layer (groupNow s pos) p with
    | some f => writeFrame s f
    | none => s) s

theorem sealBlock_eq : sealBlock s slot pos block =
    blockOpened (blockNoted (layersSealed s slot pos block) slot block) slot pos (kvNow s).layers (blockPage (layersSealed s slot pos block) slot block) := rfl

theorem rowsOnly_layersSealed : RowsOnly s (layersSealed s slot pos block) := (RowsOnly.refl s).foldl fun _ _ => rowsOnly_sealLayer ..

theorem pagerOnly_blockOpened (layers p : Nat) : PagerOnly s (blockOpened s slot pos layers p) :=
  (PagerOnly.refl s).foldl fun u layer => by
    dsimp only
    split
    · exact (pagerOnly_fillTail ..).trans (pagerOnly_writeFrame ..)
    · exact pagerOnly_fillTail ..

theorem forms_blockNoted : Forms s (blockNoted s slot block) slot :=
  (forms_setPage ..).trans (forms_modStream _ slot (fun cur => (cur + 1) % 2) (fun _ => true) fun _ => 16 * (block + 1))

theorem forms_sealBlock : Forms s (sealBlock s slot pos block) slot := by
  rw [sealBlock_eq]
  exact ((Forms.of_rows (rowsOnly_layersSealed ..)).trans (forms_blockNoted ..)).trans (.of_pager (pagerOnly_blockOpened ..))

theorem sealBlock_built : (streamAt (sealBlock s slot pos block) slot).built = 16 * (block + 1) := by
  rw [sealBlock_eq, (pagerOnly_blockOpened ..).streamAt, blockNoted, streamAt_modStream_same]

/-- Of the pages, only the block's changes. -/
theorem sealBlock_pages : (sealBlock s slot pos block).strm.pages =
    tset s.strm.pages (blockPage s slot block) { pageOf s (blockPage s slot block) with sealedBlocks := block % 4 + 1 } := by
  obtain ⟨_, _, _, _, hstrm⟩ := (rowsOnly_layersSealed s slot pos block).strm
  have hpage : blockPage (layersSealed s slot pos block) slot block = blockPage s slot block := by
    unfold blockPage streamAt
    rw [hstrm]
  have hpages : (layersSealed s slot pos block).strm.pages = s.strm.pages := by rw [hstrm]
  have hnoted (u : State) : (blockNoted u slot block).strm.pages =
      tset u.strm.pages (blockPage u slot block) { pageOf u (blockPage u slot block) with sealedBlocks := block % 4 + 1 } := rfl
  rw [sealBlock_eq, (pagerOnly_blockOpened ..).pages, hnoted, hpage]
  unfold pageOf
  rw [hpages]

/-! ## Forming positions -/

variable {s slot pos} {n fuel : Nat}

theorem buildGo_open (h : n < 16 * ((streamAt s slot).built / 16 + 1)) :
    buildGo (fuel + 1) s slot pos n = modStream s slot fun x => { x with built := max x.built n } := if_pos h

theorem buildGo_seals (h : 16 * ((streamAt s slot).built / 16 + 1) ≤ n) :
    buildGo (fuel + 1) s slot pos n = buildGo fuel (sealBlock s slot pos ((streamAt s slot).built / 16)) slot pos n := if_neg (Nat.not_lt.mpr h)

theorem forms_buildGo (fuel : Nat) (s : State) (slot pos n : Nat) : Forms s (buildGo fuel s slot pos n) slot := by
  induction fuel generalizing s with
  | zero => exact .refl s slot
  | succ fuel ih =>
    by_cases h : n < 16 * ((streamAt s slot).built / 16 + 1)
    · rw [buildGo_open h]
      exact forms_modStream s slot (fun cur => cur) (fun prev => prev) fun built => max built n
    · rw [buildGo_seals (Nat.not_lt.mp h)]
      exact (forms_sealBlock ..).trans (ih _)

theorem pagerOnly_writeTailEntries (s : State) (slot : Nat) : PagerOnly s (writeTailEntries s slot) := by
  unfold writeTailEntries
  split
  · exact .refl s
  · exact (PagerOnly.refl s).foldl fun _ _ => pagerOnly_writeTailEntry ..

theorem forms_buildTo (s : State) (slot n : Nat) : Forms s (buildTo s slot n) slot := by
  unfold buildTo
  split
  · exact .refl s slot
  · exact (forms_buildGo ..).trans (.of_pager (pagerOnly_writeTailEntries ..))

theorem buildTo_seated (hseat : (streamAt s slot).seat = some pos) : buildTo s slot n = writeTailEntries (buildGo (n / 16 + 1) s slot pos n) slot := by
  unfold buildTo
  rw [hseat]

/-- The positions to the end of the open block, or to the last, are formed. -/
theorem buildTo_built (hseat : (streamAt s slot).seat = some pos) (hlow : (streamAt s slot).built ≤ n) (hhigh : n ≤ 16 * ((streamAt s slot).built / 16 + 1)) :
    (streamAt (buildTo s slot n) slot).built = n := by
  rw [buildTo_seated hseat, (pagerOnly_writeTailEntries ..).streamAt]
  by_cases hopen : n < 16 * ((streamAt s slot).built / 16 + 1)
  · rw [buildGo_open hopen, streamAt_modStream_same]
    exact Nat.max_eq_right hlow
  · have hend : n = 16 * ((streamAt s slot).built / 16 + 1) := by omega
    have hbuilt := sealBlock_built s slot pos ((streamAt s slot).built / 16)
    have hfuel : n / 16 = (streamAt s slot).built / 16 + 1 := by omega
    rw [buildGo_seals (by omega), hfuel, buildGo_open (by rw [hbuilt]; omega), streamAt_modStream_same]
    show max (streamAt (sealBlock s slot pos _) slot).built n = n
    rw [hbuilt, ← hend, Nat.max_self]

/-- Where the end of the open block is reached, of the pages only the block's changes. -/
theorem buildTo_pages (hseat : (streamAt s slot).seat = some pos) (hend : n = 16 * ((streamAt s slot).built / 16 + 1)) :
    (buildTo s slot n).strm.pages = tset s.strm.pages (blockPage s slot ((streamAt s slot).built / 16))
      { pageOf s (blockPage s slot ((streamAt s slot).built / 16)) with sealedBlocks := (streamAt s slot).built / 16 % 4 + 1 } := by
  have hbuilt := sealBlock_built s slot pos ((streamAt s slot).built / 16)
  have hfuel : n / 16 = (streamAt s slot).built / 16 + 1 := by omega
  rw [buildTo_seated hseat, (pagerOnly_writeTailEntries ..).pages, buildGo_seals (by omega), hfuel, buildGo_open (by rw [hbuilt]; omega)]
  exact sealBlock_pages ..

end Sys2Proof.Proofs.Sealing

/-! PROOFS. O29 fails where the page table lists a page out of order: sealing a block lists it a second time, and the quota has no room (R231, R282). -/

namespace Sys2Proof.Proofs.PageTwice

open Sys2Proof Sys2Proof.Machine Sys2Proof.Claims Sys2Proof.Proofs.Frames Sys2Proof.Proofs.Sealing

/-! ## A token without room -/

section

variable {s : State} {slot : Nat} {c : LCmd} {r : Run} {z : List Nat}

theorem verify_noRoom {all : List Nat} (hpick : (sampleOne (sampleCfg c) (streamAt s slot).seed (nextIndex (streamAt s slot)) (streamAt s slot).log z).isSome = true)
    (hroom : pageQuotaOk s (streamAt s slot).tenant (pagesShort (streamAt s slot) ((streamAt s slot).log.length + 1)) = false) :
    verify slot c all [z] [] s = (s, some (stQuota, 0)) := by
  obtain ⟨⟨t, lp⟩, hpick⟩ := Option.isSome_iff_exists.mp hpick
  have hpush (draft : Bool) : pushToken s slot c t lp draft all = (s, some (stQuota, 0)) := if_pos (by simp [hroom])
  unfold verify
  dsimp only
  rw [hpick]
  dsimp only
  rw [hpush]

/-- The positions of the step are formed, and it is no longer in flight. -/
def landed (s : State) (slot : Nat) : State :=
  modStream (buildTo s slot (streamAt s slot).log.length) slot fun x => { x with run := x.run.map fun r => { r with inFlight := false } }

theorem streamAt_landed (s : State) (slot : Nat) : ∃ cur prev built, streamAt (landed s slot) slot =
    { streamAt s slot with cur := cur, prev := prev, built := built, run := (streamAt s slot).run.map fun r => { r with inFlight := false } } := by
  obtain ⟨cur, prev, built, hstream⟩ := (forms_buildTo s slot (streamAt s slot).log.length).stream
  refine ⟨cur, prev, built, ?_⟩
  rw [landed, streamAt_modStream_same, hstream]

theorem sampleToken_noRoom {h : Nat} (hslot : slotOf h = slot) (hrun : (streamAt s slot).run = some r) (hcmd : s.strm.cmds.find? (fun c => c.id = r.cmd) = some c)
    (hgen : genOf h = (streamAt s slot).gen) (hflight : r.inFlight = true) (hgoes : r.interrupted = false) (hdrafts : r.drafts = [])
    (hpick : (sampleOne (sampleCfg c) (streamAt s slot).seed (nextIndex (streamAt s slot)) (streamAt s slot).log z).isSome = true)
    (hroom : pageQuotaOk (landed s slot) (streamAt s slot).tenant (pagesShort (streamAt s slot) ((streamAt s slot).log.length + 1)) = false) :
    (streamAt (sampleToken s h [z] []) slot).log = (streamAt s slot).log := by
  obtain ⟨_, _, _, hstream⟩ := streamAt_landed s slot
  have hverify : verify slot c r.drafts ([z].take (r.drafts.length + 1)) r.drafts (landed s slot) = (landed s slot, some (stQuota, 0)) := by
    rw [hdrafts]
    exact verify_noRoom (by rw [hstream]; exact hpick) (by rw [hstream]; exact hroom)
  have hgo : ¬ (genOf h ≠ (streamAt s slot).gen ∨ r.inFlight = false) := by simp [hgen, hflight]
  unfold landed at hverify
  unfold sampleToken
  rw [hslot]
  dsimp only
  rw [hrun]
  dsimp only
  rw [hcmd]
  dsimp only
  rw [if_neg hgo, if_neg (by simp [hgoes]), hverify]
  dsimp only
  rw [if_pos hdrafts, streamAt_modStream_same]
  change (streamAt (landed s slot) slot).log = (streamAt s slot).log
  rw [hstream]

end

/-! ## A page listed out of order -/

/-- The step of the stream's GENERATE is in flight. -/
def run : Run := ⟨0, 0, false, true, [], false, none⟩

/-- A GENERATE of the stream in slot 0. -/
def command : LCmd := ⟨0, 0, 3, 0, 2 ^ 17, [], [], [], 0, none, .accepted, false, 0, none⟩

/-- A seated stream of tenant 1 with 64 positions in page 2, the last block of which is still to seal. -/
def stream : Stream :=
  { blankStream with tenant := 1, state := .generating, log := List.replicate 64 0, pages := [2], seat := some 0, built := 48, run := some run }

/-- Tenant 1 may hold two pages; the table lists its page 2 after page 5. -/
def outOfOrder : State :=
  { wr State.reset F.REG_TENANT_LIM_B_PAGES 1 2 with
    strm := { State.reset.strm with cmds := [command], slots := [(0, stream)], pages := [(5, blankPage), (2, { blankPage with tenant := 1 })] } }

theorem streamAt_outOfOrder : streamAt outOfOrder 0 = stream := rfl

theorem room_before : pageQuotaOk outOfOrder 1 1 = true := by decide +kernel

/-- Once the block is sealed the tenant has two pages. -/
theorem room_after : pageQuotaOk (landed outOfOrder 0) 1 1 = false := by
  have hpages : (landed outOfOrder 0).strm.pages = [(2, { blankPage with tenant := 1, sealedBlocks := 4 }), (5, blankPage), (2, { blankPage with tenant := 1 })] :=
    buildTo_pages (s := outOfOrder) (slot := 0) (n := 64) (pos := 0) rfl rfl
  have huse : pageUse (landed outOfOrder 0) 1 = 2 := by
    unfold pageUse
    rw [hpages]
    rfl
  have hquota : rd (landed outOfOrder 0) F.REG_TENANT_LIM_B_PAGES 1 = 2 := by
    have hkept : rd (landed outOfOrder 0) F.REG_TENANT_LIM_B_PAGES 1 = rd outOfOrder F.REG_TENANT_LIM_B_PAGES 1 :=
      (forms_buildTo outOfOrder 0 (streamAt outOfOrder 0).log.length).rd _ _
    exact hkept.trans (by decide +kernel)
  unfold pageQuotaOk
  rw [huse, hquota]
  rfl

/-- Refutes O29: the token fits the tenant's quota before its step's block seals; sealing then lists page 2, which stood out of order, a second time,
and the token is discarded. -/
theorem not_sampledTokensJoinTheLog : ¬ Obligations.SampledTokensJoinTheLog := by
  intro h
  have hpick : (sampleOne (sampleCfg command) stream.seed (nextIndex stream) stream.log [0]).isSome = true := by decide +kernel
  obtain ⟨⟨tok, lp⟩, htok⟩ := Option.isSome_iff_exists.mp hpick
  obtain ⟨-, hgoes⟩ := h outOfOrder (BitVec.ofNat 32 (2 ^ 17)) [0] [] [] run command rfl rfl (by decide +kernel) rfl
  obtain ⟨hjoins, -⟩ := hgoes rfl
  obtain ⟨t, ht, hlog, -⟩ := hjoins tok lp htok (by simp [run]) room_before
  have hdiscarded : (streamAt (sampleToken outOfOrder (2 ^ 17) [[0]] []) 0).log = stream.log :=
    sampleToken_noRoom (slot := 0) (r := run) (c := command) (by decide +kernel) rfl rfl (by decide +kernel) rfl rfl rfl hpick room_after
  have hexec : exec (.sampleToken (BitVec.ofNat 32 (2 ^ 17)) [[0]] []) outOfOrder = .next (sampleToken outOfOrder (2 ^ 17) [[0]] []) := rfl
  rw [hexec] at ht
  cases ht
  have hlength := congrArg List.length (hdiscarded.symm.trans hlog)
  rw [List.length_append, List.length_singleton] at hlength
  exact absurd hlength (by decide +kernel)

end Sys2Proof.Proofs.PageTwice

/-! PROOFS. The pager's work on one stream (R230, R246–R250): seats, exported tails, sealed rows in the cellar, spills and re-prefill steps. -/

namespace Sys2Proof.Proofs.PagerMoves

open Sys2Proof Sys2Proof.Machine Sys2Proof.Claims Sys2Proof.Laws Sys2Proof.Proofs.BelfryComplete Sys2Proof.Proofs.Frames Sys2Proof.Proofs.PagerRules
  Sys2Proof.Proofs.Raising Sys2Proof.Proofs.ReadRules Sys2Proof.Proofs.Sealing Sys2Proof.Proofs.Tables

variable {s : State} {h : BitVec 32} {k : Nat}

/-! ## Step words -/

/-- From s to t one step word more is presented, with these fields. -/
def Presents (s t : State) (kind pos count first handle : Nat) (tokens : List Nat) : Prop :=
  ∃ w, t.strm.stepWords = w :: s.strm.stepWords ∧ w.kind = kind ∧ w.pos = pos ∧ w.count = count - 1 ∧ w.first = first ∧ w.handle = handle ∧ w.tokens = tokens

theorem sendStep_presents (s : State) (kind pos slot count first : Nat) (tokens : List Nat) :
    Presents s (sendStep s kind pos slot count first tokens) kind pos count first (handleOf slot (streamAt s slot).gen) tokens :=
  ⟨_, rfl, rfl, rfl, rfl, rfl, rfl, rfl⟩

theorem streamAt_sendStep (s : State) (kind pos slot count first : Nat) (tokens : List Nat) (j : Nat) :
    streamAt (sendStep s kind pos slot count first tokens) j = streamAt s j := rfl

theorem Presents.from_words {s t u : State} {kind pos count first handle : Nat} {tokens : List Nat} (h : Presents t u kind pos count first handle tokens)
    (hwords : t.strm.stepWords = s.strm.stepWords) : Presents s u kind pos count first handle tokens := by
  obtain ⟨w, hw, hfields⟩ := h
  exact ⟨w, hw.trans (by rw [hwords]), hfields⟩

theorem Presents.to_words {s t u : State} {kind pos count first handle : Nat} {tokens : List Nat} (h : Presents s t kind pos count first handle tokens)
    (hwords : u.strm.stepWords = t.strm.stepWords) : Presents s u kind pos count first handle tokens := by
  obtain ⟨w, hw, hfields⟩ := h
  exact ⟨w, hwords.trans hw, hfields⟩

/-! ## Frames for a seat -/

theorem pagerOnly_takeFrame {layer g p j handle : Nat} {fs : KvFrame × State} (h : takeFrame s layer g p j handle = some fs) : PagerOnly s fs.2 := by
  unfold takeFrame at h
  dsimp only at h
  split at h
  · exact absurd h (by simp)
  · have hframes (u : State) (fr : List KvFrame) : PagerOnly u { u with strm := { u.strm with frames := fr } } := ⟨⟨_, _, _, rfl⟩, rfl⟩
    rw [← Option.some.inj h]
    exact (pagerOnly_fillRows ..).trans (hframes _ _)

theorem pagerOnly_seatPage {slot pos layer p j : Nat} {u : State} (h : seatPage s slot pos layer p j = some u) : PagerOnly s u := by
  unfold seatPage at h
  dsimp only at h
  obtain ⟨fs, hgot, rfl⟩ := Option.map_eq_some_iff.mp h
  have hfs : PagerOnly s fs.2 := by
    split at hgot
    · rw [← Option.some.inj hgot]
      exact .refl s
    · exact pagerOnly_takeFrame hgot
  exact (hfs.trans (pagerOnly_setFrame ..)).trans (pagerOnly_writeFrame ..)

/-- What an optional state is, if it is one, comes of the pager alone. -/
def OptPager (s : State) (o : Option State) : Prop := ∀ u, o = some u → PagerOnly s u

theorem OptPager.bind {o : Option State} (h : OptPager s o) {f : State → Option State} (hf : ∀ u v, f u = some v → PagerOnly u v) : OptPager s (o.bind f) := by
  intro v hv
  obtain ⟨u, hu, hfu⟩ := Option.bind_eq_some_iff.mp hv
  exact (h u hu).trans (hf u v hfu)

theorem pagerOnly_seatPages {slot pos : Nat} {u : State} (h : seatPages s slot pos = some u) : PagerOnly s u := by
  refine List.foldlRecOn (motive := OptPager s) _ _ (fun v hv => Option.some.inj hv ▸ .refl s) (fun o ho layer _ => ?_) u h
  exact List.foldlRecOn (motive := OptPager s) _ _ ho fun o ho e _ => ho.bind fun _ _ => pagerOnly_seatPage

/-! ## Seating -/

theorem liveSlot_state (hlive : liveSlot s h = some k) : (streamAt s k).state ≠ .closed := by
  unfold liveSlot at hlive
  dsimp only at hlive
  split at hlive
  · rename_i hopen
    exact Option.some.inj hlive ▸ hopen.1
  · exact absurd hlive (by simp)

theorem exec_seating (hlive : liveSlot s h = some k) : exec (.seating h) s = .next (seat s k) := by
  refine congrArg Host.Outcome.next ?_
  rw [hlive]

theorem seat_stays {k : Nat} (hstays : (streamAt s k).seat.isSome = true ∨ unitState s (streamAt s k).region ≠ rsRunning) : seat s k = s := if_pos (.inr hstays)

/-- A stream none of whose pages is in hall memory fetches nothing. -/
theorem fetchPages_none (hhall : hallPages s (streamAt s k) = 0) : fetchPages s k = s := by
  have hnone : ∀ p ∈ (streamAt s k).pages, (pageOf s p).hall = false := fun p hp => by
    simpa using List.filter_eq_nil_iff.mp (List.length_eq_zero_iff.mp hhall) p hp
  unfold fetchPages
  generalize (streamAt s k).pages = l at hnone
  induction l with
  | nil => rfl
  | cons p l ih =>
    rw [List.foldl_cons, if_neg (by simp [hnone p List.mem_cons_self])]
    exact ih fun q hq => hnone q (List.mem_cons_of_mem _ hq)

section

variable {n p : Nat} (hopen : (streamAt s k).state ≠ .closed) (hseat : (streamAt s k).seat = none) (hruns : unitState s (streamAt s k).region = rsRunning)
  (hhall : hallPages s (streamAt s k) = 0)
include hopen hseat hruns hhall

theorem seatFor_none (hfree : freeSeat s (max 1 n) = none) (hidle : idleSeat s (max 1 n) = none) :
    seatFor s k n = setStream s k { streamAt s k with wants := true } := by
  unfold seatFor
  dsimp only
  rw [if_neg (by simp [hopen, hseat, hruns]), fetchPages_none hhall, if_neg (not_not_intro hhall)]
  unfold findSeat
  rw [hfree]
  dsimp only
  rw [hidle]
  rfl

theorem seatFor_waits (hfree : freeSeat s (max 1 n) = some p) (hpages : seatPages s k p = none) : seatFor s k n = frameWait s k := by
  unfold seatFor
  dsimp only
  rw [if_neg (by simp [hopen, hseat, hruns]), fetchPages_none hhall, if_neg (not_not_intro hhall)]
  unfold findSeat
  rw [hfree]
  dsimp only
  rw [hpages]

/-- The stream takes its position. -/
def placed (s : State) (slot p : Nat) : State :=
  modStream s slot fun x => { x with seat := some p, waiting := false, wants := false, idleTick := tickCount s,
                                     state := if x.state = .parked then (if x.log = [] then .opened else .ready) else x.state }

/-- The stream's tail is filled, and its seat presented. -/
def shown (s : State) (slot p tenant : Nat) : State := countStreams (seatWord (countPages (seatTail s slot p) tenant) 1 p slot)

theorem seatFor_fills {u : State} (hfree : freeSeat s (max 1 n) = some p) (hpages : seatPages s k p = some u) :
    seatFor s k n = shed (shown (placed u k p) k p (streamAt s k).tenant) k := by
  unfold seatFor
  dsimp only
  rw [if_neg (by simp [hopen, hseat, hruns]), fetchPages_none hhall, if_neg (not_not_intro hhall)]
  unfold findSeat
  rw [hfree]
  dsimp only
  rw [hpages]
  rfl

end

/-- A seat word is presented, and the streams are counted. -/
theorem counted_seatWord_shows (s : State) (kind pos slot : Nat) : streamAt (countStreams (seatWord s kind pos slot)) slot = streamAt s slot ∧
    Presents s (countStreams (seatWord s kind pos slot)) kind pos 0 0 (handleOf slot (streamAt s slot).gen) [] := by
  have hstrm := countStreams_strm (seatWord s kind pos slot)
  exact ⟨streamAt_congr hstrm slot, (sendStep_presents s kind pos slot 0 0 []).to_words (congrArg StreamSt.stepWords hstrm)⟩

theorem shown_shows (s : State) (slot p tenant : Nat) : streamAt (shown s slot p tenant) slot = streamAt s slot ∧
    Presents s (shown s slot p tenant) 1 p 0 0 (handleOf slot (streamAt s slot).gen) [] := by
  have htail := pagerOnly_seatTail s slot p
  have hstrm := countPages_strm (seatTail s slot p) tenant
  have hstream := (streamAt_congr hstrm slot).trans (htail.streamAt slot)
  have hwords := (congrArg StreamSt.stepWords hstrm).trans htail.stepWords
  unfold shown
  generalize countPages (seatTail s slot p) tenant = u at hstream hwords
  obtain ⟨hsame, hword⟩ := counted_seatWord_shows u 1 p slot
  rw [hstream] at hsame hword
  exact ⟨hsame, hword.from_words hwords⟩

/-- The allowance of all but what shedding asks of cooling and power. -/
def notDemand : Allow := ⟨fun p => decide (p ≠ .thm ∧ p ≠ .pwr), fun _ => true⟩

theorem shown_within {a : Allow} (hs : a.part .strm = true) (hc : a.part .cores = true) (ha : pageFoot.Fits a) (hcount : countFoot.Fits a)
    (s : State) (slot p tenant : Nat) : Within a s (shown s slot p tenant) :=
  Within.countStreams (Within.strm (((Within.refl a s).pager hs hc (pagerOnly_seatTail s slot p)).countPages ha tenant) hs _) hcount

theorem shed_still {u : State} (hthm : u.thm = s.thm) (hpwr : u.pwr = s.pwr) (hshed : sheddingDemanded s = false) : shed u k = u := by
  have hnone : sheddingDemanded u = false := by
    unfold sheddingDemanded at hshed ⊢
    rw [hthm, hpwr]
    exact hshed
  refine if_neg ?_
  unfold shedding
  simp [hnone]

theorem seating_fills {p : Nat} (hlive : liveSlot s h = some k) (hseat : (streamAt s k).seat = none) (hruns : unitState s (streamAt s k).region = rsRunning)
    (hhall : hallPages s (streamAt s k) = 0) (hfree : freeSeat s (max 1 (streamAt s k).log.length) = some p) (hpages : (seatPages s k p).isSome = true)
    (hshed : sheddingDemanded s = false) : After (exec (.seating h) s) fun t =>
      (streamAt t k).seat = some p ∧ (streamAt t k).log = (streamAt s k).log ∧ Presents s t 1 p 0 0 (handleOf k (streamAt s k).gen) [] := by
  obtain ⟨u, hu⟩ := Option.isSome_iff_exists.mp hpages
  have hfilled := pagerOnly_seatPages hu
  have hplaced : streamAt (placed u k p) k = { streamAt s k with
      seat := some p, waiting := false, wants := false, idleTick := tickCount u
      state := if (streamAt s k).state = .parked then (if (streamAt s k).log = [] then .opened else .ready) else (streamAt s k).state } := by
    rw [placed, streamAt_modStream_same, hfilled.streamAt]
  have hwithin : Within notDemand s (shown (placed u k p) k p (streamAt s k).tenant) :=
    (((Within.refl notDemand s).pager rfl rfl hfilled).modStream rfl k _).trans (shown_within rfl rfl (by decide) (by decide) ..)
  have hstill := shed_still (k := k) (hwithin.parts .thm rfl) (hwithin.parts .pwr rfl) hshed
  have hexec : exec (.seating h) s = .next (shown (placed u k p) k p (streamAt s k).tenant) := by
    rw [exec_seating hlive, seat, seatFor_fills (liveSlot_state hlive) hseat hruns hhall hfree hu, hstill]
  obtain ⟨hstream, hword⟩ := shown_shows (placed u k p) k p (streamAt s k).tenant
  rw [hplaced] at hstream hword
  refine ⟨_, hexec, ?_, ?_, hword.from_words hfilled.stepWords⟩
  · rw [hstream]
  · rw [hstream]

/-- The wait for a frame is reported. -/
theorem frameWait_shows (hwaits : (streamAt s k).waiting = false) : streamAt (frameWait s k) k = { streamAt s k with waiting := true } ∧
    Logged s (frameWait s k) .report evKvFrameWait (regionTenant s (streamAt s k).region) (streamAt s k).region 0 0 := by
  have hwait : frameWait s k = raiseRegion (bump (setStream s k { streamAt s k with waiting := true }) F.STRM_PAGER_CNT_FRAME_WAIT 0 1) .report evKvFrameWait
      (streamAt s k).region 0 0 := if_neg (by simp [hwaits])
  rw [hwait]
  have htenant : regionTenant (bump (setStream s k { streamAt s k with waiting := true }) F.STRM_PAGER_CNT_FRAME_WAIT 0 1) (streamAt s k).region =
      regionTenant s (streamAt s k).region := rd_wr_clear (setStream s k { streamAt s k with waiting := true }) 0 _ _ (by decide)
  constructor
  · refine (streamAt_congr (t := raiseRegion ..) (s := setStream s k { streamAt s k with waiting := true }) ?_ k).trans (streamAt_setStream_same s k { streamAt s k with waiting := true })
    rw [raiseRegion, raiseEv_strm, bump, wr_strm]
  · rw [← htenant]
    exact logged_raiseEv (hallNs_bump ..) (rd_wr_clear (setStream s k { streamAt s k with waiting := true }) 0 0 _ (by decide)) ..

/-! ## Losing a seat -/

theorem landExports_none (hnone : ∀ e ∈ s.strm.exports, e.slot ≠ k) : landExports s k = s := by
  have hfilter : s.strm.exports.filter (fun e => e.slot = k) = [] := List.filter_eq_nil_iff.mpr fun e he => by simpa using hnone e he
  unfold landExports
  rw [hfilter]
  rfl

theorem readTail_congr {t : State} (hregs : t.regs = s.regs) (hcores : t.cores = s.cores) (pos layer x : Nat) : readTail t pos layer x = readTail s pos layer x := by
  have hset : planSetNow t = planSetNow s := rd_congr hregs _ _
  unfold readTail tailCore tailBase kvNow groupNow coreOf
  rw [hset, hcores]

theorem pagerExport_cores (s : State) (core handle row n : Nat) : (pagerExport s core handle row n).2.cores = s.cores :=
  List.foldlRecOn (motive := fun t : State => t.cores = s.cores) _ _ rfl fun _ ht _ _ => ht

/-- One layer's tail is exported. -/
def exportLayer (slot pos x : Nat) (acc : Table (List RowData) × State) (layer : Nat) : Table (List RowData) × State :=
  (tset acc.1 layer (readTail acc.2 pos layer x),
    (pagerExport acc.2 (tailCore acc.2 pos layer) (handleOf slot (streamAt acc.2 slot).gen) (tailBase acc.2 pos layer x) (bufferRows (kvNow acc.2))).2)

theorem exportTail_eq (s : State) (slot pos x : Nat) : exportTail s slot pos x = (List.range (kvNow s).layers).foldl (exportLayer slot pos x) ([], s) := rfl

/-- Each layer's exported tail holds the rows of its buffer. -/
theorem exportTail_at (s : State) (slot pos x : Nat) {layer : Nat} (hlayer : layer < (kvNow s).layers) :
    tget? (exportTail s slot pos x).1 layer = some (readTail s pos layer x) := by
  have hfold (l : List Nat) (acc : Table (List RowData) × State) (hregs : acc.2.regs = s.regs) (hcores : acc.2.cores = s.cores)
      (hat : layer ∈ l ∨ tget? acc.1 layer = some (readTail s pos layer x)) :
      tget? (l.foldl (exportLayer slot pos x) acc).1 layer = some (readTail s pos layer x) := by
    induction l generalizing acc with
    | nil => exact hat.resolve_left (by simp)
    | cons j l ih =>
      refine ih _ ((pagerOnly_pagerExport ..).regs.trans hregs) ((pagerExport_cores ..).trans hcores) ?_
      by_cases hj : layer = j
      · subst hj
        refine .inr ((tget?_tset_same ..).trans ?_)
        rw [readTail_congr hregs hcores]
      · rcases hat with hat | hat
        · exact .inl ((List.mem_cons.mp hat).resolve_left hj)
        · exact .inr ((tget?_tset_other _ _ hj).trans hat)
  rw [exportTail_eq]
  exact hfold _ _ rfl rfl (.inl (List.mem_range.mpr hlayer))

/-- The stream is off its position, with these tails. -/
def unplaced (s : State) (slot p : Nat) (keep : Bool) (tail prevTail : Table (List RowData)) : State :=
  countStreams (seatWord (modStream (releaseFrames s p slot 0) slot fun x =>
    { x with seat := none, tail := tail, prevTail := prevTail, prev := keep, cur := 0, waiting := false }) 4 p slot)

theorem unplaced_shows (s : State) (slot p : Nat) (keep : Bool) (tail prevTail : Table (List RowData)) :
    streamAt (unplaced s slot p keep tail prevTail) slot =
        { streamAt s slot with seat := none, tail := tail, prevTail := prevTail, prev := keep, cur := 0, waiting := false } ∧
      Presents s (unplaced s slot p keep tail prevTail) 4 p 0 0 (handleOf slot (streamAt s slot).gen) [] := by
  have hreleased := pagerOnly_releaseFrames s p slot 0
  obtain ⟨hstream, hword⟩ := counted_seatWord_shows (modStream (releaseFrames s p slot 0) slot fun x =>
    { x with seat := none, tail := tail, prevTail := prevTail, prev := keep, cur := 0, waiting := false }) 4 p slot
  rw [streamAt_modStream_same, hreleased.streamAt] at hstream hword
  exact ⟨hstream, hword.from_words hreleased.stepWords⟩

theorem unseat_eq {p : Nat} (hseat : (streamAt s k).seat = some p) (hnone : ∀ e ∈ s.strm.exports, e.slot ≠ k) : ∃ u keep prevTail,
    PagerOnly s u ∧ unseat s k = unplaced u k p keep (exportTail s k p (streamAt s k).cur).1 prevTail := by
  have htail := pagerOnly_exportTail s k p (streamAt s k).cur
  unfold unseat
  rw [hseat]
  dsimp only
  rw [landExports_none hnone]
  split
  · exact ⟨_, _, _, htail.trans (pagerOnly_exportTail ..), rfl⟩
  · exact ⟨_, _, _, htail, rfl⟩

theorem unseat_shows {p : Nat} (hlive : liveSlot s h = some k) (hseat : (streamAt s k).seat = some p) (hidle : (streamAt s k).state ≠ .generating)
    (hrest : (streamAt s k).state ≠ .prefill) (hnone : ∀ e ∈ s.strm.exports, e.slot ≠ k) : After (exec (.unseat h) s) fun t =>
      (streamAt t k).seat = none ∧ (streamAt t k).log = (streamAt s k).log ∧ Presents s t 4 p 0 0 (handleOf k (streamAt s k).gen) [] ∧
        ∀ layer, layer < (kvNow s).layers → tget? (streamAt t k).tail layer = some (readTail s p layer (streamAt s k).cur) := by
  have hexec : exec (.unseat h) s = .next (unseat s k) := by
    refine congrArg Host.Outcome.next ?_
    rw [hlive]
    exact if_neg (by simp [hidle, hrest])
  obtain ⟨u, keep, prevTail, hu, hunseat⟩ := unseat_eq hseat hnone
  obtain ⟨hstream, hword⟩ := unplaced_shows u k p keep (exportTail s k p (streamAt s k).cur).1 prevTail
  rw [← hunseat, hu.streamAt] at hstream hword
  refine ⟨_, hexec, ?_, ?_, hword.from_words hu.stepWords, fun layer hlayer => ?_⟩
  · rw [hstream]
  · rw [hstream]
  · rw [hstream]
    exact exportTail_at s k p _ hlayer

/-! ## Sealed rows in the cellar -/

/-- The export has left, and its rows are in the cellar. -/
def exported (s : State) (e : SealExport) : State := landRows { s with strm := { s.strm with exports := s.strm.exports.filter fun d => d ≠ e } } e

theorem landExport_strm (s : State) (e : SealExport) : (landExport s e).strm = (exported s e).strm := by
  have hsent (u : State) (tc place : Nat) (data : List Byte) (user : GUser) : (mirrorWrite u tc place data user).strm = u.strm :=
    ((Within.refl ⟨fun p => decide (p ≠ .strm), fun _ => true⟩ u).sendMessage (by decide) ..).parts .strm rfl
  unfold landExport
  dsimp only
  split
  · exact hsent ..
  · rfl

theorem exported_shows (s : State) (e : SealExport) : (exported s e).strm.exports = s.strm.exports.filter (fun d => d ≠ e) ∧
    pageImage (kvNow s) (pageOf (exported s e) ((streamAt s e.slot).pages.getD (e.block / 4) 0)) e.layer =
      setRows (pageImage (kvNow s) (pageOf s ((streamAt s e.slot).pages.getD (e.block / 4) 0)) e.layer) e.rows := by
  refine ⟨rfl, ?_⟩
  have hpage : pageOf (exported s e) ((streamAt s e.slot).pages.getD (e.block / 4) 0) =
      { pageOf s ((streamAt s e.slot).pages.getD (e.block / 4) 0) with
        cells := tset (pageOf s ((streamAt s e.slot).pages.getD (e.block / 4) 0)).cells e.layer
          (setRows (pageImage (kvNow s) (pageOf s ((streamAt s e.slot).pages.getD (e.block / 4) 0)) e.layer) e.rows) } := tget_tset_same ..
  rw [hpage]
  unfold pageImage
  dsimp only
  rw [tget?_tset_same]

theorem sealCellarWrite_shows {layer block : Nat} {e : SealExport} (hlive : liveSlot s h = some k)
    (hfind : s.strm.exports.find? (fun e => e.slot = k && e.layer = layer && e.block = block) = some e) :
    After (exec (.sealCellarWrite h layer block) s) fun t =>
      pageImage (kvNow s) (pageOf t ((streamAt s k).pages.getD (block / 4) 0)) layer =
          setRows (pageImage (kvNow s) (pageOf s ((streamAt s k).pages.getD (block / 4) 0)) layer) e.rows ∧
        t.strm.exports = s.strm.exports.filter fun d => d ≠ e := by
  have hexec : exec (.sealCellarWrite h layer block) s = .next (landExport s e) := by
    refine congrArg Host.Outcome.next ?_
    rw [hlive]
    dsimp only
    rw [hfind]
  have hkey := List.find?_some hfind
  simp only [Bool.and_eq_true, decide_eq_true_eq] at hkey
  obtain ⟨⟨hslot, hlayer⟩, hblock⟩ := hkey
  obtain ⟨hexports, himage⟩ := exported_shows s e
  rw [hslot, hlayer, hblock] at himage
  refine ⟨_, hexec, ?_, ?_⟩
  · unfold pageOf at himage ⊢
    rw [landExport_strm]
    exact himage
  · rw [landExport_strm]
    exact hexports

theorem sealCellarWrite_none {layer block : Nat} (hlive : liveSlot s h = some k)
    (hfind : s.strm.exports.find? (fun e => e.slot = k && e.layer = layer && e.block = block) = none) :
    exec (.sealCellarWrite h layer block) s = .next s := by
  refine congrArg Host.Outcome.next ?_
  rw [hlive]
  dsimp only
  rw [hfind]

/-! ## A page to hall memory -/

/-- The page as the hall holds it, at byte off of extent e. -/
def hallPage (s' : State) (y : Page) (e off : Nat) : Page := { y with hall := true, fetching := false, check := pageCheck s' y, place := some (e, off) }

theorem pageOf_setPage_same (s : State) (p : Nat) (y : Page) : pageOf (setPage s p y) p = y := tget_tset_same ..

theorem pageOf_congr {s t : State} (hpages : t.strm.pages = s.strm.pages) (p : Nat) : pageOf t p = pageOf s p := congrArg (fun l => tget l p blankPage) hpages

theorem spillPage_goes {s s' : State} {p e : Nat}
    (hfind : (poolExtents s).find? (fun e => extentEnd s e + (pageBytes s (pageOf s p)).length ≤ rd s F.NET_POOL_B_LEN e) = some e)
    (hsend : sendMessage s (rd s F.NET_POOL_A_NODE e) 2 1 (pageOf s p).tenant (rd s F.NET_POOL_A_OFFSET e + extentEnd s e) (pageBytes s (pageOf s p))
      (pageBytes s (pageOf s p)).length (.spill e p) = (true, s')) :
    spillPage s p = (true, setPage s' p (hallPage s' (pageOf s p) e (extentEnd s e))) := by
  unfold spillPage
  dsimp only
  rw [hfind]
  dsimp only
  rw [hsend]
  rfl

/-- A stream's spill counts what went. -/
theorem spillCounted_strm (s : State) (n tenant : Nat) : (countPages (bump s F.STRM_PAGER_CNT_SPILL 0 n) tenant).strm = s.strm := by
  rw [countPages_strm, bump, wr_strm]

theorem spillStream_goes {s s' : State} {k p : Nat} (hparked : (streamAt s k).state = .parked) (hpin : pinned s (handleOf k (streamAt s k).gen) = false)
    (hpages : (streamAt s k).pages = [p]) (hholds : pageHolders s p ≤ 1) (hhall : (pageOf s p).hall = false) (hspill : spillPage s p = (true, s')) :
    (spillStream s k).strm = s'.strm := by
  have hmine : (streamAt s k).pages.filter (fun p => pageHolders s p ≤ 1 && !(pageOf s p).hall) = [p] := by simp [hpages, hholds, hhall]
  unfold spillStream
  dsimp only
  rw [if_neg (by simp [hparked, hpin]), hmine, List.foldl_cons, List.foldl_nil]
  dsimp only
  rw [hspill]
  exact spillCounted_strm ..

/-- Nothing goes of a stream whose pages are all in hall memory. -/
theorem spillStream_stays {s : State} {k : Nat} (hall : ∀ p ∈ (streamAt s k).pages, (pageOf s p).hall = true) : (spillStream s k).strm = s.strm := by
  have hmine : (streamAt s k).pages.filter (fun p => pageHolders s p ≤ 1 && !(pageOf s p).hall) = [] :=
    List.filter_eq_nil_iff.mpr fun p hp => by simp [hall p hp]
  unfold spillStream
  dsimp only
  split
  · rfl
  · rw [hmine, List.foldl_nil]
    exact spillCounted_strm ..

theorem spillTo_single_stays {s : State} {k : Nat} (hall : ∀ p ∈ (streamAt s k).pages, (pageOf s p).hall = true) : (spillTo [k] s).strm = s.strm := by
  unfold spillTo
  split
  · exact spillStream_stays hall
  · rfl

theorem filter_spillDue {s : State} {k : Nat} {x : Stream} (honly : (s.strm.slots.filter fun e => e.2.state = .parked) = [(k, x)])
    (hdue : spillDue s x = true) : (s.strm.slots.filter fun e => spillDue s e.2) = [(k, x)] := by
  have hparked (y : Stream) : (spillDue s y && decide (y.state = .parked)) = spillDue s y := by
    unfold spillDue
    cases decide (y.state = .parked) <;> simp
  calc (s.strm.slots.filter fun e => spillDue s e.2) = s.strm.slots.filter fun e => spillDue s e.2 && decide (e.2.state = .parked) := by simp only [hparked]
    _ = (s.strm.slots.filter fun e => e.2.state = .parked).filter fun e => spillDue s e.2 := List.filter_filter.symm
    _ = [(k, x)] := by rw [honly]; simp [hdue]

/-- The only page of the only parked stream goes to hall memory; a second pass, for the watermark, finds no more to send. -/
theorem spill_shows {p e : Nat} {s' : State} (honly : (s.strm.slots.filter fun e => e.2.state = .parked) = [(k, streamAt s k)])
    (hdue : spillDue s (streamAt s k) = true) (hpin : pinned s (handleOf k (streamAt s k).gen) = false) (hpages : (streamAt s k).pages = [p])
    (hholds : pageHolders s p ≤ 1) (hhall : (pageOf s p).hall = false)
    (hfind : (poolExtents s).find? (fun e => extentEnd s e + (pageBytes s (pageOf s p)).length ≤ rd s F.NET_POOL_B_LEN e) = some e)
    (hsend : sendMessage s (rd s F.NET_POOL_A_NODE e) 2 1 (pageOf s p).tenant (rd s F.NET_POOL_A_OFFSET e + extentEnd s e) (pageBytes s (pageOf s p))
      (pageBytes s (pageOf s p)).length (.spill e p) = (true, s')) :
    After (exec .spill s) fun t => pageOf t p = hallPage s' (pageOf s p) e (extentEnd s e) := by
  have hparked : (streamAt s k).state = .parked := by
    unfold spillDue at hdue
    simp only [Bool.and_eq_true, decide_eq_true_eq] at hdue
    exact hdue.1
  have hsent : s'.strm = s.strm := by
    have hwithin := (Within.refl ⟨fun p => decide (p ≠ .strm), fun _ => true⟩ s).sendMessage (by decide) (rd s F.NET_POOL_A_NODE e) 2 1 (pageOf s p).tenant
      (rd s F.NET_POOL_A_OFFSET e + extentEnd s e) (pageBytes s (pageOf s p)) (pageBytes s (pageOf s p)).length (.spill e p)
    rw [hsend] at hwithin
    exact hwithin.parts .strm rfl
  have hstrm := spillStream_goes hparked hpin hpages hholds hhall (spillPage_goes hfind hsend)
  have hgone : pageOf (spillStream s k) p = hallPage s' (pageOf s p) e (extentEnd s e) :=
    (pageOf_congr (congrArg StreamSt.pages hstrm) p).trans (pageOf_setPage_same ..)
  have hsame : s'.strm.slots = s.strm.slots := congrArg StreamSt.slots hsent
  have hslots : (spillStream s k).strm.slots = s.strm.slots := (congrArg StreamSt.slots hstrm).trans hsame
  have hstill : ∀ q ∈ (streamAt (spillStream s k) k).pages, (pageOf (spillStream s k) q).hall = true := fun q hq => by
    unfold streamAt at hq
    rw [hslots] at hq
    change q ∈ (streamAt s k).pages at hq
    rw [hpages] at hq
    rw [List.mem_singleton.mp hq, hgone]
    rfl
  have hexec : exec .spill s = .next (if cellarAbove (spillStream s k) (rd (spillStream s k) F.STRM_PAGER_THR_CELLAR_HIGH 0) then spillTo [k] (spillStream s k)
      else spillStream s k) := by
    refine congrArg Host.Outcome.next ?_
    rw [filter_spillDue honly hdue, List.foldl_cons, List.foldl_nil, hslots, honly]
    rfl
  refine ⟨_, hexec, ?_⟩
  beta_reduce
  split
  · exact (pageOf_congr (congrArg StreamSt.pages (spillTo_single_stays hstill)) p).trans hgone
  · exact hgone

/-! ## A re-prefill step -/

theorem exec_reprefill_none (hlive : liveSlot s h = some k) (hredo : (streamAt s k).redo = false) : exec (.reprefill h) s = .next s := by
  refine congrArg Host.Outcome.next ?_
  rw [hlive]
  exact if_pos (.inl hredo)

theorem growPages_none {n : Nat} (hshort : pagesShort (streamAt s k) n = 0) : growPages s k n = s := by
  unfold growPages
  rw [hshort]
  rfl

/-- The positions of the stream to n are presented and formed. -/
def formed (s : State) (slot p n : Nat) : State :=
  countPages (buildTo (sendStep s 2 p slot (n - (streamAt s slot).built) (streamAt s slot).built
    (logTokens (streamAt s slot) (streamAt s slot).built (n - (streamAt s slot).built))) slot n) (streamAt s slot).tenant

/-- The rebuild is over. -/
def rebuilt (s : State) (slot region : Nat) : State :=
  raiseRegion (modStream s slot fun x => { x with redo := false, state := if x.state = .prefill ∧ x.appended = 0 then .ready else x.state })
    .report evKvReprefill region 0 0

theorem exec_reprefill {p : Nat} (hlive : liveSlot s h = some k) (hredo : (streamAt s k).redo = true) (hown : (streamAt s k).mirror = false)
    (hruns : unitState s (streamAt s k).region = rsRunning) (hroom : s.strm.journal.full = false) (hseat : (streamAt s k).seat = some p) {n : Nat}
    (hn : min (16 * ((streamAt s k).built / 16 + 1)) (streamAt s k).log.length = n) (hshort : pagesShort (streamAt s k) n = 0) :
    exec (.reprefill h) s =
      .next (if n < (streamAt s k).log.length then formed s k p n else rebuilt (formed s k p n) k (streamAt s k).region) := by
  have hquota : pageQuotaOk s (streamAt s k).tenant (pagesShort (streamAt s k) n) = true := by simp [pageQuotaOk, hshort]
  refine congrArg Host.Outcome.next ?_
  rw [hlive]
  dsimp only
  rw [if_neg (by simp [hredo, hown, hruns, hroom]), seat_stays (.inl (by rw [hseat]; rfl)), if_pos (by rw [hseat]; rfl)]
  unfold reprefillStep
  dsimp only
  rw [hn, if_neg (not_not_intro hquota), growPages_none hshort, hseat]
  rfl

theorem formed_shows {p n : Nat} (hseat : (streamAt s k).seat = some p) (hlow : (streamAt s k).built ≤ n) (hhigh : n ≤ 16 * ((streamAt s k).built / 16 + 1)) :
    (∃ cur prev, streamAt (formed s k p n) k = { streamAt s k with cur := cur, prev := prev, built := n }) ∧
      Presents s (formed s k p n) 2 p (n - (streamAt s k).built) (streamAt s k).built (handleOf k (streamAt s k).gen)
        (logTokens (streamAt s k) (streamAt s k).built (n - (streamAt s k).built)) := by
  have hword := sendStep_presents s 2 p k (n - (streamAt s k).built) (streamAt s k).built
    (logTokens (streamAt s k) (streamAt s k).built (n - (streamAt s k).built))
  have hsent := streamAt_sendStep s 2 p k (n - (streamAt s k).built) (streamAt s k).built
    (logTokens (streamAt s k) (streamAt s k).built (n - (streamAt s k).built)) k
  unfold formed
  generalize sendStep s 2 p k (n - (streamAt s k).built) (streamAt s k).built
    (logTokens (streamAt s k) (streamAt s k).built (n - (streamAt s k).built)) = u at hword hsent
  have hstrm := countPages_strm (buildTo u k n) (streamAt s k).tenant
  obtain ⟨⟨cur, prev, built, hstream⟩, hwords, -, -⟩ := forms_buildTo u k n
  have hbuilt := buildTo_built (s := u) (slot := k) (n := n) (hsent ▸ hseat) (hsent ▸ hlow) (hsent ▸ hhigh)
  rw [hstream] at hbuilt
  cases hbuilt
  rw [hsent] at hstream
  exact ⟨⟨cur, prev, (streamAt_congr hstrm k).trans hstream⟩, hword.to_words ((congrArg StreamSt.stepWords hstrm).trans hwords)⟩

theorem within_forms {a : Allow} {s t u : State} (h : Within a s t) (hs : a.part .strm = true) (hc : a.part .cores = true) (hforms : Forms t u k) :
    Within a s u := by
  rw [hforms.rest]
  exact (h.strm hs u.strm).cores hc u.cores

theorem formed_within {a : Allow} (hs : a.part .strm = true) (hc : a.part .cores = true) (ha : pageFoot.Fits a) (s : State) (slot p n : Nat) :
    Within a s (formed s slot p n) :=
  (within_forms ((Within.refl a s).strm hs _) hs hc (forms_buildTo ..)).countPages ha _

theorem streamAt_rebuilt (s : State) (slot region : Nat) : streamAt (rebuilt s slot region) slot =
    { streamAt s slot with
      redo := false, state := if (streamAt s slot).state = .prefill ∧ (streamAt s slot).appended = 0 then .ready else (streamAt s slot).state } := by
  refine (streamAt_congr (s := modStream s slot fun x =>
    { x with redo := false, state := if x.state = .prefill ∧ x.appended = 0 then .ready else x.state }) ?_ slot).trans (streamAt_modStream_same ..)
  rw [rebuilt, raiseRegion, raiseEv_strm]

theorem rebuilt_stepWords (s : State) (slot region : Nat) : (rebuilt s slot region).strm.stepWords = s.strm.stepWords := by
  rw [rebuilt, raiseRegion, raiseEv_strm]
  rfl

theorem rebuilt_logs {u : State} {region : Nat} (hhall : hallNs u = hallNs s) (hseq : rd u F.KEEP_EV_SEQ_SEQ 0 = rd s F.KEEP_EV_SEQ_SEQ 0)
    (htenant : regionTenant u region = regionTenant s region) (slot : Nat) :
    Logged s (rebuilt u slot region) .report evKvReprefill (regionTenant s region) region 0 0 := by
  rw [← htenant]
  exact logged_raiseEv (t := modStream u slot _) hhall hseq ..

theorem formed_rebuilt_logs (s : State) (slot p n region : Nat) :
    Logged s (rebuilt (formed s slot p n) slot region) .report evKvReprefill (regionTenant s region) region 0 0 := by
  have hhall : hallNs (formed s slot p n) = hallNs s := congrArg (fun c => c.hall / 84)
    ((formed_within (a := ⟨fun p => decide (p ≠ .clk), fun _ => true⟩) rfl rfl (by decide) s slot p n).parts .clk rfl)
  have hseq := (formed_within (a := besides F.KEEP_EV_SEQ_SEQ [.strm, .cores]) rfl rfl (by decide) s slot p n).reads 0
  have htenant := (formed_within (a := besides F.REG_DESC0_TENANT [.strm, .cores]) rfl rfl (by decide) s slot p n).reads region
  exact rebuilt_logs hhall hseq htenant slot

theorem reprefill_shows {p n : Nat} (hlive : liveSlot s h = some k) (hredo : (streamAt s k).redo = true) (hown : (streamAt s k).mirror = false)
    (hruns : unitState s (streamAt s k).region = rsRunning) (hroom : s.strm.journal.full = false) (hseat : (streamAt s k).seat = some p)
    (hbuilt : (streamAt s k).built ≤ (streamAt s k).log.length) (hn : min (16 * ((streamAt s k).built / 16 + 1)) (streamAt s k).log.length = n)
    (hshort : pagesShort (streamAt s k) n = 0) : After (exec (.reprefill h) s) fun t =>
      (streamAt t k).log = (streamAt s k).log ∧ (streamAt t k).built = n ∧
      Presents s t 2 p (n - (streamAt s k).built) (streamAt s k).built (handleOf k (streamAt s k).gen)
        (logTokens (streamAt s k) (streamAt s k).built (n - (streamAt s k).built)) ∧
      (streamAt t k).redo = decide (n < (streamAt s k).log.length) ∧
      ((streamAt s k).log.length ≤ n → Logged s t .report evKvReprefill (regionTenant s (streamAt s k).region) (streamAt s k).region 0 0) := by
  obtain ⟨⟨cur, prev, hstream⟩, hword⟩ := formed_shows (p := p) (n := n) hseat (by omega) (by omega)
  refine ⟨_, exec_reprefill hlive hredo hown hruns hroom hseat hn hshort, ?_⟩
  beta_reduce
  split
  · rename_i hmore
    rw [hstream]
    exact ⟨rfl, rfl, hword, by simp [hredo, hmore], fun hend => absurd hmore (Nat.not_lt.mpr hend)⟩
  · rename_i hend
    rw [streamAt_rebuilt, hstream]
    exact ⟨rfl, rfl, hword.to_words (rebuilt_stepWords ..), by simp [hend], fun _ => formed_rebuilt_logs ..⟩

/-- Settles O30, clause by clause: where the pager stays, what a seat, a wait, a lost seat and a sealed export show, what a spill leaves of the page, and
one re-prefill step. -/
theorem pagerMovesStreams : Obligations.PagerMovesStreams := by
  intro s h k hlive
  refine ⟨fun hstays => ?_, fun hseat hruns hhall => ⟨fun hfree hidle => ?_, fun p hfree hpages hwaits => ?_, fun p hfree hpages hshed => ?_⟩,
    fun p hseat hidle hrest hnone => unseat_shows hlive hseat hidle hrest hnone, fun layer block e hfind => sealCellarWrite_shows hlive hfind,
    fun layer block hfind => sealCellarWrite_none hlive hfind,
    fun p e s' honly hdue hpin hpages hholds hhall hfind hsend => spill_shows honly hdue hpin hpages hholds hhall hfind hsend,
    exec_reprefill_none hlive,
    fun p hredo hown hruns hroom hseat hbuilt hshort => reprefill_shows hlive hredo hown hruns hroom hseat hbuilt rfl hshort⟩
  · rw [exec_seating hlive, seat_stays hstays]
  · rw [exec_seating hlive]
    exact congrArg Host.Outcome.next (seatFor_none (liveSlot_state hlive) hseat hruns hhall hfree hidle)
  · refine ⟨_, exec_seating hlive, ?_⟩
    have hwait : seat s k = frameWait s k := seatFor_waits (liveSlot_state hlive) hseat hruns hhall hfree hpages
    rw [hwait]
    exact frameWait_shows hwaits
  · exact seating_fills hlive hseat hruns hhall hfree hpages hshed

end Sys2Proof.Proofs.PagerMoves
